-- ==== Sys2Proof/Word.lean ====
section
/-! DEFINITION. The word types of the ZX-1 (spec/00_scope.md R6). -/

namespace Sys2Proof

/-- A byte, 8 bits (R6). -/
abbrev Byte := BitVec 8

/-- A word, 32 bits (R6). -/
abbrev Word := BitVec 32

/-- A double, 64 bits (R6). -/
abbrev DWord := BitVec 64

end Sys2Proof
end

