-- ==== Sys2Proof/Config.lean ====
section
/-! DEFINITION. What the manual leaves to an implementation or leaves open: constants without a body (free values, log
entry 4), so that no proof can see which value they take, and the few figures an installation fixes. -/

namespace Sys2Proof

/-- One free choice, numbered by the counter `free` of the state: which of several allowed outcomes is taken (which version a
load reads, R274; what a discarded line reads, R276; whether a stale translation or instruction is used, R259, R198; log
entry 4). -/
opaque Config.choice : Nat → Nat

/-- A byte that the engines read from another module's memory: the module number, the address there, and the counter of free
values (R256, R332; log entry 1). -/
opaque Config.farByte : Nat → Nat → Nat → Byte

/-- The write time of a line of another module that an engine, a fetch or an image reads, by the counter of free values (R332; log
entry 1). -/
opaque Config.farClock : Nat → Nat

/-- The microseconds that `slice` reports as left in a slice (R218 measures physical time, R4; log entry 12). -/
opaque Config.sliceLeft : Nat → Nat

/-- Whether two logical teams share a string (R273 keeps the map hidden and changeable; log entry 17). -/
opaque Config.shareString : Nat → Nat → Bool

/-- The quarter of a logical team, modulo 4 (R1 keeps the map hidden; log entry 17). -/
opaque Config.quarterOf : Nat → Nat

/-- Whether two logical teams share a quarter (R273). -/
def Config.shareQuarter (a b : Nat) : Bool := Config.quarterOf a % 4 == Config.quarterOf b % 4

/-- What a read of a write-only register of the device window returns, by the counter of free values (R354 marks them W and gives no
read; log entry 4). -/
opaque Config.writeOnly : Nat → Nat

/-- Whether the ECDSA P-384 signature of a firmware image verifies against the fused key (R363; log entry 16). -/
opaque Config.ecdsaVerifies : List Byte → Bool

/-- Whether the LMS signature of a firmware image verifies against the fused key (R363; log entry 16). -/
opaque Config.lmsVerifies : List Byte → Bool

/-- The hash of a firmware image that the groom measures (R366 names no function of it; log entry 16). -/
opaque Config.imageHash : List Byte → List Byte

/-- The hash of the firmware image that the module is shipped with (R363, R366; log entry 16). -/
opaque Config.shippedHash : List Byte

/-- The hash of the groom's ROM (R366; log entry 16). -/
opaque Config.romHash : List Byte

/-- The map of the teams fused before shipping (R2 and R366 name it and give no value; log entry 16). -/
opaque Config.shippedFused : List Nat

/-- What the groom measures (R366): the hash of the ROM, the hash and SVN of the image, the fused-team map (as shipped, then the teams
fused in the field), TCNT and ACCEPT. -/
structure Measured where
  rom : List Byte
  image : List Byte
  svn : Nat
  fused : List Nat
  tcnt : Nat
  accept : Nat
  deriving DecidableEq, Repr

/-- The bytes of the groom's answer to an SPDM request: the request, its measurements, whether it can be signed, and the counter of free
values (R366 names the standard and the measurements; log entry 16). -/
opaque Config.spdmAnswer : List Byte → Measured → Bool → Nat → List Byte

/-- The feature groups that FEAT offers: bits 0 to 7 (R359). -/
def Config.offer : Nat := 0xFF

/-- The module number set at installation, at the value the model names (R354 "installed"; log entry 5). -/
def Config.installedModule : Nat := 0

/-- The shipped team count at the value the model names: the least that R2 allows (log entry 5). -/
def Config.shippedTeams : Nat := 125000

/-- The timestamp base before the first rebase, at the value the model names (R268; log entry 5). -/
def Config.base0 : Nat := 0

end Sys2Proof
end

