-- ==== Sys2Proof/Syntax.lean ====
section
/-! DEFINITION. The rows of spec/opcode_table.json, one constructor each: the instruction forms of R62 to R67 with their
decoded operands, and the whole steps of the part (spec/95_what_each_step_holds.md) with what each one carries. Register
operands are effective register numbers (R53), immediates are assembled values (R52). -/

namespace Sys2Proof

/-- Rounding modes of R36 and their x values (R50). -/
inductive RMode where
  | ne | rz | ru | rd
  deriving DecidableEq, Repr

/-- Kinds of flit (R116). -/
inductive FlitKind where
  | data | call | clause | reply | bounce | marker | done | system
  deriving DecidableEq, Repr

/-- One flit of 32 bytes: the header fields of R116, the low clock of R115 and the payload words W0 to W4. -/
structure Flit where
  dst : Nat
  src : Nat
  kind : FlitKind
  pri : Nat
  cls : Nat
  ksf : Nat
  low : Word
  w0 : Word
  w1 : Word
  w2 : Word
  w3 : Word
  w4 : Word
  deriving DecidableEq, Repr

/-- The ten operations of an atomic and `amfadd` (R282), in the order of their primaries 0x0A to 0x14. -/
inductive AtOp where
  | add | and | or | xor | min | max | minz | maxz | swp | cas | fadd
  deriving DecidableEq, Repr

/-- A link of the module: global or local, and its number (R321, R330). -/
structure LinkId where
  glb : Bool
  num : Nat
  deriving DecidableEq, Repr

/-- A direction of a link (R321). -/
inductive Dir where
  | tx | rx
  deriving DecidableEq, Repr

/-- A fabric flit of 64 bytes (R333): the link header's fields and the 56 payload bytes. -/
structure FabFlit where
  seq : Nat
  ch : Nat
  lk : Nat
  crc : Nat
  body : List Byte
  deriving DecidableEq, Repr

/-- A fabric packet (R334): requests use `addr`, `budget` and `data` (the operands), replies use `status` and `data`. -/
structure Packet where
  dmod : Nat
  smod : Nat
  pk : Nat
  core : Nat
  slot : Nat
  entry : Nat
  serial : Nat
  clock : Nat
  addr : Nat
  budget : Nat
  status : Nat
  data : List Byte
  deriving DecidableEq, Repr

/-- A reply to a request entry or to a blocked access (R264, R271): the entry it answers, the status of R279 and R331, the data
and the replying clock. Entry 16 is the one blocked local access of a context. -/
structure Reply where
  core : Nat
  slot : Nat
  entry : Nat
  serial : Nat
  status : Nat
  data : List Byte
  clock : Nat
  deriving DecidableEq, Repr

/-- One member's contribution to a collective (R301, R303). -/
structure Contribution where
  obj : Nat
  rank : Nat
  epoch : Nat
  seq : Nat
  kind : Nat
  op : Nat
  fmt : Nat
  count : Nat
  brank : Nat
  data : List Byte
  deriving DecidableEq, Repr

/-- How a COMMIT decides one collective (R306): the status word of R305 and the data of OK. -/
structure CollDecision where
  seq : Nat
  status : Nat
  data : List Byte
  deriving DecidableEq, Repr

/-- A shard's state as a member reports it in its answer to PREPARE, and the decision of R320. -/
structure ShardReport where
  model : Nat
  shard : Nat
  role : Nat
  module_ : Nat
  deriving DecidableEq, Repr

/-- A member's state of one collective as reported in PREPARE (R304, R306): `held` is the RESULT it holds or has taken. -/
structure CollReport where
  seq : Nat
  held : Option Nat
  data : List Byte
  deriving DecidableEq, Repr

/-- A member's answer to PREPARE (R295 step 2). -/
structure PrepAnswer where
  obj : Nat
  rank : Nat
  epoch : Nat
  colls : List CollReport
  shards : List ShardReport
  deriving DecidableEq, Repr

/-- A request of a parameter-node form to a node: who asks (module, core, slot, request entry, serial), which shard, and the
epoch and the clock it carries (R294, R312, R317, R334); an answer carries it back with the node's clock. -/
structure PnFrom where
  smod : Nat
  core : Nat
  slot : Nat
  entry : Nat
  serial : Nat
  model : Nat
  shard : Nat
  epoch : Nat
  clock : Nat
  deriving DecidableEq, Repr

/-- A collective of a group: its epoch and SEQ (R294, R303). -/
structure EpochSeq where
  epoch : Nat
  seq : Nat
  deriving DecidableEq, Repr

/-- The epoch of a COMMIT and the rank of the leader that sends it (R295). -/
structure EpochFrom where
  epoch : Nat
  leader : Nat
  deriving DecidableEq, Repr

/-- A failure of an engine's access to another module (R234, R243): the cause code and the virtual address. -/
structure FarFail where
  code : Nat
  va : Nat
  deriving DecidableEq, Repr

/-- A firmware image as STAGE gets it (R364, R372): its bytes, and whether MCTP messages carried it. -/
structure FwImage where
  bytes : List Byte
  outOfBand : Bool
  deriving DecidableEq, Repr

/-- The answer to the request of an open (R311): the epoch that it carries back, and the node that answers, or none for the status EPOCH
(R294). -/
structure OpenReply where
  epoch : Nat
  node : Option Nat
  deriving DecidableEq, Repr

/-- A close record as it is sent to SUBS (R313, R316, R318). -/
structure CloseRec where
  num : Nat
  status : Nat
  step : Nat
  missing : Nat
  clock : Nat
  deriving DecidableEq, Repr

/-- Where a bit error falls (R277). -/
inductive ErrPlace where
  | memory | sram | link
  deriving DecidableEq, Repr

/-- The rows of spec/opcode_table.json. -/
inductive Instr where
  -- page 0: integer (R81 to R85)
  | add (d s : Nat) (t : Option Nat) | sub (d s : Nat) (t : Option Nat) | mul (d s : Nat) (t : Option Nat)
  | mulh (d s : Nat) (t : Option Nat)
  | and (d s : Nat) (t : Option Nat) | or (d s : Nat) (t : Option Nat) | xor (d s : Nat) (t : Option Nat)
  | andn (d s : Nat) (t : Option Nat)
  | shl (d s : Nat) (t : Option Nat) | shr (d s : Nat) (t : Option Nat) | sra (d s : Nat) (t : Option Nat)
  | ror (d s : Nat) (t : Option Nat)
  | div (d s : Nat) (t : Option Nat) | divz (d s : Nat) (t : Option Nat) | rem (d s : Nat) (t : Option Nat)
  | remz (d s : Nat) (t : Option Nat)
  | min (d s : Nat) (t : Option Nat) | max (d s : Nat) (t : Option Nat) | minz (d s : Nat) (t : Option Nat)
  | maxz (d s : Nat) (t : Option Nat)
  | slt (d s : Nat) (t : Option Nat) | sltz (d s : Nat) (t : Option Nat) | seq (d s : Nat) (t : Option Nat)
  | sne (d s : Nat) (t : Option Nat)
  | mulhz (d s : Nat) (t : Option Nat)
  | clz (d s : Nat) | ctz (d s : Nat) | popc (d s : Nat) | brev (d s : Nat)
  | sextB (d s : Nat) | sextH (d s : Nat) | zextB (d s : Nat) | zextH (d s : Nat)
  | satsB (d s : Nat) | satsH (d s : Nat) | satzB (d s : Nat) | satzH (d s : Nat)
  | mov (d s : Nat)
  -- special registers (R86): x of R70, the operand's number d, the index n
  | mfs (x d n : Nat) | mts (x d n : Nat)
  -- address registers (R87)
  | aadd (d s : Nat) | asub (d s : Nat) | amov (d s : Nat) | alea (d s : Nat) (imm : Int)
  | aget (d s : Nat) | agetHi (d s : Nat) | aaddi (d : Nat) (imm : Int) | apc (d : Nat) (imm : Int)
  -- immediate forms (R84)
  | li (d : Nat) (imm : Int) | addi (d : Nat) (imm : Int) | andi (d : Nat) (imm : Int) | ori (d : Nat) (imm : Int)
  | xori (d : Nat) (imm : Int) | shli (d : Nat) (imm : Int) | shri (d : Nat) (imm : Int) | srai (d : Nat) (imm : Int)
  | slti (d : Nat) (imm : Int)
  -- control flow (R88 to R90)
  | j (imm : Int) | call (imm : Int) | jr (s : Nat) | callr (s : Nat)
  | beq (d s : Nat) (imm : Int) | bne (d s : Nat) (imm : Int) | blt (d s : Nat) (imm : Int) | bge (d s : Nat) (imm : Int)
  | bltz (d s : Nat) (imm : Int) | bgez (d s : Nat) (imm : Int)
  | bz (d : Nat) (imm : Int) | bnz (d : Nat) (imm : Int) | loop (d : Nat) (imm : Int)
  -- pool (R91 to R96); z is the size code 0 .b, 1 .h, 2 .w
  | ldp (z d s : Nat) (imm : Int) | ldpBS (z d s : Nat) (imm : Int) | stp (z d s : Nat) (imm : Int)
  | ldpq (d s : Nat) (imm : Int) | stpq (d s : Nat) (imm : Int) | ldps (d s : Nat) (imm : Int)
  | stpf (d s : Nat) (imm : Int) | sete (d s : Nat) (imm : Int) | tstf (d s : Nat) (imm : Int)
  -- ring handles (R100 to R103)
  | hbind (d h : Nat) | hwait (d h : Nat) | hfree (d h : Nat) | hadv (d h : Nat)
  | hpub (d h : Nat) | hld (d h : Nat) | hst (d h : Nat) | hcnt (d h : Nat)
  -- page 1: scalar floating point (R105 to R114)
  | fadd (m : RMode) (d s : Nat) (t : Option Nat) | fsub (m : RMode) (d s : Nat) (t : Option Nat)
  | fmul (m : RMode) (d s : Nat) (t : Option Nat) | fdiv (m : RMode) (d s : Nat) (t : Option Nat)
  | fsqrt (m : RMode) (d s : Nat)
  | fma (m : RMode) (d s t : Nat) | fms (m : RMode) (d s t : Nat) | fnma (m : RMode) (d s t : Nat)
  | fnms (m : RMode) (d s t : Nat)
  | fmin (d s : Nat) (t : Option Nat) | fmax (d s : Nat) (t : Option Nat) | fsgn (d s : Nat) (t : Option Nat)
  | fabs (d s : Nat) | fneg (d s : Nat) | fclass (d s : Nat)
  | feq (d s : Nat) (t : Option Nat) | flt (d s : Nat) (t : Option Nat) | fle (d s : Nat) (t : Option Nat)
  | fcvtiS (m : RMode) (d s : Nat) | fcvtiZ (m : RMode) (d s : Nat)
  | fcvtfS (m : RMode) (d s : Nat) | fcvtfZ (m : RMode) (d s : Nat)
  | fcvthB16 (m : RMode) (d s : Nat) | fcvthBf16 (m : RMode) (d s : Nat)
  | fcvthXB16 (d s : Nat) | fcvthXBf16 (d s : Nat) | frnd (m : RMode) (d s : Nat)
  -- page 1: quad unit (R249 to R254)
  | qadd (m : RMode) (d s : Nat) (t : Option Nat) | qsub (m : RMode) (d s : Nat) (t : Option Nat)
  | qmul (m : RMode) (d s : Nat) (t : Option Nat) | qfma (m : RMode) (d s t : Nat)
  | qdot (m : RMode) (d s : Nat) (t : Option Nat) | qsum (m : RMode) (d s : Nat)
  | qmin (d s : Nat) (t : Option Nat) | qmax (d s : Nat) (t : Option Nat) | qabs (d s : Nat) | qneg (d s : Nat)
  | qbcast (d s : Nat) | qshuf (d s sel : Nat) | qsel (d s t : Nat) | qcmp (d s : Nat) (t : Option Nat) (c : Nat)
  | qiadd (d s : Nat) (t : Option Nat) | qimul (d s : Nat) (t : Option Nat) | qand (d s : Nat) (t : Option Nat)
  | qcvt (m : RMode) (d s c : Nat) | qdec (d s f : Nat) | qenc (d s f : Nat) | qscl (m : RMode) (d s : Nat)
  -- page 2: messages (R118 to R125)
  | msg (d k : Nat) | callm (d k : Nat) | clause (d s n : Nat) | mcast (d k : Nat) | mbind (d h : Nat) | bnc (d h : Nat)
  -- page 2: tasks and nodes (R163 to R172)
  | spawn (d s p : Nat) | task (s p : Nat) | waite (d : Nat) | pri (n : Nat) | node (d s : Nat) | sig (d : Nat)
  -- page 2: Gaussian and slot forms, convergence, factor dispatch, cuts (R132 to R150, R213)
  | gcomb (d s : Nat) | gsplit (d s : Nat) | gdamp (d s : Nat) | glin (d s : Nat)
  | gmean (d s : Nat) | ginfo (d s : Nat) | gresd (d s : Nat)
  | slget (d s : Nat) | slput (d s : Nat) | slret (d s : Nat) | slnew (d s : Nat) | belief (d : Nat)
  | cvupd (d : Nat) | cvrd (d : Nat) | ftype (d s : Nat)
  | snap (d : Nat) | mark (d : Nat) | cutst (d : Nat)
  -- page 3: memory, clocks, atomics (R278 to R282)
  | ldg (z d s : Nat) (imm : Int) | ldgBS (z d s : Nat) (imm : Int) | stg (z d s : Nat) (imm : Int)
  | stgn (z d s : Nat) (imm : Int) | ldgtW (d s : Nat) (imm : Int) | ldgtD (d s : Nat) (imm : Int)
  | pref (s : Nat) (imm : Int) | renew (s : Nat) (imm : Int) | discard (d s : Nat) (imm : Int)
  | fence (c : Nat) | tick (n : Nat) | clkj (d : Nat)
  | amadd (w : Bool) (d s : Nat) (imm : Int) | amand (w : Bool) (d s : Nat) (imm : Int)
  | amor (w : Bool) (d s : Nat) (imm : Int) | amxor (w : Bool) (d s : Nat) (imm : Int)
  | ammin (w : Bool) (d s : Nat) (imm : Int) | ammax (w : Bool) (d s : Nat) (imm : Int)
  | amminz (w : Bool) (d s : Nat) (imm : Int) | ammaxz (w : Bool) (d s : Nat) (imm : Int)
  | amswp (w : Bool) (d s : Nat) (imm : Int) | amcas (w : Bool) (d s : Nat) (imm : Int)
  | amfadd (d s : Nat) (imm : Int)
  | amaddRemote (w : Bool) (d s t : Nat) (imm : Int) | amandRemote (w : Bool) (d s t : Nat) (imm : Int)
  | amorRemote (w : Bool) (d s t : Nat) (imm : Int) | amxorRemote (w : Bool) (d s t : Nat) (imm : Int)
  | amminRemote (w : Bool) (d s t : Nat) (imm : Int) | ammaxRemote (w : Bool) (d s t : Nat) (imm : Int)
  | amminzRemote (w : Bool) (d s t : Nat) (imm : Int) | ammaxzRemote (w : Bool) (d s t : Nat) (imm : Int)
  | amswpRemote (w : Bool) (d s t : Nat) (imm : Int) | amcasRemote (w : Bool) (d s t : Nat) (imm : Int)
  | amfaddRemote (d s t : Nat) (imm : Int)
  -- page 3: yoke and tug (R222 to R248)
  | ylease (n : Nat) | yzero (d : Nat) | yfmt (d : Nat) | yldb (d s t : Nat)
  | ymma (d s : Nat) | ymmaRa (d s : Nat) | ymmaRb (d s : Nat) | ymmaRr (d s : Nat) | yst (d s : Nat)
  | ywait (d : Nat) | ypoll (d : Nat) | yprog (d : Nat) | yres (d : Nat)
  | kset (s : Nat) | kgo (d : Nat) | kwait (d : Nat) | kpoll (d : Nat)
  | tbinit (d s : Nat) | tbarr (d s : Nat) | tbwait (d s : Nat)
  -- page 3: barriers, collectives, parameter nodes (R290 to R320)
  | bjoin (d s : Nat) | binit (d s : Nat) | bqry (d s : Nat) | coll (d s imm : Nat) | cwait (d : Nat) | gform (d s : Nat)
  | pnopen (d s : Nat) | pnpush (d s : Nat) | pnpull (d s : Nat) | pnclose (d s : Nat) | pnstat (d s : Nat)
  -- page 4 (R197 to R207, R218, R348)
  | trap (n : Nat) | brk (n : Nat) | tlbinv (d s : Nat) | migr (d : Nat)
  | ctxout (d s : Nat) | ctxin (d s : Nat) | fwdset (d s : Nat) | slice (d : Nat)
  | lretr (d s : Nat) | lstat (d s : Nat) | lctl (d s : Nat)
  -- the forms without operands, pages 0 and 2 to 4
  | ret | done | exit | cvclr | yfree | yrot | rett | csync | halt
  -- steps: contexts, dispatcher, receive hardware
  | ctrlRetrain (l : LinkId)
  | notice (lid k : Nat) | stepTrap (lid k : Nat) | taskDispatch (lid : Nat) | clauseExecute (lid : Nat)
  | dataDelivery (f : Flit) | callDelivery (f : Flit) | clauseDelivery (f : Flit) | bounceDelivery (f : Flit)
  | spawnRequest (f : Flit) | spawnReply (f : Flit) | sigDelivery (f : Flit) | serviceRequest (f : Flit)
  | fwdsetRequest (f : Flit) | fwdsetReply (f : Flit)
  | remoteAtomicRequest (f : Flit) | remoteAtomicExecute (lid : Nat) | remoteAtomicReply (f : Flit) | clauseAck (f : Flit)
  | remoteDeadline (lid k entry : Nat)
  -- steps: mesh, homes, clocks
  | goldenEpoch | homeLoad (id : Nat) | homeStore (id : Nat) | homeAtomic (id : Nat) | memoryReply (r : Reply)
  | streamingDrain (lid k i : Nat) | idleClockAdvance (lid : Nat) | rebase
  | hostLoadCompletion (lid k : Nat) (data : Option (List Byte)) | hostReadTimeout (lid k : Nat)
  -- steps: engines
  | yokeLeaseGrant (team : Nat) | kstep (lid : Nat) | yzeroJob (lid : Nat) | ystJob (lid : Nat)
  | yokeJobStop (lid : Nat) (far : Option FarFail)
  | tugSize (lid id : Nat) | tugSectorLand (lid id : Nat) | tugTableLoad (lid id : Nat) | tugStop (lid id : Nat) (far : Option FarFail)
  -- steps: launches, rein tree, cuts
  | launchRecord (q : Nat) (bytes : List Byte) | launchPlacement | restorePlacement
  | doneMessage (q team : Nat) | convergenceWindow (q : Nat) | sliceExpiry (q : Nat)
  | markerArrival (f : Flit) | cutStartArrival (q k : Nat) | cutComplete (q : Nat) | cutCompletionArrival (q k : Nat)
  -- steps: links and routing
  | linkFlitReceive (l : LinkId) (f : FabFlit) | linkAck (l : LinkId) (n : Nat) | linkNak (l : LinkId) (n : Nat)
  | ackTimer (l : LinkId) | linkAckTimeout (l : LinkId)
  | trainingRound (l : LinkId) (passed partner : Word) (peer : Word)
  | handbackRequest (l : LinkId) (lane : Nat) | handbackRefused (l : LinkId) (lane : Nat)
  | laneReturn (l : LinkId) (r : Dir) | laneFail (l : LinkId) (r : Dir)
  | reachWord (p : Nat) (l : LinkId) (w : Word) | routingNotice (p : Nat) (l : LinkId) (inRouting : Bool) (peer : Nat)
  | packetForward (p : Packet) (held : Nat) | fabricTargetRequest (p : Packet)
  -- steps: barriers, groups, collectives
  | barrierCompletion (m obj phase : Nat) (pclk : Nat)
  | form (obj src : Nat) (drop : List Nat) | prepare (obj leader : Nat) | reformationDeadline (obj : Nat)
  | commit (obj : Nat) (epoch : EpochFrom) (live : List Nat) (colls : List CollDecision) (shards : List ShardReport)
  | commitTimeout (obj : Nat) | formAnswer (obj src epoch : Nat) (live : List Nat)
  | collContribution (c : Contribution) | collDeadline (obj seq : Nat)
  | collResult (obj epoch seq status : Nat) (data : List Byte) | collRelease (obj epoch seq : Nat)
  | collHoldTimeout (obj seq : Nat)
  -- steps: parameter nodes
  | pnOpenAnswer (model shard : Nat) (m : Option OpenReply) | pnPushRequest (p : PnFrom) (blk step : Nat) (data : List Byte)
  | pnPushAnswer (p : PnFrom) (status : Nat) | updateCallResend (model shard blk : Nat)
  | updateTaskEnd (model shard blk step : Nat)
  | mirrorStream (model shard blk step epoch : Nat) (master moment : List Byte) (clock : Nat) | mirrorAck (model shard blk step epoch : Nat)
  | freshMulticast (model shard blk tag epoch : Nat) (weights : List Byte) (clock : Nat)
  | pnCloseRequest (p : PnFrom) (step : Nat) (force : Bool)
  | closeSettled (model shard : Nat) | closeDeadline (model shard : Nat)
  | passedClose (model shard epoch : Nat) (r : CloseRec) | closeRecordArrival (model shard epoch : Nat) (r : CloseRec)
  | closeAnswer (p : PnFrom) (status missing : Nat)
  -- steps: device window, groom
  | svcgo | gimg (image : List Byte) | accept (v : Nat) | pcap (q v : Nat)
  | stage | stageDone (image : Option FwImage) | activate | activation | fwDiscard | firmwareBoot | activationPowerFail
  | repairFence (t : Nat) | unfence (t : Nat) | recal (c : Nat) | gate (q : Nat) | ungate (q : Nat)
  | mnumWrite (v : Nat) | spdmRequest (bytes : List Byte) | tamperLevel1 | tamperLevel2 | tamperLevel3
  | powerThrottle (q w : Nat) | thermalThrottle (q : Nat) | thermalTrip | moduleReset | attachmentReset
  | readClear (off size : Nat) | registerWrite (off size : Nat) (v : Nat)
  | unassignedWord (cause tval : Nat) | postedWrite (lid k : Nat)
  | softError (p : ErrPlace) (sector : Nat) (corrected : Bool) | modulePowerLoss
  | prepareAnswer (a : PrepAnswer) | commitAck (obj rank : Nat) | resultAck (obj : Nat) (seq : EpochSeq) (rank : Nat)
  | collQueryAnswer (obj : Nat) (seq : EpochSeq) (rank : Nat) | closeAck (model shard num epoch : Nat)
  | pnOpenRequest (m model shard role epoch : Nat) (dtab : List (Nat × Option Word)) | repairCommandDone
  deriving DecidableEq, Repr

end Sys2Proof
end

