-- ==== Sys2Proof/WellFormed.lean ====
section
/-! DEFINITION. Which instruction forms have words: the kinds of R51, the two-address rule of R53, the widths that at most four
prefixes allow (R52, R55), and the codes that the entries of the forms allow. A step of the part (spec/95) has no words. -/

namespace Sys2Proof

/-- The register kinds of R51 that a field of a form may have; `z` is an unused field or a code. -/
inductive Kind where
  | g | a | p | q | h | z
  deriving DecidableEq, Repr

/-- What can be wrong with an instruction: it is a step and has no words; a general register, address register, pair, quad or
handle outside R51; a two-address form with a register above 15 (R53); an immediate that no four prefixes hold (R52, R55); a
code that the form's entry does not allow. -/
inductive Flaw where
  | event | register | address | pair | quad | handle | twoAddress | immediate | code
  deriving DecidableEq, Repr

/-- The check of one register field against its kind, for the largest partition (G = 128, R51). -/
def Kind.flaws : Kind → Nat → List Flaw
  | .g, n => if n < 128 then [] else [.register]
  | .a, n => if n < 8 then [] else [.address]
  | .p, n => if n < 128 ∧ n % 2 = 0 then [] else [.pair]
  | .q, n => if n < 32 then [] else [.quad]
  | .h, n => if n < 16 then [] else [.handle]
  | .z, n => if n = 0 then [] else [.code]

/-- A code that must satisfy a test of the form's entry. -/
def codeFlaws (ok : Bool) : List Flaw := if ok then [] else [.code]

/-- How many `xreg` words the registers of a form take (R53). -/
def xregs (d s : Nat) : Option Nat → Nat
  | some t => if t < 16 then 1 else 2
  | none => if d < 16 ∧ s < 16 then 0 else 1

/-- The width of an extendable immediate of own width `w0` on page `page` beside these registers (R52, R55). -/
def immWidth (page w0 d s : Nat) (t : Option Nat) : Nat :=
  w0 + 10 * (4 - (if page = 0 then 0 else 1) - xregs d s t)

/-- A signed extendable immediate must fit its width (R52). -/
def immS (page w0 d s : Nat) (t : Option Nat) (imm : Int) : List Flaw :=
  let w := immWidth page w0 d s t
  if -(2 ^ (w - 1) : Nat) ≤ imm ∧ imm < (2 ^ (w - 1) : Nat) then [] else [.immediate]

/-- An unsigned extendable immediate must fit its width (R52). -/
def immU (page w0 d s : Nat) (t : Option Nat) (imm : Nat) : List Flaw :=
  if imm < 2 ^ immWidth page w0 d s t then [] else [.immediate]

/-- An immediate of exactly one signed `ximm` (R57). -/
def imm1S (imm : Int) : List Flaw := if -512 ≤ imm ∧ imm < 512 then [] else [.immediate]

/-- An immediate of exactly one unsigned `ximm` (R57). -/
def imm1U (imm : Nat) : List Flaw := if imm < 1024 then [] else [.immediate]

/-- The two registers of a form that is not T or X. -/
def two (kd : Kind) (d : Nat) (ks : Kind) (s : Nat) : List Flaw := kd.flaws d ++ ks.flaws s

/-- The registers of a T form: the third, when present, has kind `kt`; without it both fields are below 16 (R53). -/
def three (kd : Kind) (d : Nat) (ks : Kind) (s : Nat) (kt : Kind) : Option Nat → List Flaw
  | some t => kd.flaws d ++ ks.flaws s ++ kt.flaws t
  | none => kd.flaws d ++ ks.flaws s ++ if d < 16 ∧ s < 16 then [] else [.twoAddress]

/-- The special registers of R69: its 0 for an unassigned index, else the width. -/
def srWidth (n : Nat) : Nat :=
  if n = 0x002 ∨ n = 0x003 ∨ n = 0x005 ∨ n = 0x010 ∨ n = 0x025 ∨ n = 0x02D ∨ (0x040 ≤ n ∧ n ≤ 0x043) then 64
  else if n = 0x000 ∨ n = 0x001 ∨ n = 0x004 ∨ n = 0x008 ∨ n = 0x011 ∨ n = 0x012 ∨ (0x020 ≤ n ∧ n ≤ 0x024) ∨
      (0x028 ≤ n ∧ n ≤ 0x02C) ∨ (0x030 ≤ n ∧ n ≤ 0x032) ∨ n = 0x038 ∨ (0x044 ≤ n ∧ n ≤ 0x048) ∨ n = 0x050 then 32
  else 0

/-- The x values of R70 and R71 that an index allows: SDH and RVH only 2, a 32-bit register not 1. -/
def srXOk (x n : Nat) : Bool :=
  if srWidth n = 0 ∨ 3 ≤ x then false
  else if n = 0x025 ∨ n = 0x02D then x == 2
  else if x = 1 then srWidth n == 64
  else true

/-- The operand of `mfs` and `mts` by R70. -/
def srFlaws (x d n : Nat) : List Flaw :=
  codeFlaws (srXOk x n) ++ (if x = 2 then Kind.a else Kind.g).flaws d

/-- The format codes that `qdec` and `qenc` take (R254). -/
def qfmtOk (f : Nat) : Bool :=
  f ∈ [0x01, 0x02, 0x04, 0x05, 0x06, 0x07, 0x08, 0x09, 0x0A, 0x10, 0x11, 0x12, 0x13]

/-- The kind of the d field of an atomic: its operand, or for `amcas` its operand block (R66, R282). -/
def atomKind (w cas : Bool) : Kind :=
  match w, cas with
  | false, false => .g
  | true, true => .q
  | _, _ => .p

/-- A global atomic (R66). -/
def atomic (w cas : Bool) (d s : Nat) (imm : Int) : List Flaw :=
  two (atomKind w cas) d .a s ++ immS 3 0 d s none imm

/-- A remote atomic (R66): s is the pool offset and t the core, both general. -/
def atomicRemote (w cas : Bool) (d s t : Nat) (imm : Int) : List Flaw :=
  three (atomKind w cas) d .g s .g (some t) ++ immS 3 0 d s (some t) imm

/-- The flaws of an instruction, form by form in the order of R63 to R67. -/
def Instr.flaws : Instr → List Flaw
  | .add d s t | .sub d s t | .mul d s t | .mulh d s t | .and d s t | .or d s t | .xor d s t | .andn d s t
  | .shl d s t | .shr d s t | .sra d s t | .ror d s t | .div d s t | .divz d s t | .rem d s t | .remz d s t
  | .min d s t | .max d s t | .minz d s t | .maxz d s t | .slt d s t | .sltz d s t | .seq d s t | .sne d s t
  | .mulhz d s t => three .g d .g s .g t
  | .clz d s | .ctz d s | .popc d s | .brev d s | .sextB d s | .sextH d s | .zextB d s | .zextH d s
  | .satsB d s | .satsH d s | .satzB d s | .satzH d s | .mov d s => two .g d .g s
  | .mfs x d n | .mts x d n => srFlaws x d n ++ imm1U n
  | .aadd d s | .asub d s => two .a d .g s
  | .amov d s => two .a d .a s
  | .alea d s imm => two .a d .a s ++ immS 0 0 d s none imm
  | .aget d s | .agetHi d s => two .g d .a s
  | .aaddi d imm | .apc d imm => two .a d .z 0 ++ immS 0 6 d 0 none imm
  | .li d imm | .addi d imm | .andi d imm | .ori d imm | .xori d imm | .shli d imm | .shri d imm | .srai d imm
  | .slti d imm | .bz d imm | .bnz d imm | .loop d imm => two .g d .z 0 ++ immS 0 6 d 0 none imm
  | .j imm | .call imm => immS 0 10 0 0 none imm
  | .jr s | .callr s => two .z 0 .a s
  | .ret => []
  | .beq d s imm | .bne d s imm | .blt d s imm | .bge d s imm | .bltz d s imm | .bgez d s imm => two .g d .g s ++ imm1S imm
  | .ldp z d s imm | .stp z d s imm => codeFlaws (z < 3) ++ two .g d .g s ++ immS 0 0 d s none imm
  | .ldpBS z d s imm => codeFlaws (z < 2) ++ two .g d .g s ++ immS 0 0 d s none imm
  | .ldpq d s imm | .stpq d s imm => two .q d .g s ++ immS 0 0 d s none imm
  | .ldps d s imm | .stpf d s imm | .sete d s imm | .tstf d s imm => two .g d .g s ++ immS 0 0 d s none imm
  | .hbind d h | .hwait d h | .hfree d h | .hadv d h | .hpub d h | .hld d h | .hst d h | .hcnt d h => two .g d .h h
  | .fadd _ d s t | .fsub _ d s t | .fmul _ d s t | .fdiv _ d s t | .fmin d s t | .fmax d s t | .fsgn d s t
  | .feq d s t | .flt d s t | .fle d s t => three .g d .g s .g t
  | .fma _ d s t | .fms _ d s t | .fnma _ d s t | .fnms _ d s t => three .g d .g s .g (some t)
  | .fsqrt _ d s | .fabs d s | .fneg d s | .fclass d s | .fcvtiS _ d s | .fcvtiZ _ d s | .fcvtfS _ d s | .fcvtfZ _ d s
  | .fcvthB16 _ d s | .fcvthBf16 _ d s | .fcvthXB16 d s | .fcvthXBf16 d s | .frnd _ d s => two .g d .g s
  | .qadd _ d s t | .qsub _ d s t | .qmul _ d s t | .qmin d s t | .qmax d s t | .qiadd d s t | .qimul d s t
  | .qand d s t => three .q d .q s .q t
  | .qfma _ d s t | .qsel d s t => three .q d .q s .q (some t)
  | .qdot _ d s t => three .g d .q s .q t
  | .qsum _ d s => two .g d .q s
  | .qabs d s | .qneg d s => two .q d .q s
  | .qbcast d s | .qscl _ d s => two .q d .g s
  | .qshuf d s sel => two .q d .q s ++ codeFlaws (sel < 256)
  | .qcmp d s t c => three .q d .q s .q t ++ codeFlaws (c < 6)
  | .qcvt _ d s c => two .q d .q s ++ codeFlaws (c < 7)
  | .qdec d s f => two .q d .g s ++ codeFlaws (qfmtOk f)
  | .qenc d s f => two .g d .q s ++ codeFlaws (qfmtOk f)
  | .msg d k | .mcast d k => two .g d .z 0 ++ immU 2 6 d 0 none k ++ codeFlaws (k < 16)
  | .callm d k => two .g d .z 0 ++ immU 2 6 d 0 none k ++ codeFlaws (k < 2 ^ 16)
  | .clause d s n => two .g d .g s ++ codeFlaws (1 ≤ n ∧ n ≤ 10)
  | .mbind d h | .bnc d h => two .g d .h h
  | .spawn d s p => two .g d .a s ++ codeFlaws (p < 4)
  | .task s p => two .z 0 .a s ++ codeFlaws (p < 4)
  | .done | .exit => []
  | .waite d => two .g d .z 0
  | .pri n => codeFlaws (n < 4)
  | .node d s => two .g d .a s
  | .sig d => two .g d .z 0
  | .gcomb d s | .gsplit d s | .gdamp d s | .glin d s | .gmean d s | .ginfo d s | .gresd d s => two .p d .p s
  | .slget d s | .slput d s | .slret d s | .slnew d s => two .g d .g s ++ codeFlaws (d % 4 = 0)
  | .belief d | .cvupd d | .cvrd d => two .g d .z 0
  | .cvclr => []
  | .ftype d s => two .g d .g s
  | .snap d | .mark d | .cutst d => two .g d .z 0
  | .ldg z d s imm | .stg z d s imm | .stgn z d s imm =>
    codeFlaws (z < 4) ++ two (if z = 3 then .p else .g) d .a s ++ immS 3 0 d s none imm
  | .ldgBS z d s imm => codeFlaws (z < 2) ++ two .g d .a s ++ immS 3 0 d s none imm
  | .ldgtW d s imm => two .g d .a s ++ immS 3 0 d s none imm
  | .ldgtD d s imm => two .p d .a s ++ immS 3 0 d s none imm
  | .pref s imm | .renew s imm => two .z 0 .a s ++ immS 3 0 0 s none imm
  | .discard d s imm => two .g d .a s ++ immS 3 0 d s none imm
  | .fence c => codeFlaws (c < 7)
  | .tick n => immU 3 6 0 0 none n ++ codeFlaws (n < 2 ^ 20)
  | .clkj d => two .g d .z 0
  | .amadd w d s imm | .amand w d s imm | .amor w d s imm | .amxor w d s imm | .ammin w d s imm | .ammax w d s imm
  | .amminz w d s imm | .ammaxz w d s imm | .amswp w d s imm => atomic w false d s imm
  | .amcas w d s imm => atomic w true d s imm
  | .amfadd d s imm => atomic false false d s imm
  | .amaddRemote w d s t imm | .amandRemote w d s t imm | .amorRemote w d s t imm | .amxorRemote w d s t imm
  | .amminRemote w d s t imm | .ammaxRemote w d s t imm | .amminzRemote w d s t imm | .ammaxzRemote w d s t imm
  | .amswpRemote w d s t imm => atomicRemote w false d s t imm
  | .amcasRemote w d s t imm => atomicRemote w true d s t imm
  | .amfaddRemote d s t imm => atomicRemote false false d s t imm
  | .ylease n => codeFlaws (1 ≤ n ∧ n ≤ 16)
  | .yfree | .yrot => []
  | .yzero d | .yfmt d => two .g d .z 0
  | .yldb d s t => two .g d .g s ++ codeFlaws (t < 2)
  | .ymma d s | .ymmaRa d s | .ymmaRb d s | .ymmaRr d s | .yst d s => two .g d .g s
  | .ywait d | .ypoll d | .yprog d | .yres d => two .g d .z 0
  | .kset s => two .z 0 .g s
  | .kgo d | .kwait d | .kpoll d => two .g d .z 0
  | .tbinit d s | .tbarr d s | .tbwait d s => two .g d .g s
  | .bjoin d s | .binit d s | .bqry d s => two .g d .a s
  | .coll d s imm => two .g d .a s ++ imm1U imm
  | .cwait d => two .g d .z 0
  | .gform d s | .pnopen d s | .pnpush d s | .pnpull d s | .pnclose d s | .pnstat d s => two .g d .a s
  | .trap n | .brk n => immU 4 6 0 0 none n
  | .rett | .csync | .halt => []
  | .tlbinv d s | .ctxout d s | .ctxin d s => two .g d .a s
  | .migr d | .slice d => two .g d .z 0
  | .fwdset d s | .lretr d s | .lstat d s | .lctl d s => two .g d .g s
  | _ => [.event]

/-- An instruction is well-formed when no check finds a flaw: it then has words (see `encode`). -/
def Instr.WellFormed (i : Instr) : Prop := i.flaws = []

end Sys2Proof
end

