-- ==== Sys2Proof/Decode.lean ====
section
/-! DEFINITION. Decoding of instruction words by R49 to R61 with the opcode map of R62 to R67, and the encoder written from the
same tables. Words are natural numbers below 2^16. -/

namespace Sys2Proof

/-- Why decoding refuses (each traps ILLEGAL by R56, but `cut`, which says that the bytes end inside an instruction). -/
inductive RejectWhy where
  | primary3F | fifthPrefix | xpage | xregOrder | xregBits | form | usage | fields | cut
  deriving DecidableEq, Repr

/-- A refusal of the decoder with the offending word, which becomes TVAL (R58). -/
structure Reject where
  why : RejectWhy
  word : Nat
  deriving DecidableEq, Repr

/-- The base formats of R50. -/
inductive Format where
  | rr | ri | b | h
  deriving DecidableEq, Repr

/-- The Imm column of R62. -/
inductive ImmForm where
  | none
  | one (signed : Bool)
  | more (signed : Bool)
  deriving DecidableEq, Repr

/-- The xreg column of R62: blank, T or X (R53). -/
inductive TForm where
  | no | opt | req
  deriving DecidableEq, Repr

/-- A row of the opcode map: format, kinds, immediate, xreg column, and the instruction its fields make (none for a code that the
entry refuses). -/
structure Form where
  fmt : Format
  kd : Kind
  ks : Kind
  kt : Kind
  imm : ImmForm
  t : TForm
  build : Nat → Nat → Option Nat → Int → Option Instr

/-- The rounding mode of an x field (R50). -/
def RMode.ofX : Nat → RMode
  | 0 => .ne
  | 1 => .rz
  | 2 => .ru
  | _ => .rd

/-- The x field of a rounding mode (R50). -/
def RMode.toX : RMode → Nat
  | .ne => 0
  | .rz => 1
  | .ru => 2
  | .rd => 3

/-- An instruction kept only when its code is allowed by the form's entry. -/
def keep (ok : Bool) (i : Instr) : Option Instr := if ok then some i else none

/-- An RR row without immediate. -/
def Form.rr (kd ks : Kind) (b : Nat → Nat → Instr) : Option Form :=
  some { fmt := .rr, kd := kd, ks := ks, kt := .z, imm := .none, t := .no, build := fun d s _ _ => some (b d s) }

/-- An RR row marked T. -/
def Form.rrT (kd ks kt : Kind) (b : Nat → Nat → Option Nat → Instr) : Option Form :=
  some { fmt := .rr, kd := kd, ks := ks, kt := kt, imm := .none, t := .opt, build := fun d s t _ => some (b d s t) }

/-- An RR row marked X. -/
def Form.rrX (kd ks kt : Kind) (b : Nat → Nat → Nat → Instr) : Option Form :=
  some { fmt := .rr, kd := kd, ks := ks, kt := kt, imm := .none, t := .req, build := fun d s t _ => t.map (b d s) }

/-- An RR row with an immediate `s0+`. -/
def Form.rrI (kd ks : Kind) (b : Nat → Nat → Int → Instr) : Option Form :=
  some { fmt := .rr, kd := kd, ks := ks, kt := .z, imm := .more true, t := .no, build := fun d s _ i => some (b d s i) }

/-- An RR row marked X with an immediate `s0+`. -/
def Form.rrXI (kd ks kt : Kind) (b : Nat → Nat → Nat → Int → Instr) : Option Form :=
  some { fmt := .rr, kd := kd, ks := ks, kt := kt, imm := .more true, t := .req,
         build := fun d s t i => t.map fun t => b d s t i }

/-- An RR row with exactly one `ximm`. -/
def Form.rr1 (signed : Bool) (kd ks : Kind) (b : Nat → Nat → Int → Option Instr) : Option Form :=
  some { fmt := .rr, kd := kd, ks := ks, kt := .z, imm := .one signed, t := .no, build := fun d s _ i => b d s i }

/-- An RI row: an imm6, extendable. -/
def Form.ri (signed : Bool) (kd : Kind) (b : Nat → Int → Option Instr) : Option Form :=
  some { fmt := .ri, kd := kd, ks := .z, kt := .z, imm := .more signed, t := .no, build := fun d _ _ i => b d i }

/-- An RR row of a slot form: d is a multiple of 4 (R138). -/
def Form.rrK (b : Nat → Nat → Instr) : Option Form :=
  some { fmt := .rr, kd := .g, ks := .g, kt := .z, imm := .none, t := .no,
         build := fun d s _ _ => keep (d % 4 = 0) (b d s) }

/-- A B row: a disp10, extendable. -/
def Form.bw (b : Int → Instr) : Option Form :=
  some { fmt := .b, kd := .z, ks := .z, kt := .z, imm := .more true, t := .no, build := fun _ _ _ i => some (b i) }

/-- An H row. -/
def Form.hh (b : Nat → Nat → Instr) : Option Form :=
  some { fmt := .h, kd := .g, ks := .h, kt := .z, imm := .none, t := .no, build := fun d s _ _ => some (b d s) }

/-- Page 0 of the opcode map (R63), by primary and x. -/
def page0 (op x : Nat) : Option Form :=
  match op, x with
  | 0x01, 0 => Form.rrT .g .g .g .add
  | 0x01, 1 => Form.rrT .g .g .g .sub
  | 0x01, 2 => Form.rrT .g .g .g .mul
  | 0x01, 3 => Form.rrT .g .g .g .mulh
  | 0x02, 0 => Form.rrT .g .g .g .and
  | 0x02, 1 => Form.rrT .g .g .g .or
  | 0x02, 2 => Form.rrT .g .g .g .xor
  | 0x02, 3 => Form.rrT .g .g .g .andn
  | 0x03, 0 => Form.rrT .g .g .g .shl
  | 0x03, 1 => Form.rrT .g .g .g .shr
  | 0x03, 2 => Form.rrT .g .g .g .sra
  | 0x03, 3 => Form.rrT .g .g .g .ror
  | 0x04, 0 => Form.rrT .g .g .g .div
  | 0x04, 1 => Form.rrT .g .g .g .divz
  | 0x04, 2 => Form.rrT .g .g .g .rem
  | 0x04, 3 => Form.rrT .g .g .g .remz
  | 0x05, 0 => Form.rrT .g .g .g .min
  | 0x05, 1 => Form.rrT .g .g .g .max
  | 0x05, 2 => Form.rrT .g .g .g .minz
  | 0x05, 3 => Form.rrT .g .g .g .maxz
  | 0x06, 0 => Form.rrT .g .g .g .slt
  | 0x06, 1 => Form.rrT .g .g .g .sltz
  | 0x06, 2 => Form.rrT .g .g .g .seq
  | 0x06, 3 => Form.rrT .g .g .g .sne
  | 0x07, 0 => Form.rrT .g .g .g .mulhz
  | 0x08, 0 => Form.rr .g .g .clz
  | 0x08, 1 => Form.rr .g .g .ctz
  | 0x08, 2 => Form.rr .g .g .popc
  | 0x08, 3 => Form.rr .g .g .brev
  | 0x09, 0 => Form.rr .g .g .sextB
  | 0x09, 1 => Form.rr .g .g .sextH
  | 0x09, 2 => Form.rr .g .g .zextB
  | 0x09, 3 => Form.rr .g .g .zextH
  | 0x0A, 0 => Form.rr .g .g .satsB
  | 0x0A, 1 => Form.rr .g .g .satsH
  | 0x0A, 2 => Form.rr .g .g .satzB
  | 0x0A, 3 => Form.rr .g .g .satzH
  | 0x0B, 0 => Form.rr .g .g .mov
  | 0x0C, x => Form.rr1 false (if x = 2 then .a else .g) .z fun d _ i => keep (srXOk x i.toNat) (.mfs x d i.toNat)
  | 0x0D, x => Form.rr1 false (if x = 2 then .a else .g) .z fun d _ i => keep (srXOk x i.toNat) (.mts x d i.toNat)
  | 0x0E, 0 => Form.rr .a .g .aadd
  | 0x0E, 1 => Form.rr .a .g .asub
  | 0x0E, 2 => Form.rr .a .a .amov
  | 0x0F, 0 => Form.rrI .a .a .alea
  | 0x10, 0 => Form.rr .g .a .aget
  | 0x10, 1 => Form.rr .g .a .agetHi
  | 0x11, _ => Form.ri true .a fun d i => some (.aaddi d i)
  | 0x12, _ => Form.ri true .a fun d i => some (.apc d i)
  | 0x13, _ => Form.ri true .g fun d i => some (.li d i)
  | 0x14, _ => Form.ri true .g fun d i => some (.addi d i)
  | 0x15, _ => Form.ri true .g fun d i => some (.andi d i)
  | 0x16, _ => Form.ri true .g fun d i => some (.ori d i)
  | 0x17, _ => Form.ri true .g fun d i => some (.xori d i)
  | 0x18, _ => Form.ri true .g fun d i => some (.shli d i)
  | 0x19, _ => Form.ri true .g fun d i => some (.shri d i)
  | 0x1A, _ => Form.ri true .g fun d i => some (.srai d i)
  | 0x1B, _ => Form.ri true .g fun d i => some (.slti d i)
  | 0x1C, _ => Form.bw .j
  | 0x1D, _ => Form.bw .call
  | 0x1E, 0 => Form.rr .z .a fun _ s => .jr s
  | 0x1E, 1 => Form.rr .z .a fun _ s => .callr s
  | 0x1E, 2 => Form.rr .z .z fun _ _ => .ret
  | 0x1F, 0 => Form.rr1 true .g .g fun d s i => some (.beq d s i)
  | 0x1F, 1 => Form.rr1 true .g .g fun d s i => some (.bne d s i)
  | 0x1F, 2 => Form.rr1 true .g .g fun d s i => some (.blt d s i)
  | 0x1F, 3 => Form.rr1 true .g .g fun d s i => some (.bge d s i)
  | 0x20, 0 => Form.rr1 true .g .g fun d s i => some (.bltz d s i)
  | 0x20, 1 => Form.rr1 true .g .g fun d s i => some (.bgez d s i)
  | 0x21, _ => Form.ri true .g fun d i => some (.bz d i)
  | 0x22, _ => Form.ri true .g fun d i => some (.bnz d i)
  | 0x23, _ => Form.ri true .g fun d i => some (.loop d i)
  | 0x24, 0 => Form.rrI .g .g (.ldp 0)
  | 0x24, 1 => Form.rrI .g .g (.ldp 1)
  | 0x24, 2 => Form.rrI .g .g (.ldp 2)
  | 0x25, 0 => Form.rrI .g .g (.ldpBS 0)
  | 0x25, 1 => Form.rrI .g .g (.ldpBS 1)
  | 0x26, 0 => Form.rrI .g .g (.stp 0)
  | 0x26, 1 => Form.rrI .g .g (.stp 1)
  | 0x26, 2 => Form.rrI .g .g (.stp 2)
  | 0x27, 0 => Form.rrI .q .g .ldpq
  | 0x27, 1 => Form.rrI .q .g .stpq
  | 0x27, 2 => Form.rrI .g .g .ldps
  | 0x27, 3 => Form.rrI .g .g .stpf
  | 0x28, 0 => Form.rrI .g .g .sete
  | 0x28, 1 => Form.rrI .g .g .tstf
  | 0x29, 0 => Form.hh .hbind
  | 0x29, 1 => Form.hh .hwait
  | 0x29, 2 => Form.hh .hfree
  | 0x29, 3 => Form.hh .hadv
  | 0x2A, 0 => Form.hh .hpub
  | 0x2A, 1 => Form.hh .hld
  | 0x2A, 2 => Form.hh .hst
  | 0x2A, 3 => Form.hh .hcnt
  | _, _ => none

/-- Page 1 of the opcode map (R64). -/
def page1 (op x : Nat) : Option Form :=
  match op, x with
  | 0x01, x => Form.rrT .g .g .g (.fadd (RMode.ofX x))
  | 0x02, x => Form.rrT .g .g .g (.fsub (RMode.ofX x))
  | 0x03, x => Form.rrT .g .g .g (.fmul (RMode.ofX x))
  | 0x04, x => Form.rrT .g .g .g (.fdiv (RMode.ofX x))
  | 0x05, x => Form.rr .g .g (.fsqrt (RMode.ofX x))
  | 0x06, x => Form.rrX .g .g .g (.fma (RMode.ofX x))
  | 0x07, x => Form.rrX .g .g .g (.fms (RMode.ofX x))
  | 0x08, x => Form.rrX .g .g .g (.fnma (RMode.ofX x))
  | 0x09, x => Form.rrX .g .g .g (.fnms (RMode.ofX x))
  | 0x0A, 0 => Form.rrT .g .g .g .fmin
  | 0x0A, 1 => Form.rrT .g .g .g .fmax
  | 0x0A, 2 => Form.rrT .g .g .g .fsgn
  | 0x0B, 0 => Form.rr .g .g .fabs
  | 0x0B, 1 => Form.rr .g .g .fneg
  | 0x0B, 2 => Form.rr .g .g .fclass
  | 0x0C, 0 => Form.rrT .g .g .g .feq
  | 0x0C, 1 => Form.rrT .g .g .g .flt
  | 0x0C, 2 => Form.rrT .g .g .g .fle
  | 0x0D, x => Form.rr .g .g (.fcvtiS (RMode.ofX x))
  | 0x0E, x => Form.rr .g .g (.fcvtiZ (RMode.ofX x))
  | 0x0F, x => Form.rr .g .g (.fcvtfS (RMode.ofX x))
  | 0x10, x => Form.rr .g .g (.fcvtfZ (RMode.ofX x))
  | 0x11, x => Form.rr .g .g (.fcvthB16 (RMode.ofX x))
  | 0x12, x => Form.rr .g .g (.fcvthBf16 (RMode.ofX x))
  | 0x13, 0 => Form.rr .g .g .fcvthXB16
  | 0x13, 1 => Form.rr .g .g .fcvthXBf16
  | 0x14, x => Form.rr .g .g (.frnd (RMode.ofX x))
  | 0x20, x => Form.rrT .q .q .q (.qadd (RMode.ofX x))
  | 0x21, x => Form.rrT .q .q .q (.qsub (RMode.ofX x))
  | 0x22, x => Form.rrT .q .q .q (.qmul (RMode.ofX x))
  | 0x23, x => Form.rrX .q .q .q (.qfma (RMode.ofX x))
  | 0x24, x => Form.rrT .g .q .q (.qdot (RMode.ofX x))
  | 0x25, x => Form.rr .g .q (.qsum (RMode.ofX x))
  | 0x26, 0 => Form.rrT .q .q .q .qmin
  | 0x26, 1 => Form.rrT .q .q .q .qmax
  | 0x26, 2 => Form.rr .q .q .qabs
  | 0x26, 3 => Form.rr .q .q .qneg
  | 0x27, 0 => Form.rr .q .g .qbcast
  | 0x27, 1 => Form.rr1 false .q .q fun d s i => keep (i < 256) (.qshuf d s i.toNat)
  | 0x27, 2 => Form.rrX .q .q .q .qsel
  | 0x27, 3 => some { fmt := .rr, kd := .q, ks := .q, kt := .q, imm := .one false, t := .opt,
                      build := fun d s t i => keep (i < 6) (.qcmp d s t i.toNat) }
  | 0x28, 0 => Form.rrT .q .q .q .qiadd
  | 0x28, 1 => Form.rrT .q .q .q .qimul
  | 0x28, 2 => Form.rrT .q .q .q .qand
  | 0x29, x => Form.rr1 false .q .q fun d s i => keep (i < 7) (.qcvt (RMode.ofX x) d s i.toNat)
  | 0x2A, 0 => Form.rr1 false .q .g fun d s i => keep (qfmtOk i.toNat) (.qdec d s i.toNat)
  | 0x2B, 0 => Form.rr1 false .g .q fun d s i => keep (qfmtOk i.toNat) (.qenc d s i.toNat)
  | 0x2C, x => Form.rr .q .g (.qscl (RMode.ofX x))
  | _, _ => none

/-- Page 2 of the opcode map (R65). -/
def page2 (op x : Nat) : Option Form :=
  match op, x with
  | 0x01, _ => Form.ri false .g fun d i => keep (i < 16) (.msg d i.toNat)
  | 0x02, _ => Form.ri false .g fun d i => keep (i < 65536) (.callm d i.toNat)
  | 0x03, 0 => Form.rr1 false .g .g fun d s i => keep (1 ≤ i ∧ i ≤ 10) (.clause d s i.toNat)
  | 0x04, _ => Form.ri false .g fun d i => keep (i < 16) (.mcast d i.toNat)
  | 0x05, 0 => Form.hh .mbind
  | 0x05, 1 => Form.hh .bnc
  | 0x06, x => Form.rr .g .a fun d s => .spawn d s x
  | 0x07, x => Form.rr .z .a fun _ s => .task s x
  | 0x08, 0 => Form.rr .z .z fun _ _ => .done
  | 0x08, 1 => Form.rr .z .z fun _ _ => .exit
  | 0x08, 2 => Form.rr .g .z fun d _ => .waite d
  | 0x09, _ => Form.ri false .z fun _ i => keep (i < 4) (.pri i.toNat)
  | 0x0A, 0 => Form.rr .g .a .node
  | 0x0A, 1 => Form.rr .g .z fun d _ => .sig d
  | 0x0B, 0 => Form.rr .p .p .gcomb
  | 0x0B, 1 => Form.rr .p .p .gsplit
  | 0x0B, 2 => Form.rr .p .p .gdamp
  | 0x0B, 3 => Form.rr .p .p .glin
  | 0x0C, 0 => Form.rr .p .p .gmean
  | 0x0C, 1 => Form.rr .p .p .ginfo
  | 0x0C, 2 => Form.rr .p .p .gresd
  | 0x0D, 0 => Form.rrK .slget
  | 0x0D, 1 => Form.rrK .slput
  | 0x0D, 2 => Form.rrK .slret
  | 0x0D, 3 => Form.rrK .slnew
  | 0x0E, 0 => Form.rr .g .z fun d _ => .belief d
  | 0x0F, 0 => Form.rr .g .z fun d _ => .cvupd d
  | 0x0F, 1 => Form.rr .g .z fun d _ => .cvrd d
  | 0x0F, 2 => Form.rr .z .z fun _ _ => .cvclr
  | 0x10, 0 => Form.rr .g .g .ftype
  | 0x11, 0 => Form.rr .g .z fun d _ => .snap d
  | 0x11, 1 => Form.rr .g .z fun d _ => .mark d
  | 0x11, 2 => Form.rr .g .z fun d _ => .cutst d
  | _, _ => none

/-- The four variants of an atomic by x (R66); `amfadd` has no `.d`. -/
def atomForm (cas : Bool) (glob : Bool → Nat → Nat → Int → Instr) (rem : Bool → Nat → Nat → Nat → Int → Instr) (x : Nat) :
    Option Form :=
  match x with
  | 0 => Form.rrI (atomKind false cas) .a (glob false)
  | 1 => Form.rrI (atomKind true cas) .a (glob true)
  | 2 => Form.rrXI (atomKind false cas) .g .g (rem false)
  | _ => Form.rrXI (atomKind true cas) .g .g (rem true)

/-- Page 3 of the opcode map (R66). -/
def page3 (op x : Nat) : Option Form :=
  match op, x with
  | 0x01, 3 => Form.rrI .p .a (.ldg 3)
  | 0x01, x => Form.rrI .g .a (.ldg x)
  | 0x02, 0 => Form.rrI .g .a (.ldgBS 0)
  | 0x02, 1 => Form.rrI .g .a (.ldgBS 1)
  | 0x03, 3 => Form.rrI .p .a (.stg 3)
  | 0x03, x => Form.rrI .g .a (.stg x)
  | 0x04, 3 => Form.rrI .p .a (.stgn 3)
  | 0x04, x => Form.rrI .g .a (.stgn x)
  | 0x05, 0 => Form.rrI .g .a .ldgtW
  | 0x05, 1 => Form.rrI .p .a .ldgtD
  | 0x06, 0 => Form.rrI .z .a fun _ s i => .pref s i
  | 0x06, 1 => Form.rrI .z .a fun _ s i => .renew s i
  | 0x06, 2 => Form.rrI .g .a .discard
  | 0x07, 0 => some { fmt := .rr, kd := .g, ks := .z, kt := .z, imm := .none, t := .no,
                      build := fun d _ _ _ => keep (d < 7) (.fence d) }
  | 0x08, _ => Form.ri false .z fun _ i => keep (i < 2 ^ 20) (.tick i.toNat)
  | 0x09, 0 => Form.rr .g .z fun d _ => .clkj d
  | 0x0A, x => atomForm false .amadd .amaddRemote x
  | 0x0B, x => atomForm false .amand .amandRemote x
  | 0x0C, x => atomForm false .amor .amorRemote x
  | 0x0D, x => atomForm false .amxor .amxorRemote x
  | 0x0E, x => atomForm false .ammin .amminRemote x
  | 0x0F, x => atomForm false .ammax .ammaxRemote x
  | 0x10, x => atomForm false .amminz .amminzRemote x
  | 0x11, x => atomForm false .ammaxz .ammaxzRemote x
  | 0x12, x => atomForm false .amswp .amswpRemote x
  | 0x13, x => atomForm true .amcas .amcasRemote x
  | 0x14, 0 => Form.rrI .g .a .amfadd
  | 0x14, 2 => Form.rrXI .g .g .g .amfaddRemote
  | 0x15, _ => Form.ri false .z fun _ i => keep (1 ≤ i ∧ i ≤ 16) (.ylease i.toNat)
  | 0x16, 0 => Form.rr .z .z fun _ _ => .yfree
  | 0x16, 1 => Form.rr .g .z fun d _ => .yzero d
  | 0x16, 2 => Form.rr .z .z fun _ _ => .yrot
  | 0x17, 0 => Form.rr .g .z fun d _ => .yfmt d
  | 0x18, 0 => Form.rr .g .g fun d s => .yldb d s 0
  | 0x18, 1 => Form.rr .g .g fun d s => .yldb d s 1
  | 0x19, 0 => Form.rr .g .g .ymma
  | 0x19, 1 => Form.rr .g .g .ymmaRa
  | 0x19, 2 => Form.rr .g .g .ymmaRb
  | 0x19, 3 => Form.rr .g .g .ymmaRr
  | 0x1A, 0 => Form.rr .g .g .yst
  | 0x1B, 0 => Form.rr .g .z fun d _ => .ywait d
  | 0x1B, 1 => Form.rr .g .z fun d _ => .ypoll d
  | 0x1B, 2 => Form.rr .g .z fun d _ => .yprog d
  | 0x1B, 3 => Form.rr .g .z fun d _ => .yres d
  | 0x1C, 0 => Form.rr .z .g fun _ s => .kset s
  | 0x1D, 0 => Form.rr .g .z fun d _ => .kgo d
  | 0x1D, 1 => Form.rr .g .z fun d _ => .kwait d
  | 0x1D, 2 => Form.rr .g .z fun d _ => .kpoll d
  | 0x1E, 0 => Form.rr .g .g .tbinit
  | 0x1E, 1 => Form.rr .g .g .tbarr
  | 0x1E, 2 => Form.rr .g .g .tbwait
  | 0x1F, 0 => Form.rr .g .a .bjoin
  | 0x1F, 1 => Form.rr .g .a .binit
  | 0x1F, 2 => Form.rr .g .a .bqry
  | 0x20, 0 => Form.rr1 false .g .a fun d s i => some (.coll d s i.toNat)
  | 0x21, 0 => Form.rr .g .z fun d _ => .cwait d
  | 0x21, 1 => Form.rr .g .a .gform
  | 0x22, 0 => Form.rr .g .a .pnopen
  | 0x22, 1 => Form.rr .g .a .pnpush
  | 0x22, 2 => Form.rr .g .a .pnpull
  | 0x22, 3 => Form.rr .g .a .pnclose
  | 0x23, 0 => Form.rr .g .a .pnstat
  | _, _ => none

/-- Page 4 of the opcode map (R67). -/
def page4 (op x : Nat) : Option Form :=
  match op, x with
  | 0x01, _ => Form.ri false .z fun _ i => some (.trap i.toNat)
  | 0x02, _ => Form.ri false .z fun _ i => some (.brk i.toNat)
  | 0x03, 0 => Form.rr .z .z fun _ _ => .rett
  | 0x03, 1 => Form.rr .z .z fun _ _ => .csync
  | 0x03, 2 => Form.rr .z .z fun _ _ => .halt
  | 0x04, 0 => Form.rr .g .a .tlbinv
  | 0x05, 0 => Form.rr .g .z fun d _ => .migr d
  | 0x05, 1 => Form.rr .g .a .ctxout
  | 0x05, 2 => Form.rr .g .a .ctxin
  | 0x05, 3 => Form.rr .g .g .fwdset
  | 0x06, 0 => Form.rr .g .z fun d _ => .slice d
  | 0x07, 0 => Form.rr .g .g .lretr
  | 0x07, 1 => Form.rr .g .g .lstat
  | 0x07, 2 => Form.rr .g .g .lctl
  | _, _ => none

/-- The opcode map of R62 to R67. -/
def formOf (page op x : Nat) : Option Form :=
  match page with
  | 0 => page0 op x
  | 1 => page1 op x
  | 2 => page2 op x
  | 3 => page3 op x
  | 4 => page4 op x
  | _ => none

/-- What the prefix loop of R56 has seen: page, counts of `xpage`, `xreg` and `ximm`, the extension bits of the `xreg` words, and
the `ximm` payloads in order. -/
structure Scan where
  page : Nat
  np : Nat
  nr : Nat
  dh : Nat
  sh : Nat
  tl : Nat
  th : Nat
  ximms : List Nat
  deriving DecidableEq, Repr

/-- The start of the loop of R56. -/
def Scan.start : Scan := { page := 0, np := 0, nr := 0, dh := 0, sh := 0, tl := 0, th := 0, ximms := [] }

/-- What one word does in the loop of R56: it is a prefix and the loop goes on, it is the instruction word, or it traps. -/
inductive Feed where
  | more (sc : Scan)
  | base
  | stop (why : RejectWhy)

/-- One turn of the loop of R56. -/
def Scan.feed (sc : Scan) (w : Nat) : Feed :=
  let op := w / 1024 % 64
  let p := w % 1024
  if op = 0x3F then .stop .primary3F
  else if op < 0x3C then .base
  else if sc.np + sc.nr + sc.ximms.length = 4 then .stop .fifthPrefix
  else if op = 0x3E then
    if sc.nr + sc.ximms.length > 0 ∨ sc.np = 1 ∨ p > 4 then .stop .xpage
    else .more { sc with page := p, np := 1 }
  else if op = 0x3D then
    if sc.ximms ≠ [] ∨ sc.nr = 2 then .stop .xregOrder
    else if sc.nr = 0 then .more { sc with dh := p / 128, sh := p / 16 % 8, tl := p % 16, nr := 1 }
    else if p / 8 ≠ 0 then .stop .xregBits
    else .more { sc with th := p % 8, nr := 2 }
  else .more { sc with ximms := sc.ximms ++ [p] }

/-- The width of the instruction's own immediate field (R52). -/
def Format.ownWidth : Format → Nat
  | .ri => 6
  | .b => 10
  | _ => 0

/-- Two's complement reading of the low `w` bits (R72 `sx`), 0 for no bits. -/
def sxInt (raw w : Nat) : Int :=
  if w = 0 then 0
  else if raw % 2 ^ w < 2 ^ (w - 1) then (raw % 2 ^ w : Nat) else (raw % 2 ^ w : Nat) - (2 ^ w : Nat)

/-- The assembled immediate of R52. -/
def assemble (f : Form) (ximms : List Nat) (w : Nat) : Int :=
  let w0 := f.fmt.ownWidth
  let raw := ximms.foldl (fun a p => a * 1024 + p) 0 * 2 ^ w0 + w % 2 ^ w0
  let width := 10 * ximms.length + w0
  match f.imm with
  | .none => 0
  | .one sg | .more sg => if sg then sxInt raw width else (raw : Int)

/-- The rules of R57. -/
def usageOk (f : Form) (sc : Scan) : Bool :=
  (match f.imm with
    | .none => sc.ximms.length == 0
    | .one _ => sc.ximms.length == 1
    | .more _ => true) &&
  (match f.fmt with
    | .b => sc.nr == 0
    | .ri | .h => sc.sh == 0
    | .rr => true) &&
  (match f.t with
    | .no => sc.tl == 0 && sc.th == 0 && decide (sc.nr ≤ 1)
    | .opt => true
    | .req => decide (1 ≤ sc.nr))

/-- The field s of a word by its format (R50): RI and B have none. -/
def Format.sField (fmt : Format) (w : Nat) : Nat :=
  match fmt with
  | .rr | .h => w / 4 % 16
  | _ => 0

/-- The field d of a word by its format (R50): B has none. -/
def Format.dField (fmt : Format) (w : Nat) : Nat :=
  match fmt with
  | .b => 0
  | _ => w / 64 % 16

/-- The part of R56 after the loop, up to the checks that need the launch: form, usage and fields. Kind checks are those of the
largest partition; `Instr.fits` makes those of the launch. -/
def finish (sc : Scan) (w : Nat) : Except Reject Instr :=
  match formOf sc.page (w / 1024 % 64) (w % 4) with
  | none => .error ⟨.form, w⟩
  | some f =>
    if usageOk f sc then
      let d := sc.dh * 16 + f.fmt.dField w
      let s := sc.sh * 16 + f.fmt.sField w
      let t := if f.t = .no ∨ sc.nr = 0 then none else some (sc.th * 16 + sc.tl)
      if f.kd.flaws d = [] ∧ f.ks.flaws s = [] ∧ (∀ n ∈ t, f.kt.flaws n = []) then
        match f.build d s t (assemble f sc.ximms w) with
        | some i => .ok i
        | none => .error ⟨.fields, w⟩
      else .error ⟨.fields, w⟩
    else .error ⟨.usage, w⟩

/-- Decoding of a sequence of words from a state of the loop: the instruction and the words after it (R56). -/
def decodeFrom (sc : Scan) : List Nat → Except Reject (Instr × List Nat)
  | [] => .error ⟨.cut, 0⟩
  | w :: ws =>
    match sc.feed w with
    | .more sc' => decodeFrom sc' ws
    | .stop why => .error ⟨why, w⟩
    | .base =>
      match finish sc w with
      | .ok i => .ok (i, ws)
      | .error r => .error r

/-- Decoding of words by R56. -/
def decodeWords (ws : List Nat) : Except Reject (Instr × List Nat) := decodeFrom Scan.start ws

/-- The words of a list of bytes, each little-endian (R49); an odd last byte makes no word. -/
def wordsOf : List Byte → List Nat
  | a :: b :: rest => (a.toNat + 256 * b.toNat) :: wordsOf rest
  | _ => []

/-- The bytes of words, each little-endian (R49). -/
def bytesOf (ws : List Nat) : List Byte :=
  ws.flatMap fun w => [BitVec.ofNat 8 w, BitVec.ofNat 8 (w / 256)]

/-- Decoding of bytes: the instruction and the bytes after it, or a refusal by name. -/
def decode (bs : List Byte) : Except Reject (Instr × List Byte) :=
  match decodeWords (wordsOf bs) with
  | .ok (i, rest) => .ok (i, bs.drop (bs.length / 2 * 2 - 2 * rest.length))
  | .error r => .error r

/-- Where an instruction form stands in the map and what its fields hold. -/
structure Layout where
  page : Nat
  op : Nat
  x : Nat
  d : Nat
  s : Nat
  t : Option Nat
  imm : Int
  deriving DecidableEq, Repr

/-- A layout without immediate. -/
def lay (page op x d s : Nat) : Option Layout := some ⟨page, op, x, d, s, none, 0⟩

/-- A layout of a T form. -/
def layT (page op x d s : Nat) (t : Option Nat) : Option Layout := some ⟨page, op, x, d, s, t, 0⟩

/-- A layout with an immediate. -/
def layI (page op x d s : Nat) (imm : Int) : Option Layout := some ⟨page, op, x, d, s, none, imm⟩

/-- The two layouts of an atomic: x holds the size, and 2 more for a remote pool (R66). -/
def layAt (op : Nat) (w : Bool) (d s : Nat) (imm : Int) : Option Layout := some ⟨3, op, w.toNat, d, s, none, imm⟩

/-- The layout of a remote atomic (R66). -/
def layAr (op : Nat) (w : Bool) (d s t : Nat) (imm : Int) : Option Layout := some ⟨3, op, 2 + w.toNat, d, s, some t, imm⟩

/-- The place of every instruction form in the map of R63 to R67; a step of the part has none. -/
def Instr.layout : Instr → Option Layout
  | .add d s t => layT 0 0x01 0 d s t
  | .sub d s t => layT 0 0x01 1 d s t
  | .mul d s t => layT 0 0x01 2 d s t
  | .mulh d s t => layT 0 0x01 3 d s t
  | .and d s t => layT 0 0x02 0 d s t
  | .or d s t => layT 0 0x02 1 d s t
  | .xor d s t => layT 0 0x02 2 d s t
  | .andn d s t => layT 0 0x02 3 d s t
  | .shl d s t => layT 0 0x03 0 d s t
  | .shr d s t => layT 0 0x03 1 d s t
  | .sra d s t => layT 0 0x03 2 d s t
  | .ror d s t => layT 0 0x03 3 d s t
  | .div d s t => layT 0 0x04 0 d s t
  | .divz d s t => layT 0 0x04 1 d s t
  | .rem d s t => layT 0 0x04 2 d s t
  | .remz d s t => layT 0 0x04 3 d s t
  | .min d s t => layT 0 0x05 0 d s t
  | .max d s t => layT 0 0x05 1 d s t
  | .minz d s t => layT 0 0x05 2 d s t
  | .maxz d s t => layT 0 0x05 3 d s t
  | .slt d s t => layT 0 0x06 0 d s t
  | .sltz d s t => layT 0 0x06 1 d s t
  | .seq d s t => layT 0 0x06 2 d s t
  | .sne d s t => layT 0 0x06 3 d s t
  | .mulhz d s t => layT 0 0x07 0 d s t
  | .clz d s => lay 0 0x08 0 d s
  | .ctz d s => lay 0 0x08 1 d s
  | .popc d s => lay 0 0x08 2 d s
  | .brev d s => lay 0 0x08 3 d s
  | .sextB d s => lay 0 0x09 0 d s
  | .sextH d s => lay 0 0x09 1 d s
  | .zextB d s => lay 0 0x09 2 d s
  | .zextH d s => lay 0 0x09 3 d s
  | .satsB d s => lay 0 0x0A 0 d s
  | .satsH d s => lay 0 0x0A 1 d s
  | .satzB d s => lay 0 0x0A 2 d s
  | .satzH d s => lay 0 0x0A 3 d s
  | .mov d s => lay 0 0x0B 0 d s
  | .mfs x d n => layI 0 0x0C x d 0 n
  | .mts x d n => layI 0 0x0D x d 0 n
  | .aadd d s => lay 0 0x0E 0 d s
  | .asub d s => lay 0 0x0E 1 d s
  | .amov d s => lay 0 0x0E 2 d s
  | .alea d s imm => layI 0 0x0F 0 d s imm
  | .aget d s => lay 0 0x10 0 d s
  | .agetHi d s => lay 0 0x10 1 d s
  | .aaddi d imm => layI 0 0x11 0 d 0 imm
  | .apc d imm => layI 0 0x12 0 d 0 imm
  | .li d imm => layI 0 0x13 0 d 0 imm
  | .addi d imm => layI 0 0x14 0 d 0 imm
  | .andi d imm => layI 0 0x15 0 d 0 imm
  | .ori d imm => layI 0 0x16 0 d 0 imm
  | .xori d imm => layI 0 0x17 0 d 0 imm
  | .shli d imm => layI 0 0x18 0 d 0 imm
  | .shri d imm => layI 0 0x19 0 d 0 imm
  | .srai d imm => layI 0 0x1A 0 d 0 imm
  | .slti d imm => layI 0 0x1B 0 d 0 imm
  | .j imm => layI 0 0x1C 0 0 0 imm
  | .call imm => layI 0 0x1D 0 0 0 imm
  | .jr s => lay 0 0x1E 0 0 s
  | .callr s => lay 0 0x1E 1 0 s
  | .ret => lay 0 0x1E 2 0 0
  | .beq d s imm => layI 0 0x1F 0 d s imm
  | .bne d s imm => layI 0 0x1F 1 d s imm
  | .blt d s imm => layI 0 0x1F 2 d s imm
  | .bge d s imm => layI 0 0x1F 3 d s imm
  | .bltz d s imm => layI 0 0x20 0 d s imm
  | .bgez d s imm => layI 0 0x20 1 d s imm
  | .bz d imm => layI 0 0x21 0 d 0 imm
  | .bnz d imm => layI 0 0x22 0 d 0 imm
  | .loop d imm => layI 0 0x23 0 d 0 imm
  | .ldp z d s imm => layI 0 0x24 z d s imm
  | .ldpBS z d s imm => layI 0 0x25 z d s imm
  | .stp z d s imm => layI 0 0x26 z d s imm
  | .ldpq d s imm => layI 0 0x27 0 d s imm
  | .stpq d s imm => layI 0 0x27 1 d s imm
  | .ldps d s imm => layI 0 0x27 2 d s imm
  | .stpf d s imm => layI 0 0x27 3 d s imm
  | .sete d s imm => layI 0 0x28 0 d s imm
  | .tstf d s imm => layI 0 0x28 1 d s imm
  | .hbind d h => lay 0 0x29 0 d h
  | .hwait d h => lay 0 0x29 1 d h
  | .hfree d h => lay 0 0x29 2 d h
  | .hadv d h => lay 0 0x29 3 d h
  | .hpub d h => lay 0 0x2A 0 d h
  | .hld d h => lay 0 0x2A 1 d h
  | .hst d h => lay 0 0x2A 2 d h
  | .hcnt d h => lay 0 0x2A 3 d h
  | .fadd m d s t => layT 1 0x01 m.toX d s t
  | .fsub m d s t => layT 1 0x02 m.toX d s t
  | .fmul m d s t => layT 1 0x03 m.toX d s t
  | .fdiv m d s t => layT 1 0x04 m.toX d s t
  | .fsqrt m d s => lay 1 0x05 m.toX d s
  | .fma m d s t => layT 1 0x06 m.toX d s (some t)
  | .fms m d s t => layT 1 0x07 m.toX d s (some t)
  | .fnma m d s t => layT 1 0x08 m.toX d s (some t)
  | .fnms m d s t => layT 1 0x09 m.toX d s (some t)
  | .fmin d s t => layT 1 0x0A 0 d s t
  | .fmax d s t => layT 1 0x0A 1 d s t
  | .fsgn d s t => layT 1 0x0A 2 d s t
  | .fabs d s => lay 1 0x0B 0 d s
  | .fneg d s => lay 1 0x0B 1 d s
  | .fclass d s => lay 1 0x0B 2 d s
  | .feq d s t => layT 1 0x0C 0 d s t
  | .flt d s t => layT 1 0x0C 1 d s t
  | .fle d s t => layT 1 0x0C 2 d s t
  | .fcvtiS m d s => lay 1 0x0D m.toX d s
  | .fcvtiZ m d s => lay 1 0x0E m.toX d s
  | .fcvtfS m d s => lay 1 0x0F m.toX d s
  | .fcvtfZ m d s => lay 1 0x10 m.toX d s
  | .fcvthB16 m d s => lay 1 0x11 m.toX d s
  | .fcvthBf16 m d s => lay 1 0x12 m.toX d s
  | .fcvthXB16 d s => lay 1 0x13 0 d s
  | .fcvthXBf16 d s => lay 1 0x13 1 d s
  | .frnd m d s => lay 1 0x14 m.toX d s
  | .qadd m d s t => layT 1 0x20 m.toX d s t
  | .qsub m d s t => layT 1 0x21 m.toX d s t
  | .qmul m d s t => layT 1 0x22 m.toX d s t
  | .qfma m d s t => layT 1 0x23 m.toX d s (some t)
  | .qdot m d s t => layT 1 0x24 m.toX d s t
  | .qsum m d s => lay 1 0x25 m.toX d s
  | .qmin d s t => layT 1 0x26 0 d s t
  | .qmax d s t => layT 1 0x26 1 d s t
  | .qabs d s => lay 1 0x26 2 d s
  | .qneg d s => lay 1 0x26 3 d s
  | .qbcast d s => lay 1 0x27 0 d s
  | .qshuf d s sel => layI 1 0x27 1 d s sel
  | .qsel d s t => layT 1 0x27 2 d s (some t)
  | .qcmp d s t c => some ⟨1, 0x27, 3, d, s, t, c⟩
  | .qiadd d s t => layT 1 0x28 0 d s t
  | .qimul d s t => layT 1 0x28 1 d s t
  | .qand d s t => layT 1 0x28 2 d s t
  | .qcvt m d s c => layI 1 0x29 m.toX d s c
  | .qdec d s f => layI 1 0x2A 0 d s f
  | .qenc d s f => layI 1 0x2B 0 d s f
  | .qscl m d s => lay 1 0x2C m.toX d s
  | .msg d k => layI 2 0x01 0 d 0 k
  | .callm d k => layI 2 0x02 0 d 0 k
  | .clause d s n => layI 2 0x03 0 d s n
  | .mcast d k => layI 2 0x04 0 d 0 k
  | .mbind d h => lay 2 0x05 0 d h
  | .bnc d h => lay 2 0x05 1 d h
  | .spawn d s p => lay 2 0x06 p d s
  | .task s p => lay 2 0x07 p 0 s
  | .done => lay 2 0x08 0 0 0
  | .exit => lay 2 0x08 1 0 0
  | .waite d => lay 2 0x08 2 d 0
  | .pri n => layI 2 0x09 0 0 0 n
  | .node d s => lay 2 0x0A 0 d s
  | .sig d => lay 2 0x0A 1 d 0
  | .gcomb d s => lay 2 0x0B 0 d s
  | .gsplit d s => lay 2 0x0B 1 d s
  | .gdamp d s => lay 2 0x0B 2 d s
  | .glin d s => lay 2 0x0B 3 d s
  | .gmean d s => lay 2 0x0C 0 d s
  | .ginfo d s => lay 2 0x0C 1 d s
  | .gresd d s => lay 2 0x0C 2 d s
  | .slget d s => lay 2 0x0D 0 d s
  | .slput d s => lay 2 0x0D 1 d s
  | .slret d s => lay 2 0x0D 2 d s
  | .slnew d s => lay 2 0x0D 3 d s
  | .belief d => lay 2 0x0E 0 d 0
  | .cvupd d => lay 2 0x0F 0 d 0
  | .cvrd d => lay 2 0x0F 1 d 0
  | .cvclr => lay 2 0x0F 2 0 0
  | .ftype d s => lay 2 0x10 0 d s
  | .snap d => lay 2 0x11 0 d 0
  | .mark d => lay 2 0x11 1 d 0
  | .cutst d => lay 2 0x11 2 d 0
  | .ldg z d s imm => layI 3 0x01 z d s imm
  | .ldgBS z d s imm => layI 3 0x02 z d s imm
  | .stg z d s imm => layI 3 0x03 z d s imm
  | .stgn z d s imm => layI 3 0x04 z d s imm
  | .ldgtW d s imm => layI 3 0x05 0 d s imm
  | .ldgtD d s imm => layI 3 0x05 1 d s imm
  | .pref s imm => layI 3 0x06 0 0 s imm
  | .renew s imm => layI 3 0x06 1 0 s imm
  | .discard d s imm => layI 3 0x06 2 d s imm
  | .fence c => lay 3 0x07 0 c 0
  | .tick n => layI 3 0x08 0 0 0 n
  | .clkj d => lay 3 0x09 0 d 0
  | .amadd w d s imm => layAt 0x0A w d s imm
  | .amand w d s imm => layAt 0x0B w d s imm
  | .amor w d s imm => layAt 0x0C w d s imm
  | .amxor w d s imm => layAt 0x0D w d s imm
  | .ammin w d s imm => layAt 0x0E w d s imm
  | .ammax w d s imm => layAt 0x0F w d s imm
  | .amminz w d s imm => layAt 0x10 w d s imm
  | .ammaxz w d s imm => layAt 0x11 w d s imm
  | .amswp w d s imm => layAt 0x12 w d s imm
  | .amcas w d s imm => layAt 0x13 w d s imm
  | .amfadd d s imm => layAt 0x14 false d s imm
  | .amaddRemote w d s t imm => layAr 0x0A w d s t imm
  | .amandRemote w d s t imm => layAr 0x0B w d s t imm
  | .amorRemote w d s t imm => layAr 0x0C w d s t imm
  | .amxorRemote w d s t imm => layAr 0x0D w d s t imm
  | .amminRemote w d s t imm => layAr 0x0E w d s t imm
  | .ammaxRemote w d s t imm => layAr 0x0F w d s t imm
  | .amminzRemote w d s t imm => layAr 0x10 w d s t imm
  | .ammaxzRemote w d s t imm => layAr 0x11 w d s t imm
  | .amswpRemote w d s t imm => layAr 0x12 w d s t imm
  | .amcasRemote w d s t imm => layAr 0x13 w d s t imm
  | .amfaddRemote d s t imm => layAr 0x14 false d s t imm
  | .ylease n => layI 3 0x15 0 0 0 n
  | .yfree => lay 3 0x16 0 0 0
  | .yzero d => lay 3 0x16 1 d 0
  | .yrot => lay 3 0x16 2 0 0
  | .yfmt d => lay 3 0x17 0 d 0
  | .yldb d s t => lay 3 0x18 t d s
  | .ymma d s => lay 3 0x19 0 d s
  | .ymmaRa d s => lay 3 0x19 1 d s
  | .ymmaRb d s => lay 3 0x19 2 d s
  | .ymmaRr d s => lay 3 0x19 3 d s
  | .yst d s => lay 3 0x1A 0 d s
  | .ywait d => lay 3 0x1B 0 d 0
  | .ypoll d => lay 3 0x1B 1 d 0
  | .yprog d => lay 3 0x1B 2 d 0
  | .yres d => lay 3 0x1B 3 d 0
  | .kset s => lay 3 0x1C 0 0 s
  | .kgo d => lay 3 0x1D 0 d 0
  | .kwait d => lay 3 0x1D 1 d 0
  | .kpoll d => lay 3 0x1D 2 d 0
  | .tbinit d s => lay 3 0x1E 0 d s
  | .tbarr d s => lay 3 0x1E 1 d s
  | .tbwait d s => lay 3 0x1E 2 d s
  | .bjoin d s => lay 3 0x1F 0 d s
  | .binit d s => lay 3 0x1F 1 d s
  | .bqry d s => lay 3 0x1F 2 d s
  | .coll d s imm => layI 3 0x20 0 d s imm
  | .cwait d => lay 3 0x21 0 d 0
  | .gform d s => lay 3 0x21 1 d s
  | .pnopen d s => lay 3 0x22 0 d s
  | .pnpush d s => lay 3 0x22 1 d s
  | .pnpull d s => lay 3 0x22 2 d s
  | .pnclose d s => lay 3 0x22 3 d s
  | .pnstat d s => lay 3 0x23 0 d s
  | .trap n => layI 4 0x01 0 0 0 n
  | .brk n => layI 4 0x02 0 0 0 n
  | .rett => lay 4 0x03 0 0 0
  | .csync => lay 4 0x03 1 0 0
  | .halt => lay 4 0x03 2 0 0
  | .tlbinv d s => lay 4 0x04 0 d s
  | .migr d => lay 4 0x05 0 d 0
  | .ctxout d s => lay 4 0x05 1 d s
  | .ctxin d s => lay 4 0x05 2 d s
  | .fwdset d s => lay 4 0x05 3 d s
  | .slice d => lay 4 0x06 0 d 0
  | .lretr d s => lay 4 0x07 0 d s
  | .lstat d s => lay 4 0x07 1 d s
  | .lctl d s => lay 4 0x07 2 d s
  | _ => none

/-- Whether `n` `ximm` words hold an extendable immediate beside `w0` own bits (R52). -/
def immFits (signed : Bool) (w0 n : Nat) (imm : Int) : Bool :=
  let w := w0 + 10 * n
  if signed then
    if w = 0 then imm == 0 else decide (-(2 ^ (w - 1) : Nat) ≤ imm) && decide (imm < (2 ^ (w - 1) : Nat))
  else decide (0 ≤ imm) && decide (imm < (2 ^ w : Nat))

/-- The number of `ximm` words the encoder writes: the least that holds the immediate (R52). -/
def ximmCount (f : Form) (imm : Int) : Nat :=
  match f.imm with
  | .none => 0
  | .one _ => 1
  | .more sg =>
    let w0 := f.fmt.ownWidth
    if immFits sg w0 0 imm then 0 else if immFits sg w0 1 imm then 1
    else if immFits sg w0 2 imm then 2 else if immFits sg w0 3 imm then 3 else 4

/-- The payloads of `n` `ximm` words for the bits above the own field, most significant first (R52). -/
def ximmPayloads : Nat → Nat → List Nat
  | 0, _ => []
  | n + 1, high => (high / 1024 ^ n % 1024) :: ximmPayloads n high

/-- The `xreg` words of R53. -/
def xregWords (d s : Nat) : Option Nat → List Nat
  | some t =>
    (0xF400 + d / 16 * 128 + s / 16 * 16 + t % 16) :: if t < 16 then [] else [0xF400 + t / 16]
  | none => if d < 16 ∧ s < 16 then [] else [0xF400 + d / 16 * 128 + s / 16 * 16]

/-- The words of a layout: prefixes in the order of R55, then the instruction word (R50). -/
def Layout.words (l : Layout) (f : Form) : List Nat :=
  let n := ximmCount f l.imm
  let w0 := f.fmt.ownWidth
  let raw := (l.imm % (2 ^ (10 * n + w0) : Nat)).toNat
  let low := match f.fmt with
    | .rr | .h => l.d % 16 * 64 + l.s % 16 * 4 + l.x
    | .ri => l.d % 16 * 64 + raw % 64
    | .b => raw % 1024
  (if l.page = 0 then [] else [0xF800 + l.page]) ++ xregWords l.d l.s l.t ++
    (ximmPayloads n (raw / 2 ^ w0)).map (0xF000 + ·) ++ [l.op * 1024 + low]

/-- The words of a well-formed instruction (nothing for a step of the part, which has no words). -/
def encode (i : Instr) : List Nat :=
  match i.layout with
  | none => []
  | some l =>
    match formOf l.page l.op l.x with
    | none => []
    | some f => l.words f

/-- The register that a form's entry names beside its fields, which must be below G (R51; R134, R138, R254, R279, R299, R317,
R318). -/
def Instr.alsoNames : Instr → Option Nat
  | .gdamp _ s => some (s + 2)
  | .slget d _ | .slput d _ | .slret d _ | .slnew d _ => some (d + 3)
  | .ldgtW d _ _ => some (d + 1)
  | .ldgtD d _ _ => some (d + 2)
  | .bjoin d _ | .bqry d _ | .pnclose d _ => some (d + 1)
  | .pnpull d _ => some (d + 2)
  | .qdec _ s f => if f ∈ [0x01, 0x02, 0x12, 0x13] then some (s + 1) else none
  | .qenc d _ f => if f ∈ [0x01, 0x02, 0x12, 0x13] then some (d + 1) else none
  | _ => none

/-- The check of a register number against the launch: `g` registers per context and `h` handle records (R51). -/
def Kind.fits (g h : Nat) : Kind → Nat → Bool
  | .g, n => decide (n < g)
  | .a, n => decide (n < 8)
  | .p, n => decide (n + 1 < g)
  | .q, n => decide (4 * n + 3 < g)
  | .h, n => decide (n < h)
  | .z, _ => true

/-- The part of fields_ok (R51, R56) that depends on the launch: every register the form names exists there. `fence` names none
(its d is a code). -/
def Instr.fits (g h : Nat) (i : Instr) : Bool :=
  match i.layout with
  | none => true
  | some l =>
    match formOf l.page l.op l.x with
    | none => true
    | some f =>
      (if l.page = 3 ∧ l.op = 0x07 then true else f.kd.fits g h l.d) && f.ks.fits g h l.s &&
        (match l.t with | some t => f.kt.fits g h t | none => true) &&
        (match i.alsoNames with | some n => decide (n < g) | none => true)

/-- The instruction that the decoder reads from a word of the opcode table. The table writes a form of two words with the first
(the prefix) in bits 31 to 16 and the instruction word in bits 15 to 0, so the words go to memory in that order (log entry
8). -/
def decodeTableWord (nbits w : Nat) : Option Instr :=
  let ws := if nbits ≤ 16 then [w % 65536] else [w / 65536 % 65536, w % 65536]
  match decode (bytesOf ws) with
  | .ok (i, _) => some i
  | .error _ => none

end Sys2Proof
end

