-- ==== Sys2Proof/Machine/Map.lean ====
section
/-! DEFINITION. Sparse tables: lists of key and value pairs in one canonical form (keys rising, no entry equal to what an unlisted
key reads as), used for memory, pools, register files, cores and every other numbered collection of the state. -/

namespace Sys2Proof.Machine

/-- A sparse table from numbers to values. -/
abbrev Map (α : Type) := List (Nat × α)

/-- The value at a key; `d` is what an unlisted key reads as. -/
def Map.get {α : Type} (d : α) : Map α → Nat → α
  | [], _ => d
  | e :: m, k => if e.1 = k then e.2 else Map.get d m k

/-- Insertion that keeps the keys rising. -/
def Map.put {α : Type} : Map α → Nat → α → Map α
  | [], k, v => [(k, v)]
  | e :: m, k, v => if k < e.1 then (k, v) :: e :: m else if k = e.1 then (k, v) :: m else e :: Map.put m k v

/-- Removal of a key. -/
def Map.del {α : Type} (m : Map α) (k : Nat) : Map α := m.filter fun e => e.1 != k

/-- Update in canonical form: the value an unlisted key reads as removes the entry. -/
def Map.set {α : Type} [DecidableEq α] (d : α) (m : Map α) (k : Nat) (v : α) : Map α :=
  if v = d then Map.del m k else Map.put m k v

/-- The canonical form: keys strictly rising, and no entry equal to the default. -/
abbrev Map.wf {α : Type} (d : α) (m : Map α) : Prop :=
  List.Pairwise (fun a b => a.1 < b.1) m ∧ ∀ e ∈ m, e.2 ≠ d

/-- Writing a list of consecutive values from a key on. -/
def Map.setList {α : Type} [DecidableEq α] (d : α) (m : Map α) (k : Nat) : List α → Map α
  | [] => m
  | v :: vs => Map.setList d (Map.set d m k v) (k + 1) vs

/-- The `n` consecutive values from a key on. -/
def Map.getList {α : Type} (d : α) (m : Map α) (k : Nat) : Nat → List α
  | 0 => []
  | n + 1 => Map.get d m k :: Map.getList d m (k + 1) n

/-- The little-endian number of a list of bytes (R6). -/
def leNat : List Byte → Nat
  | [] => 0
  | b :: bs => b.toNat + 256 * leNat bs

/-- The `n` little-endian bytes of a number (R6). -/
def leBytes (v : Nat) : Nat → List Byte
  | 0 => []
  | n + 1 => BitVec.ofNat 8 v :: leBytes (v / 256) n

end Sys2Proof.Machine
end

