-- ==== Sys2Proof/Machine/State.lean ====
section
/-! DEFINITION. The state of one ZX-1 module as plain data: cores with their contexts, pools and queues, launches, global memory
with its lines and clocks, the mesh, the engines, the fabric, the objects and the device window. -/

namespace Sys2Proof.Machine

/-- The steps of the part with what each carries, as the agenda names them (the constructors of `Instr` for whole steps, spec/95).
The compiler cannot build constructors of `Instr` past the 245th, so the machine's own lists hold this type; `runEvent` gives
each its meaning, the one `exec` gives the constructor of the same name. -/
inductive Event where
  -- steps: contexts, dispatcher, receive hardware
  | ctrlRetrain (l : LinkId)
  | notice (lid k : Nat) | stepTrap (lid k : Nat) | taskDispatch (lid : Nat) | clauseExecute (lid : Nat)
  | dataDelivery (f : Flit) | callDelivery (f : Flit) | clauseDelivery (f : Flit) | bounceDelivery (f : Flit)
  | spawnRequest (f : Flit) | spawnReply (f : Flit) | sigDelivery (f : Flit) | serviceRequest (f : Flit)
  | fwdsetRequest (f : Flit) | fwdsetReply (f : Flit)
  | remoteAtomicRequest (f : Flit) | remoteAtomicExecute (lid : Nat) | remoteAtomicReply (f : Flit) | clauseAck (f : Flit)
  | remoteDeadline (lid k entry : Nat)
  -- steps: mesh, homes, clocks
  | goldenEpoch | homeLoad (id : Nat) | homeStore (id : Nat) | homeAtomic (id : Nat) | memoryReply (r : Reply)
  | streamingDrain (lid k i : Nat) | idleClockAdvance (lid : Nat) | rebase
  | hostLoadCompletion (lid k : Nat) (data : Option (List Byte)) | hostReadTimeout (lid k : Nat)
  -- steps: engines
  | yokeLeaseGrant (team : Nat) | kstep (lid : Nat) | yzeroJob (lid : Nat) | ystJob (lid : Nat)
  | yokeJobStop (lid : Nat) (far : Option FarFail)
  | tugSize (lid id : Nat) | tugSectorLand (lid id : Nat) | tugTableLoad (lid id : Nat) | tugStop (lid id : Nat) (far : Option FarFail)
  -- steps: launches, rein tree, cuts
  | launchRecord (q : Nat) (bytes : List Byte) | launchPlacement | restorePlacement
  | doneMessage (q team : Nat) | convergenceWindow (q : Nat) | sliceExpiry (q : Nat)
  | markerArrival (f : Flit) | cutStartArrival (q k : Nat) | cutComplete (q : Nat) | cutCompletionArrival (q k : Nat)
  -- steps: links and routing
  | linkFlitReceive (l : LinkId) (f : FabFlit) | linkAck (l : LinkId) (n : Nat) | linkNak (l : LinkId) (n : Nat)
  | ackTimer (l : LinkId) | linkAckTimeout (l : LinkId)
  | trainingRound (l : LinkId) (passed partner : Word) (peer : Word)
  | handbackRequest (l : LinkId) (lane : Nat) | handbackRefused (l : LinkId) (lane : Nat)
  | laneReturn (l : LinkId) (r : Dir) | laneFail (l : LinkId) (r : Dir)
  | reachWord (p : Nat) (l : LinkId) (w : Word) | routingNotice (p : Nat) (l : LinkId) (inRouting : Bool) (peer : Nat)
  | packetForward (p : Packet) (held : Nat) | fabricTargetRequest (p : Packet)
  -- steps: barriers, groups, collectives
  | barrierCompletion (m obj phase : Nat) (pclk : Nat)
  | form (obj src : Nat) (drop : List Nat) | prepare (obj leader : Nat) | reformationDeadline (obj : Nat)
  | commit (obj : Nat) (epoch : EpochFrom) (live : List Nat) (colls : List CollDecision) (shards : List ShardReport)
  | commitTimeout (obj : Nat) | formAnswer (obj src epoch : Nat) (live : List Nat)
  | collContribution (c : Contribution) | collDeadline (obj seq : Nat)
  | collResult (obj epoch seq status : Nat) (data : List Byte) | collRelease (obj epoch seq : Nat)
  | collHoldTimeout (obj seq : Nat)
  -- steps: parameter nodes
  | pnOpenAnswer (model shard : Nat) (m : Option OpenReply) | pnPushRequest (p : PnFrom) (blk step : Nat) (data : List Byte)
  | pnPushAnswer (p : PnFrom) (status : Nat) | updateCallResend (model shard blk : Nat)
  | updateTaskEnd (model shard blk step : Nat)
  | mirrorStream (model shard blk step epoch : Nat) (master moment : List Byte) (clock : Nat) | mirrorAck (model shard blk step epoch : Nat)
  | freshMulticast (model shard blk tag epoch : Nat) (weights : List Byte) (clock : Nat)
  | pnCloseRequest (p : PnFrom) (step : Nat) (force : Bool)
  | closeSettled (model shard : Nat) | closeDeadline (model shard : Nat)
  | passedClose (model shard epoch : Nat) (r : CloseRec) | closeRecordArrival (model shard epoch : Nat) (r : CloseRec)
  | closeAnswer (p : PnFrom) (status missing : Nat)
  -- steps: device window, groom
  | svcgo | gimg (image : List Byte) | accept (v : Nat) | pcap (q v : Nat)
  | stage | stageDone (image : Option FwImage) | activate | activation | fwDiscard | firmwareBoot | activationPowerFail
  | repairFence (t : Nat) | unfence (t : Nat) | recal (c : Nat) | gate (q : Nat) | ungate (q : Nat)
  | mnumWrite (v : Nat) | spdmRequest (bytes : List Byte) | tamperLevel1 | tamperLevel2 | tamperLevel3
  | powerThrottle (q w : Nat) | thermalThrottle (q : Nat) | thermalTrip | moduleReset | attachmentReset
  | readClear (off size : Nat) | registerWrite (off size : Nat) (v : Nat)
  | unassignedWord (cause tval : Nat) | postedWrite (lid k : Nat)
  | softError (p : ErrPlace) (sector : Nat) (corrected : Bool) | modulePowerLoss
  | prepareAnswer (a : PrepAnswer) | commitAck (obj rank : Nat) | resultAck (obj : Nat) (seq : EpochSeq) (rank : Nat)
  | collQueryAnswer (obj : Nat) (seq : EpochSeq) (rank : Nat) | closeAck (model shard num epoch : Nat)
  | pnOpenRequest (m model shard role epoch : Nat) (dtab : List (Nat × Option Word)) | repairCommandDone
  deriving DecidableEq, Repr

/-- What an agenda asks for: a step of the part, or the next issue of a core (log entry 2). -/
inductive Action where
  | happen (e : Event)
  | issue (lid : Nat)
  deriving DecidableEq, Repr

/-- Why a step stops with a fault. -/
inductive Fault where
  /-- An engine, a cut or a save reaches module memory at or past 2 TiB without translation (R212, R355, R357 name only module
  memory there; log entry 18): safe, the machine stops where the manual gives no effect. -/
  | noMemory (addr : Nat)
  deriving DecidableEq, Repr

/-- Why a step is refused. -/
inductive Refusal where
  /-- No meaning is given to the instruction yet; raised by an arm of the dispatcher only: safe. -/
  | notModelled (mnemonic : String)
  deriving DecidableEq, Repr

/-- The instruction being executed: its core and slot, its first address, its length in bytes, its instruction word (R58), whether
a step trap follows its completion (R196), and since when it waits, if it is a waiting instruction tried again (R98). -/
structure Issue where
  lid : Nat
  slot : Nat
  start : DWord
  length : Nat
  word : Nat
  stepping : Bool
  since : Option Nat
  deriving DecidableEq, Repr

/-- The states of a context slot (R201): free, ready (which a waiting slot is too, see `Slot.wait`), halted. -/
inductive SlotSt where
  | free | ready | halted
  deriving DecidableEq, Repr

/-- Where an address leads after translation (R256, R258). -/
inductive Place where
  | memory (pa : Nat)
  | host (addr : Nat)
  | object (pa : Nat)
  | far (m : Nat) (addr : Nat)
  deriving DecidableEq, Repr

/-- An entry of a streaming buffer (R269): where it goes, its virtual address, its bytes, the clock it was stamped with, and the
request entry it holds once a fabric-remote drain has begun. -/
structure SbEntry where
  place : Place
  va : DWord
  data : List Byte
  clock : Nat
  entry : Option Nat
  deriving DecidableEq, Repr

/-- A wait of R98: the waiting instruction with what its issue recorded, the order stamp of the wait's start (R104), and how it
ends: `poll` waits try their instruction again, others end by a reply; `keep` marks a wait that no notice abandons. `sbuf` is the
context's streaming buffer as the instruction saw it (R269). -/
structure Wait where
  poll : Bool
  keep : Bool
  instr : Instr
  start : DWord
  length : Nat
  word : Nat
  stepping : Bool
  since : Nat
  sbuf : List SbEntry
  deriving DecidableEq, Repr

/-- A held notice: TCAUSE and TVAL (R192). -/
structure Notice where
  cause : Word
  val : DWord
  deriving DecidableEq, Repr

/-- A failed streaming store that a fence will collect (R269, R277): its level, the trap cause and the address. -/
structure SFail where
  level : Nat
  cause : Nat
  va : DWord
  deriving DecidableEq, Repr

/-- What a request entry is held for (R271). -/
inductive EntryUse where
  | access (clock : Nat)                -- a fabric-remote load, store or atomic of the waiting instruction, sent at this clock
  | stream (place : Nat) (va : DWord)   -- a drained streaming store to a module
  | poolAtomic (target off : Nat)       -- a remote pool atomic
  | clause (target : Nat)               -- a clause flit
  | load (clock : Nat)                  -- an `ldgt`
  | coll (id : Nat)                     -- a collective
  | node                                -- a parameter-node request
  | object                              -- a request to an object of another module
  | abandoned                           -- an access whose wait a notice abandoned
  deriving DecidableEq, Repr

/-- A taken request entry (R271): its use, the serial of its request (the rest of the tag) and its level (R273). -/
structure Entry where
  use : EntryUse
  serial : Nat
  level : Nat
  deriving DecidableEq, Repr

/-- Where a task came from (R153). -/
inductive Origin where
  | entry | call | spawn | local | service | update (model shard blk step : Nat)
  deriving DecidableEq, Repr

/-- The task of a slot: its origin and its serial number on the module. -/
structure Task where
  origin : Origin
  serial : Nat
  deriving DecidableEq, Repr

/-- A context (R74, R78, R190, R201). `loaded` marks a context that an image brought and that has not issued since (R203); `half` is what
a waiting instruction has learnt so far: of an `ftype` the first doubleword of its entry with the clock that its load calls for (R150),
of a `coll` or `pnopen` whose GROUP is on another module that address, or with it the slot that the module has named (R291), of a
`ctxout` the lines that it has still to store (R202). -/
structure Slot where
  st : SlotSt
  task : Option Task
  regs : Map Word
  aregs : Map DWord
  pc : DWord
  stat : Word
  tcause : Word
  tval : DWord
  tepc : DWord
  tstat : Word
  tvec : DWord
  fst : Word
  sfst : Word
  bank : Map Word
  sd : Map Word
  sdh : DWord
  rv : Map Word
  rvh : DWord
  yjob : Word
  ksrc : DWord
  kdst : DWord
  klay : DWord
  kbase : DWord
  kext : Map Word
  wait : Option Wait
  notices : List Notice
  stepDue : Option DWord
  lease : Option Nat
  yask : Option Nat
  sbuf : List SbEntry
  sfail : List SFail
  fclock : Map Nat
  entries : Map (Option Entry)
  loaded : Bool
  half : Option (List Byte)
  deriving DecidableEq, Repr

/-- A handle record (R99). -/
structure Handle where
  bnd : Bool
  mbx : Bool
  resz : Nat
  rbase : Nat
  rlog : Nat
  head : Word
  pub : Word
  rsv : Word
  deriving DecidableEq, Repr

/-- What a run-queue entry is (R158, R200, R270). -/
inductive QKind where
  | call | spawn | local | clause | atomic | service | update (model shard blk step : Nat)
  deriving DecidableEq, Repr

/-- A run-queue entry: its kind, current level, start address (tasks), four arguments, and the flit it came by, if any, with the
launch, the tag and the serial of its sender's request (R271). -/
structure QEntry where
  kind : QKind
  level : Nat
  start : DWord
  args : Map Word
  flit : Option Flit
  uid : Nat
  tag : Nat
  serial : Nat
  deriving DecidableEq, Repr

/-- A graph node (R170). -/
structure Node where
  arm : Bool
  cnt : Int
  pend : Bool
  start : DWord
  words : Map Word
  prio : Nat
  deriving DecidableEq, Repr

/-- A copy of a line in a core's L1 (R261): the version it holds, named by its wts, its lease end, and whether it may also be
absent (a store's new version that the L1 may keep, R262). -/
structure Copy where
  valid : Bool
  wts : Nat
  rts : Nat
  maybe : Bool
  deriving DecidableEq, Repr

/-- A line of another module that a core's L1 keeps (R332): its bytes, wts and lease end. -/
structure FarCopy where
  data : List Byte
  wts : Nat
  rts : Nat
  deriving DecidableEq, Repr

/-- The part a core takes in a cut (R209 to R211): recorded and not yet completed, and the counts of its image's log; `due` once a
marker or the start of the cut has reached the core, until it records. -/
structure CoreCut where
  due : Bool
  holding : Bool
  complete : Bool
  sentAt : Nat
  logged : Nat
  unlogged : Nat
  deriving DecidableEq, Repr

/-- The states of a yoke job (R225, R226, R234); a running job is a queued one whose turn has come. -/
inductive YState where
  | queued | stopped | complete
  deriving DecidableEq, Repr

/-- What a yoke job does (R233, R237): `mma` with A remote, B remote, steps and accumulator offset. -/
inductive YKind where
  | zero (c : Nat)
  | mma (ra rb : Bool) (n c : Nat)
  | store (c o : Nat)
  deriving DecidableEq, Repr

/-- The record of a yoke job (R225, R233 to R236): its operand block, format context and decode table (as differences from the
g8a decodes) as accepted, its progress, the context and task that issued it, the flags collected, the clock of its loads with the
streaming buffer of the context then (R236, R269), and the layout records of its remote parts, A before B, once read. -/
structure YJob where
  id : Nat
  kind : YKind
  state : YState
  progress : Nat
  fmt : Word
  block : List Byte
  dtab : Map (Option Word)
  slot : Nat
  serial : Nat
  flags : Word
  clock : Nat
  sbuf : List SbEntry
  recs : Option (List (List Byte))
  deriving DecidableEq, Repr

/-- A change of bits of one byte that a tug store makes (R242): by which element, where, which bits, and their value. -/
structure Patch where
  elem : Nat
  place : Place
  va : Nat
  mask : Nat
  val : Nat
  deriving DecidableEq, Repr

/-- The states of a tug transfer (R240 to R248): queued, sized (its layout record read and checked), complete, stopped. -/
inductive XState where
  | queued | sized | complete | stopped
  deriving DecidableEq, Repr

/-- The record of a tug transfer (R240 to R245): the snapshot of the eight registers and the decode table, the layout record once
read, the sectors announced and landed, the context that issued it, the clock of its loads with the streaming buffer of the context
then, the greatest timestamp of its stores, the lines that it has stored to, each with the element below which its changes went out,
the changes of other modules set out to be made, and the request that awaits its acknowledgement (R244): its serial, the address of its
first element, and that element's number. -/
structure Xfer where
  id : Nat
  state : XState
  src : DWord
  dst : DWord
  lay : DWord
  base : DWord
  ext : List Word
  dtab : Map (Option Word)
  record : List Byte
  sectors : Nat
  landed : Nat
  slot : Nat
  clock : Nat
  stored : Nat
  lines : List (Place × Nat)
  sbuf : List SbEntry
  fars : List Patch
  asked : Option (Nat × Nat × Nat)
  deriving DecidableEq, Repr

/-- A collective as its core knows it (R303, R308): running, or ended with its status word and the clock of its stores (R307). -/
structure CollRec where
  id : Nat
  obj : Nat
  epoch : Nat
  seq : Nat
  ended : Option (Word × Nat)
  deriving DecidableEq, Repr

/-- A core (R74 to R79, R200, and the yoke's and tug's state of each core). -/
structure Core where
  queue : Option Nat
  uid : Nat
  index : Nat
  exited : Bool
  swapped : Bool
  forward : Option Nat
  pts : Nat
  part : Word
  cutid : Word
  pool : Map Byte
  full : Map Bool
  handles : Map Handle
  cvres : Word
  cvcnt : Word
  cvthr : Word
  cvwin : Word
  sldisc : Word
  blost : Word
  bmbx : Option Nat
  derr : Word
  dcode : Word
  entryOver : Bool
  csent : Nat
  crecv : Nat
  age : Nat
  edges : List Nat
  runq : List QEntry
  nodes : Map Node
  dtab : Map (Option Word)
  rot : Nat
  cut : CoreCut
  l1 : Map Copy
  far : Map (Option FarCopy)
  yfmt : Word
  nextJob : Nat
  jobs : List YJob
  latch : Map Word
  nextXfer : Nat
  xfers : List Xfer
  nextColl : Nat
  colls : List CollRec
  slots : Map Slot
  deriving DecidableEq, Repr

/-- What a team's cores share: the instruction cache (for each line fetched, one more than the order stamp of its fill; R198), the
code distributed at placement (its stamp and first address, R183), the yoke's grant pointer and the slot from which it serves (R223,
R226), and the copies its cores' fetches brought into the string's L2 (R261). -/
structure Team where
  icache : Map Nat
  dist : Option (Nat × Nat)
  ygrant : Nat
  yserved : Nat
  l2 : Map Copy
  guest : Option Nat
  deriving DecidableEq, Repr

/-- A version of a line that a later store replaced (R274): its write time, its lease end, the order stamp of its creation, and the
bytes of it that the next version overwrote. -/
structure Version where
  wts : Nat
  rts : Nat
  made : Nat
  undo : Map (Option Byte)
  deriving DecidableEq, Repr

/-- A line at its home (R261): the current version's write time, lease end and creation stamp, and the older versions, newest
first. -/
structure Line where
  wts : Nat
  rts : Nat
  made : Nat
  older : List Version
  deriving DecidableEq, Repr

/-- A translation kept by a TLB (R259): the first address and size of its page, and the leaf. -/
structure Held where
  va : Nat
  size : Nat
  leaf : DWord
  deriving DecidableEq, Repr

/-- A done record as the rein tree combines it (R175). -/
structure DoneRec where
  err : Nat
  code : Nat
  count : Nat
  res : Word
  cores : Nat
  deriving DecidableEq, Repr

/-- One core's closing of a convergence window (R149, R177). -/
structure Closed where
  index : Nat
  win : Nat
  res : Word
  cnt : Nat
  deriving DecidableEq, Repr

/-- The cut of a launch (R209 to R214): its id, its kind, whether it has completed, and whether a log overflowed. -/
structure Cut where
  id : Word
  save : Bool
  complete : Bool
  deriving DecidableEq, Repr

/-- Where a launch stands (R180 to R184): waiting in the arbiter, placed, or saved. -/
inductive Phase where
  | waiting | placed | saved
  deriving DecidableEq, Repr

/-- A launch that passed the arbiter's checks (R179, R183, R355): its record's fields, what was captured at placement, and the
state of its rein tree; `expired` marks a slice that expired while a snapshot cut was in progress (R214), `lost` a
spilled flit that was lost (R357), and `colls` keeps, while the launch is saved, what its cores knew of their collectives by the core ids
of the save: the next id and the records (R307, R308). -/
structure Launch where
  uid : Nat
  phase : Phase
  restore : Bool
  arrived : Nat
  seq : Nat
  image : DWord
  entry : Nat
  part : Word
  fteamAsked : Nat
  fteam : Nat
  tcnt : Nat
  root : Nat
  slice : Nat
  args : DWord
  htab : List Nat
  prio : Nat
  fset : Nat
  lease : Nat
  setw : Nat
  ptroot : DWord
  rvec : DWord
  cuta : DWord
  sava : DWord
  dln : Nat
  teamDone : Map (Option DoneRec)
  coreDone : Map (Option DoneRec)
  closed : List Closed
  cut : Option Cut
  expired : Bool
  lost : Bool
  colls : Map (Nat × List CollRec)
  tlb : List Held
  deriving DecidableEq, Repr

/-- A launch queue's registers (R177, R355) and its launch. -/
structure Queue where
  cpla : DWord
  ptroot : DWord
  rvec : DWord
  cuta : DWord
  sava : DWord
  dln : Nat
  seq : Word
  rst : Bool
  splost : Nat
  badw : Nat
  spilled : Nat
  lcvres : Word
  lcvcnt : Word
  lcvwin : Word
  run : Nat
  stl : Bool
  launch : Option Launch
  deriving DecidableEq, Repr

/-- A flit in flight or waiting for its router (R117, R186): the team whose router injects it (none for the copies of a multicast and
for the groom's requests), the launch of its sender (its uid), its injection stamp (R187), and the tag (slot and entry) and serial of
the request it makes or answers (R271). -/
structure InFlight where
  flit : Flit
  team : Option Nat
  uid : Nat
  stamp : Nat
  tag : Nat
  serial : Nat
  deriving DecidableEq, Repr

/-- A request under way to a home (R261 to R264): who waits, the physical address, what is asked, and the clock it carries. -/
inductive HomeOp where
  | load (n : Nat)
  | store (data : List Byte)
  | atomic (op : AtOp) (n : Nat) (operand : List Byte)
  | discard
  deriving DecidableEq, Repr

/-- A request in flight to a home, or its reply on the way back (`answer`); `since` names the wait that it serves. -/
structure HomeReq where
  id : Nat
  lid : Nat
  slot : Nat
  entry : Nat
  serial : Nat
  pa : Nat
  op : HomeOp
  clock : Nat
  since : Nat
  answer : Option Reply
  deriving DecidableEq, Repr

/-- The groom and the module block (R354, R361 to R372). `svcReq` is the service request that SVCGO.BUSY stands for, `stageLen` the
length that STAGE took (R364), `images` and `queries` the group images and SPDM requests that wait for RDY (R364), `msix` the MSI-X
table (R352), `storedHash`, `stagedHash` and `fused` what the groom measures (R366): the hashes of the images, and the teams fused in
the field, each by its logical number when it was fused; `linksBegun` tells that the firmware has trained the links since the reset
(R363). -/
structure Device where
  mnum : Nat
  tcnt : Nat
  accept : BitVec 128
  rbc : Word
  stray : Word
  serr : Word
  uerr : Word
  xroot : DWord
  mevt : Byte
  svcd : Nat
  svcw0 : Word
  svcw1 : Nat
  svcReq : Option Flit
  gslot : Nat
  svst : Byte
  gist : Byte
  fwa : DWord
  fwlen : Word
  fwRdy : Bool
  fwWhy : Nat
  fwState : Nat
  rpState : Nat
  rpReason : Nat
  pcap : Map Nat
  pwr : Map Nat
  level : Map Nat
  tampCnt : Nat
  tampLvl : Nat
  stored : Option Nat
  storedHash : List Byte
  staged : Option Nat
  stagedHash : List Byte
  stageLen : Nat
  fuseMin : Nat
  fused : List Nat
  linksBegun : Bool
  idKey : Bool
  attKeys : Bool
  fenced : List Nat
  gated : List Nat
  repair : Option (Nat × Nat)
  power : Bool
  computeOff : Bool
  images : List (Nat × List Byte)
  queries : List (List Byte)
  msix : Map Byte
  deriving DecidableEq, Repr

/-- What left for the host: a write to its memory (R176, R360), an MSI-X message (R176, R354), an answer of the groom (R366), and the
value that a read of the device window returned (R353). -/
inductive HostWrite where
  | data (addr : Nat) (bytes : List Byte)
  | msix (vector : Nat)
  | spdm (bytes : List Byte)
  | read (off v : Nat)
  deriving DecidableEq, Repr

/-- A posted store to host memory that has not left the port yet (R260, R360): who waits for it and what it writes. -/
structure Posted where
  lid : Nat
  slot : Nat
  addr : Nat
  data : List Byte
  deriving DecidableEq, Repr

/-- A load of host memory whose completion the host owes (R260, R360), with the request entry of an `ldgt` and its serial; `since`
names the wait that it serves. -/
structure HostLoad where
  lid : Nat
  slot : Nat
  addr : Nat
  n : Nat
  entry : Option Nat
  serial : Nat
  since : Nat
  deriving DecidableEq, Repr

/-- The items of one direction of a link (R322, R349); `lmap` and `spd` are the fields of LSW. -/
structure LinkDir where
  cnt : Map Nat
  thr : Map Nat
  act : Nat
  wst : Nat
  hseq : Nat
  rseq : Nat
  lmap : Nat
  spd : Nat
  minw : Nat
  rtry : Nat
  nakc : Nat
  uncr : Map Nat
  evt : Nat
  lout : Nat
  deriving DecidableEq, Repr

/-- A training under way (R345): its round, the map and speed adopted in the round before, and the last word that the partner sent in it,
0 before any (R373). -/
structure Training where
  round : Nat
  lmap : Nat
  spd : Nat
  heard : Word
  deriving DecidableEq, Repr

/-- A link: its items of both directions, its transmitter (next number, unacknowledged flits with the count of their sends, the
payloads of packets not begun by channel, those left of the packet begun, the channel served next) and its receiver (R336 to R338:
expected number, waiting, flits accepted since the last ACK, packets in assembly, buffer entries held by channel, the hand-back notices
of R346 for flits still to come), the boundaries that the next flits must open (R324), the hand-backs opened whose flit HSEQ is not
acknowledged, each with its lane (R346), and what it last told of its routing state and of this end's part in it,
with whether the far end is out (R342). -/
structure Link where
  up : Bool
  peer : Word
  psw : Word
  round : Nat
  adm : Bool
  training : Option Training
  tx : LinkDir
  rx : LinkDir
  nextSeq : Nat
  retry : List (FabFlit × Nat)
  txq : List (Nat × List (List Byte))
  begun : Option (Nat × List (List Byte))
  rot : Nat
  expect : Nat
  waiting : Bool
  debt : Nat
  asm : Map (List FabFlit)
  held : Map Nat
  notes : List (Nat × Nat)
  handed : List (Nat × Nat)
  mark : List Nat
  routing : Bool
  told : Bool
  farOut : Bool
  deriving DecidableEq, Repr

/-- A packet accepted here on its way to another module (R334), as its flits brought it (R325), with the link and channel whose buffer
entries it holds; or a reply of this module that waits for room on its output (R344). -/
structure Transit where
  pkt : Packet
  raw : List (List Byte)
  link : Option LinkId
  ch : Nat
  flits : Nat
  deriving DecidableEq, Repr

/-- What a hitch knows of another module of the group: a link in routing and its far module (R342). The reach words that came over
links of the group are kept in `State.reach` by that position and link. -/
structure Route where
  pos : Nat
  link : LinkId
  peer : Nat
  deriving DecidableEq, Repr

/-- A barrier object (R297): `anchor` is the module and core that issued `binit`, `aclk` the highest clock among the arrivals of the
phase under way. -/
structure Barrier where
  count : Nat
  arr : Nat
  phase : Nat
  rphase : Nat
  scope : Nat
  anchor : Nat × Nat
  pclk : Nat
  aclk : Nat
  deriving DecidableEq, Repr

/-- Who waits for the answer to a FORM (R295, R296): a context in the wait of an order stamp, a request of another module, or the hitch
itself. -/
inductive Asker where
  | context (lid slot since : Nat)
  | far (p : Packet)
  | hitch
  deriving DecidableEq, Repr

/-- A FORM that a hitch has sent (R295 step 1): its number, who waits, the drop set, and the rank asked. -/
structure Ask where
  id : Nat
  asker : Asker
  drop : List Nat
  leader : Nat
  deriving DecidableEq, Repr

/-- A re-formation at its leader (R295): the drop set, the ranks sent PREPARE, their answers, the FORMs that joined, and after COMMIT
the epoch with the live set, and the ranks that have acknowledged. -/
structure Lead where
  drop : List Nat
  asked : List Nat
  answers : List PrepAnswer
  forms : List Nat
  committed : Option (Nat × List Nat)
  acks : List Nat
  deriving DecidableEq, Repr

/-- A group object with what the member's hitch keeps for it (R293, R295, R303): STATE, MYRANK, EPOCH, NMEM, GDL, MTAB and the table
read from it, the live ranks, the last SEQ issued here, the rank whose PREPARE was taken, whether its COMMIT is overdue, the
re-formation led here, the FORMs sent, and the requests held while STATE is 1. -/
structure Group where
  forming : Bool
  rank : Nat
  epoch : Nat
  nmem : Nat
  gdl : Nat
  mtab : Nat
  mods : List Nat
  live : List Nat
  lastSeq : Option Nat
  prepared : Option Nat
  overdue : Bool
  lead : Option Lead
  asks : List Ask
  held : List Event
  deriving DecidableEq, Repr

/-- What an object slot holds (R290). -/
inductive Obj where
  | free
  | barrier (b : Barrier)
  | group (g : Group)
  deriving DecidableEq, Repr

/-- Who issued a collective here (R303): launch, core, context, request entry and its serial, and the collective's id. -/
structure Issuer where
  uid : Nat
  lid : Nat
  slot : Nat
  entry : Nat
  serial : Nat
  id : Nat
  deriving DecidableEq, Repr

/-- A collective as this member's hitch holds it (R304): who issued it, if it has been issued here, the destination's elements with
their size, the RESULT taken (status word and data), whether it has ended, and the clock of its stores (R307). -/
structure Hold where
  obj : Nat
  epoch : Nat
  seq : Nat
  issuer : Option Issuer
  dst : List Nat
  size : Nat
  result : Option (Nat × List Byte)
  ended : Bool
  clock : Nat
  deriving DecidableEq, Repr

/-- Where a root stands with a collective (R304): collecting; querying the missing members; RESULT sent, with the status, the ranks
counted as lost and the ranks that have acknowledged; released. -/
inductive RootSt where
  | collecting
  | querying (missing answered : List Nat)
  | sent (status : Nat) (lost acks : List Nat)
  | released
  deriving DecidableEq, Repr

/-- A collective at its root (R304). -/
structure Root where
  obj : Nat
  epoch : Nat
  seq : Nat
  got : List Contribution
  st : RootSt
  deriving DecidableEq, Repr

/-- A region of a shard as the hitch translated it at the open (R311): its virtual address, and for each 64 KiB that it touches the
physical address. -/
structure Region where
  va : Nat
  pages : List Nat
  deriving DecidableEq, Repr

/-- A shard open here (R309, R311): its record, its owner and launch, its regions (`master` is FRESH at a subscriber), the step table,
the close under way (`closing` holds FORCE, `closers` its requests; `passing` is the record that the mirror has yet to acknowledge,
`passers` the requests that an INCOMPLETE one answers), the closes and pushes that wait, the partner, the primary (of a subscriber), SUBS, CNUM with the latest close record, the captured decode table, the contexts
that wait for the open (each with the order stamp of its wait; true: the opener), and the blocks whose update call is to be sent again. -/
structure Shard where
  model : Nat
  shard : Nat
  obj : Nat
  va : Nat
  uid : Nat
  owner : Nat
  nblk : Nat
  blen : Nat
  hidx : Nat
  ffmt : Nat
  role : Nat
  deadline : Nat
  master : Region
  moment : Region
  stage : Region
  step : Nat
  recv : Nat
  appl : Nat
  mack : Nat
  last : Map Nat
  closing : Option Bool
  passing : Option CloseRec
  closers : List PnFrom
  passers : List PnFrom
  later : List (PnFrom × Nat × Bool)
  pushes : List Event
  partner : Option Nat
  primary : Option Nat
  subs : List Nat
  cnum : Nat
  latest : Option CloseRec
  dtab : Map (Option Word)
  opening : Bool
  openers : List (Nat × Nat × Nat × Bool)
  calls : List Nat
  deriving DecidableEq, Repr

/-- The module. The first seven fields are the model's own (log entries 2 to 4); the rest is the state the manual names. -/
structure State where
  issue : Issue
  agenda : List Action
  turn : Nat
  stamp : Nat
  free : Nat
  prompt : Bool
  serial : Nat
  cores : Map Core
  teams : Map Team
  queues : Map Queue
  mem : List Host.Cell
  lines : Map Line
  bad : Map Bool
  base : Nat
  reqs : List HomeReq
  posted : List Posted
  hostLoads : List HostLoad
  flight : List InFlight
  goldenRouter : Nat
  goldenStamp : Option Nat
  dev : Device
  hostOut : List HostWrite
  links : Map Link
  transit : List Transit
  linkOut : List (LinkId × FabFlit)
  routes : List Route
  reach : Map Word
  objects : Map Obj
  farWaits : List (Nat × Packet)
  holds : List Hold
  roots : List Root
  shards : List Shard
  away : List (Place × Nat × Origin)
  hitchClock : Nat
  outbox : List (Nat × Event)
  deriving DecidableEq, Repr

/-- A free context slot that nothing has run in; the values of registers that no rule gives are those of log entry 5. -/
def Slot.empty : Slot :=
  { st := .free, task := none, regs := [], aregs := [], pc := 0, stat := 0, tcause := 0, tval := 0, tepc := 0, tstat := 0,
    tvec := 0, fst := 0, sfst := 0, bank := [], sd := [], sdh := 0, rv := [], rvh := 0, yjob := 0, ksrc := 0, kdst := 0,
    klay := 0, kbase := 0, kext := [], wait := none, notices := [], stepDue := none, lease := none, yask := none, sbuf := [],
    sfail := [], fclock := [], entries := [], loaded := false, half := none }

/-- An unbound handle record (R99: every record is zero at placement). -/
def Handle.empty : Handle :=
  { bnd := false, mbx := false, resz := 0, rbase := 0, rlog := 0, head := 0, pub := 0, rsv := 0 }

/-- An idle graph node (R170). -/
def Node.empty : Node := { arm := false, cnt := 0, pend := false, start := 0, words := [], prio := 0 }

/-- No copy of a line. -/
def Copy.none : Copy := { valid := false, wts := 0, rts := 0, maybe := false }

/-- A core that no cut has recorded. -/
def CoreCut.none : CoreCut := { due := false, holding := false, complete := true, sentAt := 0, logged := 0, unlogged := 0 }

/-- A core that runs no launch (R78, R170, R228, R232; log entry 5). -/
def Core.empty : Core :=
  { queue := none, uid := 0, index := 0, exited := false, swapped := false, forward := none, pts := 0, part := 0, cutid := 0,
    pool := [], full := [], handles := [], cvres := 0, cvcnt := 0, cvthr := 0, cvwin := 0, sldisc := 0, blost := 0, bmbx := none,
    derr := 0, dcode := 0, entryOver := false, csent := 0, crecv := 0, age := 0, edges := [], runq := [], nodes := [], dtab := [],
    rot := 0, cut := CoreCut.none, l1 := [], far := [], yfmt := 0, nextJob := 1, jobs := [], latch := [], nextXfer := 1, xfers := [],
    nextColl := 1, colls := [], slots := [] }

/-- A team nothing has run on. -/
def Team.empty : Team := { icache := [], dist := none, ygrant := 0, yserved := 0, l2 := [], guest := none }

/-- A line never written: clocks at 0 (log entry 5). -/
def Line.empty : Line := { wts := 0, rts := 0, made := 0, older := [] }

/-- A launch queue at reset (R177, R355). -/
def Queue.empty : Queue :=
  { cpla := 0, ptroot := 0, rvec := 0, cuta := 0, sava := 0, dln := 1000, seq := 0, rst := false, splost := 0, badw := 0,
    spilled := 0, lcvres := 0, lcvcnt := 0, lcvwin := 0xFFFFFFFF, run := 0, stl := false, launch := none }

/-- The items of a direction of a link that has not trained (R373). -/
def LinkDir.empty : LinkDir :=
  { cnt := [], thr := [], act := 0, wst := 2, hseq := 0, rseq := 0, lmap := 0, spd := 0, minw := 2, rtry := 0, nakc := 0,
    uncr := [], evt := 0, lout := 0x1F }

/-- A link that has not trained since the module reset (R373). -/
def Link.empty : Link :=
  { up := false, peer := 0xFFFFFFFF, psw := 0, round := 0, adm := false, training := none, tx := LinkDir.empty,
    rx := LinkDir.empty, nextSeq := 1, retry := [], txq := [], begun := none, rot := 0, expect := 1, waiting := false, debt := 0,
    asm := [], held := [], notes := [], handed := [], mark := [], routing := false, told := false, farOut := false }

/-- The module block at reset (R354, R359, R370; log entry 5 for the values no rule gives). -/
def Device.reset : Device :=
  { mnum := Config.installedModule, tcnt := Config.shippedTeams, accept := 1, rbc := 0, stray := 0, serr := 0, uerr := 0,
    xroot := 0, mevt := 0, svcd := 0, svcw0 := 0, svcw1 := 0, svcReq := none, gslot := 0, svst := 0, gist := 0, fwa := 0,
    fwlen := 0, fwRdy := false, fwWhy := 0, fwState := 0, rpState := 0, rpReason := 0, pcap := [], pwr := [], level := [],
    tampCnt := 0, tampLvl := 0, stored := some 0, storedHash := Config.shippedHash, staged := none, stagedHash := [], stageLen := 0,
    fuseMin := 0, fused := [], linksBegun := false, idKey := true, attKeys := true, fenced := [],
    gated := [], repair := none, power := true, computeOff := false, images := [], queries := [], msix := [] }

/-- The module right after reset. -/
def State.reset : State :=
  { issue := { lid := 0, slot := 0, start := 0, length := 0, word := 0, stepping := false, since := none }, agenda := [],
    turn := 0, stamp := 0, free := 0, prompt := true, serial := 0, cores := [], teams := [], queues := [], mem := [],
    lines := [], bad := [], base := Config.base0, reqs := [], posted := [], hostLoads := [], flight := [], goldenRouter := 0,
    goldenStamp := none, dev := Device.reset, hostOut := [],
    links := [], transit := [], linkOut := [], routes := [], reach := [], objects := [], farWaits := [], holds := [],
    roots := [], shards := [], away := [],
    hitchClock := 0, outbox := [] }

end Sys2Proof.Machine
end

