-- ==== Sys2Proof/Machine/Ops.lean ====
section
/-! DEFINITION. The named operations over cores, contexts and registers: reading and writing registers, completing an instruction,
waiting (R98), taking an exception (R193, R194), ending tasks and cores (R156, R166, R167). -/

namespace Sys2Proof.Machine

/-- What a meaning answers. -/
abbrev Out := Host.Outcome State Fault Refusal

/-- A 64-bit word of a number (trunc64 of R72). -/
def u64 (n : Nat) : DWord := BitVec.ofNat 64 n

/-- A 32-bit word of a number (trunc32 of R72). -/
def u32 (n : Nat) : Word := BitVec.ofNat 32 n

/-- trunc32 of an integer (R72). -/
def w32 (n : Int) : Word := BitVec.ofInt 32 n

/-- trunc64 of an integer (R72). -/
def w64 (n : Int) : DWord := BitVec.ofInt 64 n

/-- Bits lo to lo + len - 1 of a number. -/
def bits (n lo len : Nat) : Nat := n / 2 ^ lo % 2 ^ len

/-- A word with bits lo to lo + len - 1 replaced. -/
def setBits (w : Word) (lo len v : Nat) : Word :=
  u32 (w.toNat % 2 ^ lo + v % 2 ^ len * 2 ^ lo + w.toNat / 2 ^ (lo + len) * 2 ^ (lo + len))

/-! ### The partition word and the regions of the pool (R74, R76) -/

/-- Context slots C (R74). -/
def partC (p : Word) : Nat := bits p.toNat 30 2 + 1

/-- The REGS code (R74). -/
def partRegs (p : Word) : Nat := bits p.toNat 28 2

/-- General registers per context, G (R74). -/
def partG (p : Word) : Nat := 16 * 2 ^ partRegs p

/-- Accumulator bytes (R74). -/
def partAcc (p : Word) : Nat := 256 * bits p.toNat 22 6

/-- Handle records per core, Hc (R74). -/
def partH (p : Word) : Nat := bits p.toNat 16 6

/-- Whether a partition word is valid (R75). -/
def partOk (p : Word) : Bool := partH p ≤ 16 ∧ bits p.toNat 0 16 = 0

/-- The first offset past HND (R76). -/
def hndEnd (p : Word) : Nat := 4 * partC p * partG p + 16 * partH p

/-- The first offset of ACC, ab (R76). -/
def accBase (p : Word) : Nat := (hndEnd p + 255) / 256 * 256

/-- Whether n bytes from o lie in ACC and SCR (R91). -/
def inPool (p : Word) (o n : Nat) : Bool := hndEnd p ≤ o ∧ o + n ≤ 0x6000

/-- Whether n bytes from o lie in ACC (R76). -/
def inAcc (p : Word) (o n : Nat) : Bool := accBase p ≤ o ∧ o + n ≤ accBase p + partAcc p

/-! ### Cores and contexts -/

/-- A core by its logical id. -/
def State.core (s : State) (l : Nat) : Core := Map.get Core.empty s.cores l

/-- The state with a core replaced. -/
def State.setCore (s : State) (l : Nat) (c : Core) : State := { s with cores := Map.set Core.empty s.cores l c }

/-- A context slot of a core. -/
def Core.slot (c : Core) (k : Nat) : Slot := Map.get Slot.empty c.slots k

/-- A core with a context slot replaced. -/
def Core.setSlot (c : Core) (k : Nat) (x : Slot) : Core := { c with slots := Map.set Slot.empty c.slots k x }

/-- A context of the module. -/
def State.slotAt (s : State) (l k : Nat) : Slot := (s.core l).slot k

/-- The state with a context replaced. -/
def State.setSlotAt (s : State) (l k : Nat) (x : Slot) : State := s.setCore l ((s.core l).setSlot k x)

/-- The executing core. -/
def State.me (s : State) : Core := s.core s.issue.lid

/-- The state with the executing core replaced. -/
def State.setMe (s : State) (c : Core) : State := s.setCore s.issue.lid c

/-- The executing context. -/
def State.slot (s : State) : Slot := s.me.slot s.issue.slot

/-- The state with the executing context replaced. -/
def State.setSlot (s : State) (x : Slot) : State := s.setMe (s.me.setSlot s.issue.slot x)

/-- A launch queue. -/
def State.queue (s : State) (q : Nat) : Queue := Map.get Queue.empty s.queues q

/-- The state with a launch queue replaced. -/
def State.setQueue (s : State) (q : Nat) (x : Queue) : State := { s with queues := Map.set Queue.empty s.queues q x }

/-- A team. -/
def State.team (s : State) (t : Nat) : Team := Map.get Team.empty s.teams t

/-- The state with a team replaced. -/
def State.setTeam (s : State) (t : Nat) (x : Team) : State := { s with teams := Map.set Team.empty s.teams t x }

/-- The launch that a core runs (R173). -/
def State.launchOf (s : State) (l : Nat) : Option Launch := (s.core l).queue.bind fun q => (s.queue q).launch

/-- The virtual slot in which a clause executes with registers of its own (R129). -/
def clauseSlot : Nat := 4

/-! ### Registers of the executing context -/

/-- General register n. -/
def State.g (s : State) (n : Nat) : Word := Map.get 0 s.slot.regs n

/-- Address register n. -/
def State.a (s : State) (n : Nat) : DWord := Map.get 0 s.slot.aregs n

/-- A slot with general register n written. -/
def Slot.wr (x : Slot) (n : Nat) (v : Word) : Slot := { x with regs := Map.set 0 x.regs n v }

/-- A slot with address register n written. -/
def Slot.wra (x : Slot) (n : Nat) (v : DWord) : Slot := { x with aregs := Map.set 0 x.aregs n v }

/-- General register n written. -/
def State.wr (s : State) (n : Nat) (v : Word) : State := s.setSlot (s.slot.wr n v)

/-- Address register n written. -/
def State.wra (s : State) (n : Nat) (v : DWord) : State := s.setSlot (s.slot.wra n v)

/-- Consecutive general registers written, the lowest first. -/
def State.wrs (s : State) (n : Nat) : List Word → State
  | [] => s
  | v :: vs => (s.wr n v).wrs (n + 1) vs

/-- Lane i of quad k (R72). -/
def State.lane (s : State) (k i : Nat) : Word := s.g (4 * k + i)

/-- The pair (gn, gn+1) as a 64-bit value, gn low (R282). -/
def State.pair (s : State) (n : Nat) : Nat := (s.g n).toNat + 2 ^ 32 * (s.g (n + 1)).toNat

/-- The pair (gn, gn+1) written from a 64-bit value. -/
def State.wrPair (s : State) (n v : Nat) : State := (s.wr n (u32 v)).wr (n + 1) (u32 (v / 2 ^ 32))

/-! ### The status word (R190) -/

/-- STAT.MODE: 0 U, 1 S. -/
def statMode (w : Word) : Nat := bits w.toNat 0 1

/-- STAT.INH. -/
def statInh (w : Word) : Nat := bits w.toNat 1 1

/-- STAT.PRI. -/
def statPri (w : Word) : Nat := bits w.toNat 3 2

/-- STAT.STEP. -/
def statStep (w : Word) : Nat := bits w.toNat 5 1

/-- The address END (R156). -/
def END : DWord := 0xFFFFFFFFFFFFFFFE#64

/-- The address of the instruction after the executing one (R72 `next`). -/
def State.next (s : State) : DWord := s.issue.start + u64 s.issue.length

/-- Cause codes of R191. -/
inductive Cause where
  | illegal | priv | align | poolRange | xlate | prot | memErr | remote | noLease | yoke | tug | rett | soft | brk | slice
  | feature | barrier | slot | double
  deriving DecidableEq, Repr

/-- The code of a cause (R191). -/
def Cause.code : Cause → Nat
  | .illegal => 0x01
  | .priv => 0x02
  | .align => 0x03
  | .poolRange => 0x04
  | .xlate => 0x05
  | .prot => 0x06
  | .memErr => 0x07
  | .remote => 0x08
  | .noLease => 0x09
  | .yoke => 0x0A
  | .tug => 0x0B
  | .rett => 0x0E
  | .soft => 0x0F
  | .brk => 0x10
  | .slice => 0x11
  | .feature => 0x12
  | .barrier => 0x13
  | .slot => 0x14
  | .double => 0x15

/-! ### Ending tasks and cores -/

/-- Whether a request entry holds a store, an atomic or a remote pool store, given whether its context waits for one that no notice
abandons (R167). -/
def EntryUse.stores (u : EntryUse) (keep : Bool) : Bool :=
  match u with
  | .access _ => keep
  | .stream _ _ => true
  | .poolAtomic _ _ => true
  | .clause _ => true
  | _ => false

/-- Whether a request to a home is a store, an atomic or a discard. -/
def HomeOp.stores : HomeOp → Bool
  | .load _ => false
  | _ => true

/-- Whether every store, streaming store, remote pool store and atomic of a context has completed (R167, R202). -/
def State.slotSettled (s : State) (l k : Nat) : Bool :=
  let x := s.slotAt l k
  let keep := match x.wait with
    | some w => w.keep
    | none => false
  x.sbuf.isEmpty &&
    x.entries.all (fun e => match e.2 with
      | some en => !en.use.stores keep
      | none => true) &&
    s.reqs.all (fun r => r.lid != l || r.slot != k || !r.op.stores) && s.posted.all (fun r => r.lid != l || r.slot != k)

/-- Whether every store, streaming store, remote pool store, atomic and tug transfer of a core has completed (R167). -/
def State.coreSettled (s : State) (l : Nat) : Bool :=
  let c := s.core l
  (List.range 4).all (fun k => s.slotSettled l k) &&
    c.xfers.all (fun x => x.state == .complete || x.state == .stopped)

/-- A context whose task has ended: the slot becomes free, its lease ends (R166, R224); held notices stay with the slot (R192). -/
def Slot.ended (x : Slot) : Slot :=
  { x with st := .free, task := none, wait := none, stepDue := none, lease := none, yask := none, loaded := false, half := none }

/-- The end of a context's task (R156, R166); the entry task's end opens the run queue (R157), and the end of an update task is
reported to its node (R314). -/
def State.endTask (s : State) (l k : Nat) : State :=
  let c := s.core l
  let x := c.slot k
  let c := { c.setSlot k x.ended with
    entryOver := c.entryOver || (match x.task with | some t => t.origin == .entry | none => false) }
  let s := s.setCore l c
  match x.task with
  | some { origin := .update m sh b st, .. } => { s with agenda := s.agenda ++ [.happen (.updateTaskEnd m sh b st)] }
  | _ => s

/-- DSTAT.ERR with a bit set (R175). -/
def errBit (w : Word) (i : Nat) : Word := w ||| (1#32 <<< i)

/-- A core after `exit` (R167, R175): run queue discarded, tasks ended, LOST set by lost bounces or collected failures. A halted slot
stays halted, and its task does not count as one that `exit` ends (DESIGN CHOICE, log entry 37). -/
def Core.exitNow (c : Core) : Core :=
  let others := c.runq ≠ [] ∨ ∃ k ∈ List.range 4, (c.slot k).task.isSome ∧ (c.slot k).st = .ready
  let lost := c.blost ≠ 0 ∨ ∃ k ∈ List.range 4, (c.slot k).sfail ≠ []
  let e := if others then errBit c.derr 0 else c.derr
  let e := if lost then errBit e 2 else e
  let c := { c with exited := true, runq := [], derr := e, entryOver := true }
  (List.range 4).foldl (fun c k =>
    let x := c.slot k
    if x.st = .halted then c else c.setSlot k { x.ended with sfail := [] }) c

/-- The done record of an exited core (R175): LOST also stands for bounces lost since. -/
def Core.doneRec (c : Core) : DoneRec :=
  { err := bits c.derr.toNat 0 4, code := c.dcode.toNat % 256, count := c.cvcnt.toNat, res := c.cvres, cores := 1 }

/-- `exit` of a core (R167): the core is frozen and its done message goes to the team's router (R174). -/
def State.exitCore (s : State) (l : Nat) : State :=
  let c := (s.core l).exitNow
  let s := s.setCore l c
  match c.queue with
  | none => s
  | some q =>
    let qu := s.queue q
    match qu.launch with
    | none => s
    | some la => s.setQueue q { qu with launch := some { la with coreDone := Map.set none la.coreDone c.index (some c.doneRec) } }

/-- Whether every slot of a core is halted (R194). -/
def Core.allHalted (c : Core) : Bool := (List.range (partC c.part)).all fun k => (c.slot k).st == .halted

/-- A core all of whose slots are halted performs `exit` (R194), once what `exit` waits for has completed. -/
def State.haltedExit (s : State) (l : Nat) : State :=
  if (s.core l).allHalted && !(s.core l).exited && s.coreSettled l then s.exitCore l else s

/-! ### Taking an exception -/

/-- The exchange of g0 to g3 with the S bank (R193). -/
def Slot.swapBank (x : Slot) : Slot :=
  { x with regs := Map.setList 0 x.regs 0 (Map.getList 0 x.bank 0 4),
           bank := Map.setList 0 x.bank 0 (Map.getList 0 x.regs 0 4) }

/-- Trap entry of a context with STAT.INH = 0 (R193). -/
def Slot.enterTrap (x : Slot) (c : Word) (v e : DWord) : Slot :=
  let x := { x with tcause := c, tval := v, tepc := e, tstat := x.stat, sfst := x.fst }
  let x := x.swapBank
  { x with stat := setBits (setBits x.stat 0 2 3) 5 1 0, pc := x.tvec, wait := none, stepDue := none, yask := none,
           loaded := false, half := none }

/-- The registers of a context halted by a trap met while INH = 1 (R194). -/
def Slot.halt (x : Slot) (c : Word) (v e : DWord) : Slot :=
  { x with tcause := 0x15#32 ||| (c <<< 8), tval := v, tepc := e, st := .halted, wait := none, stepDue := none, yask := none,
           loaded := false, half := none }

/-- The halt of a context with DSTAT updated: bit 1 DBL with CODE for a trap, bit 3 HLT for `halt` (R194, R197). -/
def State.haltSlot (s : State) (l k : Nat) (c : Word) (v e : DWord) (bit : Nat) : State :=
  let co := s.core l
  let co := { co.setSlot k ((co.slot k).halt c v e) with
    derr := errBit co.derr bit,
    dcode := if bit = 1 then (if co.dcode.toNat < 0x15 then 0x15 else co.dcode) else co.dcode }
  (s.setCore l co).haltedExit l

/-- R193: a context takes a trap with cause C, value v and return address e; with INH = 1 it halts by R194. A clause's context only
notes the cause, since a clause never traps the core (R131). -/
def State.takeTrap (s : State) (l k : Nat) (c : Word) (v e : DWord) : State :=
  let x := s.slotAt l k
  if k = clauseSlot then s.setSlotAt l k { x with tcause := c, tval := v }
  else if statInh x.stat = 1 then s.haltSlot l k c v e 1
  else s.setSlotAt l k (x.enterTrap c v e)

/-- A synchronous trap of the executing instruction (R58, R72): TEPC is its start. -/
def trap (c : Cause) (v : DWord) (s : State) : Out :=
  .next (s.takeTrap s.issue.lid s.issue.slot (u32 c.code) v s.issue.start)

/-- Return from S with a TSTAT and TEPC that R195 accepts: the bank is exchanged back, FST and STAT come from their copies. -/
def Slot.leaveTrap (x : Slot) : Slot :=
  let x := x.swapBank
  { x with fst := x.sfst, stat := x.tstat, pc := x.tepc, wait := none }

/-! ### Completing an instruction -/

/-- The executing context goes on at pc; a step trap falls due when STEP was set at issue (R196); END ends the task (R156). -/
def State.finish (s : State) (pc : DWord) : State :=
  let s' := s.setSlot { s.slot with
    pc := pc, wait := none, half := none, stepDue := if s.issue.stepping then some s.issue.start else none }
  if pc = END ∧ s.issue.slot ≠ clauseSlot then s'.endTask s.issue.lid s.issue.slot else s'

/-- The executing instruction completes and control goes to the next one. -/
def done (s : State) : Out := .next (s.finish s.next)

/-- The executing instruction writes general register d and completes. -/
def doneWr (s : State) (d : Nat) (v : Word) : Out := done (s.wr d v)

/-- Control passes to an address that must be even (R49), once `f` has made the instruction's other effects. -/
def jumpTo (s : State) (pc : DWord) (f : State → State) : Out :=
  if pc.toNat % 2 = 1 then trap .align pc s else .next ((f s).finish pc)

/-- The state of which an instruction has had no effect (R73, R98; that this takes in its own loads is DEDUCED, log entry 56): it keeps the
free values used, the translations that the TLBs now hold (R259), and the errors reported (R354). -/
def State.backTo (s s0 : State) : State := { s0 with free := s.free, queues := s.queues, dev := s.dev }

/-! ### Waiting (R98) -/

/-- The executing instruction waits. A first wait of the entry task opens the run queue (R157), unless it waits for the injection
port or for the reply of a global access (`counts` false; DEDUCED for the access, log entry 46). -/
def State.waiting (s : State) (poll keep counts : Bool) (i : Instr) : State :=
  let c := s.me
  let x := c.slot s.issue.slot
  let u := s.issue
  let w : Wait := ⟨poll, keep, i, u.start, u.length, u.word, u.stepping, u.since.getD s.stamp, x.sbuf⟩
  let c := { c.setSlot s.issue.slot { x with wait := some w, pc := s.issue.start } with
    entryOver := c.entryOver || (counts && (match x.task with | some t => t.origin == .entry | none => false)) }
  { s.setMe c with stamp := s.stamp + 1 }

/-- The executing instruction waits and will be tried again (R98). -/
def block (i : Instr) (s : State) : Out := .next (s.waiting true false true i)

/-- The executing instruction waits and will be tried again, in a wait that is not the first wait of R157. -/
def blockAside (i : Instr) (s : State) : Out := .next (s.waiting true false false i)

/-- The issue record of a waiting instruction. -/
def Wait.issue (w : Wait) (l k : Nat) : Issue :=
  { lid := l, slot := k, start := w.start, length := w.length, word := w.word, stepping := w.stepping, since := some w.since }

/-- The state in which a context's waiting instruction is the executing one, for the completion a reply brings. -/
def State.resume (s : State) (l k : Nat) (w : Wait) : State := { s with issue := w.issue l k }

/-! ### Feature groups and privilege (R56, R68, R359) -/

/-- Whether the attachment has accepted a feature group. -/
def State.accepts (s : State) (grp : Nat) : Bool := s.dev.accept.getLsbD grp

/-- The feature check of decode (R56): FEATURE with the instruction word. -/
def inGroup (grp : Nat) (f : State → Out) (s : State) : Out :=
  if s.accepts grp then f s else trap .feature (u64 s.issue.word) s

/-- The privilege check of decode (R56, R68): PRIV with the instruction word in U. -/
def inS (f : State → Out) (s : State) : Out :=
  if statMode s.slot.stat = 1 then f s else trap .priv (u64 s.issue.word) s

/-- An event that can happen only where it is enabled changes nothing elsewhere (log entry 2). -/
def whenOn (on : Bool) (s : State) (f : State → Out) : Out := if on then f s else .next s

/-- One of n allowed outcomes, taken freely (log entry 4). -/
def State.choose (s : State) (n : Nat) : State × Nat := ({ s with free := s.free + 1 }, Config.choice s.free % n)

/-- A notice for a context (R192), held until it is taken. -/
def Slot.notify (x : Slot) (c : Word) (v : DWord) : Slot := { x with notices := x.notices ++ [{ cause := c, val := v }] }

end Sys2Proof.Machine
end

