-- ==== Sys2Proof/Machine/Flags.lean ====
section
/-! DEFINITION. Floating-point formats, rounding and the flags of FST (spec/02 R19 to R42): values are exact dyadic numbers, every
operation is computed exactly and rounded once. -/

namespace Sys2Proof.Machine

/-- Sticky flags as the bits of FST (R39). -/
def flagNV : Nat := 16

/-- DZ of R39. -/
def flagDZ : Nat := 8

/-- OF of R39. -/
def flagOF : Nat := 4

/-- UF of R39. -/
def flagUF : Nat := 2

/-- NX of R39. -/
def flagNX : Nat := 1

/-- A floating-point format (R19): fraction width, exponent width, bias, whether the all-ones exponent holds infinities and NaNs,
and the NaN code it produces. -/
structure FFmt where
  w : Nat
  ew : Nat
  bias : Nat
  ieee : Bool
  nan : Nat
  deriving DecidableEq, Repr

/-- The format b32 (R19). -/
def b32 : FFmt := ⟨23, 8, 127, true, 0x7FC00000⟩

/-- The format b16 (R19). -/
def b16 : FFmt := ⟨10, 5, 15, true, 0x7E00⟩

/-- The format bf16 (R19). -/
def bf16 : FFmt := ⟨7, 8, 127, true, 0x7FC0⟩

/-- The format f19 (R19). -/
def f19 : FFmt := ⟨10, 8, 127, true, 0x3FE00⟩

/-- The preset g8a (R19). -/
def g8a : FFmt := ⟨3, 4, 8, false, 0x80⟩

/-- The preset g8b (R19). -/
def g8b : FFmt := ⟨2, 5, 16, false, 0x80⟩

/-- The preset g6a (R19). -/
def g6a : FFmt := ⟨2, 3, 3, false, 0x20⟩

/-- The preset g4a (R19). -/
def g4a : FFmt := ⟨1, 2, 1, false, 0x8⟩

/-- What a code stands for (R19): a NaN, an infinity, or (−1)^neg × m × 2^e. -/
inductive FVal where
  | nan (signalling : Bool)
  | inf (neg : Bool)
  | fin (neg : Bool) (m : Nat) (e : Int)
  deriving DecidableEq, Repr

/-- The value of a code (R19). -/
def FFmt.val (f : FFmt) (c : Nat) : FVal :=
  let neg := bits c (f.w + f.ew) 1 = 1
  let e := bits c f.w f.ew
  let fr := bits c 0 f.w
  if f.ieee = true ∧ e = 2 ^ f.ew - 1 then
    if fr = 0 then .inf neg else .nan (fr / 2 ^ (f.w - 1) = 0)
  else if f.ieee = false ∧ neg ∧ e = 0 ∧ fr = 0 then .nan false
  else if e = 0 then .fin neg fr (1 - (f.bias : Int) - f.w)
  else .fin neg (2 ^ f.w + fr) ((e : Int) - f.bias - f.w)

/-- The sign bit of a code. -/
def FFmt.sign (f : FFmt) (neg : Bool) : Nat := if neg then 2 ^ (f.w + f.ew) else 0

/-- The infinity of a format with the given sign. -/
def FFmt.infCode (f : FFmt) (neg : Bool) : Nat := f.sign neg + (2 ^ f.ew - 1) * 2 ^ f.w

/-- The largest finite code with the given sign (R19). -/
def FFmt.maxCode (f : FFmt) (neg : Bool) : Nat :=
  f.sign neg + if f.ieee then (2 ^ f.ew - 1) * 2 ^ f.w - 1 else 2 ^ (f.w + f.ew) - 1

/-- The largest exponent field of a finite code. -/
def FFmt.emax (f : FFmt) : Int := if f.ieee then (2 ^ f.ew - 2 : Nat) else (2 ^ f.ew - 1 : Nat)

/-- A magnitude m × 2^e (plus less than one unit of m, when `sticky`) cut to a multiple of 2^q: the quotient, how the rest compares
with half (0 none, 1 below, 2 half, 3 above). -/
def cut (m : Nat) (e q : Int) (sticky : Bool) : Nat × Nat :=
  if q ≤ e then (m * 2 ^ (e - q).toNat, if sticky then 1 else 0)
  else
    let sh := (q - e).toNat
    if Nat.log2 m + 2 < sh then (0, if m = 0 ∧ sticky = false then 0 else 1)
    else
      let r := m % 2 ^ sh
      let h := 2 ^ (sh - 1)
      (m / 2 ^ sh,
        if r = 0 then (if sticky then 1 else 0)
        else if r < h then 1
        else if r = h then (if sticky then 3 else 2)
        else 3)

/-- Whether a cut magnitude rounds away from zero (R36). -/
def roundsUp (md : RMode) (neg : Bool) (q rest : Nat) : Bool :=
  match md with
  | .ne => rest == 3 || (rest == 2 && q % 2 == 1)
  | .rz => false
  | .ru => rest != 0 && !neg
  | .rd => rest != 0 && neg

/-- A non-zero exact value (−1)^neg × m × 2^e rounded to a format in a mode, with the flags of R38: R36 states the result and
what overflow gives. -/
def FFmt.round (f : FFmt) (md : RMode) (neg : Bool) (m : Nat) (e : Int) (sticky : Bool) : Nat × Nat :=
  if m = 0 then (f.sign neg, 0)
  else
    let qu := e + (Nat.log2 m : Int) - f.w
    let qmin := 1 - (f.bias : Int) - f.w
    let q := if qu < qmin then qmin else qu
    let (a, rest) := cut m e q sticky
    let a := if roundsUp md neg a rest then a + 1 else a
    let (au, restu) := cut m e qu sticky
    let au := if roundsUp md neg au restu then au + 1 else au
    let (a, q) := if a = 2 ^ (f.w + 1) then (2 ^ f.w, q + 1) else (a, q)
    let tiny := qu + (if au = 2 ^ (f.w + 1) then 1 else 0) < qmin
    let ef := q + f.bias + f.w
    if a ≥ 2 ^ f.w ∧ ef > f.emax then
      let up := match md with
        | .ne => true
        | .rz => false
        | .ru => !neg
        | .rd => neg
      (if up then f.infCode neg else f.maxCode neg, flagOF + flagNX)
    else
      let code := f.sign neg + if a < 2 ^ f.w then a else ef.toNat * 2 ^ f.w + (a - 2 ^ f.w)
      (code, if rest = 0 then 0 else flagNX + if tiny then flagUF else 0)

/-- The value of a b32 word. -/
def fval (x : Word) : FVal := b32.val x.toNat

/-- The b32 NaN of R37. -/
def qnan : Word := 0x7FC00000#32

/-- Whether a value is a NaN. -/
def FVal.isNan : FVal → Bool
  | .nan _ => true
  | _ => false

/-- Whether a value is a signalling NaN. -/
def FVal.isSig : FVal → Bool
  | .nan sg => sg
  | _ => false

/-- Whether a value is an infinity. -/
def FVal.isInf : FVal → Bool
  | .inf _ => true
  | _ => false

/-- Whether a value is zero. -/
def FVal.isZero : FVal → Bool
  | .fin _ m _ => m == 0
  | _ => false

/-- The sign of a value; NaNs have sign 0 (R37). -/
def FVal.neg : FVal → Bool
  | .nan _ => false
  | .inf n => n
  | .fin n _ _ => n

/-- The negation of a value. -/
def FVal.negate : FVal → FVal
  | .nan sg => .nan sg
  | .inf n => .inf !n
  | .fin n m e => .fin (!n) m e

/-- A finite value as an integer multiple of 2^q, for q at or below its exponent. -/
def scaled (neg : Bool) (m : Nat) (e q : Int) : Int :=
  let v := (m * 2 ^ (e - q).toNat : Nat)
  if neg then -(v : Int) else v

/-- The flag of a signalling operand (R38). -/
def sigFlag (l : List FVal) : Nat := if l.any FVal.isSig then flagNV else 0

/-- The sum of exact terms with the sign of a zero sum by R36: −0 when every term is −0, +0 when every term is +0, else +0, or −0
in `.rd`. The answer is NaN, an infinity or an exact value, with NV by R38. -/
def sumVals (md : RMode) (ts : List FVal) : FVal × Nat :=
  let posInf := ts.any fun t => t == .inf false
  let negInf := ts.any fun t => t == .inf true
  if ts.any FVal.isNan then (.nan false, sigFlag ts + if posInf && negInf && sigFlag ts == 0 then flagNV else 0)
  else if posInf && negInf then (.nan false, flagNV)
  else if posInf then (.inf false, 0)
  else if negInf then (.inf true, 0)
  else
    let q := ts.foldl (fun q t => match t with | .fin _ _ e => if e < q then e else q | _ => q) 0
    let v := ts.foldl (fun a t => match t with | .fin n m e => a + scaled n m e q | _ => a) (0 : Int)
    if v = 0 then
      let z := if ts.all FVal.neg then true else if ts.all (fun t => !t.neg) then false else md == .rd
      (.fin (if ts.all FVal.isZero then z else md == .rd) 0 0, 0)
    else (.fin (v < 0) v.natAbs q, 0)

/-- The exact product of two values; 0 × ∞ is NaN with NV (R38). A NaN operand gives a NaN and its flag if signalling. -/
def mulVals (a b : FVal) : FVal × Nat :=
  if a.isNan || b.isNan then (.nan false, sigFlag [a, b])
  else
    let n := a.neg != b.neg
    match a, b with
    | .fin _ m1 e1, .fin _ m2 e2 => (.fin n (m1 * m2) (e1 + e2), 0)
    | .inf _, y => if y.isZero then (.nan false, flagNV) else (.inf n, 0)
    | x, _ => if x.isZero then (.nan false, flagNV) else (.inf n, 0)

/-- An exact value rounded to a format (R36 to R38). -/
def FFmt.ofVal (f : FFmt) (md : RMode) (v : FVal) : Nat × Nat :=
  match v with
  | .nan _ => (f.nan, 0)
  | .inf n => (f.infCode n, 0)
  | .fin n m e => f.round md n m e false

/-- An exact value rounded to b32, with flags beside those already raised. -/
def roundB32 (md : RMode) (r : FVal × Nat) : Word × Nat :=
  let p := b32.ofVal md r.1
  (u32 p.1, r.2 ||| p.2)

/-- `fadd` (R106). -/
def fAdd (md : RMode) (a b : Word) : Word × Nat := roundB32 md (sumVals md [fval a, fval b])

/-- `fsub` (R106). -/
def fSub (md : RMode) (a b : Word) : Word × Nat := roundB32 md (sumVals md [fval a, (fval b).negate])

/-- `fmul` (R106). -/
def fMul (md : RMode) (a b : Word) : Word × Nat := roundB32 md (mulVals (fval a) (fval b))

/-- x × y + z rounded once, with the signs that `fma` and its kin give (R107): NV for a product of 0 and ∞ even when z is a quiet
NaN. -/
def fMulAdd (md : RMode) (negP negZ : Bool) (x y z : Word) : Word × Nat :=
  let (p, fl) := mulVals (fval x) (fval y)
  let p := if negP then p.negate else p
  let zv := if negZ then (fval z).negate else fval z
  let (r, fl2) := sumVals md [p, zv]
  roundB32 md (r, fl ||| fl2)

/-- `fdiv` (R106): DZ for a finite non-zero value over zero; the quotient carries a sticky rest. -/
def fDiv (md : RMode) (a b : Word) : Word × Nat :=
  let x := fval a
  let y := fval b
  let n := x.neg != y.neg
  if x.isNan || y.isNan then (qnan, sigFlag [x, y])
  else
    match x, y with
    | .inf _, .inf _ => (qnan, flagNV)
    | .inf _, _ => (u32 (b32.infCode n), 0)
    | .fin _ _ _, .inf _ => (u32 (b32.sign n), 0)
    | .fin _ m1 e1, .fin _ m2 e2 =>
      if m2 = 0 then (if m1 = 0 then (qnan, flagNV) else (u32 (b32.infCode n), flagDZ))
      else
        let k := 32 + Nat.log2 m2
        let num := m1 * 2 ^ k
        let r := b32.round md n (num / m2) (e1 - e2 - k) (num % m2 != 0)
        (u32 r.1, r.2)
    | _, _ => (qnan, 0)

/-- The integer square root of a number below 2^(2 i), bit by bit. -/
def isqrtFrom (n : Nat) : Nat → Nat → Nat
  | 0, r => r
  | i + 1, r => isqrtFrom n i (if (r + 2 ^ i) * (r + 2 ^ i) ≤ n then r + 2 ^ i else r)

/-- `fsqrt` (R106): √−0 = −0, a value below −0 gives NaN with NV. -/
def fSqrt (md : RMode) (a : Word) : Word × Nat :=
  match fval a with
  | .nan sg => (qnan, if sg then flagNV else 0)
  | .inf n => if n then (qnan, flagNV) else (a, 0)
  | .fin n m e =>
    if m = 0 then (a, 0)
    else if n then (qnan, flagNV)
    else
      let up := 24 - (Nat.log2 m + 1)
      let m := m * 2 ^ up
      let e := e - up
      let (m, e) := if e % 2 = 0 then (m, e) else (m * 2, e - 1)
      let big := m * 2 ^ 36
      let r := isqrtFrom big 32 0
      let p := b32.round md false r (e / 2 - 18) (r * r != big)
      (u32 p.1, p.2)

/-- Exact comparison of two finite or infinite values: whether the first is less. -/
def ltVal (a b : FVal) : Bool :=
  match a, b with
  | .fin n1 m1 e1, .fin n2 m2 e2 =>
    let q := if e1 < e2 then e1 else e2
    decide (scaled n1 m1 e1 q < scaled n2 m2 e2 q)
  | .inf n1, .inf n2 => n1 && !n2
  | .inf n1, .fin _ _ _ => n1
  | .fin _ _ _, .inf n2 => !n2
  | _, _ => false

/-- Equality of values, −0 = +0; a NaN equals nothing (R110). -/
def eqVal (a b : FVal) : Bool := !a.isNan && !b.isNan && !ltVal a b && !ltVal b a

/-- `feq` (R110). -/
def fEq (a b : Word) : Bool × Nat := (eqVal (fval a) (fval b), sigFlag [fval a, fval b])

/-- `flt` (R110). -/
def fLt (a b : Word) : Bool × Nat :=
  if (fval a).isNan || (fval b).isNan then (false, flagNV) else (ltVal (fval a) (fval b), 0)

/-- `fle` (R110). -/
def fLe (a b : Word) : Bool × Nat :=
  if (fval a).isNan || (fval b).isNan then (false, flagNV)
  else (ltVal (fval a) (fval b) || eqVal (fval a) (fval b), 0)

/-- Whether a goes before b when −0 < +0 (R108). -/
def before (a b : Word) : Bool :=
  ltVal (fval a) (fval b) || (eqVal (fval a) (fval b) && (fval a).neg && !(fval b).neg)

/-- `fmin` and `fmax` (R108): one NaN gives the other operand, two give the NaN of R37. -/
def fMinMax (mx : Bool) (a b : Word) : Word × Nat :=
  let fl := sigFlag [fval a, fval b]
  if (fval a).isNan then (if (fval b).isNan then qnan else b, fl)
  else if (fval b).isNan then (a, fl)
  else (if mx then (if before a b then b else a) else if before b a then b else a, fl)

/-- `fsgn` (R108): A with the sign bit of B. -/
def fSgn (a b : Word) : Word := (a &&& 0x7FFFFFFF#32) ||| (b &&& 0x80000000#32)

/-- `fclass` (R109): one bit by the class of the code. -/
def fClass (a : Word) : Word :=
  match fval a with
  | .inf true => 1 <<< 0
  | .inf false => 1 <<< 7
  | .nan true => 1 <<< 8
  | .nan false => 1 <<< 9
  | .fin n m _ =>
    if m = 0 then (if n then 1 <<< 3 else 1 <<< 4)
    else if m < 2 ^ 23 then (if n then 1 <<< 2 else 1 <<< 5)
    else (if n then 1 <<< 1 else 1 <<< 6)

/-- The integer nearest an exact value in a mode, and whether it differs (R36, R111). -/
def nearestInt (md : RMode) (n : Bool) (m : Nat) (e : Int) : Int × Bool :=
  let (a, rest) := cut m e 0 false
  let a := if roundsUp md n a rest then a + 1 else a
  (if n then -(a : Int) else a, rest != 0)

/-- `fcvti` (R111) with the bounds of the destination. -/
def fToInt (md : RMode) (lo hi : Int) (x : Word) : Word × Nat :=
  match fval x with
  | .nan _ => (0, flagNV)
  | .inf n => (w32 (if n then lo else hi), flagNV)
  | .fin n m e =>
    let (v, inexact) := nearestInt md n m e
    if v < lo then (w32 lo, flagNV) else if v > hi then (w32 hi, flagNV) else (w32 v, if inexact then flagNX else 0)

/-- An integer rounded to b32 (R112). -/
def intToF (md : RMode) (v : Int) : Word × Nat := roundB32 md (.fin (v < 0) v.natAbs 0, 0)

/-- `frnd` (R114). -/
def fRnd (md : RMode) (x : Word) : Word × Nat :=
  match fval x with
  | .nan sg => (qnan, if sg then flagNV else 0)
  | .inf _ => (x, 0)
  | .fin n m e =>
    if m = 0 then (x, 0)
    else
      let (v, inexact) := nearestInt md n m e
      (u32 (b32.round md n v.natAbs 0 false).1, if inexact then flagNX else 0)

/-- The lane × 2^k of `qscl` (R253): zeros and infinities are kept, a NaN gives R37's. -/
def fScale (md : RMode) (x : Word) (k : Int) : Word × Nat :=
  match fval x with
  | .nan sg => (qnan, if sg then flagNV else 0)
  | .inf _ => (x, 0)
  | .fin n m e => if m = 0 then (x, 0) else let r := b32.round md n m (e + k) false; (u32 r.1, r.2)

/-- A b32 word rounded to a 16-bit or f19 format (R21, R113, R253): NV for a signalling NaN. -/
def narrow (f : FFmt) (md : RMode) (x : Word) : Nat × Nat :=
  let v := fval x
  let r := f.ofVal md v
  (r.1, r.2 ||| sigFlag [v])

/-- The b32 word of a value that b32 holds exactly (R21): NaNs become R37's. -/
def exactB32 (v : FVal) : Word := u32 (b32.ofVal .ne v).1

/-- `fcvth.x` (R113): exact, NV for a signalling NaN. -/
def widen (f : FFmt) (c : Nat) : Word × Nat := (exactB32 (f.val c), sigFlag [f.val c])

/-! ### Decode tables and the element formats of R30 -/

/-- The f19 word form of a g8a code (R20, R24). -/
def g8aWord (c : Nat) : Word := exactB32 (g8a.val c)

/-- Entry c of a decode table held as differences from the g8a decodes (R23, R24). -/
def tabEntry (t : Map (Option Word)) (c : Nat) : Word := (Map.get none t c).getD (g8aWord c)

/-- A decode table with entry c written in word form: bits 12 to 0 are dropped (R20, R25). -/
def setTabEntry (t : Map (Option Word)) (c : Nat) (v : Word) : Map (Option Word) :=
  let v := v &&& 0xFFFFE000#32
  Map.set none t c (if v = g8aWord c then none else some v)

/-- Whether a format code of R30 is assigned. -/
def fmtOk (f : Nat) : Bool := f ≤ 0x0A || (0x10 ≤ f && f ≤ 0x15)

/-- Element bits of a format code in memory (R30). -/
def fmtBits (f : Nat) : Nat :=
  if f ∈ [0x00, 0x03, 0x14, 0x15] then 32
  else if f ∈ [0x01, 0x02, 0x12, 0x13] then 16
  else if f ∈ [0x06, 0x09] then 6
  else if f ∈ [0x07, 0x0A] then 4
  else 8

/-- The value of an element code of a floating format (R19, R23, R27, R30); a b32 element is given as it is. -/
def decodeElem (t : Map (Option Word)) (f c : Nat) : FVal :=
  match f with
  | 0x00 => b32.val c
  | 0x01 => b16.val c
  | 0x02 => bf16.val c
  | 0x03 => f19.val (c / 2 ^ 13)
  | 0x04 => g8a.val (c % 256)
  | 0x05 => g8b.val (c % 256)
  | 0x06 => g6a.val (c % 64)
  | 0x07 => g4a.val (c % 16)
  | 0x08 => fval (tabEntry t (c % 256))
  | 0x09 => fval (tabEntry t (c % 64))
  | _ => fval (tabEntry t (c % 16))

/-- The f19 value of a yoke operand (R21, R27): b32 is rounded once without a flag, NaNs become the quiet NaN. -/
def toF19 (t : Map (Option Word)) (f c : Nat) : FVal :=
  match decodeElem t f c with
  | .nan _ => .nan false
  | v => if f = 0x00 then f19.val (f19.ofVal .ne v).1 else v

/-- Encoding of a b32 value into a preset (R28). -/
def encodePreset (f : FFmt) (v : FVal) : Nat × Nat :=
  match v with
  | .nan sg => (f.nan, if sg then flagNV else 0)
  | .inf n => (f.maxCode n, flagNX)
  | .fin n m e =>
    if m = 0 then (0, 0)
    else
      let r := f.round .ne n m e false
      let fl := if r.2 &&& flagOF ≠ 0 then flagOF + flagNX else r.2 &&& flagNX
      let c := if r.2 &&& flagOF ≠ 0 then f.maxCode n else r.1
      (if c = f.sign true then 0 else c, fl)

/-- The difference between two finite values as an exact magnitude m × 2^q. -/
def distance (a b : FVal) : Nat × Int :=
  match a, b with
  | .fin n1 m1 e1, .fin n2 m2 e2 =>
    let q := if e1 < e2 then e1 else e2
    ((scaled n1 m1 e1 q - scaled n2 m2 e2 q).natAbs, q)
  | _, _ => (0, 0)

/-- Whether one magnitude is less than another. -/
def ltMag (a b : Nat × Int) : Bool := ltVal (.fin false a.1 a.2) (.fin false b.1 b.2)

/-- The better of two candidate codes of R29: the nearer, among equals the even one, among equal evens the least; among equals that are
all odd, of which R29 says nothing, the least too (DESIGN CHOICE, log entry 43). -/
def nearer (ent : Nat → FVal) (x : FVal) (c d : Nat) : Nat :=
  let dc := distance x (ent c)
  let dd := distance x (ent d)
  if ltMag dc dd then c else if ltMag dd dc then d
  else if c % 2 = 0 ∧ d % 2 = 1 then c else if d % 2 = 0 ∧ c % 2 = 1 then d
  else if c ≤ d then c else d

/-- The search of R29 for the last entry at or below x, by steps of powers of two. -/
def tableSearch (ent : Nat → FVal) (x : FVal) : Nat → Nat → Nat
  | 0, lo => lo
  | i + 1, lo =>
    let m := lo + 2 ^ i
    tableSearch ent x i (if !(ent m).isNan && !ltVal x (ent m) then m else lo)

/-- Encoding of a b32 value into a table format of N = 2^k codes (R29). -/
def encodeTable (t : Map (Option Word)) (k : Nat) (x : FVal) : Nat × Nat :=
  let ent := fun c => fval (tabEntry t c)
  let codes := List.range (2 ^ k)
  let fin := codes.filter fun c => !(ent c).isNan && !(ent c).isInf
  match x with
  | .nan sg =>
    let fl := if sg then flagNV else 0
    match codes.find? fun c => (ent c).isNan with
    | some c => (c, fl)
    | none => (0, flagNV)
  | _ =>
    match fin with
    | [] => (0, flagNV)
    | c0 :: _ =>
      let top := fin.foldl (fun b c => if ltVal (ent b) (ent c) then c else b) c0
      let bot := fin.foldl (fun b c => if ltVal (ent c) (ent b) then c else b) c0
      let ofl := if x.isInf then flagNX else flagOF + flagNX
      if ltVal (ent top) x then (top, ofl)
      else if ltVal x (ent bot) then (bot, ofl)
      else
        let lo := tableSearch ent x k 0
        let cs := [lo, lo + 1].filter fun c => decide (c < 2 ^ k) && fin.contains c
        let cs := if cs.isEmpty then fin else cs
        let c := cs.foldl (nearer ent x) (cs.headD 0)
        (c, if eqVal (ent c) x then 0 else flagNX)

/-- Encoding of a b32 word into a floating element format in round to nearest even, with its flags (R21, R28, R29, R237). -/
def encodeElem (t : Map (Option Word)) (f : Nat) (x : Word) : Nat × Nat :=
  match f with
  | 0x00 => (x.toNat, 0)
  | 0x01 => narrow b16 .ne x
  | 0x02 => narrow bf16 .ne x
  | 0x03 => let r := narrow f19 .ne x; (r.1 * 2 ^ 13, r.2)
  | 0x04 => encodePreset g8a (fval x)
  | 0x05 => encodePreset g8b (fval x)
  | 0x06 => encodePreset g6a (fval x)
  | 0x07 => encodePreset g4a (fval x)
  | 0x08 => encodeTable t 8 (fval x)
  | 0x09 => encodeTable t 6 (fval x)
  | _ => encodeTable t 4 (fval x)

/-! ### Flags into FST -/

/-- A slot with flags set in FST (R38, R40). -/
def Slot.flags (x : Slot) (fl : Nat) : Slot := { x with fst := x.fst ||| u32 (fl % 32) }

/-- The executing context's FST with flags set; a clause has no FST (R130). -/
def State.flags (s : State) (fl : Nat) : State :=
  if s.issue.slot = clauseSlot then s else s.setSlot (s.slot.flags fl)

/-- A floating-point instruction writes d, sets its flags and completes. -/
def doneF (s : State) (d : Nat) (r : Word × Nat) : Out := done ((s.wr d r.1).flags r.2)

end Sys2Proof.Machine
end

