-- ==== Sys2Proof/Machine/Operands.lean ====
section
/-! DEFINITION. Operand forms: the operands of two- and three-address forms (R53, R80), pool offsets with their checks (R91), pool
and full-bit accesses (R79, R92 to R96), and global addresses (R278). -/

namespace Sys2Proof.Machine

/-- Operand A of a T form (R80): gd without a third register, else gs. -/
def State.opA (s : State) (d n : Nat) (t : Option Nat) : Word :=
  match t with
  | none => s.g d
  | some _ => s.g n

/-- Operand B of a T form (R80): gs without a third register, else gt. -/
def State.opB (s : State) (n : Nat) (t : Option Nat) : Word :=
  match t with
  | none => s.g n
  | some t => s.g t

/-- The quad of operand A of a T form (R249). -/
def quadA (d n : Nat) (t : Option Nat) : Nat :=
  match t with
  | none => d
  | some _ => n

/-- The quad of operand B of a T form (R249). -/
def quadB (n : Nat) (t : Option Nat) : Nat :=
  match t with
  | none => n
  | some t => t

/-- A T form that computes from A and B and writes d. -/
def aluT (f : Word → Word → Word) (d n : Nat) (t : Option Nat) (s : State) : Out :=
  doneWr s d (f (s.opA d n t) (s.opB n t))

/-- A single-operand form that computes from gs and writes d. -/
def alu1 (f : Word → Word) (d n : Nat) (s : State) : Out := doneWr s d (f (s.g n))

/-- S(v) of R80. -/
def S (v : Word) : Int := v.toInt

/-- Z(v) of R80. -/
def Z (v : Word) : Nat := v.toNat

/-- `[as + d]`: the virtual address of a global form (R278). -/
def State.ea (s : State) (n : Nat) (imm : Int) : DWord := w64 ((s.a n).toNat + imm)

/-! ### The pool -/

/-- The partition word that bounds pool accesses of the executing core. -/
def State.part (s : State) : Word := s.me.part

/-- The check of a pool range (R91): o a multiple of `al`, and the n bytes from o in ACC and SCR. -/
def poolCheck (part : Word) (o : Int) (al n : Nat) : Option (Cause × DWord) :=
  if o % al ≠ 0 then some (.align, w64 o)
  else if o < 0 ∨ inPool part o.toNat n = false then some (.poolRange, w64 o)
  else none

/-- A form that addresses n bytes of the pool at `(gs + imm)`, naturally aligned (R91). -/
def atPool (n r : Nat) (imm : Int) (s : State) (f : Nat → Out) : Out :=
  let o := (Z (s.g r) : Int) + imm
  match poolCheck s.part o n n with
  | some (c, v) => trap c v s
  | none => f o.toNat

/-- n bytes of a pool as a number (R72). -/
def Core.ld (c : Core) (o n : Nat) : Nat := leNat (Map.getList 0 c.pool o n)

/-- A word of a pool. -/
def Core.ldw (c : Core) (o : Nat) : Word := u32 (c.ld o 4)

/-- A pool with n bytes written from a number. -/
def Core.st (c : Core) (o n v : Nat) : Core := { c with pool := Map.setList 0 c.pool o (leBytes v n) }

/-- A pool with a list of bytes written. -/
def Core.stBytes (c : Core) (o : Nat) (bs : List Byte) : Core := { c with pool := Map.setList 0 c.pool o bs }

/-- A pool with a word written. -/
def Core.stw (c : Core) (o : Nat) (v : Word) : Core := c.st o 4 v.toNat

/-- The full bit of the word at offset o (R95). -/
def Core.isFull (c : Core) (o : Nat) : Bool := Map.get false c.full (o / 4)

/-- A full bit written. -/
def Core.setFull (c : Core) (o : Nat) (b : Bool) : Core := { c with full := Map.set false c.full (o / 4) b }

/-- The full bits of k consecutive words from offset o written. -/
def Core.setFulls (c : Core) (o : Nat) (b : Bool) (k : Nat) : Core :=
  { c with full := Map.setList false c.full (o / 4) (List.replicate k b) }

/-- A word written with its full bit set, in one action (R95). -/
def Core.stwFull (c : Core) (o : Nat) (v : Word) : Core := (c.stw o v).setFull o true

/-- The bytes of an access size code: 0 .b, 1 .h, 2 .w, 3 .d (R92, R278). -/
def accSize (z : Nat) : Nat := 2 ^ z

/-- sx of an n-byte value to 32 bits (R72). -/
def sext32 (v n : Nat) : Word := w32 (sxInt v (8 * n))

end Sys2Proof.Machine
end

