-- ==== Sys2Proof/Machine/Base.lean ====
section
/-! DEFINITION. Page 0 of R63: integer arithmetic, address registers, control flow, pool accesses, full bits and ring handles
(spec/04). One definition per form. -/

namespace Sys2Proof.Machine

/-! ### Integer results (R81 to R84) -/

/-- The quotient and remainder of R82, truncated toward zero; a zero divisor gives 0xFFFF_FFFF and A. -/
def divRem (a b : Int) (whole : Word) : Word × Word :=
  if b = 0 then (0xFFFFFFFF#32, whole) else (w32 (a.tdiv b), w32 (a - a.tdiv b * b))

/-- The shift amount of R81. -/
def sham (b : Word) : Nat := Z b % 32

/-- `shl` (R81). -/
def shlW (a b : Word) : Word := a <<< sham b

/-- `shr` (R81). -/
def shrW (a b : Word) : Word := a >>> sham b

/-- `sra` (R81). -/
def sraW (a b : Word) : Word := a.sshiftRight (sham b)

/-- `ror` (R81). -/
def rorW (a b : Word) : Word := a.rotateRight (sham b)

/-- Count of leading zeros from bit `n` − 1 down (R83). -/
def clzFrom (v : Word) : Nat → Nat
  | 0 => 0
  | n + 1 => if v.getLsbD n then 0 else 1 + clzFrom v n

/-- Count of trailing zeros from bit i on, with n bits left (R83). -/
def ctzFrom (v : Word) (i : Nat) : Nat → Nat
  | 0 => 0
  | n + 1 => if v.getLsbD i then 0 else 1 + ctzFrom v (i + 1) n

/-- Count of ones in the low n bits (R83). -/
def popTo (v : Word) : Nat → Nat
  | 0 => 0
  | n + 1 => (if v.getLsbD n then 1 else 0) + popTo v n

/-- The low n bits reversed into bits 31 − i (R83). -/
def brevTo (v : Word) : Nat → Nat
  | 0 => 0
  | n + 1 => (if v.getLsbD n then 2 ^ (31 - n) else 0) + brevTo v n

/-- Saturation of a signed value to lo and hi (R83). -/
def clampI (lo hi v : Int) : Word := w32 (if v < lo then lo else if hi < v then hi else v)

/-- One word for a truth value. -/
def flagW (b : Bool) : Word := if b then 1 else 0

def execAdd (d n : Nat) (t : Option Nat) (s : State) : Out := aluT (· + ·) d n t s
def execSub (d n : Nat) (t : Option Nat) (s : State) : Out := aluT (· - ·) d n t s
def execMul (d n : Nat) (t : Option Nat) (s : State) : Out := aluT (· * ·) d n t s
def execMulh (d n : Nat) (t : Option Nat) (s : State) : Out := aluT (fun a b => w32 (S a * S b / 2 ^ 32)) d n t s
def execMulhz (d n : Nat) (t : Option Nat) (s : State) : Out := aluT (fun a b => u32 (Z a * Z b / 2 ^ 32)) d n t s
def execAnd (d n : Nat) (t : Option Nat) (s : State) : Out := aluT (· &&& ·) d n t s
def execOr (d n : Nat) (t : Option Nat) (s : State) : Out := aluT (· ||| ·) d n t s
def execXor (d n : Nat) (t : Option Nat) (s : State) : Out := aluT (· ^^^ ·) d n t s
def execAndn (d n : Nat) (t : Option Nat) (s : State) : Out := aluT (fun a b => a &&& ~~~b) d n t s
def execShl (d n : Nat) (t : Option Nat) (s : State) : Out := aluT shlW d n t s
def execShr (d n : Nat) (t : Option Nat) (s : State) : Out := aluT shrW d n t s
def execSra (d n : Nat) (t : Option Nat) (s : State) : Out := aluT sraW d n t s
def execRor (d n : Nat) (t : Option Nat) (s : State) : Out := aluT rorW d n t s
def execDiv (d n : Nat) (t : Option Nat) (s : State) : Out := aluT (fun a b => (divRem (S a) (S b) a).1) d n t s
def execDivz (d n : Nat) (t : Option Nat) (s : State) : Out := aluT (fun a b => (divRem (Z a) (Z b) a).1) d n t s
def execRem (d n : Nat) (t : Option Nat) (s : State) : Out := aluT (fun a b => (divRem (S a) (S b) a).2) d n t s
def execRemz (d n : Nat) (t : Option Nat) (s : State) : Out := aluT (fun a b => (divRem (Z a) (Z b) a).2) d n t s
def execMin (d n : Nat) (t : Option Nat) (s : State) : Out := aluT (fun a b => if S b < S a then b else a) d n t s
def execMax (d n : Nat) (t : Option Nat) (s : State) : Out := aluT (fun a b => if S a < S b then b else a) d n t s
def execMinz (d n : Nat) (t : Option Nat) (s : State) : Out := aluT (fun a b => if Z b < Z a then b else a) d n t s
def execMaxz (d n : Nat) (t : Option Nat) (s : State) : Out := aluT (fun a b => if Z a < Z b then b else a) d n t s
def execSlt (d n : Nat) (t : Option Nat) (s : State) : Out := aluT (fun a b => flagW (S a < S b)) d n t s
def execSltz (d n : Nat) (t : Option Nat) (s : State) : Out := aluT (fun a b => flagW (Z a < Z b)) d n t s
def execSeq (d n : Nat) (t : Option Nat) (s : State) : Out := aluT (fun a b => flagW (a = b)) d n t s
def execSne (d n : Nat) (t : Option Nat) (s : State) : Out := aluT (fun a b => flagW (a ≠ b)) d n t s

def execClz (d n : Nat) (s : State) : Out := alu1 (fun v => u32 (clzFrom v 32)) d n s
def execCtz (d n : Nat) (s : State) : Out := alu1 (fun v => u32 (ctzFrom v 0 32)) d n s
def execPopc (d n : Nat) (s : State) : Out := alu1 (fun v => u32 (popTo v 32)) d n s
def execBrev (d n : Nat) (s : State) : Out := alu1 (fun v => u32 (brevTo v 32)) d n s
def execSextB (d n : Nat) (s : State) : Out := alu1 (fun v => sext32 (Z v) 1) d n s
def execSextH (d n : Nat) (s : State) : Out := alu1 (fun v => sext32 (Z v) 2) d n s
def execZextB (d n : Nat) (s : State) : Out := alu1 (fun v => u32 (Z v % 2 ^ 8)) d n s
def execZextH (d n : Nat) (s : State) : Out := alu1 (fun v => u32 (Z v % 2 ^ 16)) d n s
def execSatsB (d n : Nat) (s : State) : Out := alu1 (fun v => clampI (-128) 127 (S v)) d n s
def execSatsH (d n : Nat) (s : State) : Out := alu1 (fun v => clampI (-32768) 32767 (S v)) d n s
def execSatzB (d n : Nat) (s : State) : Out := alu1 (fun v => clampI 0 255 (S v)) d n s
def execSatzH (d n : Nat) (s : State) : Out := alu1 (fun v => clampI 0 65535 (S v)) d n s
def execMov (d n : Nat) (s : State) : Out := alu1 id d n s

/-! ### Immediate forms (R84) -/

def execLi (d : Nat) (imm : Int) (s : State) : Out := doneWr s d (w32 imm)
def execAddi (d : Nat) (imm : Int) (s : State) : Out := doneWr s d (s.g d + w32 imm)
def execAndi (d : Nat) (imm : Int) (s : State) : Out := doneWr s d (s.g d &&& w32 imm)
def execOri (d : Nat) (imm : Int) (s : State) : Out := doneWr s d (s.g d ||| w32 imm)
def execXori (d : Nat) (imm : Int) (s : State) : Out := doneWr s d (s.g d ^^^ w32 imm)
def execShli (d : Nat) (imm : Int) (s : State) : Out := doneWr s d (shlW (s.g d) (w32 imm))
def execShri (d : Nat) (imm : Int) (s : State) : Out := doneWr s d (shrW (s.g d) (w32 imm))
def execSrai (d : Nat) (imm : Int) (s : State) : Out := doneWr s d (sraW (s.g d) (w32 imm))
def execSlti (d : Nat) (imm : Int) (s : State) : Out := doneWr s d (flagW (S (s.g d) < imm))

/-! ### Address registers (R87) -/

def execAadd (d n : Nat) (s : State) : Out := done (s.wra d (w64 ((s.a d).toNat + S (s.g n))))
def execAsub (d n : Nat) (s : State) : Out := done (s.wra d (w64 ((s.a d).toNat - S (s.g n))))
def execAmov (d n : Nat) (s : State) : Out := done (s.wra d (s.a n))
def execAlea (d n : Nat) (imm : Int) (s : State) : Out := done (s.wra d (s.ea n imm))
def execAget (d n : Nat) (s : State) : Out := doneWr s d (u32 (s.a n).toNat)
def execAgetHi (d n : Nat) (s : State) : Out := doneWr s d (u32 ((s.a n).toNat / 2 ^ 32))
def execAaddi (d : Nat) (imm : Int) (s : State) : Out := done (s.wra d (s.ea d imm))
def execApc (d : Nat) (imm : Int) (s : State) : Out := done (s.wra d (w64 (s.issue.start.toNat + imm)))

/-! ### Control flow (R88 to R90) -/

/-- The pc-relative target start + 2·imm (R49). -/
def State.target (s : State) (imm : Int) : DWord := w64 (s.issue.start.toNat + 2 * imm)

/-- A conditional branch (R89, R90). -/
def branch (c : Bool) (imm : Int) (s : State) : Out := if c then .next (s.finish (s.target imm)) else done s

def execJ (imm : Int) (s : State) : Out := .next (s.finish (s.target imm))
def execCall (imm : Int) (s : State) : Out := .next ((s.wra 7 s.next).finish (s.target imm))
def execJr (n : Nat) (s : State) : Out := jumpTo s (s.a n) id
def execCallr (n : Nat) (s : State) : Out := jumpTo s (s.a n) fun s => s.wra 7 s.next
def execRet (s : State) : Out := jumpTo s (s.a 7) id
def execBeq (d n : Nat) (imm : Int) (s : State) : Out := branch (s.g d = s.g n) imm s
def execBne (d n : Nat) (imm : Int) (s : State) : Out := branch (s.g d ≠ s.g n) imm s
def execBlt (d n : Nat) (imm : Int) (s : State) : Out := branch (S (s.g d) < S (s.g n)) imm s
def execBge (d n : Nat) (imm : Int) (s : State) : Out := branch (S (s.g n) ≤ S (s.g d)) imm s
def execBltz (d n : Nat) (imm : Int) (s : State) : Out := branch (Z (s.g d) < Z (s.g n)) imm s
def execBgez (d n : Nat) (imm : Int) (s : State) : Out := branch (Z (s.g n) ≤ Z (s.g d)) imm s
def execBz (d : Nat) (imm : Int) (s : State) : Out := branch (s.g d = 0) imm s
def execBnz (d : Nat) (imm : Int) (s : State) : Out := branch (s.g d ≠ 0) imm s
def execLoop (d : Nat) (imm : Int) (s : State) : Out :=
  let v := s.g d - 1
  branch (v ≠ 0) imm (s.wr d v)

/-! ### Pool loads and stores (R91 to R94) -/

def execLdp (z d n : Nat) (imm : Int) (s : State) : Out :=
  atPool (accSize z) n imm s fun o => doneWr s d (u32 (s.me.ld o (accSize z)))

def execLdpBS (z d n : Nat) (imm : Int) (s : State) : Out :=
  atPool (accSize z) n imm s fun o => doneWr s d (sext32 (s.me.ld o (accSize z)) (accSize z))

def execStp (z d n : Nat) (imm : Int) (s : State) : Out :=
  atPool (accSize z) n imm s fun o => done (s.setMe (s.me.st o (accSize z) (Z (s.g d))))

def execLdpq (d n : Nat) (imm : Int) (s : State) : Out :=
  atPool 16 n imm s fun o =>
    done (s.wrs (4 * d) [s.me.ldw o, s.me.ldw (o + 4), s.me.ldw (o + 8), s.me.ldw (o + 12)])

def execStpq (d n : Nat) (imm : Int) (s : State) : Out :=
  atPool 16 n imm s fun o =>
    done (s.setMe ((((s.me.stw o (s.lane d 0)).stw (o + 4) (s.lane d 1)).stw (o + 8) (s.lane d 2)).stw (o + 12) (s.lane d 3)))

/-! ### Full and empty bits (R95, R96) -/

def execLdps (d n : Nat) (imm : Int) (s : State) : Out :=
  atPool 4 n imm s fun o => if s.me.isFull o then doneWr s d (s.me.ldw o) else block (.ldps d n imm) s

def execStpf (d n : Nat) (imm : Int) (s : State) : Out :=
  atPool 4 n imm s fun o => done (s.setMe (s.me.stwFull o (s.g d)))

def execSete (d n : Nat) (imm : Int) (s : State) : Out :=
  let k := Z (s.g d)
  let o := (Z (s.g n) : Int) + imm
  match poolCheck s.part o 4 (4 * if k = 0 then 1 else k) with
  | some (c, v) => trap c v s
  | none => done (s.setMe (s.me.setFulls o.toNat false k))

def execTstf (d n : Nat) (imm : Int) (s : State) : Out :=
  atPool 4 n imm s fun o => doneWr s d (flagW (s.me.isFull o))

/-! ### Ring handles (R99 to R103) -/

/-- A handle record of a core (R99). -/
def Core.handle (c : Core) (h : Nat) : Handle := Map.get Handle.empty c.handles h

/-- A core with a handle record replaced. -/
def Core.setHandle (c : Core) (h : Nat) (x : Handle) : Core := { c with handles := Map.set Handle.empty c.handles h x }

/-- Entry size E = 4 << RESZ (R99). -/
def Handle.esize (x : Handle) : Nat := 4 * 2 ^ x.resz

/-- Entry count N (R99). -/
def Handle.count (x : Handle) : Nat := 2 ^ x.rlog

/-- entry(i) of R99. -/
def Handle.entry (x : Handle) (i : Word) : Nat := x.rbase + i.toNat % x.count * x.esize

/-- Published entries not taken back, PUB − HEAD. -/
def Handle.ready (x : Handle) : Nat := (x.pub - x.head).toNat

/-- Entries in use, RSV − HEAD. -/
def Handle.used (x : Handle) : Nat := (x.rsv - x.head).toNat

/-- A handle form: PROT, with TVAL = n, on an unbound handle and, for the producer forms, on a mailbox (R100). -/
def onHandle (h : Nat) (producer : Bool) (s : State) (f : Handle → Out) : Out :=
  let x := s.me.handle h
  if x.bnd = false ∨ (producer = true ∧ x.mbx = true) then trap .prot (u64 h) s else f x

/-- The checks of a bind word (R101, R124): the field checks, ALIGN and POOLRANGE. -/
def bindCheck (part gd : Word) (mailbox : Bool) : Option (Cause × DWord) :=
  let b := bits (Z gd) 0 16
  let l := bits (Z gd) 16 8
  let r := bits (Z gd) 24 2
  let e := 4 * 2 ^ r
  if Z gd / 2 ^ 26 ≠ 0 ∨ 10 < l then some (.illegal, u64 (Z gd))
  else if mailbox = true ∧ r ≠ 3 then some (.illegal, u64 (Z gd))
  else if b % e ≠ 0 then some (.align, u64 b)
  else if inPool part b (e * 2 ^ l) = false then some (.poolRange, u64 b)
  else none

/-- The record that a bind word makes (R101, R124). -/
def bindRecord (gd : Word) (mailbox : Bool) : Handle :=
  { bnd := true, mbx := mailbox, resz := bits (Z gd) 24 2, rbase := bits (Z gd) 0 16, rlog := bits (Z gd) 16 8,
    head := 0, pub := 0, rsv := 0 }

def execHbind (d h : Nat) (s : State) : Out :=
  if (s.me.handle h).mbx then trap .prot (u64 h) s
  else if s.g d = 0xFFFFFFFF#32 then done (s.setMe (s.me.setHandle h Handle.empty))
  else
    match bindCheck s.part (s.g d) false with
    | some (c, v) => trap c v s
    | none => done (s.setMe (s.me.setHandle h (bindRecord (s.g d) false)))

def execHwait (d h : Nat) (s : State) : Out :=
  onHandle h false s fun x =>
    if x.ready = 0 then block (.hwait d h) s else doneWr s d (u32 (x.entry x.head))

def execHfree (d h : Nat) (s : State) : Out :=
  onHandle h false s fun x =>
    let k := if Z (s.g d) < x.ready then Z (s.g d) else x.ready
    doneWr (s.setMe (s.me.setHandle h { x with head := x.head + u32 k })) d (u32 k)

def execHadv (d h : Nat) (s : State) : Out :=
  onHandle h true s fun x =>
    if x.used < x.count then
      doneWr (s.setMe (s.me.setHandle h { x with rsv := x.rsv + 1 })) d (u32 (x.entry x.rsv))
    else doneWr s d 0xFFFFFFFF#32

def execHpub (d h : Nat) (s : State) : Out :=
  onHandle h true s fun x =>
    doneWr (s.setMe (s.me.setHandle h { x with pub := x.rsv })) d (x.rsv - x.pub)

def execHld (d h : Nat) (s : State) : Out :=
  onHandle h false s fun x =>
    if x.ready = 0 then block (.hld d h) s
    else doneWr (s.setMe (s.me.setHandle h { x with head := x.head + 1 })) d (s.me.ldw (x.entry x.head))

def execHst (d h : Nat) (s : State) : Out :=
  onHandle h true s fun x =>
    if x.used < x.count then
      done (s.setMe ((s.me.stw (x.entry x.rsv) (s.g d)).setHandle h { x with rsv := x.rsv + 1, pub := x.rsv + 1 }))
    else block (.hst d h) s

def execHcnt (d h : Nat) (s : State) : Out :=
  onHandle h false s fun x => doneWr s d (u32 x.ready)

end Sys2Proof.Machine
end

