-- ==== Sys2Proof/Machine/Memory.lean ====
section
/-! DEFINITION. Module memory: bytes, translation (R256 to R259), lines with their versions, copies and leases (R261 to R263), and the
arithmetic of atomics (R282). -/

namespace Sys2Proof.Machine

/-! ### Bytes -/

/-- The canonical form of module memory: addresses strictly rising, and no entry equal to 0, what an unlisted address reads (log entry
6). -/
abbrev Memory.wf (m : List Host.Cell) : Prop := Map.wf (0 : Byte) m

/-- A byte of module memory; one that nothing has written reads 0 (log entry 6). -/
def State.byte (s : State) (pa : Nat) : Byte := Map.get 0 s.mem pa

/-- n bytes of module memory. -/
def State.bytesAt (s : State) (pa n : Nat) : List Byte := Map.getList 0 s.mem pa n

/-- Bytes written to module memory with no timestamp (what the groom, a cut and the rein tree write, R176, R212). -/
def State.putBytes (s : State) (pa : Nat) (bs : List Byte) : State := { s with mem := Map.setList 0 s.mem pa bs }

/-- Whether the sector of an address is uncorrectable (R277). -/
def State.badAt (s : State) (pa : Nat) : Bool := Map.get false s.bad (pa / 32)

/-- The sectors that n bytes from an address touch (R277). -/
def sectorsOf (pa n : Nat) : List Nat := (List.range ((pa % 32 + n + 31) / 32)).map (pa / 32 + ·)

/-- Whether n bytes from an address touch an uncorrectable sector. -/
def State.badIn (s : State) (pa n : Nat) : Bool := (sectorsOf pa n).any fun k => Map.get false s.bad k

/-- Whether n bytes from an address write an uncorrectable sector in part (R277). -/
def State.badPart (s : State) (pa n : Nat) : Bool :=
  (sectorsOf pa n).any fun k => Map.get false s.bad k && (32 * k < pa || pa + n < 32 * k + 32)

/-- An uncorrectable sector reported to an access (R354 UERR), saturating. -/
def State.report (s : State) : State :=
  { s with dev := { s.dev with uerr := if s.dev.uerr = 0xFFFFFFFF#32 then s.dev.uerr else s.dev.uerr + 1 } }

/-! ### Translation -/

/-- What an access asks of a page (R258). -/
inductive Acc where
  | rd | wr | fetch
  deriving DecidableEq, Repr

/-- The bit of an entry that grants it (R258). -/
def Acc.bit : Acc → Nat
  | .rd => 2
  | .wr => 3
  | .fetch => 4

/-- The levels of the table (R258): index shift, index bits, alignment of the next table (0: none, a leaf is required). -/
def levels : List (Nat × Nat × Nat) := [(39, 11, 4096), (30, 9, 4096), (21, 9, 256), (16, 5, 0)]

/-- ADDR of an entry (R258). -/
def entryAddr (e : Nat) : Nat := bits e 8 42 * 256

/-- Whether an entry is valid and well formed at a level (R258). -/
def entryOk (e sh al : Nat) : Bool :=
  bits e 0 1 == 1 && bits e 50 14 == 0 && bits e 7 1 == 0 && bits e 5 2 != 3 &&
    if bits e 1 1 = 1 then
      sh < 39 && entryAddr e % 2 ^ sh == 0 && (bits e 5 2 != 0 || entryAddr e + 2 ^ sh ≤ 2 ^ 41)
    else al != 0 && bits e 2 5 == 0 && entryAddr e % al == 0

/-- The walk from a table on (R258, R259): the leaf and its page size. An entry that would lie past 2 TiB translates nothing (log
entry 18). -/
def State.walk (s : State) (va : Nat) : List (Nat × Nat × Nat) → Nat → Except Cause (Nat × Nat)
  | [], _ => .error .xlate
  | (sh, b, al) :: ls, t =>
    let a := t + 8 * bits va sh b
    if 2 ^ 41 ≤ a then .error .xlate
    else if s.badAt a then .error .memErr
    else
      let e := leNat (s.bytesAt a 8)
      if entryOk e sh al = false then .error .xlate
      else if bits e 1 1 = 1 then .ok (e, 2 ^ sh)
      else s.walk va ls (entryAddr e)

/-- Where a leaf leads, if it grants the access (R258). -/
def placeOf (e size va : Nat) (acc : Acc) : Except Cause Place :=
  if bits e acc.bit 1 = 0 then .error .prot
  else
    let a := entryAddr e + va % size
    match bits e 5 2 with
    | 0 => .ok (.memory a)
    | 1 => .ok (.host a)
    | _ => .ok (.object a)

/-- Whether a kept translation covers an address and differs from what the table gives now (R259). -/
def Held.stale (h : Held) (va : Nat) (w : Except Cause (Nat × Nat)) : Bool :=
  h.va ≤ va && va < h.va + h.size && (match w with
    | .ok (e, _) => u64 e != h.leaf
    | .error _ => true)

/-- The translation of a launch's address with what the TLBs of its launch keep (R258, R259; log entry 10): the leaf and page size
used. -/
def State.leafFor (s : State) (q : Nat) (la : Launch) (va : Nat) : State × Except Cause (Nat × Nat) :=
  let w := s.walk va levels la.ptroot.toNat
  let now : State × Except Cause (Nat × Nat) :=
    match w with
    | .ok (e, sz) =>
      let h : Held := { va := va / sz * sz, size := sz, leaf := u64 e }
      (if h ∈ la.tlb then s else s.setQueue q { s.queue q with launch := some { la with tlb := h :: la.tlb } }, w)
    | .error c => (if c = .memErr then s.report else s, w)
  match la.tlb.filter (fun h => h.stale va w) with
  | [] => now
  | olds =>
    let (s', k) := s.choose (olds.length + 1)
    match olds[k]? with
    | some h => (s', .ok (h.leaf.toNat, h.size))
    | none => ({ now.1 with free := s'.free }, now.2)

/-- The translation of a core's global address below 2^50 (R258). -/
def State.translate (s : State) (l va : Nat) (acc : Acc) : State × Except Cause Place :=
  match (s.core l).queue, s.launchOf l with
  | some q, some la =>
    let (s, w) := s.leafFor q la va
    (s, match w with
      | .ok (e, sz) => placeOf e sz va acc
      | .error c => .error c)
  | _, _ => (s, .error .xlate)

/-- Where an address of a core leads (R256, R258, R359). -/
def State.resolve (s : State) (l va : Nat) (acc : Acc) : State × Except Cause Place :=
  if va / 2 ^ 63 = 1 then
    if s.accepts 5 = false then (s, .error .xlate)
    else if bits va 50 13 = s.dev.mnum then s.translate l (va % 2 ^ 50) acc
    else if acc = .fetch then (s, .error .xlate)
    else (s, .ok (.far (bits va 50 13) (va % 2 ^ 50)))
  else if va / 2 ^ 50 ≠ 0 then (s, .error .xlate)
  else s.translate l va acc

/-- Translation of an exported address (R331): the table rooted at XROOT, 0 exporting nothing (R354). -/
def State.export (s : State) (va : Nat) (acc : Acc) : Except Cause Place :=
  if s.dev.xroot = 0 then .error .xlate
  else
    match s.walk va levels s.dev.xroot.toNat with
    | .ok (e, sz) => placeOf e sz va acc
    | .error c => .error c

/-! ### Lines, clocks and copies -/

/-- A line at its home, by line number; no timestamp lies below BASE (R268). -/
def State.line (s : State) (ln : Nat) : Line :=
  let x := Map.get Line.empty s.lines ln
  { x with wts := max x.wts s.base, rts := max x.rts s.base }

/-- The state with a line's clocks and versions replaced. -/
def State.setLine (s : State) (ln : Nat) (x : Line) : State := { s with lines := Map.set Line.empty s.lines ln x }

/-! ### The timestamp base (R268) -/

/-- The greatest offset from BASE of a core's clock or a line's timestamps (R268). -/
def State.maxOffset (s : State) : Nat :=
  let a := s.cores.foldl (fun m c => max m (c.2.pts - s.base)) 0
  s.lines.foldl (fun m e => max m (max (e.2.wts - s.base) (e.2.rts - s.base))) a

/-- A copy after a rebase: dropped below BASE. -/
def Copy.rebase (b : Nat) (c : Copy) : Copy := if c.rts < b then Copy.none else { c with wts := max c.wts b }

/-- Copies after a rebase. -/
def rebaseCopies (b : Nat) (m : Map Copy) : Map Copy :=
  (m.map fun e => (e.1, e.2.rebase b)).filter fun e => e.2.valid

/-- The state at a new base (R268). -/
def State.rebased (s : State) (b : Nat) : State :=
  { s with
    base := b
    cores := s.cores.map fun e => (e.1, { e.2 with
      pts := if e.2.queue.isSome then max e.2.pts b else e.2.pts, l1 := rebaseCopies b e.2.l1,
      far := e.2.far.filter fun x => (match x.2 with | some y => b ≤ y.rts | none => false) })
    teams := s.teams.map fun e => (e.1, { e.2 with l2 := rebaseCopies b e.2.l2 })
    lines := s.lines.map fun e => (e.1, { e.2 with
      wts := max e.2.wts b, rts := max e.2.rts b,
      older := e.2.older.map fun v => { v with wts := max v.wts b, rts := max v.rts b } })
    dev := { s.dev with rbc := if s.dev.rbc = 0xFFFFFFFF#32 then s.dev.rbc else s.dev.rbc + 1 } }

/-- Whether a rebase has started (R268). -/
def State.rebaseDue (s : State) (extra : Nat) : Bool := 2 ^ 31 < max s.maxOffset (extra - s.base)

/-- The rebase that clocks up to `extra` call for (R268): BASE advances by the fewest steps of 2^30. -/
def State.rebase (s : State) (extra : Nat) : State :=
  if s.rebaseDue extra then
    s.rebased (s.base + (max s.maxOffset (extra - s.base) - 2 ^ 31 + (2 ^ 30 - 1)) / 2 ^ 30 * 2 ^ 30)
  else s

/-- A timestamp about to be stored as an offset from BASE: one above 2^32 − 1 waits until the rebase has completed (R268). -/
def State.roomFor (s : State) (t : Nat) : State := if 2 ^ 32 - 1 < t - s.base then s.rebase t else s

/-! ### Leases and copies -/

/-- L: the lease of the core's launch, 64 for a LEASE of 0 (R179, R261). -/
def State.leaseOf (s : State) (l : Nat) : Nat :=
  match s.launchOf l with
  | some la => if la.lease = 0 then 64 else la.lease
  | none => 64

/-- A core's clock raised (R261). -/
def Core.raise (c : Core) (t : Nat) : Core := { c with pts := max c.pts t }

/-- A core's clock raised. -/
def State.raise (s : State) (l t : Nat) : State := s.setCore l ((s.core l).raise t)

/-- Whether a copy may be used at clock p under lease n (R261). -/
def Copy.usable (c : Copy) (p n : Nat) : Bool := c.valid && p ≤ c.rts && c.rts ≤ p + n

/-- A core's L1 with a copy put in; past 32 lines the others may have been evicted (R261; log entry 11). -/
def Core.keep (c : Core) (ln : Nat) (x : Copy) : Core :=
  let m := Map.set Copy.none c.l1 ln x
  { c with l1 := if m.length ≤ 32 then m else m.map fun e => if e.1 = ln then e else (e.1, { e.2 with maybe := true }) }

/-- A fetch or renewal at the home (R261). -/
def State.homeRead (s : State) (ln p n : Nat) : State × Copy :=
  let s := s.roomFor (p + n)
  let p := max p s.base
  let h := s.line ln
  (s.setLine ln { h with rts := max h.rts (p + n) }, { valid := true, wts := h.wts, rts := max h.wts (p + n), maybe := false })

/-- A core uses a copy: its L1 holds it then, and its clock rises (R261). -/
def State.useCopy (s : State) (l ln : Nat) (x : Copy) : State := s.setCore l (((s.core l).keep ln x).raise x.wts)

/-- A core uses a copy that a fetch or renewal brought from the home (R261): it enters the string's L2 as well. -/
def State.fetchCopy (s : State) (l ln : Nat) (x : Copy) : State :=
  let t := s.team (l / 8)
  (s.useCopy l ln x).setTeam (l / 8) { t with l2 := Map.set Copy.none t.l2 ln x }

/-- The copies of older versions that a core could meet in its L1 or its string's L2 and use (R261; log entry 11). -/
def State.staleCopies (s : State) (l ln : Nat) : List Copy :=
  let p := (s.core l).pts
  let n := s.leaseOf l
  let w := (s.line ln).wts
  let own := Map.get Copy.none (s.core l).l1 ln
  (if own.usable p n && own.wts != w then [own] else []) ++
    (s.teams.filterMap fun e =>
      let x := Map.get Copy.none e.2.l2 ln
      if x.usable p n && x.wts != w && x.wts != own.wts && (e.1 == l / 8 || Config.shareString e.1 (l / 8)) then some x
      else none)

/-- A copy of the current version that a core may use in its string's L2 (R261): one that its own team or another team of the string put
there. -/
def State.currentCopy (s : State) (l ln : Nat) : Option Copy :=
  let w := (s.line ln).wts
  let fits (t : Team) : Option Copy :=
    let x := Map.get Copy.none t.l2 ln
    if x.usable (s.core l).pts (s.leaseOf l) && x.wts == w then some x else none
  match fits (s.team (l / 8)) with
  | some x => some x
  | none => s.teams.findSome? fun e => match fits e.2 with
    | some x => if Config.shareString e.1 (l / 8) then some x else none
    | none => none

/-- A load's use of a line by a core (R261): the write time of the version used. A copy of the current version is used where the L1
or the string's L2 has one; a copy of an older version, where it might still be there, is a free choice (log entry 11). -/
def State.readLine (s : State) (l ln : Nat) : State × Nat :=
  let c := s.core l
  let n := s.leaseOf l
  let own := Map.get Copy.none c.l1 ln
  let w := (s.line ln).wts
  let now : State :=
    if own.usable c.pts n && own.wts = w then s.useCopy l ln own
    else match s.currentCopy l ln with
    | some x => s.useCopy l ln x
    | none =>
      let h := s.homeRead ln c.pts n
      h.1.fetchCopy l ln h.2
  if own.usable c.pts n && own.wts ≠ w && !own.maybe then (s.useCopy l ln own, own.wts)
  else
    match s.staleCopies l ln with
    | [] => (now, w)
    | xs =>
      let (s', k) := s.choose (xs.length + 1)
      match xs[k]? with
      | some x => (s'.useCopy l ln x, x.wts)
      | none => ({ now with free := s'.free }, w)

/-- A byte as an older version held it (R274): b is the byte of the version after the first of the list. -/
def oldByte (b : Byte) (a w : Nat) : List Version → Byte
  | [] => b
  | v :: vs =>
    let b' := (Map.get none v.undo a).getD b
    if v.wts = w then b' else oldByte b' a w vs

/-- A byte of the version with write time w of its line. -/
def State.verByte (s : State) (a w : Nat) : Byte :=
  let h := s.line (a / 128)
  if h.wts = w then s.byte a else oldByte (s.byte a) a w h.older

/-- n bytes of a version of a line. -/
def State.verBytes (s : State) (w pa : Nat) : Nat → List Byte
  | 0 => []
  | n + 1 => s.verByte pa w :: s.verBytes w (pa + 1) n

/-- The bytes that a write replaces, so that the older version can still be read. -/
def State.undo (s : State) (pa : Nat) : List Byte → Map (Option Byte)
  | [] => []
  | _ :: bs => Map.set none (s.undo (pa + 1) bs) pa (some (s.byte pa))

/-- Sectors written whole are no longer in error (R277). -/
def clearBad (m : Map Bool) (pa n : Nat) : Map Bool :=
  m.filter fun e => !(pa ≤ 32 * e.1 && 32 * e.1 + 32 ≤ pa + n)

/-- A store at the home (R262): the new version's write time. -/
def State.storeLine (s : State) (pa : Nat) (bs : List Byte) (p : Nat) : State × Nat :=
  let s := s.roomFor (max p ((s.line (pa / 128)).rts + 1))
  let h := s.line (pa / 128)
  let w := max p (h.rts + 1)
  let v : Version := { wts := h.wts, rts := h.rts, made := h.made, undo := s.undo pa bs }
  let s1 := s.setLine (pa / 128) { wts := w, rts := w, made := s.stamp, older := v :: h.older }
  ({ s1 with mem := Map.setList 0 s.mem pa bs, bad := clearBad s.bad pa bs.length, stamp := s.stamp + 1 }, w)

/-- The issuing core after its store has been performed with write time w (R262). -/
def State.stored (s : State) (l ln w : Nat) : State :=
  s.setCore l (((s.core l).keep ln { valid := true, wts := w, rts := w, maybe := true }).raise w)

/-! ### Atomics -/

/-- Signed order of n-byte values. -/
def sLess (n a b : Nat) : Bool := sxInt a (8 * n) < sxInt b (8 * n)

/-- f(old, B) of R282 on n-byte values with the flags of `fadd`; of a compare-and-swap, B is E and c is B'. -/
def atNew (op : AtOp) (n old b c : Nat) : Nat × Nat :=
  match op with
  | .add => ((old + b) % 2 ^ (8 * n), 0)
  | .and => (old &&& b, 0)
  | .or => (old ||| b, 0)
  | .xor => (old ^^^ b, 0)
  | .min => (if sLess n b old then b else old, 0)
  | .max => (if sLess n old b then b else old, 0)
  | .minz => (if b < old then b else old, 0)
  | .maxz => (if old < b then b else old, 0)
  | .swp => (b, 0)
  | .cas => (if old = b then c else old, 0)
  | .fadd => let r := fAdd .ne (u32 old) (u32 b); (r.1.toNat, r.2)

/-- The value an atomic writes, from its operand bytes: B, then B' of a compare-and-swap. -/
def atBytes (op : AtOp) (n old : Nat) (operand : List Byte) : List Byte :=
  leBytes (atNew op n old (leNat (operand.take n)) (leNat (operand.drop n))).1 n

/-- An atomic at the home (R262): the old bytes and the write time. -/
def State.atomicLine (s : State) (pa n : Nat) (op : AtOp) (operand : List Byte) (p : Nat) : State × Nat × List Byte :=
  let old := s.bytesAt pa n
  let r := s.storeLine pa (atBytes op n (leNat old) operand) p
  (r.1, r.2, old)

end Sys2Proof.Machine
end

