-- ==== Sys2Proof/Machine/Links.lean ====
section
/-! DEFINITION. The links of the module (spec/14, spec/15): flits with their CRC and sequence numbers, packets, routing, training,
hand-back of lanes, and the link forms of page 4. -/

namespace Sys2Proof.Machine

/-! ### Links and their items -/

end Sys2Proof.Machine

namespace Sys2Proof

open Machine

/-- The key of a link. -/
def LinkId.key (l : LinkId) : Nat := if l.glb then l.num else 512 + l.num

/-- Whether the module has such a link (R321). -/
def LinkId.ok (l : LinkId) : Bool := if l.glb then l.num ≤ 287 else l.num ≤ 30

/-- Lanes of a link (R321). -/
def LinkId.lanes (l : LinkId) : Nat := if l.glb then 8 else 16

end Sys2Proof

namespace Sys2Proof.Machine

/-- A link of the module. -/
def State.link (s : State) (l : LinkId) : Link := Map.get Link.empty s.links l.key

/-- The state with a link replaced. -/
def State.setLink (s : State) (l : LinkId) (x : Link) : State := { s with links := Map.set Link.empty s.links l.key x }

/-- One direction of a link. -/
def Link.dir (k : Link) (r : Dir) : LinkDir :=
  match r with
  | .tx => k.tx
  | .rx => k.rx

/-- A link with one direction replaced. -/
def Link.setDir (k : Link) (r : Dir) (x : LinkDir) : Link :=
  match r with
  | .tx => { k with tx := x }
  | .rx => { k with rx := x }

/-- popc of the lane map: WID (R345). -/
def wid (m : Nat) : Nat := ((List.range 16).filter fun i => m.testBit i).length

/-- A link state word (R345). -/
def lsw (lmap spd : Nat) : Nat := lmap * 2 ^ 16 + spd * 2 ^ 12 + wid lmap

/-- A saturating 32-bit count. -/
def sat32 (n : Nat) : Nat := if 2 ^ 32 ≤ n then 2 ^ 32 - 1 else n

/-- A bit set in a number. -/
def orBit (n i : Nat) : Nat := n ||| 2 ^ i

/-- EVT bits set in both directions of a link (R342, R349). -/
def Link.event (k : Link) (i : Nat) : Link :=
  { k with tx := { k.tx with evt := orBit k.tx.evt i }, rx := { k.rx with evt := orBit k.rx.evt i } }

/-- A bit of MEVT goes to 1, sending vector 64 when it was 0 (R354). -/
def State.mevt (s : State) (i : Nat) : State :=
  if s.dev.mevt.getLsbD i then s
  else { s with dev := { s.dev with mevt := s.dev.mevt ||| (1#8 <<< i) }, hostOut := s.hostOut ++ [.msix 64] }

/-! ### Flits and packets (R333, R334) -/

/-- One bit of CRC-24 with polynomial 0x864CFB (R333; log entry 19 for the bit order). -/
def crcStep (c : Nat) : Nat := if c / 2 ^ 23 % 2 = 1 then (2 * c % 2 ^ 24) ^^^ 0x864CFB else 2 * c % 2 ^ 24

/-- n bits of CRC-24. -/
def crcBits (c : Nat) : Nat → Nat
  | 0 => c
  | n + 1 => crcBits (crcStep c) n

/-- CRC-24 of a list of bytes. -/
def crc24 (c : Nat) : List Byte → Nat
  | [] => c
  | b :: bs => crc24 (crcBits (c ^^^ (b.toNat * 2 ^ 16)) 8) bs

end Sys2Proof.Machine

namespace Sys2Proof

open Machine

/-- The CRC of a flit, over bytes 0 to 63 with the field taken as zero (R333). -/
def FabFlit.crcOf (f : FabFlit) : Nat :=
  crc24 0xB704CE (leBytes (f.seq * 2 ^ 32 + f.ch * 2 ^ 28 + f.lk * 2 ^ 24) 8 ++ f.body)

end Sys2Proof

namespace Sys2Proof.Machine

/-- A flit with its CRC. -/
def mkFlit (seq ch lk : Nat) (body : List Byte) : FabFlit :=
  let f : FabFlit := { seq := seq, ch := ch, lk := lk, crc := 0, body := body }
  { f with crc := f.crcOf }

/-- A list of bytes filled with zeros to n. -/
def padTo (bs : List Byte) (n : Nat) : List Byte := bs ++ List.replicate (n - bs.length) 0

/-- A control flit that names a number and a lane (R333, R346; the place of the lane is presumed, log entry 19). -/
def ctlFlit (lk n lane : Nat) : FabFlit := mkFlit n 0 lk (padTo (leBytes lane 8) 56)

end Sys2Proof.Machine

namespace Sys2Proof

open Machine

/-- Requests carry an address, replies a status (R334). -/
def Packet.isRequest (p : Packet) : Bool := p.pk < 4

/-- The body of a packet (R334). -/
def Packet.bodyBytes (p : Packet) : List Byte :=
  if p.isRequest then leBytes p.addr 8 ++ leBytes p.budget 4 ++ leBytes p.serial 4 ++ p.data
  else leBytes p.status 4 ++ leBytes p.serial 4 ++ p.data

/-- The flits of a packet beyond the first (R334). -/
def Packet.nfl (p : Packet) : Nat := (p.bodyBytes.length - 40 + 55) / 56

/-- TAG of a packet (R334). -/
def Packet.tag (p : Packet) : Nat := p.core * 2 ^ 7 + p.slot * 2 ^ 5 + p.entry * 2

/-- Packet header and clock (R334). -/
def Packet.head (p : Packet) : List Byte :=
  leBytes (p.dmod * 2 ^ 51 + p.smod * 2 ^ 38 + p.pk * 2 ^ 34 + p.nfl * 2 ^ 27 + p.tag) 8 ++ leBytes p.clock 8

end Sys2Proof

namespace Sys2Proof.Machine

/-- The bytes of a packet cut into payloads of 56. -/
def chunks (bs : List Byte) : Nat → List (List Byte)
  | 0 => []
  | n + 1 => padTo (bs.take 56) 56 :: chunks (bs.drop 56) n

end Sys2Proof.Machine

namespace Sys2Proof

open Machine

/-- The payloads of a packet's flits (R334). -/
def Packet.payloads (p : Packet) : List (List Byte) := chunks (p.head ++ p.bodyBytes) (p.nfl + 1)

end Sys2Proof

namespace Sys2Proof.Machine

/-- NFL of a first flit's payload (R334). -/
def nflOf (body : List Byte) : Nat := bits (leNat (body.take 8)) 27 7

/-- The number of sizes that a store's data can have in a packet of k flits (R334): those that fill this many flits and no fewer. -/
def storeSizes (k : Nat) : Nat := if k ≤ 1 then 24 else 56

/-- The packet of the payloads of its flits (R334); `n` is the size of a store's data, which no field of a request gives, and which ends
with its line at the latest (log entry 19). -/
def readPacket (n : Nat) (bs : List Byte) : Packet :=
  let h := leNat (bs.take 8)
  let b := bs.drop 16
  let pk := bits h 34 4
  let req := pk < 4
  let rest := b.drop (if req then 16 else 8)
  { dmod := bits h 51 13, smod := bits h 38 13, pk := pk, core := bits h 7 20, slot := bits h 5 2, entry := bits h 1 4,
    serial := leNat ((b.drop (if req then 12 else 4)).take 4), clock := leNat ((bs.drop 8).take 8),
    addr := if req then leNat (b.take 8) % 2 ^ 50 else 0, budget := if req then leNat ((b.drop 8).take 4) else 0,
    status := if req then 0 else leNat (b.take 4),
    data := if pk = 0 then rest.take 16
      else if pk = 1 then rest.take (min n (128 - leNat (b.take 8) % 128))
      else if pk = 3 then rest.take 8
      else if pk = 4 then (if rest.length < 128 then [] else rest.take 128)
      else if pk = 5 then [] else rest.take 24 }

/-! ### Transmission (R336, R344) -/

end Sys2Proof.Machine

namespace Sys2Proof

open Machine

/-- Retry-buffer size (R336). -/
def LinkId.retryCap (l : LinkId) : Nat := if l.glb then 2048 else 1024

end Sys2Proof

namespace Sys2Proof.Machine

/-- The number after a sequence number (R336). -/
def seqNext (n : Nat) : Nat := if n + 1 < 2 ^ 32 then n + 1 else 1

/-- Whether a sequence number lies before another: at most half the numbers back. -/
def seqBefore (a b : Nat) : Bool :=
  let d := (b + (2 ^ 32 - 1) - a) % (2 ^ 32 - 1)
  0 < d && d ≤ 2 ^ 31

/-- The number before a sequence number. -/
def seqPrev (n : Nat) : Nat := if n ≤ 1 then 2 ^ 32 - 1 else n - 1

/-- One payload flit goes out (R336); it takes the first boundary mark that waits (R324). -/
def Link.emit (k : Link) (ch : Nat) (body : List Byte) : Link × FabFlit :=
  let f := mkFlit k.nextSeq ch (k.mark.headD 0) body
  ({ k with nextSeq := seqNext k.nextSeq, retry := k.retry ++ [(f, 1)], mark := k.mark.drop 1 }, f)

/-- The oldest packet of the first channel with one, in rotation from channel c (R344). -/
def nextOf (q : List (Nat × List (List Byte))) (c : Nat) : Nat → Option (Nat × List (List Byte))
  | 0 => none
  | n + 1 =>
    match q.find? (fun e => e.1 == c % 5) with
    | some e => some e
    | none => nextOf q (c + 1) n

/-- What a link transmits next: a flit of the packet begun, else the first flit of the next packet (R334, R344), else an empty boundary
flit for a mark that waits (R324, R335). -/
def Link.upNext (k : Link) : Option (Link × Nat × List Byte) :=
  match k.begun with
  | some (c, b :: bs) => some ({ k with begun := if bs = [] then none else some (c, bs) }, c, b)
  | _ =>
    match nextOf k.txq k.rot 5 with
    | some (c, b :: bs) =>
      some ({ k with txq := k.txq.erase (c, b :: bs), begun := if bs = [] then none else some (c, bs), rot := c + 1 }, c, b)
    | _ => if k.mark = [] then none else some (k, 15, List.replicate 56 0)

/-- At most n flits go out while the retry buffer has room (R336). -/
def Link.pump (k : Link) (cap : Nat) : Nat → Link × List FabFlit
  | 0 => (k, [])
  | n + 1 =>
    match k.upNext with
    | none => (k, [])
    | some (k', c, b) =>
      if cap ≤ k.retry.length then (k, [])
      else
        let r := k'.emit c b
        let q := r.1.pump cap n
        (q.1, r.2 :: q.2)

/-- Flits that wait for an output, of the channels of a sort. -/
def Link.queued (k : Link) (on : Nat → Bool) : Nat :=
  ((k.txq ++ k.begun.toList).filter fun e => on e.1).foldl (fun n e => n + e.2.length) 0

/-- A link transmits: all that it can, or, where the machine's steps are not prompt, one flit (log entry 3). -/
def State.pump (s : State) (l : LinkId) : State :=
  let k := s.link l
  if k.up then
    let r := k.pump l.retryCap (if s.prompt then k.queued (fun _ => true) + 2 else 1)
    { s.setLink l r.1 with linkOut := s.linkOut ++ r.2.map fun f => (l, f) }
  else s

/-- A control flit goes out on a link. -/
def State.control (s : State) (l : LinkId) (f : FabFlit) : State := { s with linkOut := s.linkOut ++ [(l, f)] }

/-! ### Routing (R342, R343) -/

/-- The group of a module (R329). -/
def groupOf (m : Nat) : Nat := m / 32

/-- The position of a module in its group (R329). -/
def posOf (m : Nat) : Nat := m % 32

/-- The local link from position p to position q (R330). -/
def localTo (p q : Nat) : LinkId := { glb := false, num := (q + 31 - p) % 32 }

/-- Whether this end lets a link be in routing (R342). -/
def Link.ownIn (k : Link) : Bool := k.up && k.tx.minw ≤ k.tx.act && k.rx.minw ≤ k.rx.act && !k.adm

/-- Whether a link of this module is in routing (R342). -/
def Link.inRouting (k : Link) : Bool := k.ownIn && !k.farOut

/-- PEER's module (R349). -/
def Link.peerMod (k : Link) : Nat := bits k.peer.toNat 16 13

/-- The module's reach word (R342). -/
def State.reachWord (s : State) : Word :=
  u32 ((List.range 32).foldl (fun a q =>
    if q ≠ posOf s.dev.mnum && (s.link (localTo (posOf s.dev.mnum) q)).inRouting then orBit a q else a) 0)

/-- What a hitch does when one of its links enters or leaves routing (R342): EVT, the fabric event, and word to the group; a change of
the reach word goes over every global link in service. -/
def State.noteRouted (s : State) (l : LinkId) (down : Bool) : State :=
  let k := s.link l
  let now := k.inRouting
  if k.routing = now && !down then s
  else
    let me := s.dev.mnum
    let s1 := (s.setLink l ({ k with routing := now }.event (if down then 31 else 30))).mevt 0
    let tell := ((List.range 32).filter (· ≠ posOf me)).map fun q =>
      (groupOf me * 32 + q, Event.routingNotice (posOf me) l now k.peerMod)
    let word := if l.glb then [] else
      s1.links.filterMap fun e =>
        if e.1 < 512 && e.2.up then
          some (e.2.peerMod, Event.reachWord (posOf e.2.peerMod) ⟨true, bits e.2.peer.toNat 0 9⟩ s1.reachWord)
        else none
    { s1 with outbox := s1.outbox ++ (if k.routing = now then [] else tell ++ word) }

/-- The link as its far end numbers it (R330, R349). -/
def Link.farLink (k : Link) (l : LinkId) : LinkId := if l.glb then ⟨true, bits k.peer.toNat 0 9⟩ else ⟨false, 30 - l.num⟩

/-- A hitch tells the far end of a link that is up whether this end lets it be in routing, when that changes; then what `noteRouted`
tells (R342; the message is the model's, log entry 19). -/
def State.noteRouting (s : State) (l : LinkId) (down : Bool) : State :=
  let k := s.link l
  let s := if k.up = false ∨ k.told = k.ownIn then s
    else
      let t := s.setLink l { k with told := k.ownIn }
      { t with outbox := t.outbox ++
        [(k.peerMod, Event.routingNotice (posOf k.peerMod) (k.farLink l) k.ownIn s.dev.mnum)] }
  s.noteRouted l down

/-- The global links that lead from the group of module A to another group: position, link, landing module (R343). -/
def State.gateways (s : State) (h : Nat) : List Route :=
  let me := posOf s.dev.mnum
  let own := (List.range 288).filterMap fun n =>
    let k := s.link ⟨true, n⟩
    if k.inRouting && groupOf k.peerMod = h then some ⟨me, ⟨true, n⟩, k.peerMod⟩ else none
  own ++ s.routes.filter fun r =>
    r.link.glb && groupOf r.peer = h && r.pos ≠ me && (s.link (localTo me r.pos)).inRouting

/-- The key of a link of the group by its position and link. -/
def routeKey (p : Nat) (l : LinkId) : Nat := p * 2 ^ 10 + l.key

/-- Whether the landing module of a gateway is M or reaches M by the reach word that came over that link (R342, R343). -/
def State.lands (s : State) (r : Route) (m : Nat) : Bool :=
  r.peer = m || (Map.get 0 s.reach (routeKey r.pos r.link)).getLsbD (posOf m)

/-- Order of gateways by position and link number. -/
def Route.before (a b : Route) : Bool := a.pos < b.pos || (a.pos = b.pos && a.link.num ≤ b.link.num)

/-- Insertion by `Route.before`. -/
def insertRoute (r : Route) : List Route → List Route
  | [] => [r]
  | x :: xs => if r.before x then r :: x :: xs else x :: insertRoute r xs

/-- Candidates in ascending (position, link number). -/
def sortRoutes : List Route → List Route
  | [] => []
  | x :: xs => insertRoute x (sortRoutes xs)

/-- The hash of R343 over candidates. -/
def pick {α : Type} (a m : Nat) (xs : List α) : Option α := xs[(a + m) % xs.length]?

/-- The first non-empty list. -/
def firstNonEmpty {α : Type} : List (List α) → List α
  | [] => []
  | [] :: xs => firstNonEmpty xs
  | x :: _ => x

/-- The output link and channel of a request for module m, from its source or from an intermediate module that it reached on channel
`from_` (R335, R343). -/
def State.route (s : State) (m : Nat) (from_ : Option Nat) : Option (LinkId × Nat) :=
  let a := s.dev.mnum
  let me := posOf a
  let last := if from_ = none then 0 else 2
  if groupOf m = groupOf a then
    let direct := localTo me (posOf m)
    if (s.link direct).inRouting then some (direct, last)
    else if from_ = none then
      (pick a m ((List.range 32).filter fun c =>
        c ≠ me && c ≠ posOf m && (s.link (localTo me c)).inRouting &&
          s.routes.any fun r => r.pos = c && r.link == localTo c (posOf m))).map fun c => (localTo me c, 0)
    else none
  else
    let gs := sortRoutes ((s.gateways (groupOf m)).filter fun r => s.lands r m)
    let own := gs.filter fun r => r.pos = me
    let others := if from_ = none then gs.filter fun r => r.pos ≠ me else []
    (pick a m (firstNonEmpty [own.filter fun r => r.peer = m, own, others.filter fun r => r.peer = m, others])).map fun r =>
      if r.pos = me then (r.link, 1) else (localTo me r.pos, 0)

/-- The payloads of a packet go to a link's queue and out as the link takes them (R344). -/
def State.sendOn (s : State) (l : LinkId) (ch : Nat) (bs : List (List Byte)) : State :=
  let k := s.link l
  (s.setLink l { k with txq := k.txq ++ [(ch, bs)] }).pump l

/-- Whether the queue of a channel at an output has room for n flits more (R344). -/
def State.roomOn (s : State) (l : LinkId) (ch n : Nat) : Bool := (s.link l).queued (fun c => c == ch) + n ≤ 4096

end Sys2Proof.Machine

namespace Sys2Proof

open Machine

/-- Every reply goes on channel 3, every protocol packet on channel 4 (R335). -/
def Packet.channel (p : Packet) (c : Nat) : Nat := if p.isRequest then c else if p.pk = 8 then 4 else 3

end Sys2Proof

namespace Sys2Proof.Machine

/-- A packet of this module is sent by R343; none where it has no candidate. -/
def State.sendPacket (s : State) (p : Packet) : Option State :=
  (s.route p.dmod none).map fun r => s.sendOn r.1 (p.channel r.2) p.payloads

/-- Whether a packet of this module must wait: the queue of its channel at its output is full (R344). -/
def State.outputFull (s : State) (p : Packet) : Bool :=
  match s.route p.dmod none with
  | some r => !s.roomOn r.1 (p.channel r.2) (p.nfl + 1)
  | none => false

/-! ### Reception (R337, R338) -/

/-- Buffer entries reserved for a channel (R338). -/
def Link.reserved (k : Link) (c : Nat) : Nat := if c < 3 then k.rx.act else 0

/-- Whether a channel finds a free buffer entry (R338). -/
def Link.hasRoom (k : Link) (c : Nat) : Bool :=
  Map.get 0 k.held c < k.reserved c ||
    (k.held.foldl (fun a e => a + (e.2 - k.reserved e.1)) 0) < 64

/-- What a packet that has arrived whole causes here (R331, R334): a request is performed, a reply goes to its entry, and a packet for
another module waits to be forwarded. The protocol messages come as events of their own (log entry 19). -/
def State.takePacket (s : State) (l : LinkId) (ch : Nat) (raw : List (List Byte)) (p : Packet) : State :=
  let free (s : State) : State :=
    let k := s.link l
    s.setLink l { k with held := Map.set 0 k.held ch (Map.get 0 k.held ch - raw.length) }
  if 9 ≤ p.pk then free s
  else if p.dmod ≠ s.dev.mnum then { s with transit := s.transit ++ [{ pkt := p, raw := raw, link := some l, ch := ch, flits := raw.length }] }
  else if p.isRequest then free { s with agenda := s.agenda ++ [.happen (.fabricTargetRequest p)] }
  else if 4 ≤ p.pk ∧ p.pk ≤ 7 then
    free { s with agenda := s.agenda ++ [.happen (.memoryReply ⟨p.core, p.slot, p.entry, p.serial, p.status, p.data, p.clock⟩)] }
  else free s

/-- An accepted flit joins its packet (R334, R338). -/
def State.assemble (s : State) (l : LinkId) (f : FabFlit) : State :=
  if f.ch = 15 then s
  else
    let k := s.link l
    let fs := Map.get [] k.asm f.ch ++ [f]
    let k := { k with held := Map.set 0 k.held f.ch (Map.get 0 k.held f.ch + 1) }
    let whole := match fs with
      | [] => false
      | g :: _ => fs.length == nflOf g.body + 1
    if whole then
      let (s, c) := s.choose (storeSizes fs.length)
      (s.setLink l { k with asm := Map.set [] k.asm f.ch [] }).takePacket l f.ch (fs.map fun g => g.body)
        (readPacket (56 * fs.length - 32 - c) (fs.flatMap fun g => g.body))
    else s.setLink l { k with asm := Map.set [] k.asm f.ch fs }

/-- A receiver refuses a flit: it sends one NAK until it has accepted the expected flit (R337). -/
def State.nak (s : State) (l : LinkId) : State :=
  let k := s.link l
  if k.waiting then s
  else (s.setLink l { k with waiting := true, rx := { k.rx with nakc := sat32 (k.rx.nakc + 1) } }).control l
    (ctlFlit 4 k.expect 0)

/-- ACK of every flit accepted so far (R336). -/
def State.ack (s : State) (l : LinkId) : State :=
  let k := s.link l
  (s.setLink l { k with debt := 0 }).control l (ctlFlit 3 (seqPrev k.expect) 0)

/-- The receive side at a boundary flit (R324): hand-back at LK 1, return at LK 2. -/
def Link.boundary (k : Link) (f : FabFlit) : Link :=
  if f.lk = 1 then
    { k with rx := { k.rx with hseq := f.seq, act := k.rx.act - 1, wst := 1,
                               lout := ((k.notes.find? fun e => e.1 == f.seq).map Prod.snd).getD 0x1F },
             notes := k.notes.filter fun e => e.1 != f.seq }
  else if f.lk = 2 then
    { k with rx := { k.rx with rseq := f.seq, act := k.rx.act + 1, wst := 0, lout := 0x1F } }
  else k

/-- Whether a flit counts as one that failed its CRC (R333, R346). -/
def Link.fails (k : Link) (f : FabFlit) : Bool :=
  f.crc != f.crcOf || f.body.length != 56 || 10 ≤ f.lk || (5 ≤ f.ch && f.ch != 15) ||
    (f.lk = 1 && f.seq = k.expect && !k.notes.any fun e => e.1 == f.seq)

/-- A payload flit at the receiver (R337). -/
def State.receive (s : State) (l : LinkId) (f : FabFlit) : State :=
  let k := s.link l
  if f.seq ≠ k.expect then s
  else if f.ch ≠ 15 && !k.hasRoom f.ch then s.nak l
  else
    let k := { k with expect := seqNext k.expect, waiting := false, debt := k.debt + 1 }.boundary f
    let s := ((s.setLink l k).noteRouting l false).assemble l f
    if 64 ≤ k.debt then s.ack l else s

/-! ### Links going down, training (R339, R345) -/

end Sys2Proof.Machine

namespace Sys2Proof

open Machine

/-- The full lane map of a link. -/
def LinkId.full (l : LinkId) : Nat := 2 ^ l.lanes - 1

end Sys2Proof

namespace Sys2Proof.Machine

/-- The buffer entries that packets in transit hold of a link, by channel (R338). -/
def State.transitHeld (s : State) (l : LinkId) : Map Nat :=
  s.transit.foldl (fun m t => if t.link = some l then Map.set 0 m t.ch (Map.get 0 m t.ch + t.flits) else m) []

/-- A link goes down (R339): unacknowledged flits and the rest of a packet begun are discarded, and training starts. Packets accepted
whole keep their buffer entries. EVT[31] tells of a link that was up (R342). -/
def State.linkDown (s : State) (l : LinkId) : State :=
  let k := s.link l
  let out (d : LinkDir) : LinkDir := { d with act := 0, wst := 2, lmap := 0, lout := 0x1F }
  (s.setLink l { k with up := false, round := 0, retry := [], begun := none, asm := [], held := s.transitHeld l, notes := [], handed := [], mark := [],
                        waiting := false, debt := 0, tx := out k.tx, rx := out k.rx, training := some ⟨1, l.full, 0, 0⟩ }).noteRouting l k.up

/-- A direction after training (R322, R349): EVT[31] and EVT[30] survive. -/
def LinkDir.trained (d : LinkDir) (lmap spd : Nat) : LinkDir :=
  { LinkDir.empty with act := wid lmap, wst := 0, lmap := lmap, spd := spd, evt := bits d.evt 30 2 * 2 ^ 30 }

/-- Whether a partner's link state word carries no reserved value (R345). -/
def wordOk (l : LinkId) (w : Nat) : Bool :=
  bits w 5 7 == 0 && bits w 0 5 == wid (bits w 16 16) && bits w 12 4 ≤ (if l.glb then 1 else 2) && bits w 16 16 ≤ l.full

/-- A direction whose training failed (R373). -/
def LinkDir.failed (d : LinkDir) : LinkDir := { LinkDir.empty with evt := bits d.evt 30 2 * 2 ^ 30 }

/-- A link whose training failed (R345, R373). -/
def Link.failed (k : Link) (partner : Word) : Link :=
  { k with up := false, training := none, round := 0, psw := partner, adm := false, tx := k.tx.failed, rx := k.rx.failed }

/-- A link whose training succeeded with the lane map m (R345): sequence numbers restart and every item takes its reset value. PEER keeps
the partner's word as it came, with the bits that R345 does not name (DESIGN CHOICE, log entry 51). -/
def Link.trained (k : Link) (m : Nat) (t : Training) (peer partner : Word) : Link :=
  { k with up := true, peer := peer, psw := partner, round := t.round, adm := false, training := none,
           tx := k.tx.trained m t.spd, rx := k.rx.trained m t.spd, nextSeq := 1, retry := [], begun := none, expect := 1,
           waiting := false, debt := 0, asm := [], notes := [], handed := [], mark := [], told := true, farOut := false }

/-- One round of training (R345): `passed` are the lanes that pass this end's test, `partner` and `peer` what the partner sent, 0 where
it sent nothing. -/
def State.train (s : State) (l : LinkId) (t : Training) (passed partner peer : Word) : State :=
  let k := s.link l
  let own := t.lmap &&& passed.toNat
  let s := s.control l (mkFlit (lsw own t.spd) 0 9
    (padTo (leBytes (s.dev.mnum * 2 ^ 16 + (if l.glb then 2 ^ 15 else 0) + l.num) 4) 56))
  let m := own &&& bits partner.toNat 16 16
  let spd := max t.spd (bits partner.toNat 12 4)
  let heard := if partner = 0 then t.heard else partner
  let fail := (s.setLink l (k.failed heard)).noteRouting l false
  if !wordOk l partner.toNat || wid m < 2 then fail
  else if lsw own t.spd = partner.toNat then
    let k := k.trained own t peer partner
    ((s.setLink l k).noteRouting l false).pump l
  else if 3 ≤ t.round then fail
  else s.setLink l { k with psw := partner, training := some ⟨t.round + 1, m, spd, heard⟩ }

/-! ### Handing back a lane (R324, R346, R347) -/

/-- The transmitter opens a hand-back (R324 step 1, R346): the notice, then the boundary. Where the flit of a return boundary has not gone
out yet, the hand-back opens at the flit after it (DEDUCED: one flit marks one boundary; log entry 19). -/
def State.handBack (s : State) (l : LinkId) (lane : Nat) : State :=
  let k := s.link l
  let h := if k.mark = [] then k.nextSeq else seqNext k.nextSeq
  let k := { k with tx := { k.tx with hseq := h, act := k.tx.act - 1, wst := 1, lout := lane }, mark := k.mark ++ [1],
                    handed := k.handed ++ [(h, lane)] }
  (((s.control l (ctlFlit 8 h lane)).setLink l k).pump l).noteRouting l false

/-! ### The events of links -/

def execCtrlRetrain (l : LinkId) (s : State) : Out := whenOn l.ok s fun s => .next (s.linkDown l)

/-- ACK at the transmitter (R336), which repeats the notice of each hand-back whose flit HSEQ is still unacknowledged (R346). -/
def execLinkAck (l : LinkId) (n : Nat) (s : State) : Out :=
  let k := s.link l
  whenOn (k.up && k.retry.any fun e => e.1.seq == n) s fun s =>
    let rest := (k.retry.dropWhile fun e => e.1.seq != n).drop 1
    let acked := k.retry.take (k.retry.length - rest.length)
    let handed := k.handed.filter fun h => !acked.any fun e => e.1.seq == h.1
    let s := s.setLink l { k with retry := rest, handed := handed }
    .next ((handed.foldl (fun s h => s.control l (ctlFlit 8 h.1 h.2)) s).pump l)

/-- NAK at the transmitter (R337): flits from n on go again; the 32nd sending of a flit takes the link down. -/
def execLinkNak (l : LinkId) (n : Nat) (s : State) : Out :=
  let k := s.link l
  whenOn (k.up && k.retry.any fun e => e.1.seq == n) s fun s =>
    let before := k.retry.takeWhile fun e => e.1.seq != n
    let again := (k.retry.dropWhile fun e => e.1.seq != n).map fun e => (e.1, e.2 + 1)
    let s := s.setLink l { k with retry := before ++ again, tx := { k.tx with rtry := sat32 (k.tx.rtry + again.length) } }
    let s := { s with linkOut := s.linkOut ++ again.map fun e => (l, e.1) }
    .next (if again.any (fun e => 32 ≤ e.2) then s.linkDown l else s)

def execAckTimer (l : LinkId) (s : State) : Out :=
  whenOn ((s.link l).up && 0 < (s.link l).debt) s fun s => .next (s.ack l)

def execLinkAckTimeout (l : LinkId) (s : State) : Out :=
  whenOn ((s.link l).up && !(s.link l).retry.isEmpty) s fun s => .next (s.linkDown l)

def execTrainingRound (l : LinkId) (passed partner peer : Word) (s : State) : Out :=
  match (s.link l).training with
  | none => .next s
  | some t => .next (s.train l t passed partner peer)

/-- A hand-back request at the transmitter (R347). -/
def execHandbackRequest (l : LinkId) (lane : Nat) (s : State) : Out :=
  let k := s.link l
  whenOn (k.up && lane < l.lanes) s fun s =>
    if k.tx.wst ≠ 0 ∨ k.tx.act < k.tx.minw + 1 then .next (s.control l (ctlFlit 7 0 lane)) else .next (s.handBack l lane)

/-- A refusal at the requesting side (R347). -/
def execHandbackRefused (l : LinkId) (_lane : Nat) (s : State) : Out :=
  let k := s.link l
  whenOn (k.up && k.rx.wst == 1) s fun s =>
    .next (s.setLink l { k with rx := { k.rx with
      evt := orBit k.rx.evt 29,
      wst := if k.rx.lout ≠ 0x1F ∨ k.notes ≠ [] then 1 else 0 } })

/-- A lane is ready (R324 step 3), after the hand-back's boundary has gone out (R346): the transmitter names RSEQ; the receive side
follows with the boundary flit. -/
def execLaneReturn (l : LinkId) (r : Dir) (s : State) : Out :=
  let k := s.link l
  whenOn (r == .tx && k.up && k.tx.wst == 1 && k.tx.lout != 0x1F && k.mark == []) s fun s =>
    let k := { k with tx := { k.tx with rseq := k.nextSeq, act := k.tx.act + 1, wst := 0, lout := 0x1F }, mark := [2] }
    .next (((s.setLink l k).pump l).noteRouting l false)

/-- A lane fails (R346). -/
def execLaneFail (l : LinkId) (r : Dir) (s : State) : Out :=
  let k := s.link l
  let d := k.dir r
  whenOn (k.up && d.wst == 1 && d.lout != 0x1F) s fun s =>
    let m := if d.lmap.testBit d.lout then d.lmap - 2 ^ d.lout else d.lmap
    .next ((s.setLink l (k.setDir r { d with lmap := m, wst := 0, lout := 0x1F })).noteRouting l false)

/-- A hand-back notice at the receiver (R346), which may be a repeat: one for a flit accepted already says nothing more. -/
def Link.noticed (k : Link) (h lane : Nat) : Link :=
  if seqBefore h k.expect || k.notes.any (fun e => e.1 == h) then k else { k with notes := k.notes ++ [(h, lane)] }

/-- A flit arrives at a link's receiver (R337); a control flit has the effect of its kind. A training flit runs the partner's round, with
every lane of this end passing its test (log entry 19). -/
def execLinkFlitReceive (l : LinkId) (f : FabFlit) (s : State) : Out :=
  let k := s.link l
  if f.lk = 9 ∧ k.training.isSome ∧ k.fails f = false then
    execTrainingRound l (u32 l.full) (u32 f.seq) (u32 (leNat (f.body.take 4))) s
  else
    whenOn k.up s fun s =>
      if k.fails f then .next (s.nak l)
      else if f.lk < 3 then .next (s.receive l f)
      else
        match f.lk with
        | 3 => execLinkAck l f.seq s
        | 4 => execLinkNak l f.seq s
        | 6 => execHandbackRequest l (leNat (f.body.take 8)) s
        | 7 => execHandbackRefused l (leNat (f.body.take 8)) s
        | 8 => .next (s.setLink l (k.noticed f.seq (leNat (f.body.take 8))))
        | _ => .next s

/-- A reach word arrives (R342): kept for the link of the group that it came over, in routing or not, and spread when that is a link of
this module. -/
def execReachWord (p : Nat) (l : LinkId) (w : Word) (s : State) : Out :=
  let me := posOf s.dev.mnum
  let tell := if p = me then ((List.range 32).filter (· ≠ me)).map fun q =>
    (groupOf s.dev.mnum * 32 + q, Event.reachWord p l w) else []
  .next { s with reach := Map.set 0 s.reach (routeKey p l) w, outbox := s.outbox ++ tell }

/-- A routing notice (R342): of another module's link, or, with this module's position as p, from the far end of a link of its own,
whether that end lets the link be in routing. -/
def execRoutingNotice (p : Nat) (l : LinkId) (inRouting : Bool) (peer : Nat) (s : State) : Out :=
  if p = posOf s.dev.mnum then
    .next ((s.setLink l { s.link l with farOut := !inRouting }).noteRouting l false)
  else
    let rest := s.routes.filter fun r => !(r.pos == p && r.link == l)
    .next { s with routes := if inRouting then rest ++ [⟨p, l, peer⟩] else rest }

/-- The payloads of a request with BUDGET replaced (R334, R341); every other byte is as it came (R325). -/
def setBudget (raw : List (List Byte)) (n : Nat) : List (List Byte) :=
  match raw with
  | [] => []
  | b :: bs => (b.take 24 ++ leBytes n 4 ++ b.drop 28) :: bs

/-- What a packet in transit came by, as R343 routes it: its channel for a request, the kind of link for the others, nothing for a reply
of this module. -/
def Transit.came (t : Transit) : Option Nat :=
  match t.link with
  | none => none
  | some l => if t.pkt.isRequest then some t.ch else if l.glb then some 1 else some 0

/-- A packet leaves transit, and its buffer entries are free. -/
def State.endTransit (s : State) (t : Transit) : State :=
  let s : State := { s with transit := s.transit.erase t }
  match t.link with
  | none => s
  | some l => s.setLink l { s.link l with held := Map.set 0 (s.link l).held t.ch (Map.get 0 (s.link l).held t.ch - t.flits) }

/-- A hitch forwards a packet exactly as it came (R325, R341, R344), once its output has room: a request loses the time held, and is
discarded with no budget left. -/
def execPacketForward (p : Packet) (held : Nat) (s : State) : Out :=
  match s.transit.find? fun t => t.pkt == p with
  | none => .next s
  | some t =>
    let left := p.budget - held
    if p.isRequest ∧ left = 0 then .next (s.endTransit t)
    else
      match s.route p.dmod t.came with
      | none => .next s
      | some r =>
        whenOn (s.roomOn r.1 (p.channel r.2) t.raw.length) s fun s =>
          .next ((s.endTransit t).sendOn r.1 (p.channel r.2) (if p.isRequest then setBudget t.raw left else t.raw))

/-! ### Link forms (R321 to R323, R348, R349) -/

/-- A checked selector. -/
structure Selector where
  item : Nat
  lane : Nat
  link : LinkId
  dir : Dir
  deriving DecidableEq, Repr

/-- The checks of R321. -/
def selector (v : Word) : Option Selector :=
  let n := v.toNat
  let l : LinkId := { glb := bits n 15 1 == 1, num := bits n 0 9 }
  let lane := bits n 16 5
  if bits n 28 4 ≠ 0 ∨ bits n 21 3 ≠ 0 ∨ bits n 9 5 ≠ 0 ∨ l.ok = false ∨ l.lanes ≤ lane then none
  else some { item := bits n 24 4, lane := lane, link := l, dir := if bits n 14 1 = 1 then .rx else .tx }

/-- The STATE word (R322). -/
def LinkDir.stateWord (d : LinkDir) : Nat := d.act * 2 ^ 8 + d.wst

/-- The value of an item (R322, R349, R373). -/
def Link.item (k : Link) (x : Selector) : Word :=
  let d := k.dir x.dir
  let rx := x.dir == .rx
  u32 <| match x.item with
    | 0 => if rx then Map.get 0 d.cnt x.lane else 0
    | 1 => if rx then Map.get 0xFFFFFFFF d.thr x.lane else 0xFFFFFFFF
    | 2 => d.stateWord
    | 3 => d.hseq
    | 4 => d.rseq
    | 5 => if d.lmap = 0 then 0 else lsw d.lmap d.spd
    | 6 => k.psw.toNat
    | 7 => d.minw
    | 8 => k.peer.toNat
    | 9 => if rx then 0 else d.rtry
    | 10 => if rx then d.nakc else 0
    | 11 => if rx then Map.get 0 d.uncr x.lane else 0
    | 12 => d.evt
    | 13 => d.lout
    | 14 => if k.adm then 1 else 0
    | _ => k.round

/-- Read-to-clear items after `lstat` (R348, R349). -/
def Link.readClear (k : Link) (x : Selector) : Link :=
  let d := k.dir x.dir
  match x.item with
  | 9 => k.setDir x.dir { d with rtry := 0 }
  | 10 => k.setDir x.dir { d with nakc := 0 }
  | 11 => k.setDir x.dir { d with uncr := Map.set 0 d.uncr x.lane 0 }
  | _ => k

/-- The write of `lctl` (R348, R349). -/
def State.writeItem (s : State) (x : Selector) (v : Word) : State :=
  let k := s.link x.link
  let d := k.dir x.dir
  match x.item with
  | 1 =>
    if x.dir = .rx then
      s.setLink x.link (k.setDir .rx { d with thr := Map.set 0xFFFFFFFF d.thr x.lane v.toNat, cnt := Map.set 0 d.cnt x.lane 0 })
    else s
  | 7 =>
    let m := bits v.toNat 0 5
    (s.setLink x.link (k.setDir x.dir { d with minw := if m < 2 then 2 else min m x.link.lanes })).noteRouting x.link false
  | 12 => s.setLink x.link (k.setDir x.dir { d with evt := bits (BitVec.ofNat 32 d.evt &&& ~~~v).toNat 0 32 })
  | 14 =>
    let s := (s.setLink x.link { k with adm := v.getLsbD 0 }).noteRouting x.link false
    if v.getLsbD 1 then s.linkDown x.link else s
  | _ => s

/-- A link form: group LINK, privileged, and the selector of gs checked (R321, R348). -/
def linkForm (n : Nat) (f : Selector → State → Out) (s : State) : Out :=
  inGroup 7 (inS fun s =>
    match selector (s.g n) with
    | none => trap .illegal (u64 (Z (s.g n))) s
    | some x => f x s) s

/-- `lretr` (R323, R346, R347). -/
def execLretr (d n : Nat) (s : State) : Out :=
  linkForm n (fun x s =>
    let k := s.link x.link
    let r := k.dir x.dir
    if x.item ≠ 0 then trap .illegal (u64 (Z (s.g n))) s
    else if r.wst ≠ 0 then doneWr s d 1
    else if r.act < r.minw + 1 then doneWr s d 2
    else if x.dir = .tx then doneWr (s.handBack x.link x.lane) d 0
    else doneWr ((s.setLink x.link { k with rx := { k.rx with wst := 1 } }).control x.link (ctlFlit 6 0 x.lane)) d 0) s

def execLstat (d n : Nat) (s : State) : Out :=
  linkForm n (fun x s =>
    let k := s.link x.link
    doneWr (s.setLink x.link (k.readClear x)) d (k.item x)) s

def execLctl (d n : Nat) (s : State) : Out :=
  linkForm n (fun x s => doneWr (s.writeItem x (s.g d)) d ((s.link x.link).item x)) s

end Sys2Proof.Machine
end

