-- ==== Sys2Proof/Machine/Mesh.lean ====
section
/-! DEFINITION. Flits (R115 to R128): injection, the fates of arriving flits, bounces, mailboxes, and the send forms of page 2. -/

namespace Sys2Proof

/-- KIND of R116. -/
def FlitKind.code : FlitKind → Nat
  | .data => 0
  | .call => 1
  | .clause => 2
  | .reply => 3
  | .bounce => 4
  | .marker => 5
  | .done => 6
  | .system => 7

/-- The kind of a KIND code (R116). -/
def FlitKind.ofCode : Nat → FlitKind
  | 0 => .data
  | 1 => .call
  | 2 => .clause
  | 3 => .reply
  | 4 => .bounce
  | 5 => .marker
  | 6 => .done
  | _ => .system

/-- The header of a flit (R116). -/
def Flit.header (f : Flit) : Nat :=
  f.dst * 2 ^ 44 + f.src * 2 ^ 24 + f.kind.code * 2 ^ 21 + f.pri * 2 ^ 19 + f.cls * 2 ^ 16 + f.ksf

/-- The 32 bytes of a flit (R115). -/
def Flit.bytes (f : Flit) : List Byte :=
  Machine.leBytes f.header 8 ++ Machine.leBytes f.low.toNat 4 ++ Machine.leBytes f.w0.toNat 4 ++ Machine.leBytes f.w1.toNat 4 ++
    Machine.leBytes f.w2.toNat 4 ++ Machine.leBytes f.w3.toNat 4 ++ Machine.leBytes f.w4.toNat 4

/-- The flit of a header, a low clock and five payload words. -/
def Flit.ofHeader (h : Nat) (low w0 w1 w2 w3 w4 : Word) : Flit :=
  { dst := Machine.bits h 44 20, src := Machine.bits h 24 20, kind := FlitKind.ofCode (Machine.bits h 21 3),
    pri := Machine.bits h 19 2, cls := Machine.bits h 16 3, ksf := Machine.bits h 0 16, low := low, w0 := w0, w1 := w1,
    w2 := w2, w3 := w3, w4 := w4 }

/-- The flit of 32 bytes (R115). -/
def Flit.ofBytes (bs : List Byte) : Flit :=
  let w (i : Nat) : Word := Machine.u32 (Machine.leNat ((bs.drop (12 + 4 * i)).take 4))
  Flit.ofHeader (Machine.leNat (bs.take 8)) (Machine.u32 (Machine.leNat ((bs.drop 8).take 4))) (w 0) (w 1) (w 2) (w 3) (w 4)

/-- Payload bytes 12 to 31 of a flit. -/
def Flit.payload (f : Flit) : List Byte := f.bytes.drop 12

/-- Whether flits of a kind and KSF are counted (R208): data, call, clause, spawn, sig and remote pool atomic requests. -/
def countedKind (kind cls ksf : Nat) : Bool :=
  kind ≤ 2 || (kind == 7 && cls == 0 && (ksf / 2 ^ 8 == 1 || ksf / 2 ^ 8 == 2 || ksf / 2 ^ 8 == 4))

/-- Whether a flit is counted (R208). -/
def Flit.counted (f : Flit) : Bool := countedKind f.kind.code f.cls f.ksf

end Sys2Proof

namespace Sys2Proof.Machine

/-! ### Levels and request entries -/

/-- Where a core's work stands now, through the forwarding entries (R207, R273). -/
def State.whereIs (s : State) (c : Nat) : Nat → Nat
  | 0 => c
  | n + 1 =>
    match (s.core c).forward with
    | some t => s.whereIs t n
    | none => c

/-- The level of an operation from core a to core b (R273; log entry 17). -/
def State.levelOf (s : State) (a b : Nat) : Nat :=
  let b := s.whereIs b 64
  if a = b then 0
  else if a / 8 = b / 8 then 1
  else if Config.shareString (a / 8) (b / 8) then 2
  else if Config.shareQuarter (a / 8) (b / 8) then 3
  else 4

/-- A context's free request entry (R271). -/
def Slot.freeEntry (x : Slot) : Option Nat := (List.range 16).find? fun e => (Map.get none x.entries e).isNone

/-- A request entry taken. -/
def Slot.take (x : Slot) (e : Nat) (u : EntryUse) (serial level : Nat) : Slot :=
  { x with entries := Map.set none x.entries e (some { use := u, serial := serial, level := level }) }

/-- A request entry freed. -/
def Slot.release (x : Slot) (e : Nat) : Slot := { x with entries := Map.set none x.entries e none }

/-- An operation of a level settled with a clock, for the next fence that collects it (R273). -/
def Slot.collect (x : Slot) (level t : Nat) : Slot := { x with fclock := Map.set 0 x.fclock level (max t (Map.get 0 x.fclock level)) }

/-! ### Injection (R119, R186, R208, R210) -/

/-- The clock that a core stamps on a flit (R265); one below BASE counts as BASE (log entry 24). -/
def State.lowClock (s : State) (l : Nat) : Word := u32 ((s.core l).pts - s.base)

/-- The clock rebuilt from a flit (R265). -/
def State.clockOf (s : State) (f : Flit) : Nat := s.base + f.low.toNat

/-- Whether a flit has been injected (R186): a router has at most 16 of its own flits undelivered in the mesh, so those after the
sixteenth wait for a credit. -/
def State.injected (s : State) (x : InFlight) : Bool :=
  match x.team with
  | none => true
  | some t => ((s.flight.filter fun y => y.team == some t).take 16).any fun y => y.stamp == x.stamp

/-- Whether the injection port takes a flit of a core (R119): a credit is free (R186), a counted send is not held (R210), and the core's
clock fits the flit; one that does not waits for the rebase (DESIGN CHOICE after R268, log entry 47). -/
def State.portOpen (s : State) (l : Nat) (counted : Bool) : Bool :=
  (s.flight.filter fun x => x.team == some (l / 8)).length < 16 && !(counted && (s.core l).cut.holding) &&
    decide ((s.core l).pts - s.base < 2 ^ 32)

/-- A flit in flight. -/
def State.launchFlit (s : State) (f : Flit) (team : Option Nat) (uid tag serial : Nat) : State :=
  { s with flight := s.flight ++ [{ flit := f, team := team, uid := uid, stamp := s.stamp, tag := tag, serial := serial }],
           stamp := s.stamp + 1 }

/-- A context's flit is taken by the injection port (R119): stamped and counted. -/
def State.inject (s : State) (l : Nat) (f : Flit) (tag serial : Nat) : State :=
  let c := s.core l
  let s := if f.counted then s.setCore l { c with csent := c.csent + 1 } else s
  s.launchFlit { f with low := s.lowClock l } (some (l / 8)) c.uid tag serial

/-- A flit that hardware sends for a core, from the router of a team: it holds a credit of that router, and waits for one (R186). A
clock that does not fit it waits for the rebase (log entry 47). -/
def State.emitFrom (s : State) (team l : Nat) (f : Flit) (uid tag serial : Nat) : State :=
  let s := s.roomFor (s.core l).pts
  s.launchFlit { f with low := s.lowClock l } (some team) uid tag serial

/-- A flit that hardware sends for a core, from the router of its team. -/
def State.emit (s : State) (l : Nat) (f : Flit) (uid tag serial : Nat) : State := s.emitFrom (l / 8) l f uid tag serial

/-- Whether a flit has a sender whose clock it carries: a core that is still one of its launch. A bounce carries no clock (R127). -/
def State.clocked (s : State) (y : InFlight) : Bool :=
  y.flit.kind != .bounce && (s.core y.flit.src).queue.isSome && (s.core y.flit.src).uid == y.uid

/-- The flits of a choice carry their senders' `pts` at this moment (R115, R265). -/
def State.restamp (s : State) (now : InFlight → Bool) : State :=
  let t := s.roomFor ((s.flight.filter now).foldl (fun m y => max m (s.core y.flit.src).pts) 0)
  { t with flight := s.flight.map fun y => if now y then { y with flit := { y.flit with low := t.lowClock y.flit.src } } else y }

/-- A send of the executing instruction: it waits for the port, then `f` completes it. -/
def sendThen (i : Instr) (f : Flit) (s : State) (k : State → Out) : Out :=
  if s.portOpen s.issue.lid f.counted then k (s.inject s.issue.lid f s.issue.slot s.serial) else blockAside i s

/-- hdr of R120 with payload words, for a send of the executing task. -/
def State.flitTo (s : State) (d : Word) (k : FlitKind) (ksf : Nat) (w0 w1 w2 w3 w4 : Word) : Flit :=
  { dst := bits d.toNat 0 20, src := s.issue.lid, kind := k, pri := statPri s.slot.stat, cls := 0, ksf := ksf, low := 0,
    w0 := w0, w1 := w1, w2 := w2, w3 := w3, w4 := w4 }

/-- Send payload register n. -/
def State.sd (s : State) (n : Nat) : Word := Map.get 0 s.slot.sd n

/-- A clause flit leaves with its request entry (R118, R270, R271). -/
def sendClause (i : Instr) (f : Flit) (s : State) (k : State → Out) : Out :=
  match s.slot.freeEntry with
  | none => block i s
  | some e =>
    if s.portOpen s.issue.lid true then
      let lv := s.levelOf s.issue.lid f.dst
      let s1 := s.setSlot (s.slot.take e (.clause f.dst) s.serial lv)
      k { s1.inject s.issue.lid f (s.issue.slot * 16 + e) s.serial with serial := s.serial + 1 }
    else blockAside i s

/-! ### Send forms (R118, R120) -/

def execMsg (d k : Nat) (s : State) : Out :=
  sendThen (.msg d k) (s.flitTo (s.g d) .data k (s.sd 0) (s.sd 1) (s.sd 2) (s.sd 3) (s.sd 4)) s done

def execCallm (d k : Nat) (s : State) : Out :=
  sendThen (.callm d k) (s.flitTo (s.g d) .call k (s.g 0) (s.g 1) (s.g 2) (s.g 3) 0) s done

def execClause (d r n : Nat) (s : State) : Out :=
  let o := Z (s.g r)
  match poolCheck s.part o 2 (2 * n) with
  | some (c, v) => trap c v s
  | none =>
    let bs := padTo (Map.getList 0 s.me.pool o (2 * n)) 20
    let w (j : Nat) : Word := u32 (leNat ((bs.drop (4 * j)).take 4))
    sendClause (.clause d r n) (s.flitTo (s.g d) .clause n (w 0) (w 1) (w 2) (w 3) (w 4)) s done

/-- The copies of a multicast flit beyond the first (R120): each is a counted flit. The mesh makes them, and they hold no credit (R186
says nothing of them; presumed, log entry 14). -/
def State.copies (s : State) (l uid : Nat) (f : Flit) : Nat → State
  | 0 => s
  | n + 1 =>
    let s := s.copies l uid f n
    let c := s.core l
    (s.setCore l { c with csent := c.csent + 1 }).launchFlit { f with dst := f.dst + n + 1, low := s.lowClock l } none uid 0 0

def execMcast (d k : Nat) (s : State) : Out :=
  let n := Z (s.g d) / 2 ^ 20
  if 2 ^ 20 ≤ bits (Z (s.g d)) 0 20 + n then trap .illegal (u64 (Z (s.g d))) s
  else
    let f := s.flitTo (s.g d) .data k (s.sd 0) (s.sd 1) (s.sd 2) (s.sd 3) (s.sd 4)
    sendThen (.mcast d k) f s fun s => done (s.copies s.issue.lid s.me.uid f n)

/-! ### Mailboxes (R124) -/

def execMbind (d h : Nat) (s : State) : Out :=
  let x := s.me.handle h
  if x.bnd ∧ x.mbx = false then trap .prot (u64 h) s
  else if s.g d = 0xFFFFFFFF#32 then
    let c := s.me.setHandle h Handle.empty
    done (s.setMe { c with bmbx := if c.bmbx = some h then none else c.bmbx })
  else
    match bindCheck s.part (s.g d) true with
    | some (c, v) => trap c v s
    | none => done (s.setMe (s.me.setHandle h (bindRecord (s.g d) true)))

def execBnc (d h : Nat) (s : State) : Out :=
  let c := s.me
  let prev : Word := match c.bmbx with
    | some n => u32 n
    | none => 0xFFFFFFFF#32
  if s.g d = 0xFFFFFFFF#32 then doneWr (s.setMe { c with bmbx := none }) d prev
  else if (c.handle h).bnd = false ∨ (c.handle h).mbx = false then trap .prot (u64 h) s
  else doneWr (s.setMe { c with bmbx := some h }) d prev

/-- A flit written into a mailbox (R123). -/
def Core.deposit (c : Core) (h : Nat) (f : Flit) : Core :=
  let x := c.handle h
  let o := x.entry x.rsv
  ((c.stBytes o f.bytes).setFulls o true 8).setHandle h { x with rsv := x.rsv + 1, pub := x.pub + 1 }

/-- The status of R121's mailbox rows for a data flit. -/
def Core.mailboxRow (c : Core) (h : Nat) : Option Nat :=
  let x := c.handle h
  if x.bnd = false ∨ x.mbx = false then some 3
  else if x.count ≤ x.used then some 4
  else none

/-- Mailboxes that RVH reads (R125): bound, and not the bounce mailbox. -/
def Core.inboxes (c : Core) : List Nat :=
  (List.range 16).filter fun h => (c.handle h).bnd && (c.handle h).mbx && c.bmbx != some h

/-! ### Run queue (R158) -/

/-- Whether the run queue holds 64 entries. -/
def Core.queueFull (c : Core) : Bool := 64 ≤ c.runq.length

/-- An entry placed in the run queue. -/
def Core.enqueue (c : Core) (e : QEntry) : Core := { c with runq := c.runq ++ [e] }

/-- Four arguments. -/
def argWords (a b c d : Word) : Map Word := Map.setList 0 [] 0 [a, b, c, d]

/-! ### Fates (R121, R207, R214) -/

/-- What the first five rows of R121 make of a flit. -/
inductive Fate where
  | bounce (st : Nat)
  | spill (q : Nat)
  | forward (t : Nat)
  | here
  deriving DecidableEq, Repr

/-- The first five rows of R121, for a flit of the launch `uid` at core c. -/
def State.fate (s : State) (c uid : Nat) : Fate :=
  let x := s.core c
  if 8 * s.dev.tcnt ≤ c then .bounce 1
  else
    match x.queue with
    | none => .bounce 1
    | some q =>
      if x.uid ≠ uid then .bounce 9
      else if x.exited then .bounce 2
      else if x.swapped then .spill q
      else
        match x.forward with
        | some t => .forward t
        | none => .here

/-- Access without translation to n bytes of module memory (R212, R357): past 2 TiB the manual gives no memory (log entry 18). -/
def atPhys (a n : Nat) (s : State) (k : State → Out) : Out :=
  if 2 ^ 41 < a + n then .fault (.noMemory a) else k s

/-- A flit injected and undelivered that has this content, the oldest one. -/
def State.inFlight (s : State) (f : Flit) : Option InFlight := s.flight.find? fun x => x.flit == f && s.injected x

/-- A flit leaves the mesh, returning its credit (R186), on which its router injects the next flit that waits: its clock is its sender's
at that moment (R115, R265). -/
def State.land (s : State) (x : InFlight) : State :=
  let t : State := { s with
    flight := s.flight.erase x, goldenStamp := if s.goldenStamp = some x.stamp then none else s.goldenStamp }
  t.restamp fun y => t.injected y && !s.injected y && t.clocked y

/-- A flit sent on to another core (R207); it keeps its credit (log entry 14). -/
def State.forwardTo (s : State) (x : InFlight) (t : Nat) : State :=
  { s with flight := s.flight.map fun y => if y = x then { x with flit := { x.flit with dst := t } } else y,
           goldenStamp := if s.goldenStamp = some x.stamp then none else s.goldenStamp }

/-- A counted flit ends at a core (R208). -/
def State.countIn (s : State) (c : Nat) (x : InFlight) : State :=
  let k := s.core c
  if x.flit.counted then s.setCore c { k with crecv := k.crecv + 1 } else s

/-- Whether an instruction is `migr`. -/
def isMigr : Instr → Bool
  | .migr _ => true
  | _ => false

/-- Whether a core waits to move (R205). -/
def Core.moving (c : Core) : Bool :=
  (List.range 4).any fun k => match (c.slot k).wait with
    | some w => isMigr w.instr
    | none => false

/-- Whether a flit is held at a core that waits to move (R205): every arrival but the replies and bounces that the wait is for. -/
def State.arrivalHeld (s : State) (f : Flit) : Bool :=
  (s.core f.dst).moving && match f.kind with
    | .data => true
    | .call => true
    | .clause => true
    | .marker => true
    | .system => f.cls == 0
    | _ => false

/-- The bytes of a core image by position in an area (R212, R200). -/
def imageAt (area index : Nat) : Nat := area + 0x10000 * (index + 1)

/-- A flit diverted to a launch's spill queue (R214, R357): kept in the save area after the images. -/
def State.spillFlit (s : State) (q : Nat) (f : Flit) (k : State → Out) : Out :=
  let qu := s.queue q
  match qu.launch with
  | none => k s
  | some la =>
    let a := la.sava.toNat + 0x10000 * (8 * la.tcnt + 1)
    atPhys a (32 * (min qu.spilled 65534 + 2)) s fun s =>
      if qu.spilled < 65535 then
        k (((s.putBytes (a + 32 * (qu.spilled + 1)) f.bytes).putBytes a (leBytes (qu.spilled + 1) 4)).setQueue q
          { qu with spilled := qu.spilled + 1 })
      else
        let n := leNat (s.bytesAt (a + 4) 4) + 1
        k ((s.putBytes (a + 4) (leBytes (sat32 n) 4)).setQueue q { qu with splost := min (qu.splost + 1) 0xFFFF, launch := some { la with lost := true } })

/-- A counted flit of its launch at a core that has recorded a snapshot cut is appended to the log of its image (R210), and then takes
its fate. It ends there, and counts (R208), where that fate delivers it; one that is bounced counts at its sender. Of the log's header
R200 gives the order of the counts and no widths: 4 bytes each, at +0 and +4 (DESIGN CHOICE, log entry 48). -/
def State.logFlit (s : State) (c : Nat) (x : InFlight) (k : State → Out) : Out :=
  let co := s.core c
  if co.cut.holding && co.uid == x.uid && x.flit.counted then
    match s.launchOf c with
    | none => k s
    | some la =>
      let a := imageAt la.cuta.toNat co.index
      atPhys a 0x10000 s fun s =>
        if co.cut.logged < 1023 then
          k (((s.putBytes (a + 0x8020 + 32 * co.cut.logged) x.flit.bytes).putBytes (a + 0x8000)
              (leBytes (co.cut.logged + 1) 4)).setCore c { co with cut := { co.cut with logged := co.cut.logged + 1 } })
        else
          k ((s.putBytes (a + 0x8004) (leBytes (co.cut.unlogged + 1) 4)).setCore c
              { co with cut := { co.cut with unlogged := co.cut.unlogged + 1 } })
  else k s

/-- The router that bounces a flit (R186): that of its destination's team, or of its sender's where no team has the destination (log
entry 14). -/
def State.bouncer (s : State) (f : Flit) : Nat := if f.dst < 8 * s.dev.tcnt then f.dst / 8 else f.src / 8

/-- The bounce of a flit (R127). -/
def bounceOf (f : Flit) (st cause completed : Nat) : Flit :=
  { f with dst := f.src, src := f.dst, kind := .bounce, cls := 2, ksf := st,
           low := u32 (cause * 2 ^ 24 + completed * 2 ^ 19 + f.kind.code * 2 ^ 16 + f.ksf) }

/-- A flit is refused at its destination (R127). -/
def State.bounce (s : State) (x : InFlight) (st cause completed : Nat) : State :=
  let s := s.land x
  let y : InFlight := { x with flit := bounceOf x.flit st cause completed, team := some (s.bouncer x.flit), stamp := s.stamp }
  { s with flight := s.flight ++ [y], stamp := s.stamp + 1 }

/-- A counted flit at its destination (R121, R210): the first rows decide, then `rows` gives a status of the later rows, then `take`
delivers it. -/
def arrive (f : Flit) (rows : Core → Option Nat) (refuse : State → InFlight → Nat → State) (take : State → InFlight → State)
    (s : State) : Out :=
  match s.inFlight f with
  | none => .next s
  | some x =>
    let c := f.dst
    if s.arrivalHeld f then .next s
    else
      match s.fate c x.uid with
      | .bounce st => s.logFlit c x fun s => .next (refuse s x st)
      | .spill q => s.spillFlit q f fun s => .next ((s.land x).countIn c x)
      | .forward t => .next (s.forwardTo x t)
      | .here =>
        s.logFlit c x fun s =>
          match rows (s.core c) with
          | some st => .next (refuse s x st)
          | none => .next (take ((s.land x).countIn c x) x)

/-- A delivered flit raises its receiver's clock in the same action (R122). -/
def State.hear (s : State) (f : Flit) : State := s.raise f.dst (s.clockOf f)

/-- Bounce with no cause. -/
def plainBounce (s : State) (x : InFlight) (st : Nat) : State := s.bounce x st 0 0

def execDataDelivery (f : Flit) (s : State) : Out :=
  whenOn (f.kind == .data) s fun s =>
    arrive f (fun c => c.mailboxRow f.ksf) plainBounce (fun s _ =>
      let s := s.hear f
      s.setCore f.dst ((s.core f.dst).deposit f.ksf f)) s

/-- The handler of an index in the launch's handler table (R121, R183). -/
def State.handler (s : State) (c k : Nat) : Option Nat :=
  (s.launchOf c).bind fun la => (la.htab[k]?).bind fun a => if a = 2 ^ 64 - 1 then none else some a

/-- The QFULL row (R121). -/
def fullRow (c : Core) : Option Nat := if c.queueFull then some 6 else none

def execCallDelivery (f : Flit) (s : State) : Out :=
  whenOn (f.kind == .call) s fun s =>
    match s.handler f.dst f.ksf with
    | none => arrive f (fun _ => some 5) plainBounce (fun s _ => s) s
    | some a =>
      arrive f fullRow plainBounce (fun s x => (s.hear f).setCore f.dst (((s.hear f).core f.dst).enqueue
        { kind := .call, level := f.pri, start := u64 a, args := argWords f.w0 f.w1 f.w2 f.w3, flit := some f, uid := x.uid,
          tag := x.tag, serial := x.serial })) s

def execClauseDelivery (f : Flit) (s : State) : Out :=
  whenOn (f.kind == .clause) s fun s =>
    arrive f fullRow plainBounce (fun s x => (s.hear f).setCore f.dst (((s.hear f).core f.dst).enqueue
      { kind := .clause, level := f.pri, start := 0, args := [], flit := some f, uid := x.uid, tag := x.tag, serial := x.serial })) s

/-- The request of a tag settles (R270 to R273): a clause's entry is freed and its clock kept for fences. -/
def State.settleClause (s : State) (c tag serial clock : Nat) : State :=
  let k := tag / 16
  let x := s.slotAt c k
  match Map.get none x.entries (tag % 16) with
  | some en =>
    (match en.use with
    | .clause _ => if en.serial = serial then s.setSlotAt c k ((x.release (tag % 16)).collect en.level clock) else s
    | _ => s)
  | none => s

/-- A bounce at the mailbox it is meant for (R128). -/
def Core.takeBounce (c : Core) (f : Flit) : Core :=
  let lost := { c with blost := if c.blost = 0xFFFFFFFF#32 then c.blost else c.blost + 1 }
  match c.bmbx with
  | none => lost
  | some h => if (c.mailboxRow h).isSome then lost else c.deposit h f

/-- A remote pool atomic whose request bounced or expired (R272): the waiting instruction traps REMOTE. -/
def State.atomicFails (s : State) (c tag serial st : Nat) : State :=
  let k := tag / 16
  let x := s.slotAt c k
  match Map.get none x.entries (tag % 16) with
  | some en =>
    (match en.use with
    | .poolAtomic t off =>
      if en.serial = serial then
        let s := s.setSlotAt c k (x.release (tag % 16))
        match x.wait with
        | some w => s.takeTrap c k (u32 Cause.remote.code) (u64 (st * 2 ^ 56 + t * 2 ^ 32 + off)) w.start
        | none => s
      else s
    | _ => s)
  | none => s

/-- A returning bounce (R128, R207, R208, R270, R272). -/
def execBounceDelivery (f : Flit) (s : State) : Out :=
  whenOn (f.kind == .bounce) s fun s =>
    match s.inFlight f with
    | none => .next s
    | some x =>
      let c := f.dst
      let kind := bits f.low.toNat 16 3
      let back (s : State) : State :=
        let s := s.land x
        let co := s.core c
        let s := if countedKind kind 0 (bits f.low.toNat 0 16) then s.setCore c { co with crecv := co.crecv + 1 }
          else s
        if kind = 2 then s.settleClause c x.tag x.serial 0
        else if kind = 7 ∧ bits f.low.toNat 8 8 = 4 then s.atomicFails c x.tag x.serial f.ksf
        else s
      match s.fate c x.uid with
      | .spill q => s.spillFlit q f fun s => .next (back s)
      | .forward t => .next (s.forwardTo x t)
      | .bounce 2 => .next (back s)
      | .bounce _ => .next (s.land x)
      | .here =>
        let s := back s
        .next (s.setCore c ((s.core c).takeBounce f))

end Sys2Proof.Machine
end

