-- ==== Sys2Proof/Machine/GlobalMem.lean ====
section
/-! DEFINITION. Global memory from programs (R256 to R282): loads, stores, streaming stores, atomics, fences and clocks; module
memory, host memory and other modules; and the events that complete them. -/

namespace Sys2Proof.Machine

/-! ### The access a form makes -/

/-- The bytes of k registers from register n on. -/
def State.regBytes (s : State) (n k : Nat) : List Byte := (List.range k).flatMap fun j => leBytes (s.g (n + j)).toNat 4

/-- The first register of an atomic's operand: `amcas.d` names a quad (R66, R282). -/
def atomReg (op : AtOp) (w : Bool) (d : Nat) : Nat := if op = .cas ∧ w then 4 * d else d

/-- The operand bytes of an atomic: B, or E and then B' (R282). -/
def State.atomOperand (s : State) (op : AtOp) (w : Bool) (d : Nat) : List Byte :=
  s.regBytes (atomReg op w d) ((if w then 2 else 1) * (if op = .cas then 2 else 1))

/-- The size of an atomic. -/
def atomSize (w : Bool) : Nat := if w then 8 else 4

/-- The address of a factor-type entry (R150). -/
def State.factorEntry (s : State) (d : Nat) : DWord := w64 ((s.a 6).toNat + 16 * Z (s.g d))

end Sys2Proof.Machine

namespace Sys2Proof

open Machine

/-- The code of an atomic's operation (R66). -/
def AtOp.primary : AtOp → Nat
  | .add => 0x0A
  | .and => 0x0B
  | .or => 0x0C
  | .xor => 0x0D
  | .min => 0x0E
  | .max => 0x0F
  | .minz => 0x10
  | .maxz => 0x11
  | .swp => 0x12
  | .cas => 0x13
  | .fadd => 0x14

/-- The operation of a code. -/
def AtOp.ofPrimary : Nat → Option AtOp
  | 0x0A => some .add
  | 0x0B => some .and
  | 0x0C => some .or
  | 0x0D => some .xor
  | 0x0E => some .min
  | 0x0F => some .max
  | 0x10 => some .minz
  | 0x11 => some .maxz
  | 0x12 => some .swp
  | 0x13 => some .cas
  | 0x14 => some .fadd
  | _ => none

/-- The operation, width, operand register, address register and displacement of a global atomic (R282). -/
def Instr.atomic : Instr → Option (AtOp × Bool × Nat × Nat × Int)
  | .amadd w d s i => some (.add, w, d, s, i)
  | .amand w d s i => some (.and, w, d, s, i)
  | .amor w d s i => some (.or, w, d, s, i)
  | .amxor w d s i => some (.xor, w, d, s, i)
  | .ammin w d s i => some (.min, w, d, s, i)
  | .ammax w d s i => some (.max, w, d, s, i)
  | .amminz w d s i => some (.minz, w, d, s, i)
  | .ammaxz w d s i => some (.maxz, w, d, s, i)
  | .amswp w d s i => some (.swp, w, d, s, i)
  | .amcas w d s i => some (.cas, w, d, s, i)
  | .amfadd d s i => some (.fadd, false, d, s, i)
  | _ => none

/-- The operation, width and operand register of a remote pool atomic (R282). -/
def Instr.poolAtomic : Instr → Option (AtOp × Bool × Nat)
  | .amaddRemote w d _ _ _ => some (.add, w, d)
  | .amandRemote w d _ _ _ => some (.and, w, d)
  | .amorRemote w d _ _ _ => some (.or, w, d)
  | .amxorRemote w d _ _ _ => some (.xor, w, d)
  | .amminRemote w d _ _ _ => some (.min, w, d)
  | .ammaxRemote w d _ _ _ => some (.max, w, d)
  | .amminzRemote w d _ _ _ => some (.minz, w, d)
  | .ammaxzRemote w d _ _ _ => some (.maxz, w, d)
  | .amswpRemote w d _ _ _ => some (.swp, w, d)
  | .amcasRemote w d _ _ _ => some (.cas, w, d)
  | .amfaddRemote d _ _ _ => some (.fadd, false, d)
  | _ => none

/-- The virtual address, size and operation of a global form (R278, R279, R282). -/
def Instr.access (i : Instr) (s : State) : Option (DWord × Nat × HomeOp) :=
  match i with
  | .ldg z _ n imm => some (s.ea n imm, accSize z, .load (accSize z))
  | .ldgBS z _ n imm => some (s.ea n imm, accSize z, .load (accSize z))
  | .ldgtW _ n imm => some (s.ea n imm, 4, .load 4)
  | .ldgtD _ n imm => some (s.ea n imm, 8, .load 8)
  | .stg z d n imm => some (s.ea n imm, accSize z, .store ((s.regBytes d 2).take (accSize z)))
  | i =>
    match i.atomic with
    | some (op, w, d, n, imm) => some (s.ea n imm, atomSize w, .atomic op (atomSize w) (s.atomOperand op w d))
    | none => none

/-- The access that an instruction makes now: a global form's, or of an `ftype` the load of the next doubleword of its entry (R150). -/
def Instr.reads (i : Instr) (s : State) : Option (DWord × Nat × HomeOp) :=
  match i with
  | .ftype d _ => some (if s.slot.half.isSome then s.factorEntry d + 8 else s.factorEntry d, 8, .load 8)
  | i => i.access s

/-- The status register and width of an `ldgt` (R279). -/
def Instr.soft : Instr → Option (Nat × Nat)
  | .ldgtW d _ _ => some (d, 1)
  | .ldgtD d _ _ => some (d, 2)
  | _ => none

end Sys2Proof

namespace Sys2Proof.Machine

/-- The old value of an atomic in its destination, with the flags of `amfadd` (R282). -/
def State.wrOld (s : State) (op : AtOp) (w : Bool) (d v : Nat) : State :=
  let fl := if op = .fadd then (fAdd .ne (u32 v) (s.g d)).2 else 0
  (if w then s.wrPair (atomReg op w d) v else s.wr (atomReg op w d) (u32 v)).flags fl

/-- A form's registers written from the bytes that its access brought (R278, R279, R282). -/
def State.takeBytes (s : State) (i : Instr) (bs : List Byte) : State :=
  let v := leNat bs
  match i with
  | .ldg z d _ _ => if z = 3 then s.wrPair d v else s.wr d (u32 v)
  | .ldgBS z d _ _ => s.wr d (sext32 v (accSize z))
  | .ldgtW d _ _ => (s.wr d (u32 v)).wr (d + 1) 0
  | .ldgtD d _ _ => (s.wrPair d v).wr (d + 2) 0
  | i =>
    match i.atomic with
    | some (op, w, d, _, _) => s.wrOld op w d v
    | none => s

/-- The access of a form completes with its bytes. -/
def accessDone (i : Instr) (bs : List Byte) (s : State) : Out := done (s.takeBytes i bs)

/-- The access of a form fails: `ldgt` writes zeros and its status, every other form traps (R279, R331). -/
def accessFails (i : Instr) (c : Cause) (st : Nat) (va : DWord) (s : State) : Out :=
  match i.soft with
  | some (d, k) => done ((s.wrs d (List.replicate k 0)).wr (d + k) (u32 st))
  | none => trap c va s

/-- The status of a cause (R279). -/
def Cause.status : Cause → Nat
  | .xlate => 2
  | .prot => 3
  | .memErr => 4
  | _ => 5

/-- The cause of a status (R331). -/
def causeOf (st : Nat) : Cause :=
  match st with
  | 2 => .xlate
  | 3 => .prot
  | 4 => .memErr
  | _ => .remote

/-! ### Streaming buffer (R269) -/

/-- The distance of a place from another of the same space. -/
def Place.from (p q : Place) : Option Int :=
  match p, q with
  | .memory a, .memory b => some ((a : Int) - b)
  | .host a, .host b => some ((a : Int) - b)
  | .far m a, .far k b => if m = k then some ((a : Int) - b) else none
  | _, _ => none

/-- Bytes replaced at a distance. -/
def patch (bs : List Byte) (d : Int) (xs : List Byte) : List Byte :=
  bs.mapIdx fun j b => if d ≤ j then (xs[((j : Int) - d).toNat]?).getD b else b

/-- A load's bytes with those that the context's streaming buffer holds (R269). -/
def overlay (sb : List SbEntry) (p : Place) (bs : List Byte) : List Byte :=
  sb.foldl (fun bs e =>
    match e.place.from p with
    | some d => patch bs d e.data
    | none => bs) bs

/-- Whether two entries overlap. -/
def SbEntry.overlaps (a b : SbEntry) : Bool :=
  match a.place.from b.place with
  | some d => d < b.data.length && -d < a.data.length
  | none => false

/-- The level of a streaming store or access by where it goes (R273). -/
def State.placeLevel (s : State) (p : Place) : Nat :=
  match p with
  | .far m _ => if groupOf m = groupOf s.dev.mnum then 5 else 6
  | _ => 4

/-! ### Module memory -/

/-- Every cache drops its copy of a line, and the home its older versions (R276). -/
def State.dropLine (s : State) (ln : Nat) : State :=
  { s.setLine ln { s.line ln with older := [] } with
    cores := s.cores.map fun e => (e.1, { e.2 with l1 := Map.del e.2.l1 ln }),
    teams := s.teams.map fun e => (e.1, { e.2 with l2 := Map.del e.2.l2 ln }) }

/-- What the home does for a request (R261, R262, R276, R277): the status, the bytes for the requester and the clock. A load meets an
uncorrectable sector also where a copy in a cache could serve it (DESIGN CHOICE, log entry 49). -/
def State.perform (s : State) (l pa : Nat) (op : HomeOp) : State × Nat × List Byte × Nat :=
  match op with
  | .load n =>
    if s.badIn pa n then (s.report, 4, [], 0)
    else
      let r := s.readLine l (pa / 128)
      (r.1, 0, r.1.verBytes r.2 pa n, r.2)
  | .store bs =>
    if s.badPart pa bs.length then (s.report, 4, [], 0)
    else
      let r := s.storeLine pa bs (s.core l).pts
      (r.1.stored l (pa / 128) r.2, 0, [], r.2)
  | .atomic o n operand =>
    if s.badPart pa n then (s.report, 4, [], 0)
    else
      let r := s.atomicLine pa n o operand (s.core l).pts
      (r.1.stored l (pa / 128) r.2.1, 0, r.2.2, r.2.1)
  | .discard =>
    let zero := Map.getList 0 s.mem pa 128 = List.replicate 128 0
    let (s, k) := if zero then (s, 0) else s.choose 2
    let r := s.storeLine pa (if k = 0 then [] else List.replicate 128 0) (s.core l).pts
    ((r.1.dropLine (pa / 128)).raise l r.2, 0, [], r.2)

/-- The entry that marks a blocked access of a context, beyond its 16 request entries. -/
def blockedEntry : Nat := 16

/-- The clock of the executing instruction's next access (R261): its core's, or a later one that the load of an entry's first doubleword
calls for (R150). -/
def State.askClock (s : State) : Nat := max s.me.pts (leNat (((s.slot.half.getD []).drop 8).take 8))

/-- A request to a home (log entry 3): done in the issuing step, after which `k` goes on with its bytes, or under way until its
reply; that wait is not the first wait of R157 (log entry 46). -/
def homeThen (i : Instr) (va : DWord) (pa : Nat) (op : HomeOp) (k : List Byte → State → Out) (s : State) : Out :=
  if s.prompt then
    let r := s.perform s.issue.lid pa op
    if r.2.1 ≠ 0 then accessFails i .memErr 4 va r.1
    else k (match op with
      | .load _ => overlay s.slot.sbuf (.memory pa) r.2.2.1
      | _ => r.2.2.1) r.1
  else
    let e := if i.soft.isSome then (s.slot.freeEntry).getD blockedEntry else blockedEntry
    let q : HomeReq := { id := s.serial, lid := s.issue.lid, slot := s.issue.slot, entry := e, serial := s.serial, pa := pa, op := op,
                         clock := s.askClock, since := s.issue.since.getD s.stamp, answer := none }
    let s := { s with reqs := s.reqs ++ [q], serial := s.serial + 1 }
    let s := if e < 16 then s.setSlot (s.slot.take e (.load s.me.pts) q.serial 4) else s
    let keep := match op with
      | .load _ => false
      | _ => true
    .next (s.waiting false keep false i)

/-! ### Host memory (R260) -/

/-- A form on a host page: a load waits for the host's completion, a store for its posted write to leave, an atomic traps PROT. -/
def hostAccess (i : Instr) (va : DWord) (a : Nat) (op : HomeOp) (s : State) : Out :=
  match op with
  | .load n =>
    let e := if i.soft.isSome then s.slot.freeEntry else none
    let h : HostLoad := { lid := s.issue.lid, slot := s.issue.slot, addr := a, n := n, entry := e, serial := s.serial,
                          since := s.issue.since.getD s.stamp }
    let s := { s with hostLoads := s.hostLoads ++ [h], serial := s.serial + 1 }
    let s := match e with
      | some e => s.setSlot (s.slot.take e (.load s.me.pts) h.serial 4)
      | none => s
    .next (s.waiting false false false i)
  | .store bs =>
    if s.prompt then done { s with hostOut := s.hostOut ++ [.data a bs] }
    else
      let s' : State := { s with posted := s.posted ++ [⟨s.issue.lid, s.issue.slot, a, bs⟩] }
      .next (s'.waiting false true false i)
  | _ => trap .prot va s

/-! ### Other modules (R256, R271, R332, R340) -/

/-- Free bytes of another module or of host memory (log entry 1). -/
def State.freeBytes (s : State) (m a n : Nat) : State × List Byte :=
  ({ s with free := s.free + 1 }, (List.range n).map fun j => Config.farByte m (a + j) s.free)

/-- The module number under which `Config.farByte` names host memory. -/
def hostModule : Nat := 2 ^ 13

/-- The key of a line of another module in a core's L1 (R332). -/
def farKey (m a : Nat) : Nat := m * 2 ^ 43 + a / 128

/-- Whether a request entry waits for a reply over the fabric (R271, R340). -/
def Entry.onFabric (e : Entry) : Bool :=
  match e.use with
  | .access _ => true
  | .stream _ _ => true
  | .object => true
  | .load _ => decide (5 ≤ e.level)
  | .abandoned => decide (5 ≤ e.level)
  | _ => false

/-- Requests of a context outstanding on the fabric. -/
def Slot.outstanding (x : Slot) : Nat :=
  (x.entries.filter fun e => match e.2 with
    | some en => en.onFabric
    | none => false).length

/-- Requests of a core outstanding on the fabric: those of its contexts, and the stores of its tug transfers (R242, R340). -/
def Core.outstanding (c : Core) : Nat :=
  c.slots.foldl (fun n x => n + x.2.outstanding) (c.xfers.filter fun x => x.asked.isSome).length

/-- Requests outstanding on the fabric from cores of a sort (R340). -/
def State.outstanding (s : State) (sort : Nat → Bool) : Nat :=
  (s.cores.filter fun c => sort c.1).foldl (fun n c => n + c.2.outstanding) 0

/-- Whether the hitch of a core's quarter has no storage for another reply (R340): 65,536 requests of its cores are outstanding. -/
def State.repliesFull (s : State) (l : Nat) : Bool :=
  decide (65536 ≤ s.outstanding fun _ => true) && decide (65536 ≤ s.outstanding fun k => Config.shareQuarter (l / 8) (k / 8))

/-- PK of a request (R334). -/
def HomeOp.pk : HomeOp → Nat
  | .load _ => 0
  | .atomic .. => 2
  | _ => 1

/-- What a fetch carries where a renewal carries its copy's `wts` (DESIGN CHOICE, log entry 19). -/
def noCopy : Nat := 2 ^ 64 - 1

/-- The operands of a request (R334; the layout of an atomic's is presumed, log entry 19); `lease` and `wts` for a load or renewal. -/
def HomeOp.operands (op : HomeOp) (lease : Nat) (wts : Nat) : List Byte :=
  match op with
  | .load _ => leBytes lease 4 ++ leBytes 0 4 ++ leBytes wts 8
  | .store bs => bs
  | .atomic o n operand => leBytes (o.primary + 256 * n) 8 ++ operand
  | .discard => []

/-- The deadline register of a core's launch in µs (R272). -/
def State.launchDeadline (s : State) (l : Nat) : Nat := ((s.launchOf l).map (·.dln)).getD 1000

/-- The deadline register of the executing launch. -/
def State.deadline (s : State) : Nat := s.launchDeadline s.issue.lid

/-- A request packet of a context of this module (R334). -/
def State.request (s : State) (l k e m a dln : Nat) (op : HomeOp) (wts clock : Nat) : Packet :=
  { dmod := m, smod := s.dev.mnum, pk := op.pk, core := l, slot := k, entry := e, serial := s.serial, clock := clock, addr := a,
    budget := dln, status := 0, data := op.operands (s.leaseOf l) wts }

/-- A fabric-remote access (R256, R271, R332): its copy in the L1, if one may be used, with which `f` goes on; else a request, or a
failure at once where the module cannot be reached (R343). -/
def farThen (i : Instr) (va : DWord) (m a n : Nat) (op : HomeOp) (f : List Byte → State → Out) (s : State) : Out :=
  let t := s.askClock
  let copy := match op with
    | .load _ => Map.get none s.me.far (farKey m a)
    | _ => none
  let (s, k) := match copy with
    | some _ => s.choose 2
    | none => (s, 1)
  let usable := match copy with
    | some x => t ≤ x.rts && x.rts ≤ t + s.leaseOf s.issue.lid
    | none => false
  match copy, usable, k with
  | some x, true, 0 =>
    f (overlay s.slot.sbuf (.far m a) ((x.data.drop (a % 128)).take n)) (s.raise s.issue.lid x.wts)
  | _, _, _ =>
    match s.slot.freeEntry with
    | none => blockAside i s
    | some e =>
      let wts := match copy, k with
        | some x, 0 => x.wts
        | _, _ => noCopy
      let p := s.request s.issue.lid s.issue.slot e m a s.deadline op wts t
      if s.repliesFull s.issue.lid || s.outputFull p then blockAside i s
      else
        match s.sendPacket p with
        | none => accessFails i .remote 5 va s
        | some s =>
          let u := if i.soft.isSome then EntryUse.load t else EntryUse.access t
          let s1 := s.setSlot (s.slot.take e u s.serial (s.placeLevel (.far m a)))
          let keep := op.pk ≠ 0
          .next ({ s1 with serial := s.serial + 1 }.waiting false keep false i)

/-! ### Global forms -/

/-- The right that an operation needs (R258). -/
def HomeOp.acc : HomeOp → Acc
  | .load _ => .rd
  | _ => .wr

/-- An access (R256 to R258, R278): ALIGN, XLATE and PROT, then the access, after which `k` goes on with its bytes. -/
def accessThen (i : Instr) (va : DWord) (n : Nat) (op : HomeOp) (k : List Byte → State → Out) (s : State) : Out :=
  if va.toNat % n ≠ 0 then trap .align va s
  else if i.soft.isSome ∧ s.slot.freeEntry = none then blockAside i s
  else
    match s.resolve s.issue.lid va.toNat op.acc with
    | (s, .error c) => accessFails i c c.status va s
    | (s, .ok (.object _)) => accessFails i .prot 3 va s
    | (s, .ok (.memory pa)) => homeThen i va pa op k s
    | (s, .ok (.host a)) => hostAccess i va a op s
    | (s, .ok (.far m a)) => farThen i va m a n op k s

/-- A global form. -/
def access (i : Instr) (s : State) : Out :=
  match i.access s with
  | none => done s
  | some (va, n, op) => accessThen i va n op (accessDone i) s

def execLdg (z d n : Nat) (imm : Int) (s : State) : Out := access (.ldg z d n imm) s
def execLdgBS (z d n : Nat) (imm : Int) (s : State) : Out := access (.ldgBS z d n imm) s
def execStg (z d n : Nat) (imm : Int) (s : State) : Out := access (.stg z d n imm) s
def execLdgtW (d n : Nat) (imm : Int) (s : State) : Out := access (.ldgtW d n imm) s
def execLdgtD (d n : Nat) (imm : Int) (s : State) : Out := access (.ldgtD d n imm) s
def execAmadd (w : Bool) (d n : Nat) (imm : Int) (s : State) : Out := access (.amadd w d n imm) s
def execAmand (w : Bool) (d n : Nat) (imm : Int) (s : State) : Out := access (.amand w d n imm) s
def execAmor (w : Bool) (d n : Nat) (imm : Int) (s : State) : Out := access (.amor w d n imm) s
def execAmxor (w : Bool) (d n : Nat) (imm : Int) (s : State) : Out := access (.amxor w d n imm) s
def execAmmin (w : Bool) (d n : Nat) (imm : Int) (s : State) : Out := access (.ammin w d n imm) s
def execAmmax (w : Bool) (d n : Nat) (imm : Int) (s : State) : Out := access (.ammax w d n imm) s
def execAmminz (w : Bool) (d n : Nat) (imm : Int) (s : State) : Out := access (.amminz w d n imm) s
def execAmmaxz (w : Bool) (d n : Nat) (imm : Int) (s : State) : Out := access (.ammaxz w d n imm) s
def execAmswp (w : Bool) (d n : Nat) (imm : Int) (s : State) : Out := access (.amswp w d n imm) s
def execAmcas (w : Bool) (d n : Nat) (imm : Int) (s : State) : Out := access (.amcas w d n imm) s
def execAmfadd (d n : Nat) (imm : Int) (s : State) : Out := access (.amfadd d n imm) s

/-- `stgn` (R269): into the streaming buffer, waiting only while it is full. -/
def execStgn (z d n : Nat) (imm : Int) (s : State) : Out :=
  let va := s.ea n imm
  if va.toNat % accSize z ≠ 0 then trap .align va s
  else
    match s.resolve s.issue.lid va.toNat .wr with
    | (s, .error c) => trap c va s
    | (s, .ok (.object _)) => trap .prot va s
    | (s, .ok p) =>
      if 8 ≤ s.slot.sbuf.length then block (.stgn z d n imm) s
      else
        done (s.setSlot { s.slot with sbuf := s.slot.sbuf ++
          [⟨p, va, (s.regBytes d 2).take (accSize z), s.me.pts, none⟩] })

/-! ### Factor dispatch (R150) -/

/-- `ftype` once its entry is loaded: its checks, and the call of the factor type's handler. A trap leaves the state as it was before
the loads, `s0` (R73). -/
def ftypeGot (d n : Nat) (s0 : State) (hi : List Byte) (s : State) : Out :=
  let k := Z (s.g d)
  let o := Z (s.g n)
  let h := leNat ((s.slot.half.getD []).take 8)
  let nv := leNat (hi.take 2)
  let sz := leNat ((hi.drop 2).take 2)
  if nv < 1 ∨ 64 < nv ∨ sz % 4 ≠ 0 ∨ sz < 4 ∨ 4096 < sz ∨ h % 2 ≠ 0 ∨ leNat (hi.drop 4) ≠ 0 then
    trap .slot (u64 (6 * 2 ^ 32 + k)) (s.backTo s0)
  else
    match poolCheck s.part o 4 sz with
    | some (c, v) => trap c v (s.backTo s0)
    | none => .next ((((s.raise s.issue.lid s.askClock).wr d (u32 nv)).wra 7 s.next).finish (u64 h))

/-- Whether the executing core's load of n bytes at an address ends in this step with its bytes. -/
def State.loadsNow (s : State) (va : DWord) (n : Nat) : Bool :=
  s.prompt && va.toNat % n == 0 && match (s.resolve s.issue.lid va.toNat .rd).2 with
    | .ok (.memory pa) => !s.badIn pa n
    | _ => false

/-- The second doubleword of a factor-type entry, in a state `s` that has the effects of the first one's load, and `s0` without them.
A load that ends in this step goes on from `s`; one that fails or waits does so from `s0`, whose `half` keeps the clock (R59, R73). -/
def ftypeHigh (d n : Nat) (s0 s : State) : Out :=
  let va := s.factorEntry d + 8
  if s.loadsNow va 8 then accessThen (.ftype d n) va 8 (.load 8) (ftypeGot d n s0) s
  else accessThen (.ftype d n) va 8 (.load 8) (ftypeGot d n s0) (s.backTo s0)

/-- The first doubleword of a factor-type entry is there, in the state `s` after its load. -/
def ftypeLow (d n : Nat) (s0 : State) (lo : List Byte) (s : State) : Out :=
  let h (s : State) (t : Nat) : State := s.setSlot { s.slot with half := some (padTo (lo.take 8) 8 ++ leBytes t 8) }
  ftypeHigh d n (h s0 s.me.pts) (h s s.me.pts)

/-- `ftype`: its entry is loaded as by `ldg.d` twice. -/
def execFtype (d n : Nat) (s : State) : Out :=
  inGroup 1 (fun s =>
    if s.slot.half.isSome then ftypeHigh d n s (s.raise s.issue.lid s.askClock)
    else accessThen (.ftype d n) (s.factorEntry d) 8 (.load 8) (ftypeLow d n s) s) s

/-- An access goes on with the bytes that its reply brings, and the clock that it carries. -/
def accessGot (i : Instr) (bs : List Byte) (t : Nat) (s : State) : Out :=
  match i with
  | .ftype d n =>
    if s.slot.half.isSome then ftypeGot d n s bs (s.raise s.issue.lid t) else ftypeLow d n s bs (s.raise s.issue.lid t)
  | i => accessDone i bs (s.raise s.issue.lid t)

/-- `pref` (R280): no visible effect. -/
def execPref (_n : Nat) (_imm : Int) (s : State) : Out := done s

/-- The renewal of a line of another module that the L1 keeps (R280, R332). It takes no request entry, and which reply finds its way back
without one the spec leaves open: the exchange is done in this step, and it fails, finds the line unchanged or brings a new version, a
free choice (DESIGN CHOICE, log entries 1 and 50). -/
def State.renewFar (s : State) (m a : Nat) (x : FarCopy) : State :=
  let n := s.leaseOf s.issue.lid
  let kept (s : State) (y : FarCopy) : State :=
    s.setMe { s.me with far := Map.set none s.me.far (farKey m a) (some { y with rts := max y.wts (s.me.pts + n) }) }
  match s.choose 3 with
  | (s, 0) => s
  | (s, 1) => kept s x
  | (s, _) =>
    let r := s.freeBytes m (a / 128 * 128) 128
    kept { r.1 with free := r.1.free + 1 } { x with data := r.2, wts := Config.farClock r.1.free }

/-- `renew` (R280): an expired copy in the L1 is renewed without raising the clock. -/
def execRenew (n : Nat) (imm : Int) (s : State) : Out :=
  match s.resolve s.issue.lid (s.ea n imm).toNat .rd with
  | (s, .ok (.memory pa)) =>
    let x := Map.get Copy.none s.me.l1 (pa / 128)
    if x.valid && x.rts < s.me.pts then
      let h := s.homeRead (pa / 128) s.me.pts (s.leaseOf s.issue.lid)
      done (h.1.setMe (h.1.me.keep (pa / 128) h.2))
    else done s
  | (s, .ok (.far m a)) =>
    match Map.get none s.me.far (farKey m a) with
    | some x => if x.rts < s.me.pts then done (s.renewFar m a x) else done s
    | none => done s
  | _ => done s

/-- The line addresses of a range of n lines, or the trap that its first failing page calls for (R280). -/
def State.discardPlan (s : State) (va : DWord) : Nat → Nat → State × Except (Cause × DWord) (List Nat)
  | _, 0 => (s, .ok [])
  | a, n + 1 =>
    match s.resolve s.issue.lid a .wr with
    | (s, .error c) => (s, .error (c, u64 a))
    | (s, .ok (.memory pa)) =>
      match s.discardPlan va (a + 128) n with
      | (s, .ok ls) => (s, .ok (pa :: ls))
      | (s, .error e) => (s, .error e)
    | (s, .ok (.object _)) => (s, .error (.prot, u64 a))
    | (s, .ok _) => (s, .error (.prot, va))

/-- Lines discarded one after another (R276). -/
def State.discardLines (s : State) (l : Nat) : List Nat → State
  | [] => s
  | pa :: ls => (s.perform l pa .discard).1.discardLines l ls

/-- Whether a streaming entry lies in a discarded line (R276). -/
def SbEntry.within (e : SbEntry) (ls : List Nat) : Bool :=
  match e.place with
  | .memory a => ls.any fun pa => pa ≤ a && a < pa + 128
  | _ => false

def execDiscard (d n : Nat) (imm : Int) (s : State) : Out :=
  let va := s.ea n imm
  let k := Z (s.g d)
  if va.toNat % 128 ≠ 0 ∨ k % 128 ≠ 0 then trap .align va s
  else if k = 0 then done s
  else
    match s.discardPlan va va.toNat (k / 128) with
    | (s, .error (c, v)) => trap c v s
    | (s, .ok ls) =>
      let s := s.setSlot { s.slot with sbuf := s.slot.sbuf.filter fun e => !e.within ls }
      if s.prompt then done (s.discardLines s.issue.lid ls)
      else
        let qs := ls.mapIdx fun j pa => (⟨s.serial + j, s.issue.lid, s.issue.slot, blockedEntry, s.serial + j, pa, .discard,
          s.me.pts, s.issue.since.getD s.stamp, none⟩ : HomeReq)
        .next ({ s with reqs := s.reqs ++ qs, serial := s.serial + qs.length }.waiting false true false (.discard d n imm))

/-! ### Clocks and fences (R273, R281) -/

/-- Whether an operation of the context at a level up to c is still under way (R273). -/
def State.fenceBusy (s : State) (c : Nat) : Bool :=
  let x := s.slot
  x.sbuf.any (fun e => s.placeLevel e.place ≤ c) ||
    x.entries.any (fun e => match e.2 with
      | some en => en.level ≤ c && (match en.use with
        | .stream _ _ => true
        | .poolAtomic _ _ => true
        | .clause _ => true
        | _ => false)
      | none => false) ||
    (4 ≤ c && s.me.xfers.any fun t => t.slot == s.issue.slot && (t.state == .queued || t.state == .sized))

/-- The greatest clock that a fence of scope c collects (R273). -/
def State.fenceClock (s : State) (c : Nat) : Nat :=
  let a := s.slot.fclock.foldl (fun m e => if e.1 ≤ c then max m e.2 else m) 0
  if c < 4 then a else s.me.xfers.foldl (fun m t => if t.slot = s.issue.slot then max m t.stored else m) a

/-- The cause of a code that a streaming failure keeps. -/
def causeOfCode (n : Nat) : Cause := if n = 5 then .xlate else if n = 6 then .prot else if n = 7 then .memErr else .remote

def execFence (c : Nat) (s : State) : Out :=
  if s.fenceBusy c then block (.fence c) s
  else
    match s.slot.sfail.find? fun f => f.level ≤ c with
    | some f =>
      trap (causeOfCode f.cause) f.va (s.setSlot { s.slot with sfail := s.slot.sfail.filter fun f => c < f.level })
    | none => done (s.raise s.issue.lid (s.fenceClock c))

def execTick (n : Nat) (s : State) : Out := done (s.setMe { s.me with pts := s.me.pts + n })

def execClkj (d : Nat) (s : State) : Out :=
  let s := s.raise s.issue.lid (s.base + Z (s.g d))
  doneWr s d (u32 (min (s.me.pts - s.base) (2 ^ 32 - 1)))

/-! ### Remote pool atomics (R270, R282) -/

/-- A remote pool atomic: alignment and regions are checked here by the launch's partition, then the request leaves. The payload
layout is presumed (log entry 14). -/
def atomicRemote (i : Instr) (op : AtOp) (w : Bool) (d n t : Nat) (imm : Int) (s : State) : Out :=
  let o := (Z (s.g n) : Int) + imm
  let c := bits (Z (s.g t)) 0 20
  let off := (o % 2 ^ 32).toNat
  match poolCheck s.part o (atomSize w) (atomSize w) with
  | some (cause, _) => trap cause (u64 (c * 2 ^ 32 + off)) s
  | none =>
    match s.slot.freeEntry with
    | none => block i s
    | some e =>
      if s.portOpen s.issue.lid true then
        let b := padTo (s.atomOperand op w d) 16
        let v (j : Nat) : Word := u32 (leNat ((b.drop (4 * j)).take 4))
        let f : Flit := { dst := c, src := s.issue.lid, kind := .system, pri := statPri s.slot.stat, cls := 0,
                          ksf := 0x0400 + op.primary, low := 0, w0 := u32 (off + if w then 2 ^ 16 else 0), w1 := v 0, w2 := v 1,
                          w3 := v 2, w4 := v 3 }
        let s1 := s.setSlot (s.slot.take e (.poolAtomic c off) s.serial (s.levelOf s.issue.lid c))
        let s2 := s1.inject s.issue.lid f (s.issue.slot * 16 + e) s.serial
        .next ({ s2 with serial := s.serial + 1 }.waiting false true true i)
      else blockAside i s

def execAmaddRemote (w : Bool) (d n t : Nat) (imm : Int) (s : State) : Out :=
  atomicRemote (.amaddRemote w d n t imm) .add w d n t imm s
def execAmandRemote (w : Bool) (d n t : Nat) (imm : Int) (s : State) : Out :=
  atomicRemote (.amandRemote w d n t imm) .and w d n t imm s
def execAmorRemote (w : Bool) (d n t : Nat) (imm : Int) (s : State) : Out :=
  atomicRemote (.amorRemote w d n t imm) .or w d n t imm s
def execAmxorRemote (w : Bool) (d n t : Nat) (imm : Int) (s : State) : Out :=
  atomicRemote (.amxorRemote w d n t imm) .xor w d n t imm s
def execAmminRemote (w : Bool) (d n t : Nat) (imm : Int) (s : State) : Out :=
  atomicRemote (.amminRemote w d n t imm) .min w d n t imm s
def execAmmaxRemote (w : Bool) (d n t : Nat) (imm : Int) (s : State) : Out :=
  atomicRemote (.ammaxRemote w d n t imm) .max w d n t imm s
def execAmminzRemote (w : Bool) (d n t : Nat) (imm : Int) (s : State) : Out :=
  atomicRemote (.amminzRemote w d n t imm) .minz w d n t imm s
def execAmmaxzRemote (w : Bool) (d n t : Nat) (imm : Int) (s : State) : Out :=
  atomicRemote (.ammaxzRemote w d n t imm) .maxz w d n t imm s
def execAmswpRemote (w : Bool) (d n t : Nat) (imm : Int) (s : State) : Out :=
  atomicRemote (.amswpRemote w d n t imm) .swp w d n t imm s
def execAmcasRemote (w : Bool) (d n t : Nat) (imm : Int) (s : State) : Out :=
  atomicRemote (.amcasRemote w d n t imm) .cas w d n t imm s
def execAmfaddRemote (d n t : Nat) (imm : Int) (s : State) : Out :=
  atomicRemote (.amfaddRemote d n t imm) .fadd false d n t imm s

/-- An atomic on a pool (R270, R282): the old bytes, with the full bits of the words it writes. -/
def Core.poolAtomic (c : Core) (op : AtOp) (w : Bool) (o : Nat) (operand : List Byte) : Core × List Byte :=
  let n := atomSize w
  let old := Map.getList 0 c.pool o n
  ((c.stBytes o (atBytes op n (leNat old) operand)).setFulls o true (n / 4), old)

/-- A request of R270 as its owner performs it: the operation, the width, the offset and the operand bytes. -/
def poolRequest (f : Flit) : AtOp × Bool × Nat × List Byte :=
  let w := f.w0.getLsbD 16
  ((AtOp.ofPrimary (f.ksf % 256)).getD .or, w, bits f.w0.toNat 0 16, f.payload.drop 4)

def execRemoteAtomicRequest (f : Flit) (s : State) : Out :=
  whenOn (f.kind == .system && f.cls == 0 && f.ksf / 256 == 4) s fun s =>
    arrive f fullRow plainBounce (fun s x => s.setCore f.dst ((s.core f.dst).enqueue
      { kind := .atomic, level := f.pri, start := 0, args := [], flit := some f, uid := x.uid, tag := x.tag, serial := x.serial })) s

/-- What a request entry is held for, if the tag and serial match. -/
def State.entryOf (s : State) (c tag serial : Nat) : Option EntryUse :=
  match Map.get none (s.slotAt c (tag / 16)).entries (tag % 16) with
  | some en => if en.serial = serial then some en.use else none
  | none => none

/-- The reply of a remote pool atomic (R270): it raises the clock and completes the waiting instruction. One that comes late to a core
that is swapped out is spilled (R214). -/
def execRemoteAtomicReply (f : Flit) (s : State) : Out :=
  match s.inFlight f with
  | none => .next s
  | some x =>
    let c := f.dst
    let k := x.tag / 16
    whenOn (f.kind == .reply && (match s.entryOf c x.tag x.serial with
      | some (.clause _) => false
      | _ => true)) s fun s =>
    if let .spill q := s.fate c x.uid then s.spillFlit q f fun s => .next (s.land x)
    else
    match s.entryOf c x.tag x.serial with
    | none => .next (s.land x)
    | some u =>
      let t := s.clockOf f
      let s := (s.land x).raise c t
      let sl := s.slotAt c k
      let lv := ((Map.get none sl.entries (x.tag % 16)).map (·.level)).getD 0
      let s := s.setSlotAt c k ((sl.release (x.tag % 16)).collect lv t)
      match u, sl.wait with
      | .poolAtomic _ _, some w =>
        match w.instr.poolAtomic with
        | some (op, wd, d) => done ((s.resume c k w).wrOld op wd d (f.w0.toNat + 2 ^ 32 * f.w1.toNat))
        | none => .next s
      | _, _ => .next s

/-- The acknowledgement of a clause (R270): it settles the clause and raises the clock (R122); one that comes late to a core that is
swapped out is spilled (R214). -/
def execClauseAck (f : Flit) (s : State) : Out :=
  match s.inFlight f with
  | none => .next s
  | some x =>
    whenOn (f.kind == .reply && (match s.entryOf f.dst x.tag x.serial with
      | some (.clause _) => true
      | none => true
      | _ => false)) s fun s =>
    if let .spill q := s.fate f.dst x.uid then s.spillFlit q f fun s => .next (s.land x)
    else
    let s := s.land x
    if s.entryOf f.dst x.tag x.serial = none then .next s
    else .next ((s.raise f.dst (s.clockOf f)).settleClause f.dst x.tag x.serial (s.clockOf f))

/-! ### Homes and replies -/

/-- A request under way at its home, by its number. -/
def State.reqOf (s : State) (id : Nat) : Option HomeReq := s.reqs.find? fun r => r.id == id && r.answer.isNone

/-- Whether the wait that a request serves is still there: a notice has not abandoned it (R264). -/
def State.awaits (s : State) (l k since : Nat) : Bool :=
  match (s.slotAt l k).wait with
  | some w => !w.poll && w.since == since
  | none => false

/-- What a home does for a request under way: a load raises its core's clock by its reply only, so that one abandoned before then has
not raised it; of one that a notice has abandoned already, only the lease extension (R264). -/
def State.performFor (s : State) (q : HomeReq) : State × Nat × List Byte × Nat :=
  if q.op.stores then s.perform q.lid q.pa q.op
  else if s.awaits q.lid q.slot q.since then
    let r := (s.raise q.lid q.clock).perform q.lid q.pa q.op
    let p := max (s.core q.lid).pts (if r.1.base = s.base then 0 else r.1.base)
    (r.1.setCore q.lid { r.1.core q.lid with pts := p }, r.2)
  else ((s.homeRead (q.pa / 128) q.clock (s.leaseOf q.lid)).1, 0, [], 0)

/-- Whether a request belongs to the same `discard` as another: its lines are acted on in address order (R280). -/
def HomeReq.sameDiscard (x q : HomeReq) : Bool :=
  x.op == .discard && q.op == .discard && x.lid == q.lid && x.slot == q.slot && x.since == q.since

/-- The home performs a request and replies. -/
def homeEvent (id : Nat) (on : HomeOp → Bool) (s : State) : Out :=
  match s.reqOf id with
  | none => .next s
  | some q =>
    let first := (s.reqs.takeWhile fun x => x != q).all fun x => x.answer.isSome || !x.sameDiscard q
    whenOn (on q.op && first) s fun s =>
      let r := s.performFor q
      let a : Reply := { core := q.lid, slot := q.slot, entry := q.entry, serial := q.serial, status := r.2.1, data := r.2.2.1,
                         clock := r.2.2.2 }
      .next { r.1 with reqs := r.1.reqs.map fun x => if x = q then { q with answer := some a } else x }

def execHomeLoad (id : Nat) (s : State) : Out :=
  homeEvent id (fun op => match op with | .load _ => true | _ => false) s
def execHomeStore (id : Nat) (s : State) : Out :=
  homeEvent id (fun op => match op with | .store _ => true | .discard => true | _ => false) s
def execHomeAtomic (id : Nat) (s : State) : Out :=
  homeEvent id (fun op => match op with | .atomic .. => true | _ => false) s

/-- The waiting access of a context completes by a reply with its bytes, or fails with a status (R264, R271, R331). -/
def replyTo (l k : Nat) (r : Reply) (pick : DWord → Nat → List Byte) (place : DWord → Option Place) (s : State) : Out :=
  match (s.slotAt l k).wait with
  | none => .next s
  | some w =>
    let s := s.resume l k w
    match w.instr.reads s with
    | none => done (s.raise l r.clock)
    | some (va, n, _) =>
      if r.status ≠ 0 then accessFails w.instr (causeOf r.status) r.status va s
      else
        let bs := match place va with
          | some p => overlay w.sbuf p (pick va n)
          | none => pick va n
        accessGot w.instr bs r.clock s

end Sys2Proof.Machine

namespace Sys2Proof

/-- The destination and the object operand of a form whose operand may name an object of another module (R290, R296, R299). -/
def Instr.objectForm : Instr → Option (Nat × Nat)
  | .bjoin d n | .binit d n | .bqry d n | .gform d n => some (d, n)
  | _ => none

/-- Whether a form's record may name a GROUP of another module (R291, R303, R311). -/
def Instr.namesGroup : Instr → Bool
  | .coll _ _ _ => true
  | .pnopen _ _ => true
  | _ => false

end Sys2Proof

namespace Sys2Proof.Machine

/-- An optional value written to a register. -/
def State.wrOpt (s : State) (n : Nat) : Option Word → State
  | some v => s.wr n v
  | none => s

/-- The data of an object reply (presumed, log entry 19): which of the two registers are written, and their values. -/
def objectData (d d1 : Option Word) : List Byte :=
  leBytes (d.isSome.toNat + 2 * d1.isSome.toNat) 4 ++ leBytes (d.getD 0).toNat 4 ++ leBytes (d1.getD 0).toNat 4

/-- The two values of an object reply's data. -/
def objectValues (bs : List Byte) : Option Word × Option Word :=
  let f := leNat (bs.take 4)
  let v (i : Nat) : Word := u32 (leNat ((bs.drop (4 * i)).take 4))
  (if bits f 0 1 = 1 then some (v 1) else none, if bits f 1 1 = 1 then some (v 2) else none)

/-- TVAL of an ILLEGAL drop set (R296): the register where its reserved bits are set, else the word, since the rule for a rank past
NMEM names no value (R191). -/
def State.formIllegal (s : State) (d : Nat) : DWord :=
  if bits (Z (s.g d)) 31 1 = 1 ∧ bits (Z (s.g d)) 13 18 ≠ 0 then u64 (Z (s.g d)) else u64 s.issue.word

/-- TVAL of ILLEGAL at an object (R296, R299). -/
def State.objectIllegal (s : State) (i : Instr) (d : Nat) : DWord :=
  match i with
  | .gform _ _ => s.formIllegal d
  | _ => u64 (Z (s.g d))

/-- The address of another module's object that the executing form has asked for (R292): its operand, or the GROUP that its record
named. -/
def State.askedObject (s : State) (i : Instr) : DWord :=
  match i.objectForm with
  | some (_, n) => s.a n
  | none => u64 (leNat ((s.slot.half.getD []).take 8))

/-- The slot in which another module keeps the group at an address, where it has answered so to the executing form (R291). -/
def State.farGroup (s : State) (va : DWord) : Option Nat :=
  match s.slot.half with
  | some h => if h.length = 12 ∧ leNat (h.take 8) = va.toNat then some (leNat (h.drop 8)) else none
  | none => none

/-- The reply of another module's object (R290, R331): the waiting form completes or traps, or, where the object was the GROUP of its
record, goes on with the slot named. A status from 256 on is the TCAUSE of R292, and 1 is ILLEGAL (presumed, log entry 19). -/
def objectReply (r : Reply) (s : State) : Out :=
  match (s.slotAt r.core r.slot).wait with
  | none => .next s
  | some w =>
    let s := s.resume r.core r.slot w
    let v := objectValues r.data
    match w.instr.objectForm, w.instr.namesGroup with
    | none, false => .next s
    | o, _ =>
      if r.status = 1 then trap .illegal (s.objectIllegal w.instr ((o.map (·.1)).getD 0)) s
      else if 256 ≤ r.status then .next (s.takeTrap r.core r.slot (u32 r.status) (s.askedObject w.instr) w.start)
      else if r.status ≠ 0 then trap (causeOf r.status) (s.askedObject w.instr) s
      else
        match o with
        | some (d, _) => done (((s.raise r.core r.clock).wrOpt d v.1).wrOpt (d + 1) v.2)
        | none =>
          let s := s.raise r.core r.clock
          block w.instr (s.setSlot { s.slot with
            half := some (leBytes (s.askedObject w.instr).toNat 8 ++ leBytes (v.1.getD 0).toNat 4) })

/-- Whether a SERIAL names a request: a packet carries its low 32 bits (R334). -/
def sameSerial (a b : Nat) : Bool := a % 2 ^ 32 == b % 2 ^ 32

/-- What a waiting `ctxout` has still to do (R202): the number of the next line, 0 or 1 while its store to another module is unsent or
under way or 2 more than its reply's status, and the image. -/
def Slot.outgoing (x : Slot) : Option (Nat × Nat × List Byte) :=
  x.half.map fun h => (leNat (h.take 4), leNat ((h.drop 4).take 4), h.drop 8)

/-- What it keeps as such. -/
def outgoingBytes (i st : Nat) (img : List Byte) : List Byte := leBytes i 4 ++ leBytes st 4 ++ img

/-- The reply to a line of another module, or its deadline, has reached a waiting `ctxout`. -/
def Slot.lineAnswered (x : Slot) (st : Nat) : Slot :=
  { x with half := x.outgoing.map fun h => outgoingBytes h.1 (2 + st) h.2.2 }

/-- Whether an instruction is `ctxout`. -/
def isCtxout : Instr → Bool
  | .ctxout _ _ => true
  | _ => false

/-- A reply of another module to a request entry (R271, R331, R332). -/
def farReply (r : Reply) (s : State) : Out :=
  let sl := s.slotAt r.core r.slot
  match Map.get none sl.entries r.entry with
  | none => .next s
  | some en =>
    if sameSerial en.serial r.serial = false then .next s
    else
      let s := s.setSlotAt r.core r.slot (sl.release r.entry)
      let arrived (p : Nat) : Out :=
        match sl.wait with
        | none => .next s
        | some w =>
          if isCtxout w.instr then
            .next ((s.setSlotAt r.core r.slot ((s.slotAt r.core r.slot).lineAnswered r.status)).raise r.core r.clock)
          else
          match w.instr.reads (s.resume r.core r.slot w) with
          | none => .next s
          | some (va, _, op) =>
            let m := bits va.toNat 50 13
            let a := va.toNat % 2 ^ 50
            let c := s.core r.core
            let old := (Map.get none c.far (farKey m a)).map (·.data)
            let line := if r.data = [] then old.getD [] else r.data
            if op.pk = 0 ∧ r.status = 0 ∧ line = [] then block w.instr (s.resume r.core r.slot w)
            else
            let s := if op.pk = 0 && r.status = 0 then
                s.setCore r.core { c with
                  far := Map.set none c.far (farKey m a) (some ⟨line, r.clock, max r.clock (p + s.leaseOf r.core)⟩) }
              else s
            replyTo r.core r.slot r (fun va n => if op.pk = 0 then (line.drop (va.toNat % 128)).take n else r.data)
              (fun va => if op.pk = 0 then some (.far m (va.toNat % 2 ^ 50)) else none) s
      match en.use with
      | .access p => arrived p
      | .load p => arrived p
      | .stream _ va =>
        let sl := s.slotAt r.core r.slot
        let sl := { sl with sbuf := sl.sbuf.filter fun e => e.entry != some r.entry }
        if r.status = 0 then .next (s.setSlotAt r.core r.slot (sl.collect en.level r.clock))
        else .next (s.setSlotAt r.core r.slot
          { sl with sfail := sl.sfail ++ [⟨en.level, (causeOf r.status).code, va⟩] })
      | .object => objectReply r s
      | _ => .next s

/-- A request entry freed, if it is still held for the request of that serial (R271). -/
def State.freed (s : State) (l k e serial : Nat) : State :=
  if (s.entryOf l (k * 16 + e) serial).isSome then s.setSlotAt l k ((s.slotAt l k).release e) else s

/-! ### Streaming drains (R269) -/

/-- Whether the i-th entry of a streaming buffer may drain: no earlier entry overlaps it, and it has not begun. -/
def Slot.mayDrain (x : Slot) (i : Nat) : Bool :=
  match x.sbuf[i]? with
  | some e => e.entry.isNone && !(x.sbuf.take i).any fun f => f.overlaps e
  | none => false

def execStreamingDrain (l k i : Nat) (s : State) : Out :=
  let x := s.slotAt l k
  whenOn (x.mayDrain i) s fun s =>
    match x.sbuf[i]? with
    | none => .next s
    | some e =>
      let x' := { x with sbuf := x.sbuf.eraseIdx i }
      let fail (s : State) (lv : Nat) (c : Cause) : Out :=
        .next (s.setSlotAt l k { x' with sfail := x'.sfail ++ [⟨lv, c.code, e.va⟩] })
      match e.place with
      | .memory pa =>
        if s.badPart pa e.data.length then fail s.report 4 .memErr
        else
          let r := s.storeLine pa e.data e.clock
          .next (r.1.setSlotAt l k (x'.collect 4 r.2))
      | .host a =>
        let s' : State := { s with hostOut := s.hostOut ++ [.data a e.data] }
        .next (s'.setSlotAt l k x')
      | .far m a =>
        let lv := s.placeLevel e.place
        match x.freeEntry with
        | none => .next s
        | some n =>
          let p := s.request l k n m a (s.launchDeadline l) (.store e.data) 0 e.clock
          if s.repliesFull l || s.outputFull p then .next s
          else
            match s.sendPacket p with
            | none => fail s lv .remote
            | some s =>
              let y := { x with sbuf := x.sbuf.set i { e with entry := some n } }
              .next ({ s with serial := s.serial + 1 }.setSlotAt l k (y.take n (.stream m e.va) s.serial lv))
      | .object _ => .next (s.setSlotAt l k x')

/-! ### Host completions (R260, R360) -/

/-- A host load ends with its bytes or an error. -/
def hostLoadEnds (l k : Nat) (data : Option (List Byte)) (s : State) : Out :=
  match s.hostLoads.find? fun h => h.lid == l && h.slot == k with
  | none => .next s
  | some h =>
    let s := { s with hostLoads := s.hostLoads.erase h }
    let s := match h.entry with
      | some e => s.freed l k e h.serial
      | none => s
    if s.awaits l k h.since = false then .next s
    else
      match data with
      | some bs =>
        replyTo l k { core := l, slot := k, entry := blockedEntry, serial := 0, status := 0, data := bs, clock := 0 }
          (fun _ n => padTo (bs.take n) n) (fun _ => some (.host h.addr)) s
      | none =>
        replyTo l k { core := l, slot := k, entry := blockedEntry, serial := 0, status := 4, data := [], clock := 0 }
          (fun _ _ => []) (fun _ => none) s

def execHostLoadCompletion (l k : Nat) (data : Option (List Byte)) (s : State) : Out := hostLoadEnds l k data s
def execHostReadTimeout (l k : Nat) (s : State) : Out := hostLoadEnds l k none s

/-- A posted write leaves the port (R260): the waiting `stg` completes. -/
def execPostedWrite (l k : Nat) (s : State) : Out :=
  match s.posted.find? fun p => p.lid == l && p.slot == k with
  | none => .next s
  | some p =>
    let s := { s with posted := s.posted.erase p, hostOut := s.hostOut ++ [HostWrite.data p.addr p.data] }
    match (s.slotAt l k).wait with
    | some w => done (s.resume l k w)
    | none => .next s

/-! ### Clocks (R267, R268) -/

def execIdleClockAdvance (l : Nat) (s : State) : Out :=
  whenOn ((s.core l).queue.isSome && !(s.core l).exited && !(s.core l).swapped) s fun s =>
    .next (s.setCore l { s.core l with pts := (s.core l).pts + 1 })

def execRebase (s : State) : Out := whenOn (s.rebaseDue 0) s fun s => .next (s.rebase 0)

/-! ### Requests of other modules (R331, R332) -/

/-- A reply to a request packet (R334). -/
def Packet.reply (p : Packet) (pk status clock : Nat) (data : List Byte) : Packet :=
  { dmod := p.smod, smod := p.dmod, pk := pk, core := p.core, slot := p.slot, entry := p.entry, serial := p.serial, clock := clock,
    addr := 0, budget := 0, status := status, data := data }

/-- A reply goes out, waits in its storage for room at its output (R340, R344), or is lost where no route leads back (R343). -/
def State.answer (s : State) (p : Packet) : State :=
  if s.outputFull p then { s with transit := s.transit ++ [{ pkt := p, raw := p.payloads, link := none, ch := 3, flits := 0 }] }
  else (s.sendPacket p).getD s

/-- A load, store or atomic of another module (R331, R332): the reply. -/
def State.targetAccess (s : State) (p : Packet) : State × Packet :=
  let s := s.rebase p.clock
  let pk := p.pk + 4
  match s.export p.addr (if p.pk = 0 then .rd else .wr) with
  | .error c => (if c = .memErr then s.report else s, Packet.reply p pk c.status 0 [])
  | .ok (.memory pa) =>
    if p.pk = 0 then
      if s.badAt pa then (s.report, Packet.reply p pk 4 0 [])
      else
        let n := leNat (p.data.take 4)
        let wts := leNat ((p.data.drop 8).take 8)
        let h := s.homeRead (pa / 128) p.clock n
        (h.1, Packet.reply p pk 0 h.2.wts (if wts = h.2.wts then [] else s.bytesAt (pa / 128 * 128) 128))
    else if p.pk = 1 then
      if s.badPart pa p.data.length then (s.report, Packet.reply p pk 4 0 [])
      else
        let r := s.storeLine pa p.data p.clock
        (r.1, Packet.reply p pk 0 r.2 [])
    else
      match AtOp.ofPrimary (leNat (p.data.take 1)) with
      | none => (s, Packet.reply p pk 5 0 [])
      | some op =>
        let n := leNat ((p.data.drop 1).take 1)
        if s.badPart pa n then (s.report, Packet.reply p pk 4 0 [])
        else
          let r := s.atomicLine pa n op (p.data.drop 8) p.clock
          (r.1, Packet.reply p pk 0 r.2.1 r.2.2)
  | .ok _ => (s, Packet.reply p pk 3 0 [])

/-! ### Errors of memory and links (R277) -/

/-- A bit error: a corrected one is counted, in a link also by lane, unless that lane is handed back or has failed (R322, R346; a link's sector number is 16 · its key + lane, log entry
19); an uncorrectable one leaves the sector of memory in error. -/
def execSoftError (p : ErrPlace) (sector : Nat) (corrected : Bool) (s : State) : Out :=
  let s1 : State := if corrected then
      { s with dev := { s.dev with serr := if s.dev.serr = 0xFFFFFFFF#32 then s.dev.serr else s.dev.serr + 1 } }
    else s
  match p with
  | .sram => .next s1
  | .memory => .next (if corrected then s1 else { s1 with bad := Map.set false s1.bad sector true })
  | .link =>
    let key := sector / 16
    let lane := sector % 16
    let l : LinkId := if key < 512 then ⟨true, key⟩ else ⟨false, key - 512⟩
    let k := s1.link l
    if k.up = false ∨ k.rx.lout = lane ∨ k.rx.lmap.testBit lane = false then .next s1
    else if corrected then
      let n := sat32 (Map.get 0 k.rx.cnt lane + 1)
      let hit := Map.get 0xFFFFFFFF k.rx.thr lane ≤ n
      .next (s1.setLink l { k with rx := { k.rx with
        cnt := Map.set 0 k.rx.cnt lane n, evt := if hit then orBit k.rx.evt lane else k.rx.evt } })
    else .next (s1.setLink l { k with rx := { k.rx with uncr := Map.set 0 k.rx.uncr lane (sat32 (Map.get 0 k.rx.uncr lane + 1)) } })

end Sys2Proof.Machine
end

