-- ==== Sys2Proof/Machine/Engine.lean ====
section
/-! DEFINITION. What the yoke and the tug share (spec/10): global memory as the engines read and write it (R236, R242, R244), layout
records (R230) and element addresses (R231), elements in the pool (R33, R34), and notices (R192). -/

namespace Sys2Proof.Machine

/-! ### Memory reads of an engine -/

/-- What a read of an engine brings: the bytes and the write time of their line (0 outside module memory), or the cause and address of
the failure. -/
abbrev EngineRead := Except (Cause × DWord) (List Byte × Nat)

/-- The version of a line that an engine's load with clock p returns (R236, R244, R274): the current one, whose lease is extended, or
an older one whose lease still covers p, a free choice. -/
def State.engineLine (s : State) (l ln p : Nat) : State × Nat :=
  let s := s.roomFor (p + s.leaseOf l)
  let h := s.line ln
  let now : State := s.setLine ln { h with rts := max h.rts (p + s.leaseOf l) }
  match h.older.filter fun v => p ≤ v.rts with
  | [] => (now, h.wts)
  | vs =>
    let (s', k) := s.choose (vs.length + 1)
    match vs[k]? with
    | some v => (s', v.wts)
    | none => ({ now with free := s'.free }, h.wts)

/-- How an engine reads: the clock of its loads and the streaming buffer of its context at the acceptance or snapshot (R236, R244, R269),
and the read of another module that fails, if one does. -/
structure Reader where
  clock : Nat
  sbuf : List SbEntry
  far : Option FarFail
  deriving DecidableEq, Repr

/-- How a read of another module may fail (R331): a free number below 5 names a cause, or none. -/
def farCause (k : Nat) : Option Cause := [none, some Cause.remote, some .xlate, some .prot, some .memErr].getD k none

/-- n bytes within a line loaded at once by the executing instruction, as `ldg` would load them (R278). Bytes of the host and of
another module are free, with the write time of the latter, and such a read may fail (log entry 1). -/
def State.loadNow (s : State) (va : DWord) (n : Nat) : State × Except (Cause × DWord) (List Byte) :=
  if va.toNat % n ≠ 0 then (s, .error (.align, va))
  else
    match s.resolve s.issue.lid va.toNat .rd with
    | (s, .error c) => (s, .error (c, va))
    | (s, .ok (.object _)) => (s, .error (.prot, va))
    | (s, .ok (.memory pa)) =>
      let r := s.perform s.issue.lid pa (.load n)
      (r.1, if r.2.1 = 0 then .ok (overlay s.slot.sbuf (.memory pa) r.2.2.1) else .error (.memErr, va))
    | (s, .ok (.host a)) =>
      let r := s.freeBytes hostModule a n
      let k := r.1.choose 2
      (k.1, if k.2 = 0 then .ok (overlay s.slot.sbuf (.host a) r.2) else .error (.memErr, va))
    | (s, .ok (.far m a)) =>
      let r := s.freeBytes m a n
      let k := r.1.choose 5
      match farCause k.2 with
      | some c => (k.1, .error (c, va))
      | none => ({ k.1 with free := k.1.free + 1 }.raise s.issue.lid (Config.farClock k.1.free), .ok (overlay s.slot.sbuf (.far m a) r.2))

/-- n bytes within a line as an engine of core l reads them. Bytes of the host and of another module are free, with the write time of
the latter, and a read of the host may fail (R360, log entry 1). -/
def State.engineRead (s : State) (l : Nat) (v : Reader) (va n : Nat) : State × EngineRead :=
  match s.resolve l va .rd with
  | (s, .error c) => (s, .error (c, u64 va))
  | (s, .ok (.object _)) => (s, .error (.prot, u64 va))
  | (s, .ok (.memory pa)) =>
    if s.badIn pa n then (s.report, .error (.memErr, u64 va))
    else
      let r := s.engineLine l (pa / 128) v.clock
      (r.1, .ok (overlay v.sbuf (.memory pa) (r.1.verBytes r.2 pa n), r.2))
  | (s, .ok (.host a)) =>
    let r := s.freeBytes hostModule a n
    let k := r.1.choose 2
    (k.1, if k.2 = 0 then .ok (overlay v.sbuf (.host a) r.2, 0) else .error (.memErr, u64 va))
  | (s, .ok (.far m a)) =>
    match v.far.filter fun f => f.va == va with
    | some f => (s, .error (causeOfCode f.code, u64 va))
    | none =>
      let r := s.freeBytes m a n
      ({ r.1 with free := r.1.free + 1 }, .ok (overlay v.sbuf (.far m a) r.2, Config.farClock r.1.free))

/-- Consecutive bytes read byte by byte, with the greatest write time. -/
def State.engineBytes (s : State) (l : Nat) (v : Reader) (va : Nat) : Nat → State × EngineRead
  | 0 => (s, .ok ([], 0))
  | n + 1 =>
    match s.engineRead l v va 1 with
    | (s, .error e) => (s, .error e)
    | (s, .ok (b, w)) =>
      match s.engineBytes l v ((va + 1) % 2 ^ 64) n with
      | (s, .error e) => (s, .error e)
      | (s, .ok (bs, w')) => (s, .ok (b ++ bs, max w w'))

/-! ### Layout records (R230) -/

/-- A layout record. -/
structure LayoutRec where
  rank : Nat
  fmt : Nat
  pfmt : Nat
  oob : Nat
  tile : List Nat
  fill : Nat
  str : List Int
  soff : Int
  sstr : Int
  deriving DecidableEq, Repr

/-- The record of 64 bytes with whether it is valid (R230). -/
def layoutRec (bs : List Byte) : LayoutRec × Bool :=
  let at_ (o n : Nat) : Nat := leNat ((bs.drop o).take n)
  let rank := at_ 0 1
  let fmt := at_ 1 1 % 32
  let same := at_ 2 1 / 128 = 1
  let pfmt := if same then fmt else at_ 2 1 % 32
  let raw := [at_ 4 2, at_ 6 2, at_ 8 2, at_ 10 2]
  let dflt := [16, 16, 1, 1]
  let tile := (List.range 4).map fun d =>
    if rank ≤ d then 1 else if raw.getD d 0 = 0 then dflt.getD d 1 else raw.getD d 0
  let str := (List.range 4).map fun d => sxInt (at_ (16 + 8 * d) 8) 64
  let ok := 1 ≤ rank && rank ≤ 4 && at_ 1 1 / 32 == 0 && bits (at_ 2 1) 5 2 == 0 && (!same || at_ 2 1 % 32 == 0) && fmtOk fmt &&
    fmtOk pfmt && (fmt == pfmt || (fmt ≤ 0x0A && pfmt ≤ 0x0A)) && at_ 3 1 ≤ 3 && at_ 12 4 < 2 ^ fmtBits pfmt &&
    raw.all (fun t => t ≤ 4096) && (8 ≤ fmtBits fmt || str.getD 0 0 == 0)
  ({ rank := rank, fmt := fmt, pfmt := pfmt, oob := at_ 3 1, tile := tile, fill := at_ 12 4, str := str,
     soff := sxInt (at_ 0x30 8) 64, sstr := sxInt (at_ 0x38 8) 64 }, ok)

/-- Where an element lies (R231): the address of its first byte, its first bit there, and its bits. -/
def LayoutRec.elem (r : LayoutRec) (base : Nat) (x : List Int) : Nat × Nat × Nat :=
  let row : Int := base + x.getD 1 0 * r.str.getD 1 0 + x.getD 2 0 * r.str.getD 2 0 + x.getD 3 0 * r.str.getD 3 0
  let w := fmtBits r.fmt
  if w < 8 then
    let b := w * x.getD 0 0
    ((w64 (row + b / 8)).toNat, (b % 8).toNat, w)
  else ((w64 (row + x.getD 0 0 * r.str.getD 0 0)).toNat, 0, w)

/-- The code of an element read by an engine (R231): ALIGN when a whole-byte element is misaligned. -/
def State.engineElem (s : State) (l : Nat) (v : Reader) (r : LayoutRec) (base : Nat) (x : List Int) :
    State × Except (Cause × DWord) (Nat × Nat) :=
  let (a, b, w) := r.elem base x
  if w < 8 then
    match s.engineBytes l v a ((b + w + 7) / 8) with
    | (s, .error e) => (s, .error e)
    | (s, .ok (bs, t)) => (s, .ok (bits (leNat bs) b w, t))
  else if a % (w / 8) ≠ 0 then (s, .error (.align, u64 a))
  else
    match s.engineRead l v a (w / 8) with
    | (s, .error e) => (s, .error e)
    | (s, .ok (bs, t)) => (s, .ok (leNat bs, t))

/-- A layout record read by an engine: its address a multiple of 64, then its bytes. -/
def State.engineRec (s : State) (l : Nat) (v : Reader) (a : Nat) : State × Except (Cause × DWord) (List Byte) :=
  if a % 64 ≠ 0 then (s, .error (.align, u64 a))
  else
    match s.engineRead l v a 64 with
    | (s, .error e) => (s, .error e)
    | (s, .ok (bs, _)) => (s, .ok bs)

/-! ### Elements in the pool (R33, R34) -/

/-- Half bytes of a pool element (R237). -/
def poolHalves (f : Nat) : Nat := if fmtBits f = 4 then 1 else if fmtBits f < 16 then 2 else fmtBits f / 4

/-- The code of the pool element whose first half byte has number h. -/
def Core.elem (c : Core) (f h : Nat) : Nat :=
  if fmtBits f = 4 then bits (c.ld (h / 2) 1) (4 * (h % 2)) 4
  else if fmtBits f = 6 then c.ld (h / 2) 1 % 64
  else c.ld (h / 2) (fmtBits f / 8)

/-- A pool element written, with the full bit of its word (R95). -/
def Core.setElem (c : Core) (f h code : Nat) : Core :=
  let o := h / 2
  let c' :=
    if fmtBits f = 4 then
      let b := c.ld o 1
      c.st o 1 (if h % 2 = 0 then b / 16 * 16 + code % 16 else b % 16 + code % 16 * 16)
    else if fmtBits f = 6 then c.st o 1 (code % 64)
    else c.st o (fmtBits f / 8) code
  c'.setFull o true

/-! ### Notices -/

/-- A notice reaches a context (R192). -/
def State.notify (s : State) (l k : Nat) (c : Nat) (v : DWord) : State := s.setSlotAt l k ((s.slotAt l k).notify (u32 c) v)

end Sys2Proof.Machine
end

