-- ==== Sys2Proof/Machine/Tug.lean ====
section
/-! DEFINITION. The tug (R240 to R245) and the transaction barriers (R246 to R248). -/

namespace Sys2Proof.Machine

/-! ### Transaction barriers -/

/-- GEN[3:0] of the barrier at offset o. -/
def Core.tbGen (c : Core) (o : Nat) : Nat := bits (c.ldw o).toNat 0 4

/-- PEND of the barrier at offset o. -/
def Core.tbPend (c : Core) (o : Nat) : Nat := bits (c.ldw o).toNat 8 8

/-- A generation completes when ARR, PEND and SEC are all 0 (R246). -/
def Core.tbComplete (c : Core) (o : Nat) : Core :=
  if c.ldw (o + 4) = 0 ∧ c.tbPend o = 0 ∧ c.ldw (o + 8) = 0 then
    (c.stw o (setBits (c.ldw o) 0 4 ((c.tbGen o + 1) % 16))).stw (o + 4) (c.ldw (o + 12))
  else c

/-- PEND changed by one action of the tug (R248): one more, or one less if not 0. -/
def Core.tbAnnounce (c : Core) (o : Nat) (up : Bool) : Core :=
  let p := c.tbPend o
  c.stw o (setBits (c.ldw o) 8 8 (if up then p + 1 else p - 1))

/-- SEC grown. -/
def Core.tbGrow (c : Core) (o n : Nat) : Core := c.stw (o + 8) (c.ldw (o + 8) + u32 n)

/-- SEC shrunk, 0 at the least (R246). -/
def Core.tbShrink (c : Core) (o n : Nat) : Core := c.stw (o + 8) (u32 ((c.ldw (o + 8)).toNat - n))

/-- A barrier form (R247): the group TUG and the place of the barrier. -/
def barrierForm (n : Nat) (f : Nat → State → Out) (s : State) : Out :=
  inGroup 3 (fun s =>
    match poolCheck s.part (Z (s.g n)) 16 16 with
    | some (c, v) => trap c v s
    | none => f (Z (s.g n)) s) s

def execTbinit (d n : Nat) (s : State) : Out :=
  barrierForm n (fun o s =>
    if s.g d = 0 then trap .illegal (u64 s.issue.word) s
    else done (s.setMe ((((s.me.stw o 0).stw (o + 4) (s.g d)).stw (o + 8) 0).stw (o + 12) (s.g d)))) s

def execTbarr (d n : Nat) (s : State) : Out :=
  barrierForm n (fun o s =>
    if s.g d = 0 then trap .illegal (u64 s.issue.word) s
    else if Z (s.me.ldw (o + 4)) < Z (s.g d) then doneWr s d 0xFFFFFFFF#32
    else
      let p := s.me.tbGen o
      doneWr (s.setMe ((s.me.stw (o + 4) (s.me.ldw (o + 4) - s.g d)).tbComplete o)) d (u32 p)) s

/-- The pool-end register of a transfer. -/
def Xfer.poolEnd (x : Xfer) : DWord := if bits x.lay.toNat 0 2 = 1 then x.src else x.dst

/-- The barrier of a transfer, if its pool end has TBE (R241). -/
def Xfer.barrier (x : Xfer) : Option Nat :=
  if bits x.lay.toNat 0 2 ≠ 3 ∧ x.poolEnd.getLsbD 16 then some (16 * bits x.poolEnd.toNat 17 11) else none

def execTbwait (d n : Nat) (s : State) : Out :=
  barrierForm n (fun o s =>
    if Z (s.g d) / 16 ≠ 0 then trap .illegal (u64 s.issue.word) s
    else
      let k := (s.me.tbGen o + 16 - Z (s.g d)) % 16
      if k = 0 ∨ 8 < k then block (.tbwait d n) s
      else
        let t := s.me.xfers.foldl (fun m x => if x.barrier = some o then max m x.stored else m) 0
        doneWr (s.raise s.issue.lid t) d (u32 (s.me.tbGen o))) s

/-! ### Setting up a transfer (R240, R241) -/

def execKset (n : Nat) (s : State) : Out :=
  inGroup 3 (fun s =>
    match poolCheck s.part (Z (s.g n)) 8 48 with
    | some (c, v) => trap c v s
    | none =>
      let o := Z (s.g n)
      let q (i : Nat) : DWord := u64 (s.me.ld (o + i) 8)
      done (s.setSlot { s.slot with
        ksrc := q 0, kdst := q 8, klay := q 16, kbase := q 24,
        kext := Map.setList 0 [] 0 [s.me.ldw (o + 32), s.me.ldw (o + 36), s.me.ldw (o + 40), s.me.ldw (o + 44)] })) s

/-- Whether a transfer is in the tug's queue. -/
def Xfer.active (x : Xfer) : Bool := x.state == .queued || x.state == .sized

/-- Transfers in a team's tug queue (R240). -/
def State.tugLoad (s : State) (t : Nat) : Nat :=
  (List.range 8).foldl (fun n i => n + ((s.core (8 * t + i)).xfers.filter Xfer.active).length) 0

/-- The id after an id, 1 to 255 (R225, R240). -/
def idNext (n : Nat) : Nat := if 255 ≤ n then 1 else n + 1

/-- A core's n most recent records (R225, R245), with those older ones that still matter: work not ended, or timestamps to collect. -/
def trim {α : Type} (matters : α → Bool) (n : Nat) (xs : List α) : List α :=
  (xs.take (xs.length - n)).filter matters ++ xs.drop (xs.length - n)

/-- The n most recent records, the latest first. -/
def recent {α : Type} (n : Nat) (xs : List α) : List α := xs.reverse.take n

/-- Whether a transfer past the most recent ones is kept: it is active, or its stores have timestamps that a fence or a barrier still
collects (R244, R273). -/
def Xfer.matters (x : Xfer) : Bool := x.active || x.stored != 0

/-- A transfer's snapshot enters the queue with its announcement (R240, R248): the state and the id, or 0 with the queue full. -/
def State.kgo (s : State) : Except (Cause × DWord) (State × Nat) :=
  let x := s.slot
  let c := s.me
  let t : Xfer := { id := c.nextXfer, state := .queued, src := x.ksrc, dst := x.kdst, lay := x.klay, base := x.kbase,
                    ext := Map.getList 0 x.kext 0 4, dtab := c.dtab, record := [], sectors := 0, landed := 0, slot := s.issue.slot,
                    clock := c.pts, stored := 0, lines := [], sbuf := x.sbuf, fars := [], asked := none }
  match t.barrier with
  | some b =>
    if inPool s.part b 16 = false then .error (.poolRange, u64 b)
    else if 32 ≤ s.tugLoad (s.issue.lid / 8) then .ok (s, 0)
    else
      let c := { c with nextXfer := idNext c.nextXfer, xfers := trim Xfer.matters 32 (c.xfers ++ [t]) }
      .ok (s.setMe (c.tbAnnounce b true), t.id)
  | none =>
    if 32 ≤ s.tugLoad (s.issue.lid / 8) then .ok (s, 0)
    else .ok (s.setMe { c with nextXfer := idNext c.nextXfer, xfers := trim Xfer.matters 32 (c.xfers ++ [t]) }, t.id)

def execKgo (d : Nat) (s : State) : Out :=
  inGroup 3 (fun s =>
    match s.kgo with
    | .error (c, v) => trap c v s
    | .ok (s, id) => doneWr s d (u32 id)) s

/-- The record of a transfer id, among the 32 most recent transfers (R245). -/
def Core.xferOf (c : Core) (id : Nat) : Option Xfer := (recent 32 c.xfers).find? fun x => x.id == id

/-- A record replaced. -/
def Core.setXfer (c : Core) (x y : Xfer) : Core := { c with xfers := c.xfers.map fun z => if z = x then y else z }

def execKwait (d : Nat) (s : State) : Out :=
  inGroup 3 (fun s =>
    match s.me.xferOf (Z (s.g d) % 256) with
    | none => done s
    | some x => if x.active then block (.kwait d) s else done (s.raise s.issue.lid x.stored)) s

def execKpoll (d : Nat) (s : State) : Out :=
  inGroup 3 (fun s =>
    match s.me.xferOf (Z (s.g d) % 256) with
    | none => doneWr s d 0
    | some x =>
      match x.state with
      | .stopped => doneWr s d 2
      | .complete => doneWr s d 0
      | _ => doneWr s d 1) s

/-! ### Blocks and elements (R242) -/

/-- The operation of a transfer: 0 load, 1 store, 2 table load. -/
def Xfer.op (x : Xfer) : Nat := bits x.lay.toNat 0 2

/-- The address of the layout record. -/
def Xfer.recAddr (x : Xfer) : Nat := bits x.lay.toNat 6 58 * 64

/-- POFF. -/
def Xfer.poff (x : Xfer) : Nat := bits x.poolEnd.toNat 0 16

/-- The layout record of a sized transfer. -/
def Xfer.rec_ (x : Xfer) : LayoutRec := (layoutRec x.record).1

/-- Elements of the block. -/
def LayoutRec.count (r : LayoutRec) : Nat := r.tile.foldl (· * ·) 1

/-- Bytes of the block in the pool. -/
def LayoutRec.poolBytes (r : LayoutRec) : Nat := (r.count * poolHalves r.pfmt + 1) / 2

/-- Block coordinates of element e, c0 fastest. -/
def coords (tile : List Nat) (e : Nat) : List Nat :=
  match tile with
  | [] => []
  | t :: ts => e % t :: coords ts (e / t)

/-- Tensor coordinates of element e (R242). -/
def Xfer.coord (x : Xfer) (r : LayoutRec) (e : Nat) : List Int :=
  let o := if x.op = 1 then x.dst else x.src
  (coords r.tile e).mapIdx fun d (c : Nat) => if r.rank ≤ d then (0 : Int) else sxInt (bits o.toNat (16 * d) 16) 16 + (c : Int)

/-- KEXT of a dimension. -/
def Xfer.extent (x : Xfer) (d : Nat) : Nat := (x.ext.getD d 0).toNat

/-- Whether tensor coordinates lie inside the tensor. -/
def Xfer.inside (x : Xfer) (r : LayoutRec) (cs : List Int) : Bool :=
  (List.range r.rank).all fun d => 0 ≤ cs.getD d 0 && cs.getD d 0 < x.extent d

/-- The nearest coordinates inside the tensor (OOB 3). -/
def Xfer.nearest (x : Xfer) (r : LayoutRec) (cs : List Int) : List Int :=
  cs.mapIdx fun d c => if r.rank ≤ d then c else min (max c 0) (x.extent d - 1)

/-- Whether a dimension has no element inside (OOB 3). -/
def Xfer.hollow (x : Xfer) (r : LayoutRec) : Bool := (List.range r.rank).any fun d => x.extent d == 0

/-- An element as the tug writes it: an f19 word has bits 12 to 0 zero (R20; log entry 15). -/
def asWritten (f c : Nat) : Nat := if f = 0x03 then c / 2 ^ 13 * 2 ^ 13 else c

/-- `convert` of R242. -/
def convertElem (t : Map (Option Word)) (f g c : Nat) : Nat :=
  if f = g then asWritten f c else (encodeElem t g (exactB32 (decodeElem t f c))).1

/-- The elements of the k-th pool sector of a block. -/
def Xfer.sectorElems (x : Xfer) (r : LayoutRec) (k : Nat) : List Nat :=
  let h := poolHalves r.pfmt
  let lo := (32 * (x.poff / 32 + k) - x.poff) * 2 / h
  let hi := min r.count ((32 * (x.poff / 32 + k + 1) - x.poff) * 2 / h)
  (List.range (hi - lo)).map (lo + ·)

/-- How the tug reads for a transfer: as a load of its context at the snapshot (R244). -/
def Xfer.reader (x : Xfer) (far : Option FarFail) : Reader := { clock := x.clock, sbuf := x.sbuf, far := far }

/-- One element of a load (R242): the state, and the code to write with the write time of its line, or the failure. -/
def State.loadElem (s : State) (l : Nat) (x : Xfer) (r : LayoutRec) (far : Option FarFail) (e : Nat) :
    State × Except (Cause × DWord) (Nat × Nat) :=
  let cs := x.coord r e
  let fetch (cs : List Int) : State × Except (Cause × DWord) (Nat × Nat) :=
    match s.engineElem l (x.reader far) r x.base.toNat cs with
    | (s, .error f) => (s, .error f)
    | (s, .ok (c, w)) => (s, .ok (convertElem x.dtab r.fmt r.pfmt c, w))
  let a := u64 (r.elem x.base.toNat cs).1
  if x.inside r cs then fetch cs
  else
    match r.oob with
    | 0 => (s, .ok (0, 0))
    | 1 => (s, .ok (asWritten r.pfmt r.fill, 0))
    | 3 => if x.hollow r then (s, .error (.illegal, a)) else fetch (x.nearest r cs)
    | _ => (s, .error (.illegal, a))

/-- The byte changes of element e: a code of w bits at bit b of an address. -/
def State.patches (s : State) (l e a b w code : Nat) : State × Except (Cause × DWord) (List Patch) :=
  (List.range ((b + w + 7) / 8)).foldl (fun acc j =>
    match acc with
    | (s, .error e) => (s, .error e)
    | (s, .ok ps) =>
      let va := (a + j) % 2 ^ 64
      let mask := (2 ^ w - 1) * 2 ^ b / 2 ^ (8 * j) % 256
      let val := code % 2 ^ w * 2 ^ b / 2 ^ (8 * j) % 256
      match s.resolve l va .wr with
      | (s, .error c) => (s, .error (c, u64 va))
      | (s, .ok (.object _)) => (s, .error (.prot, u64 va))
      | (s, .ok p) => (s, .ok (ps ++ [⟨e, p, va, mask, val⟩]))) (s, .ok [])

/-- One element of a store (R242): the changes of memory it makes, or the failure. -/
def State.storeElem (s : State) (l : Nat) (x : Xfer) (r : LayoutRec) (e : Nat) : State × Except (Cause × DWord) (List Patch) :=
  let cs := x.coord r e
  let (a, b, w) := r.elem x.base.toNat cs
  if x.inside r cs then
    if 8 ≤ w ∧ a % (w / 8) ≠ 0 then (s, .error (.align, u64 a))
    else
      let c := (s.core l).elem r.pfmt (2 * x.poff + e * poolHalves r.pfmt)
      s.patches l e a b w (convertElem x.dtab r.pfmt r.fmt c)
  else if r.oob = 2 then (s, .error (.illegal, u64 a))
  else (s, .ok [])

/-- Elements of a load in order up to the first failure: pool and full bits written, clocks of their lines (R244). -/
def State.loadElems (s : State) (l : Nat) (x : Xfer) (r : LayoutRec) (far : Option FarFail) : List Nat →
    State × Option (Cause × DWord)
  | [] => (s, none)
  | e :: es =>
    match s.loadElem l x r far e with
    | (s, .error f) => (s, some f)
    | (s, .ok (code, w)) =>
      let c := ((s.core l).setElem r.pfmt (2 * x.poff + e * poolHalves r.pfmt) code).raise w
      (s.setCore l c).loadElems l x r far es

/-- The changes of a store's elements in order up to the first failure, with its element. -/
def State.storeElems (s : State) (l : Nat) (x : Xfer) (r : LayoutRec) :
    List Nat → State × List Patch × Option (Nat × Cause × DWord)
  | [] => (s, [], none)
  | e :: es =>
    match s.storeElem l x r e with
    | (s, .error f) => (s, [], some (e, f))
    | (s, .ok ps) =>
      let q := s.storeElems l x r es
      (q.1, ps ++ q.2.1, q.2.2)

/-- The physical byte of a change in module memory. -/
def Patch.pa (p : Patch) : Option Nat :=
  match p.place with
  | .memory a => some a
  | _ => none

/-- Whether a change meets an uncorrectable sector that the changes together do not rewrite whole (R277). -/
def State.patchBad (s : State) (ps : List Patch) (p : Patch) : Bool :=
  match p.pa with
  | none => false
  | some a => s.badAt a && !((List.range 32).all fun j => ps.any fun q => q.pa == some (a / 32 * 32 + j) && q.mask == 255)

/-- A byte changed by the patches at its place, in order. -/
def patchedByte (ps : List Patch) (pl : Place) (b : Byte) : Byte :=
  ps.foldl (fun b p => if p.place = pl then BitVec.ofNat 8 ((b.toNat &&& (255 - p.mask)) ||| p.val) else b) b

/-- Sectors of a line that changes rewrite whole. -/
def wholeSectors (ps : List Patch) (ln : Nat) : List Nat :=
  ((List.range 4).map (4 * ln + ·)).filter fun k =>
    (List.range 32).all fun j => ps.any fun q => q.pa == some (32 * k + j) && q.mask == 255

/-- The address of a place in its space. -/
def Place.addr : Place → Nat
  | .memory a => a
  | .host a => a
  | .object a => a
  | .far _ a => a

/-- The place of another address in the same space. -/
def Place.moved (p : Place) (a : Nat) : Place :=
  match p with
  | .memory _ => .memory a
  | .host _ => .host a
  | .object _ => .object a
  | .far m _ => .far m a

/-- The line that a change lies in, named by its first byte. -/
def Patch.line (p : Patch) : Place := p.place.moved (p.place.addr / 128 * 128)

/-- The lines that changes touch, in the order of the first change of each. -/
def patchLines (ps : List Patch) : List Place := ps.foldl (fun ls p => if ls.contains p.line then ls else ls ++ [p.line]) []

/-- Whether a change is of another module. -/
def Patch.isFar (p : Patch) : Bool :=
  match p.place with
  | .far _ _ => true
  | _ => false

/-- The bytes of a line from the first to the last that changes touch: where they begin, and how many. -/
def spanOn (ps : List Patch) (pl : Place) : Nat × Nat :=
  let js := (List.range 128).filter fun j => ps.any fun p => p.place == pl.moved (pl.addr + j)
  (pl.addr + js.headD 0, js.getLastD 0 + 1 - js.headD 0)

/-- The one store that makes the changes of a line of the host or of another module (R242): its address and bytes. The bits that the
changes keep are free there (log entry 1). -/
def State.spanBytes (s : State) (ps : List Patch) (pl : Place) (m : Nat) : State × Nat × List Byte :=
  let w := spanOn ps pl
  let r := s.freeBytes m w.1 w.2
  (r.1, w.1, r.2.mapIdx fun j b => patchedByte ps (pl.moved (w.1 + j)) b)

/-- The changes of lines made in order, each line as one store (R242): of module memory at its home, of the host by a posted write. Lines of
other modules are left out. The greatest write time comes with it. -/
def State.storePatches (s : State) (ps : List Patch) (p : Nat) : List Place → State × Nat
  | [] => (s, 0)
  | .memory a :: pls =>
    let bs := (List.range 128).map fun j => patchedByte ps (.memory (a + j)) (s.byte (a + j))
    let bad := s.bad.filter fun e => !(wholeSectors ps (a / 128)).contains e.1
    let r := s.storeLine a bs p
    let q := { r.1 with bad := bad }.storePatches ps p pls
    (q.1, max r.2 q.2)
  | .host a :: pls =>
    let r := s.spanBytes ps (.host a) hostModule
    { r.1 with hostOut := r.1.hostOut ++ [HostWrite.data r.2.1 r.2.2] }.storePatches ps p pls
  | _ :: pls => s.storePatches ps p pls

/-- Changes of this module's memory and of the host's made: the greatest write time. -/
def State.makePatches (s : State) (ps : List Patch) (p : Nat) : State × Nat := s.storePatches ps p (patchLines ps)

/-! ### The steps of a transfer (R243, R248) -/

/-- What a queued transfer meets when the tug starts it (R243): the record and the sectors of its block, or the failure. R243 names no
order between a fault of the record's read and a reserved bit or operation 3; the read comes first (DESIGN CHOICE, log entry 44). -/
def State.sizeXfer (s : State) (l : Nat) (x : Xfer) (far : Option FarFail) :
    State × Except (Cause × DWord) (List Byte × Nat) :=
  let ra := u64 x.recAddr
  let reserved := bits x.lay.toNat 2 4 ≠ 0
  if x.op = 2 then
    if reserved ∨ bits x.dst.toNat 0 16 ≠ 0 ∨ bits x.dst.toNat 28 36 ≠ 0 then (s, .error (.illegal, ra))
    else (s, .ok ([], 1))
  else
    match s.engineRec l (x.reader far) x.recAddr with
    | (s, .error e) => (s, .error e)
    | (s, .ok bs) =>
      let (r, ok) := layoutRec bs
      let h := poolHalves r.pfmt
      if ok = false ∨ reserved ∨ x.op = 3 ∨ bits x.poolEnd.toNat 28 36 ≠ 0 then (s, .error (.illegal, ra))
      else if 2 * x.poff % h ≠ 0 then (s, .error (.align, u64 x.poff))
      else if inPool (s.core l).part x.poff r.poolBytes = false then (s, .error (.poolRange, u64 x.poff))
      else (s, .ok (bs, (x.poff % 32 + r.poolBytes + 31) / 32))

/-- A step of a barrier on a core: with its completion check. -/
def State.onBarrier (s : State) (l : Nat) (x : Xfer) (f : Core → Nat → Core) : State :=
  match x.barrier with
  | some b => s.setCore l ((f (s.core l) b).tbComplete b)
  | none => s

/-- A transfer stops, with `y` what it has come to (R243, R248): it withdraws what it has not done and sends TUG to its context. -/
def State.stopXfer (s : State) (l : Nat) (x y : Xfer) (c : Cause) (v : DWord) : State :=
  let s := s.onBarrier l x fun co b =>
    if x.state = .queued then co.tbAnnounce b false else co.tbShrink b (x.sectors - x.landed)
  let s := s.setCore l ((s.core l).setXfer x { y with state := .stopped, fars := [], asked := none })
  s.notify l x.slot (0x0B + x.id * 2 ^ 8 + c.code * 2 ^ 16) v

/-- Whether a change has gone out: its line has been stored to, with the elements up to it. -/
def Xfer.made (x : Xfer) (p : Patch) : Bool := x.lines.any fun e => e.1 == p.line && decide (p.elem < e.2)

/-- The changes that the next pool sector of a store brings to memory (R242, R248): those of its elements, and every other change to the
lines that they touch, so that each line is updated once. `all` holds the changes of the elements in order. -/
def Xfer.dueNow (x : Xfer) (es : List Nat) (all : List Patch) : List Patch :=
  let touched := (all.filter fun p => es.contains p.elem).map Patch.line
  all.filter fun p => touched.contains p.line && !x.made p

/-- What a store still has to change up to an element (R243). -/
def Xfer.dueAll (x : Xfer) (n : Nat) (all : List Patch) : List Patch := all.filter fun p => decide (p.elem < n) && !x.made p

/-- Lines stored to, with the changes `ps` of the elements below n. -/
def Xfer.linesWith (x : Xfer) (ps : List Patch) (n : Nat) : List (Place × Nat) := x.lines ++ (patchLines ps).map fun pl => (pl, n)

/-- The changes of a store's elements, the first of which is checked first, up to the first element of the block that cannot be stored; the
number of elements before it; and its failure. The first n are those that the next sector needs: only they move the state. -/
def State.changes (s : State) (l : Nat) (x : Xfer) (n : Nat) : State × List Patch × Nat × Option (Cause × DWord) :=
  let r := x.rec_
  let q := s.storeElems l x r (List.range n)
  let rest := if q.2.2.isSome then (q.1, [], none) else q.1.storeElems l x r ((List.range r.count).drop n)
  let all := q.2.1 ++ rest.2.1
  match all.find? (q.1.patchBad all) with
  | some p => (if p.elem < n then q.1.report else q.1, all.filter fun c => c.elem < p.elem, p.elem, some (.memErr, u64 p.va))
  | none =>
    match q.2.2 <|> rest.2.2 with
    | some (e, f) => (q.1, all, e, some f)
    | none => (q.1, all, r.count, none)

/-- What the next pool sector of a store has to change (R242, R248), the number of elements that the changes come from, and the failure,
where it lies in this sector; those before a failing element are all performed. -/
def State.sectorChanges (s : State) (l : Nat) (x : Xfer) : State × List Patch × Nat × Option (Cause × DWord) :=
  let es := x.sectorElems x.rec_ x.landed
  let n := es.foldl (fun n e => max n (e + 1)) 0
  let q := s.changes l x n
  if q.2.2.1 < n then (q.1, x.dueAll q.2.2.1 q.2.1, q.2.2.1, q.2.2.2) else (q.1, x.dueNow es q.2.1, q.2.2.1, none)

/-- The next pool sector of a store whose changes of other modules have been made: the state, the greatest write time, the lines now
stored to, and the failure. -/
def State.storeSector (s : State) (l : Nat) (x : Xfer) : State × Nat × List (Place × Nat) × Option (Cause × DWord) :=
  let q := s.sectorChanges l x
  let w := q.1.makePatches q.2.1 x.clock
  (w.1, w.2, x.linesWith q.2.1 q.2.2.1, q.2.2.2)

/-- The elements of the next pool sector (R248): the state, the greatest write time of a store with the lines stored to, and the first
failure. -/
def State.nextSector (s : State) (l : Nat) (x : Xfer) (far : Option FarFail) : State × Nat × List (Place × Nat) × Option (Cause × DWord) :=
  if x.op = 0 then
    let q := s.loadElems l x x.rec_ far (x.sectorElems x.rec_ x.landed)
    (q.1, 0, x.lines, q.2)
  else s.storeSector l x

/-- Whether a transfer has changes of other modules to make before its next sector can land or fail (R244). -/
def State.farDue (s : State) (l : Nat) (x : Xfer) : Bool := x.op == 1 && (s.sectorChanges l x).2.1.any Patch.isFar

/-- The changes of other modules that a sector needs, set out to be made, each line as one store, in the order of the lines' first elements
(R242, R243). -/
def State.setOut (s : State) (l : Nat) (x : Xfer) : State :=
  let q := s.sectorChanges l x
  let fars := q.2.1.filter Patch.isFar
  s.setCore l ((s.core l).setXfer x { x with fars := fars, lines := x.linesWith fars q.2.2.1 })

/-- The next store to another module that a transfer has set out (R242, R244): its line, its module, and the changes. -/
def Xfer.nextFar (x : Xfer) : Option (Place × Nat × List Patch) :=
  match x.fars with
  | [] => none
  | p :: _ =>
    match p.line with
    | .far m a => some (.far m a, m, x.fars.filter fun q => q.line == .far m a)
    | _ => none

/-- The request that stores bytes of a transfer to another module (R244, R332). -/
def State.farStore (s : State) (l : Nat) (x : Xfer) (m a : Nat) (data : List Byte) : Packet :=
  s.request l x.slot 0 m a (s.launchDeadline l) (.store data) 0 (max x.clock s.base)

/-- Whether the next store of a transfer to another module waits for storage of its reply (R340) or for room at its output (R344). -/
def State.farBlocked (s : State) (l : Nat) (x : Xfer) : Bool :=
  match x.nextFar with
  | some (pl, m, ps) =>
    s.repliesFull l || s.outputFull (s.farStore l x m (spanOn ps pl).1 (List.replicate (spanOn ps pl).2 0))
  | none => false

/-- A store stops at element n, which an access of another module failed (R243): the elements before it are performed, then it stops. -/
def State.stopAt (s : State) (l : Nat) (x : Xfer) (n : Nat) (c : Cause) (v : DWord) : State :=
  let q := s.changes l x n
  let due := (x.dueAll n q.2.1).filter fun p => !p.isFar
  let w := q.1.makePatches due x.clock
  w.1.stopXfer l x { x with stored := max x.stored w.2, lines := x.linesWith due n } c v

/-- The next of the stores set out leaves, and awaits its acknowledgement (R244, R332). A module that cannot be reached stops the
transfer. -/
def State.sendFars (s : State) (l : Nat) (x : Xfer) : State :=
  if s.farBlocked l x then s
  else
    match x.nextFar, x.fars with
    | some (pl, m, ps), p :: _ =>
      let r := s.spanBytes ps pl m
      (match r.1.sendPacket (r.1.farStore l x m r.2.1 r.2.2) with
      | none => s.stopAt l x p.elem .remote (u64 p.va)
      | some t =>
        { t with serial := t.serial + 1 }.setCore l ((t.core l).setXfer x
          { x with asked := some (t.serial, p.va, p.elem), fars := x.fars.filter fun q => q.line != pl }))
    | _, _ => s

/-- The acknowledgement of a transfer's store to another module (R244, R331): its timestamp is kept, or the transfer stops at the store's
first element. -/
def State.tugReply (s : State) (r : Reply) (x : Xfer) (va n : Nat) : State :=
  if r.status = 0 then
    s.setCore r.core ((s.core r.core).setXfer x { x with stored := max x.stored r.clock, asked := none })
  else s.stopAt r.core x n (causeOf r.status) (u64 va)

/-- The table image of a table load (R25, R242): the whole image, or the failure. -/
def State.tableImage (s : State) (l : Nat) (x : Xfer) (far : Option FarFail) : State × EngineRead :=
  s.engineBytes l (x.reader far) x.src.toNat 1024

/-- A transfer of a core that is queued or sized, by id. -/
def State.activeXfer (s : State) (l id : Nat) : Option Xfer := (s.core l).xfers.find? fun x => x.id == id && x.active

def execTugSize (l id : Nat) (s : State) : Out :=
  match s.activeXfer l id with
  | none => .next s
  | some x =>
    whenOn (x.state == .queued) s fun s =>
      match s.sizeXfer l x none with
      | (_, .error _) => .next s
      | (s, .ok (bs, n)) =>
        let s := s.setCore l ((s.core l).setXfer x { x with state := .sized, record := bs, sectors := n })
        .next (s.onBarrier l x fun c b => (c.tbAnnounce b false).tbGrow b n)

/-- One sector lands (R248); the last one completes the transfer. -/
def State.landed (s : State) (l : Nat) (x : Xfer) (w : Nat) (lines : List (Place × Nat)) : State :=
  let n := x.landed + 1
  let y := { x with landed := n, stored := max x.stored w, lines := lines, state := if n = x.sectors then XState.complete else .sized }
  (s.setCore l ((s.core l).setXfer x y)).onBarrier l x fun c b => c.tbShrink b 1

def execTugSectorLand (l id : Nat) (s : State) : Out :=
  match s.activeXfer l id with
  | none => .next s
  | some x =>
    whenOn (x.state == .sized && x.op != 2 && x.asked.isNone) s fun s =>
      if x.fars ≠ [] then .next (s.sendFars l x)
      else if s.farDue l x then .next (s.setOut l x)
      else
        match s.nextSector l x none with
        | (s', w, ls, none) => .next (s'.landed l x w ls)
        | (_, _, _, some _) => .next s

def execTugTableLoad (l id : Nat) (s : State) : Out :=
  match s.activeXfer l id with
  | none => .next s
  | some x =>
    whenOn (x.state == .sized && x.op == 2) s fun s =>
      match s.tableImage l x none with
      | (_, .error _) => .next s
      | (s, .ok (bs, w)) =>
        let t := (List.range 256).foldl (fun t c => setTabEntry t c (u32 (leNat ((bs.drop (4 * c)).take 4)))) []
        .next ((s.setCore l { (s.core l).raise w with dtab := t }).landed l x 0 x.lines)

/-- The stop of a transfer at its failing element (R243); `far` is the access of another module that fails, if one does. -/
def execTugStop (l id : Nat) (far : Option FarFail) (s : State) : Out :=
  match s.activeXfer l id with
  | none => .next s
  | some x =>
    match x.state, x.op with
    | .queued, _ =>
      (match s.sizeXfer l x far with
      | (s', .error (c, v)) => .next (s'.stopXfer l x x c v)
      | _ => .next s)
    | _, 2 =>
      (match s.tableImage l x far with
      | (s', .error (c, v)) => .next (s'.stopXfer l x x c v)
      | _ => .next s)
    | _, _ =>
      match x.asked, far with
      | some (_, va, n), some f => .next (s.stopAt l x n (causeOfCode f.code) (u64 va))
      | some _, none => .next s
      | none, _ =>
        if x.fars ≠ [] || s.farDue l x then .next s
        else
          match s.nextSector l x far with
          | (s', w, ls, some (c, v)) => .next (s'.stopXfer l x { x with stored := max x.stored w, lines := ls } c v)
          | _ => .next s

/-! ### Replies (R264, R271) -/

/-- Whether a reply answers the store that a transfer has sent to another module (R334): its TAG and SERIAL. -/
def Xfer.awaits (x : Xfer) (r : Reply) : Bool :=
  r.slot == x.slot && r.entry == 0 && match x.asked with
    | some a => sameSerial a.1 r.serial
    | none => false

/-- A reply arrives (R264, R271): a home's to the access it answers, or another module's to its request entry or to the tug. -/
def execMemoryReply (r : Reply) (s : State) : Out :=
  match s.reqs.find? fun q => q.answer == some r with
  | some q =>
    let s := { s with reqs := s.reqs.erase q }
    let s := if r.entry < 16 then s.freed r.core r.slot r.entry r.serial else s
    if s.awaits q.lid q.slot q.since = false then .next s
    else if s.reqs.any (fun x => x.sameDiscard q) then
      .next (s.raise r.core r.clock)
    else replyTo r.core r.slot r (fun _ _ => r.data) (fun _ => if q.op.stores then none else some (.memory q.pa)) s
  | none =>
    match (s.core r.core).xfers.find? (·.awaits r) with
    | some x =>
      let a := x.asked.getD (0, 0, 0)
      .next (s.tugReply r x a.2.1 a.2.2)
    | none => if r.entry < 16 then farReply r s else .next s

end Sys2Proof.Machine
end

