-- ==== Sys2Proof/Machine/Yoke.lean ====
section
/-! DEFINITION. The yoke (R222 to R239): leases, commands, jobs and their units. -/

namespace Sys2Proof.Machine

/-! ### Leases (R222 to R224) -/

/-- The cores of a team. -/
def teamCores (t : Nat) : List Nat := (List.range 8).map (8 * t + ·)

/-- Entries of a team's job queue that are occupied or reserved (R222). -/
def State.yokeLoad (s : State) (t : Nat) : Nat :=
  (teamCores t).foldl (fun n l =>
    n + ((s.core l).jobs.filter fun j => j.state == .queued).length +
      ((List.range 4).foldl (fun m k => m + ((s.slotAt l k).lease).getD 0) 0)) 0

def execYlease (n : Nat) (s : State) : Out :=
  inGroup 2 (fun s =>
    let s' : State := s.setSlot { s.slot with lease := none, yask := some n }
    .next (s'.waiting false false true (.ylease n))) s

def execYfree (s : State) : Out := inGroup 2 (fun s => done (s.setSlot { s.slot with lease := none })) s

/-- The oldest waiting request of a core: its slot and wait. -/
def Core.oldestAsk (c : Core) : Option (Nat × Wait × Nat) :=
  (List.range 4).foldl (fun best k =>
    match (c.slot k).wait, (c.slot k).yask with
    | some w, some n =>
      (match best with
      | some (_, v, _) => if w.since < v.since then some (k, w, n) else best
      | none => some (k, w, n))
    | _, _ => best) none

/-- The request that the yoke considers (R223): the oldest of the first core at or after the grant pointer that has one. -/
def State.nextAsk (s : State) (t : Nat) : Option (Nat × Nat × Wait × Nat) :=
  ((List.range 8).map fun i => (i + (s.team t).ygrant) % 8).findSome? fun i =>
    ((s.core (8 * t + i)).oldestAsk).map fun (k, w, n) => (8 * t + i, k, w, n)

/-- Whether the yoke can grant the request it considers. -/
def State.canGrant (s : State) (t : Nat) : Bool :=
  match s.nextAsk t with
  | some (_, _, _, n) => s.yokeLoad t + n ≤ 16
  | none => false

def execYokeLeaseGrant (t : Nat) (s : State) : Out :=
  match s.nextAsk t with
  | none => .next s
  | some (l, k, w, n) =>
    whenOn (s.canGrant t) s fun s =>
      let s := s.setTeam t { s.team t with ygrant := (l % 8 + 1) % 8 }
      done ((s.setSlotAt l k { s.slotAt l k with lease := some n, yask := none }).resume l k w)

/-! ### Commands (R225) -/

/-- A lease with one command accepted. -/
def Slot.spend (x : Slot) : Slot :=
  { x with lease := match x.lease with
      | some n => if n ≤ 1 then none else some (n - 1)
      | none => none }

/-- A yoke command (R225): the group, NOLEASE, the form's own checks, then `f`. -/
def yokeCommand (check : State → Option (Cause × DWord)) (f : State → Out) (s : State) : Out :=
  inGroup 2 (fun s =>
    if s.slot.lease = none then trap .noLease (u64 s.issue.word) s
    else
      match check s with
      | some (c, v) => trap c v s
      | none => f s) s

/-- A job accepted (R225): its record, NEXTID, the lease and YJOB. -/
def State.acceptJob (s : State) (kind : YKind) (blk : List Byte) : State :=
  let c := s.me
  let x := s.slot
  let j : YJob := { id := c.nextJob, kind := kind, state := .queued, progress := 0, fmt := c.yfmt, block := blk, dtab := c.dtab,
                    slot := s.issue.slot, serial := (x.task.map (·.serial)).getD 0, flags := 0, clock := c.pts, sbuf := x.sbuf, recs := none }
  let c := { c with nextJob := idNext c.nextJob, jobs := trim (fun j => j.state != .complete) 16 (c.jobs ++ [j]) }
  let s := s.setMe c
  s.setSlot { x.spend with yjob := u32 j.id }

/-- AFMT (R227). -/
def fmtA (w : Word) : Nat := bits w.toNat 0 5

/-- BFMT. -/
def fmtB (w : Word) : Nat := bits w.toNat 5 5

/-- OFMT. -/
def fmtO (w : Word) : Nat := bits w.toNat 10 5

/-- The check of an accumulator offset (R233, R237). -/
def accCheck (part : Word) (c : Nat) : Option (Cause × DWord) :=
  if c % 256 ≠ 0 then some (.align, u64 c)
  else if inAcc part c 1024 = false then some (.poolRange, u64 c)
  else none

/-- The first failing check of a list. -/
def firstCheck (l : List (Option (Cause × DWord))) : Option (Cause × DWord) := l.findSome? id

/-- The check of 16 rows of n bytes from o with a distance in bytes, each aligned (R232, R233). -/
def rowsCheck (part : Word) (o r al n : Nat) : Option (Cause × DWord) :=
  firstCheck ((List.range 16).map fun i => poolCheck part (o + i * r : Nat) al n)

/-- Whole bytes of a pool element, at least one. -/
def poolAlign (f : Nat) : Nat := max (poolHalves f / 2) 1

def execYfmt (d : Nat) (s : State) : Out :=
  inGroup 2 (fun s =>
    let v := s.g d
    if bits v.toNat 17 15 ≠ 0 ∨ 0x0A < fmtA v ∨ 0x0A < fmtB v ∨ 0x0A < fmtO v then trap .illegal (u64 v.toNat) s
    else doneWr (s.setMe { s.me with yfmt := v }) d s.me.yfmt) s

/-- Word i of an operand block. -/
def blockWord (bs : List Byte) (i : Nat) : Nat := leNat ((bs.drop (4 * i)).take 4)

/-- The row stride of a pool A (R229). -/
def rowStride (bs : List Byte) (f n : Nat) : Nat := if blockWord bs 1 = 0 then 16 * n * poolHalves f / 2 else blockWord bs 1

/-- The checks of a `ymma` at acceptance (R233). -/
def ymmaCheck (ra rb : Bool) (d r : Nat) (s : State) : Option (Cause × DWord) :=
  let v := (s.g d).toNat
  let n := bits v 16 8
  let f := s.me.yfmt
  let o := Z (s.g r)
  let bs := Map.getList 0 s.me.pool o 32
  if bits v 24 8 ≠ 0 ∨ n = 0 ∨ (rb = false ∧ 2 < n) then some (.illegal, u64 v)
  else firstCheck [
    accCheck s.part (bits v 0 16), poolCheck s.part o 32 32,
    if ra then none
    else rowsCheck s.part (blockWord bs 0) (rowStride bs (fmtA f) n) (poolAlign (fmtA f)) (16 * n * poolHalves (fmtA f) / 2),
    if ra || bits f.toNat 15 1 == 0 then none
    else rowsCheck s.part (blockWord bs 2) (blockWord bs 3) 1 ((n + 1) / 2)]

/-- A `ymma` form. -/
def ymma (ra rb : Bool) (d r : Nat) (s : State) : Out :=
  yokeCommand (ymmaCheck ra rb d r) (fun s =>
    let v := (s.g d).toNat
    done (s.acceptJob (.mma ra rb (bits v 16 8) (bits v 0 16)) (Map.getList 0 s.me.pool (Z (s.g r)) 32))) s

def execYmma (d n : Nat) (s : State) : Out := ymma false false d n s
def execYmmaRa (d n : Nat) (s : State) : Out := ymma true false d n s
def execYmmaRb (d n : Nat) (s : State) : Out := ymma false true d n s
def execYmmaRr (d n : Nat) (s : State) : Out := ymma true true d n s

def execYzero (d : Nat) (s : State) : Out :=
  yokeCommand (fun s => accCheck s.part (Z (s.g d))) (fun s => done (s.acceptJob (.zero (Z (s.g d))) [])) s

def execYst (d n : Nat) (s : State) : Out :=
  yokeCommand (fun s => firstCheck [accCheck s.part (Z (s.g n)),
      poolCheck s.part (Z (s.g d)) 4 (128 * poolHalves (fmtO s.me.yfmt))])
    (fun s => done (s.acceptJob (.store (Z (s.g n)) (Z (s.g d))) [])) s

/-! ### The latch (R232) -/

/-- Whether a job reads the latch and has not ended. -/
def YJob.readsLatch (j : YJob) : Bool := j.state == .queued && (match j.kind with | .mma _ rb _ _ => !rb | _ => false)

/-- A latch tile as 16 rows of f19 words. -/
def latchTile (t : Nat) (rows : List (List Word)) (m : Map Word) : Map Word := Map.setList 0 m (256 * t) rows.flatten

def execYldb (d n t : Nat) (s : State) : Out :=
  inGroup 2 (fun s =>
    let f := fmtB s.me.yfmt
    let o := Z (s.g d)
    let r := Z (s.g n)
    match rowsCheck s.part o r (poolAlign f) (8 * poolHalves f) with
    | some (c, v) => trap c v s
    | none =>
      if s.me.jobs.any YJob.readsLatch then block (.yldb d n t) s
      else
        let c := s.me
        let rows := (List.range 16).map fun i => (List.range 16).map fun k =>
          exactB32 (toF19 c.dtab f (c.elem f (2 * (o + i * r) + k * poolHalves f)))
        done (s.setMe { c with latch := latchTile t rows c.latch })) s

/-- Whether a core takes part in its team's rotations (R232). -/
def Core.rotates (c : Core) : Bool := c.queue.isSome && !c.exited && c.forward.isNone && !c.swapped

/-- The oldest slot of a core that waits in `yrot`, other than slot k. -/
def Core.rotator (c : Core) (k : Option Nat) : Option (Nat × Wait) :=
  (List.range 4).foldl (fun best i =>
    match (c.slot i).wait with
    | some w =>
      if w.instr = .yrot ∧ some i ≠ k then
        (match best with
        | some (_, v) => if w.since < v.since then some (i, w) else best
        | none => some (i, w))
      else best
    | none => best) none

/-- The latches of a team rotated (R232). -/
def State.rotate (s : State) (t : Nat) : State :=
  (List.range 8).foldl (fun s' i => s'.setCore (8 * t + i) { s'.core (8 * t + i) with latch := (s.core (8 * t + (i + 7) % 8)).latch }) s

/-- The waiting `yrot` of a core ends with the rotation. -/
def State.rotated (s : State) (l : Nat) : State :=
  match (s.core l).rotator none with
  | some (k, w) => let s' := s.resume l k w; { s'.finish s'.next with issue := s.issue }
  | none => s

def execYrot (s : State) : Out :=
  inGroup 2 (fun s =>
    let l := s.issue.lid
    let t := l / 8
    let older := match s.me.rotator (some s.issue.slot), s.issue.since with
      | some (_, w), some n => w.since < n
      | some _, none => true
      | none, _ => false
    let peers := (teamCores t).filter fun p => p != l && (s.core p).rotates
    if older || peers.any (fun p => ((s.core p).rotator none).isNone) ||
        (teamCores t).any (fun p => (s.core p).jobs.any YJob.readsLatch) then block .yrot s
    else done (peers.foldl State.rotated (s.rotate t))) s

/-! ### The state of jobs (R238) -/

/-- The job of an id, among the 16 most recent commands (R225). -/
def Core.jobOf (c : Core) (id : Nat) : Option YJob := (recent 16 c.jobs).find? fun j => j.id == id

/-- A job's record replaced. -/
def Core.setJob (c : Core) (j j' : YJob) : Core := { c with jobs := c.jobs.map fun x => if x = j then j' else x }

/-- The state code of `ypoll`. -/
def YState.code : YState → Nat
  | .complete => 0
  | .queued => 1
  | .stopped => 2

def execYwait (d : Nat) (s : State) : Out :=
  inGroup 2 (fun s =>
    match s.me.jobOf (Z (s.g d) % 256) with
    | some j => if j.state = .queued then block (.ywait d) s else done s
    | none => done s) s

def execYpoll (d : Nat) (s : State) : Out :=
  inGroup 2 (fun s => doneWr s d (u32 (((s.me.jobOf (Z (s.g d) % 256)).map (·.state.code)).getD 0))) s

def execYprog (d : Nat) (s : State) : Out :=
  inGroup 2 (fun s =>
    match s.me.jobOf (Z (s.g d) % 256) with
    | some j => doneWr s d (u32 (j.progress + j.state.code * 2 ^ 8))
    | none => doneWr s d (u32 (2 ^ 10))) s

/-- `yres` (R238): a stopped job is completed, or goes on with loads that act as its issuing context's at this moment (R236; which context
that is, log entry 22). -/
def execYres (d : Nat) (s : State) : Out :=
  yokeCommand (fun s => if bits (Z (s.g d)) 9 23 ≠ 0 then some (.illegal, u64 (Z (s.g d))) else none) (fun s =>
    match s.me.jobOf (Z (s.g d) % 256) with
    | none => doneWr s d 1
    | some j =>
      if j.state ≠ .stopped then doneWr s d 1
      else
        let j' := if bits (Z (s.g d)) 8 1 = 1 then { j with state := .complete }
          else { j with state := .queued, clock := s.me.pts, sbuf := (s.me.slot j.slot).sbuf, dtab := s.me.dtab, recs := none }
        let s := s.setMe (s.me.setJob j j')
        doneWr (s.setSlot { s.slot.spend with yjob := u32 j.id }) d 0) s

/-! ### The units of the yoke (R226, R233 to R237) -/

/-- The oldest command of a core that has not completed, if it may run: a stopped one holds the later ones back (R226). -/
def Core.readyJob (c : Core) : Option YJob :=
  match c.jobs.find? fun j => j.state != .complete with
  | some j => if j.state = .queued then some j else none
  | none => none

/-- The flags of a job delivered to the context that issued it, if its task still occupies the context (R235). -/
def State.deliverFlags (s : State) (l : Nat) (j : YJob) : State :=
  let x := s.slotAt l j.slot
  if (x.task.map (·.serial)) = some j.serial then s.setSlotAt l j.slot (x.flags j.flags.toNat) else s

/-- A job completes with its progress. -/
def State.jobDone (s : State) (l : Nat) (j : YJob) (p : Nat) : State :=
  (s.setCore l ((s.core l).setJob j { j with state := .complete, progress := p })).deliverFlags l j

/-- The core of a team that the yoke serves next (R226): the first from its pointer on whose oldest command is ready. -/
def State.yokeTurn (s : State) (t : Nat) : Option Nat :=
  ((List.range 8).map fun i => 8 * t + (i + (s.team t).yserved) % 8).find? fun l => (s.core l).readyJob.isSome

/-- The job that the yoke works on next, if it is a core's turn (R226). -/
def State.turnJob (s : State) (l : Nat) : Option YJob := if s.yokeTurn (l / 8) = some l then (s.core l).readyJob else none

/-- The yoke has served a core and goes on to the next one (R226). -/
def State.served (s : State) (l : Nat) : State := s.setTeam (l / 8) { s.team (l / 8) with yserved := (l % 8 + 1) % 8 }

/-- What a read of the yoke answers. -/
abbrev Fetched (α : Type) := State × Except (Cause × DWord) α

/-- How the yoke reads for a job: as a load of its context at the acceptance or resume (R236); `far` is the read of another module that
fails, if one does. -/
def YJob.reader (j : YJob) (far : Option FarFail) : Reader := { clock := j.clock, sbuf := j.sbuf, far := far }

/-- The codes of remote elements in order, with the greatest write time. -/
def State.remoteElems (s : State) (l : Nat) (v : Reader) (r : LayoutRec) (base : Nat) : List (List Int) → Fetched (List Nat × Nat)
  | [] => (s, .ok ([], 0))
  | x :: xs =>
    match s.engineElem l v r base x with
    | (s, .error e) => (s, .error e)
    | (s, .ok (c, w)) =>
      match s.remoteElems l v r base xs with
      | (s, .error e) => (s, .error e)
      | (s, .ok (cs, w')) => (s, .ok (c :: cs, max w w'))

/-- Scale bytes at addresses in order. -/
def State.remoteScales (s : State) (l : Nat) (v : Reader) : List Nat → Fetched (List Nat × Nat)
  | [] => (s, .ok ([], 0))
  | a :: as =>
    match s.engineRead l v a 1 with
    | (s, .error e) => (s, .error e)
    | (s, .ok (b, w)) =>
      match s.remoteScales l v as with
      | (s, .error e) => (s, .error e)
      | (s, .ok (bs, w')) => (s, .ok (leNat b :: bs, max w w'))

/-- A double word of an operand block. -/
def blockDouble (bs : List Byte) (i : Nat) : Nat := leNat ((bs.drop (8 * i)).take 8)

/-- The layout record of a remote part read and checked (R233, R234): its address and the format it must have. -/
def State.operandRec (s : State) (l : Nat) (v : Reader) (a f : Nat) : Fetched (List Byte) :=
  match s.engineRec l v a with
  | (s, .error e) => (s, .error e)
  | (s, .ok bs) =>
    let (r, ok) := layoutRec bs
    if ok && 2 ≤ r.rank && r.fmt == f then (s, .ok bs) else (s, .error (.illegal, u64 a))

/-- The layout records of a job's remote parts, A before B (R233). -/
def State.operandRecs (s : State) (l : Nat) (far : Option FarFail) (j : YJob) (ra rb : Bool) : Fetched (List (List Byte)) :=
  match j.recs with
  | some rs => (s, .ok rs)
  | none =>
    let a : Fetched (List (List Byte)) :=
      if ra then
        match s.operandRec l (j.reader far) (blockDouble j.block 1) (fmtA j.fmt) with
        | (s, .error e) => (s, .error e)
        | (s, .ok r) => (s, .ok [r])
      else (s, .ok [[]])
    match a with
    | (s, .error e) => (s, .error e)
    | (s, .ok rs) =>
      if rb then
        match s.operandRec l (j.reader far) (blockDouble j.block 3) (fmtB j.fmt) with
        | (s, .error e) => (s, .error e)
        | (s, .ok r) => (s, .ok (rs ++ [r]))
      else (s, .ok (rs ++ [[]]))

/-- Cut into rows of 16. -/
def rows16 {α : Type} (xs : List α) : List (List α) := (List.range 16).map fun i => (xs.drop (16 * i)).take 16

/-- The operands of a k-step: A and B as f19 values, the scale bytes, the greatest write time read, and the records. -/
structure YOperands where
  a : List (List FVal)
  b : List (List FVal)
  sa : List Nat
  sb : List Nat
  wts : Nat
  recs : List (List Byte)
  deriving DecidableEq, Repr

/-- Row and position of 256 elements in order, as the coordinates (k0 + position, row). -/
def coordsA (k0 : Nat) : List (List Int) :=
  (List.range 256).map fun (e : Nat) => [((k0 + e % 16 : Nat) : Int), ((e / 16 : Nat) : Int)]

/-- The coordinates of B's elements in order: (j, k0 + row). -/
def coordsB (k0 : Nat) : List (List Int) :=
  (List.range 256).map fun (e : Nat) => [((e % 16 : Nat) : Int), ((k0 + e / 16 : Nat) : Int)]

/-- The operands of a job's next k-step, or the first failure of R234. -/
def State.kOperands (s : State) (l : Nat) (far : Option FarFail) (j : YJob) (ra rb : Bool) (n : Nat) : Fetched YOperands :=
  let c := s.core l
  let k0 := 16 * j.progress
  let blk := k0 / 32
  let fa := fmtA j.fmt
  let fb := fmtB j.fmt
  let h := poolHalves fa
  match s.operandRecs l far j ra rb with
  | (s, .error e) => (s, .error e)
  | (s, .ok rs) =>
    let ra' := (layoutRec (rs.getD 0 [])).1
    let rb' := (layoutRec (rs.getD 1 [])).1
    let baseA := blockDouble j.block 0
    let baseB := blockDouble j.block 2
    let qa : Fetched (List Nat × Nat) :=
      if ra then s.remoteElems l (j.reader far) ra' baseA (coordsA k0)
      else (s, .ok ((List.range 256).map (fun e =>
        c.elem fa (2 * (blockWord j.block 0 + e / 16 * rowStride j.block fa n) + (k0 + e % 16) * h)), 0))
    match qa with
    | (s, .error e) => (s, .error e)
    | (s, .ok (as, w1)) =>
      let qb : Fetched (List FVal × Nat) :=
        if rb then
          match s.remoteElems l (j.reader far) rb' baseB (coordsB k0) with
          | (s, .error e) => (s, .error e)
          | (s, .ok (bs, w)) => (s, .ok (bs.map (toF19 j.dtab fb), w))
        else (s, .ok ((Map.getList 0 c.latch (256 * j.progress) 256).map fval, 0))
      match qb with
      | (s, .error e) => (s, .error e)
      | (s, .ok (bs, w2)) =>
        let ones := List.replicate 16 127
        let scales (on rem : Bool) (r : LayoutRec) (base : Nat) (pool : List Nat) (s : State) : Fetched (List Nat × Nat) :=
          if on = false then (s, .ok (ones, 0))
          else if rem then
            s.remoteScales l (j.reader far) ((List.range 16).map fun (i : Nat) => (w64 (base + r.soff + i * r.sstr + blk)).toNat)
          else (s, .ok (pool, 0))
        match scales (j.fmt.getLsbD 15) ra ra' baseA
            ((List.range 16).map fun i => c.ld (blockWord j.block 2 + i * blockWord j.block 3 + blk) 1) s with
        | (s, .error e) => (s, .error e)
        | (s, .ok (sa, w3)) =>
          match scales (j.fmt.getLsbD 16 && rb) true rb' baseB [] s with
          | (s, .error e) => (s, .error e)
          | (s, .ok (sb, w4)) =>
            (s, .ok ⟨rows16 (as.map (toF19 j.dtab fa)), rows16 bs, sa, sb, max (max w1 w2) (max w3 w4), rs⟩)

/-- A value multiplied exactly by 2^k. -/
def FVal.scale (v : FVal) (k : Int) : FVal :=
  match v with
  | .fin n m e => .fin n m (e + k)
  | v => v

/-- One accumulator element after a k-step (R41), with the flags raised. -/
def kElement (acc : Word) (row col : List FVal) (sa sb : Nat) : Word × Nat :=
  let ps := List.zipWith mulVals row col
  let t := sumVals .ne (ps.map (·.1))
  let fl := ps.foldl (fun f p => f ||| p.2) t.2
  let v := if sa = 255 ∨ sb = 255 then FVal.nan false else t.1.scale ((sa : Int) + sb - 254)
  let r := roundB32 .ne (v, fl)
  let a := fAdd .ne acc r.1
  (a.1, r.2 ||| a.2)

/-- The accumulator at offset c after a k-step, with its full bits and the flags raised (R41, R236). -/
def Core.kUpdate (co : Core) (c : Nat) (o : YOperands) : Core × Nat :=
  let out := (List.range 256).map fun e =>
    let i := e / 16
    let j := e % 16
    kElement (co.ldw (c + 4 * e)) (o.a.getD i []) (o.b.map fun r => r.getD j (.nan false)) (o.sa.getD i 127) (o.sb.getD j 127)
  (((co.stBytes c (out.flatMap fun p => leBytes p.1.toNat 4)).setFulls c true 256).raise o.wts,
    out.foldl (fun f p => f ||| p.2) 0)

def execKstep (l : Nat) (s : State) : Out :=
  match s.turnJob l with
  | none => .next s
  | some j =>
    match j.kind with
    | .mma ra rb n c =>
      (match s.kOperands l none j ra rb n with
      | (_, .error _) => .next s
      | (s, .ok o) =>
        let (co, fl) := (s.core l).kUpdate c o
        let j' := { j with progress := j.progress + 1, flags := j.flags ||| u32 fl, recs := some o.recs }
        let s := (s.setCore l (co.setJob j j')).served l
        .next (if n ≤ j'.progress then s.jobDone l j' j'.progress else s))
    | _ => .next s

def execYzeroJob (l : Nat) (s : State) : Out :=
  match s.turnJob l with
  | none => .next s
  | some j =>
    match j.kind with
    | .zero c =>
      let co := ((s.core l).stBytes c (List.replicate 1024 0)).setFulls c true 256
      .next ((s.setCore l co).served l |>.jobDone l j 1)
    | _ => .next s

/-- A tile written by `yst` (R237): the core and the flags raised. -/
def Core.storeTile (co : Core) (j : YJob) (c o : Nat) : Core × Nat :=
  let f := fmtO j.fmt
  let codes := (List.range 256).map fun e => encodeElem j.dtab f (co.ldw (c + 4 * e))
  (((codes.mapIdx fun e p => (e, p.1)).foldl (fun co p => co.setElem f (2 * o + p.1 * poolHalves f) p.2) co),
    codes.foldl (fun fl p => fl ||| p.2) 0)

def execYstJob (l : Nat) (s : State) : Out :=
  match s.turnJob l with
  | none => .next s
  | some j =>
    match j.kind with
    | .store c o =>
      let (co, fl) := (s.core l).storeTile j c o
      let j' := { j with flags := u32 fl }
      .next ((s.setCore l (co.setJob j j')).served l |>.jobDone l j' 1)
    | _ => .next s

/-- The stop of a job (R234); `far` is the read of another module that fails, if one does. -/
def execYokeJobStop (l : Nat) (far : Option FarFail) (s : State) : Out :=
  match s.turnJob l with
  | none => .next s
  | some j =>
    match j.kind with
    | .mma ra rb n _ =>
      (match s.kOperands l far j ra rb n with
      | (s', .error (c, v)) =>
        let s := s'.setCore l ((s'.core l).setJob j { j with state := .stopped, flags := 0, recs := none })
        .next (((s.deliverFlags l j).served l).notify l j.slot (0x0A + j.id * 2 ^ 8 + c.code * 2 ^ 16) v)
      | _ => .next s)
    | _ => .next s

end Sys2Proof.Machine
end

