-- ==== Sys2Proof/Machine/Special.lean ====
section
/-! DEFINITION. Special registers (R69 to R71): `mfs` and `mts`, with the effects of SDH (R118), RVH (R125) and KGO (R240). -/

namespace Sys2Proof.Machine

/-- What the index of a special register answers when read, bits [63:32] being 0 of a 32-bit one (R69). -/
def State.special (s : State) (n : Nat) : Nat :=
  let x := s.slot
  let c := s.me
  match n with
  | 0x000 => x.stat.toNat
  | 0x001 => x.tcause.toNat
  | 0x002 => x.tval.toNat
  | 0x003 => x.tepc.toNat
  | 0x004 => x.tstat.toNat
  | 0x005 => x.tvec.toNat
  | 0x008 => x.fst.toNat
  | 0x010 => c.pts
  | 0x011 => s.issue.lid
  | 0x012 => c.part.toNat
  | 0x025 => x.sdh.toNat
  | 0x02D => x.rvh.toNat
  | 0x030 => c.cvres.toNat
  | 0x031 => c.cvcnt.toNat
  | 0x032 => c.cvthr.toNat
  | 0x038 => x.yjob.toNat
  | 0x040 => x.ksrc.toNat
  | 0x041 => x.kdst.toNat
  | 0x042 => x.klay.toNat
  | 0x043 => x.kbase.toNat
  | 0x050 => c.cutid.toNat
  | n =>
    if 0x020 ≤ n ∧ n ≤ 0x024 then (s.sd (n - 0x020)).toNat
    else if 0x028 ≤ n ∧ n ≤ 0x02C then (Map.get 0 x.rv (n - 0x028) : Word).toNat
    else if 0x044 ≤ n ∧ n ≤ 0x047 then (Map.get 0 x.kext (n - 0x044) : Word).toNat
    else 0

/-- The effect of a write that a special register takes (R8, R69): the registers marked RO keep their values. STAT keeps its reserved
bits 0, and TVEC its bit 0 (R190); FST its reserved bits (R39). -/
def State.setSpecial (s : State) (n v : Nat) : State :=
  let x := s.slot
  let c := s.me
  match n with
  | 0x000 => if statMode x.stat = 1 then s.setSlot { x with stat := u32 (v % 2 ^ 6) } else s
  | 0x001 => s.setSlot { x with tcause := u32 v }
  | 0x002 => s.setSlot { x with tval := u64 v }
  | 0x003 => s.setSlot { x with tepc := u64 v }
  | 0x004 => s.setSlot { x with tstat := u32 v }
  | 0x005 => s.setSlot { x with tvec := u64 (v / 2 * 2) }
  | 0x008 => s.setSlot { x with fst := u32 (v % 2 ^ 5) }
  | 0x030 => s.setMe { c with cvres := u32 v }
  | 0x031 => s.setMe { c with cvcnt := u32 v }
  | 0x032 => s.setMe { c with cvthr := u32 v }
  | 0x040 => s.setSlot { x with ksrc := u64 v }
  | 0x041 => s.setSlot { x with kdst := u64 v }
  | 0x042 => s.setSlot { x with klay := u64 v }
  | 0x043 => s.setSlot { x with kbase := u64 v }
  | n =>
    if 0x020 ≤ n ∧ n ≤ 0x024 then s.setSlot { x with sd := Map.set 0 x.sd (n - 0x020) (u32 v) }
    else if 0x044 ≤ n ∧ n ≤ 0x047 then s.setSlot { x with kext := Map.set 0 x.kext (n - 0x044) (u32 v) }
    else s

/-- The privilege check of an index (R69, R71): TCAUSE, TVAL, TEPC, TSTAT and TVEC are not reached in U. -/
def onSpecial (n : Nat) (f : State → Out) (s : State) : Out := if 1 ≤ n ∧ n ≤ 5 then inS f s else f s

/-- The operand of `mfs` written from a value (R70). -/
def State.wrSpecial (s : State) (x d v : Nat) : State :=
  match x with
  | 0 => s.wr d (u32 v)
  | 1 => s.wr d (u32 (v / 2 ^ 32))
  | _ => s.wra d (u64 v)

/-- The value that `mts` gives a register that held `old` (R70). -/
def State.specialIn (s : State) (x d old : Nat) : Nat :=
  match x with
  | 0 => old / 2 ^ 32 * 2 ^ 32 + (s.g d).toNat
  | 1 => old % 2 ^ 32 + 2 ^ 32 * (s.g d).toNat
  | _ => (s.a d).toNat

/-- `mfs ad, %rvh` (R125). -/
def takeFlit (x d : Nat) (s : State) : Out :=
  let c := s.me
  match c.inboxes with
  | [] => trap .prot 0x02D s
  | b :: bs =>
    match (b :: bs).find? fun h => 1 ≤ (c.handle h).ready with
    | none => block (.mfs x d 0x02D) s
    | some m =>
      let h := c.handle m
      let o := h.entry h.head
      let v := u64 (c.ld o 8)
      let rv := Map.setList 0 [] 0 [c.ldw (o + 12), c.ldw (o + 16), c.ldw (o + 20), c.ldw (o + 24), c.ldw (o + 28)]
      let s := s.setMe (c.setHandle m { h with head := h.head + 1 })
      done ((s.setSlot { s.slot with rv := rv, rvh := v }).wra d v)

/-- `mts %sdh, ad` (R118). -/
def sendHeader (x d : Nat) (s : State) : Out :=
  let h := (s.a d).toNat
  let k := bits h 21 3
  let f := bits h 0 16
  if 3 ≤ k then trap .prot (u64 h) s
  else if bits h 16 3 ≠ 0 then trap .illegal (u64 h) s
  else if k = 0 ∧ 16 ≤ f then trap .illegal (u64 h) s
  else if k = 2 ∧ (f < 1 ∨ 10 < f) then trap .illegal (u64 h) s
  else
    let h' := h / 2 ^ 44 * 2 ^ 44 + s.issue.lid * 2 ^ 24 + h % 2 ^ 24
    let fl := Flit.ofHeader h' 0 (s.sd 0) (s.sd 1) (s.sd 2) (s.sd 3) (s.sd 4)
    let sent (s : State) : Out := done (s.setSlot { s.slot with sdh := u64 h' })
    if k = 2 then sendClause (.mts x d 0x025) fl s sent else sendThen (.mts x d 0x025) fl s sent

def execMfs (x d n : Nat) (s : State) : Out :=
  onSpecial n (fun s =>
    match n with
    | 0x02D => takeFlit x d s
    | 0x048 =>
      (match s.kgo with
      | .error (c, v) => trap c v s
      | .ok (s, id) => done (s.wrSpecial x d id))
    | n => done (s.wrSpecial x d (s.special n))) s

def execMts (x d n : Nat) (s : State) : Out :=
  onSpecial n (fun s =>
    match n with
    | 0x025 => sendHeader x d s
    | n => done (s.setSpecial n (s.specialIn x d (s.special n)))) s

end Sys2Proof.Machine
end

