-- ==== Sys2Proof/Machine/Gauss.lean ====
section
/-! DEFINITION. The Gaussian, slot, belief, convergence and factor-dispatch forms (R132 to R150). -/

namespace Sys2Proof.Machine

/-! ### Gaussian forms (R132 to R137) -/

/-- A pair form: λ and η with their flags to g[d], g[d+1] (R132). -/
def doneP (s : State) (d : Nat) (r : Word × Word × Nat) : Out := done (((s.wr d r.1).wr (d + 1) r.2.1).flags r.2.2)

def execGcomb (d n : Nat) (s : State) : Out :=
  inGroup 1 (fun s =>
    let l := fAdd .ne (s.g d) (s.g n)
    let h := fAdd .ne (s.g (d + 1)) (s.g (n + 1))
    doneP s d (l.1, h.1, l.2 ||| h.2)) s

def execGsplit (d n : Nat) (s : State) : Out :=
  inGroup 1 (fun s =>
    let l := fSub .ne (s.g d) (s.g n)
    let h := fSub .ne (s.g (d + 1)) (s.g (n + 1))
    doneP s d (l.1, h.1, l.2 ||| h.2)) s

/-- The word 1.0. -/
def oneW : Word := 0x3F800000#32

/-- The damping of R134: new and old components, with the factor. -/
def damped (dm ln hn lo ho : Word) : Word × Word × Nat :=
  let e := fSub .ne oneW dm
  let t := fMul .ne e.1 lo
  let u := fMul .ne e.1 ho
  let l := fMulAdd .ne false false dm ln t.1
  let h := fMulAdd .ne false false dm hn u.1
  (l.1, h.1, e.2 ||| t.2 ||| u.2 ||| l.2 ||| h.2)

def execGdamp (d n : Nat) (s : State) : Out :=
  inGroup 1 (fun s => doneP s d (damped (s.g (n + 2)) (s.g d) (s.g (d + 1)) (s.g n) (s.g (n + 1)))) s

/-- The linear factor of R135: the incoming message (λi, ηi) and the factor (Λ, z). -/
def linear (li hi la z : Word) : Word × Word × Nat :=
  let sm := fAdd .ne la li
  let p := fMul .ne la la
  let q := fDiv .ne p.1 sm.1
  let lo := fSub .ne la q.1
  let t := fMul .ne la z
  let u := fSub .ne hi t.1
  let v := fMul .ne la u.1
  let w := fDiv .ne v.1 sm.1
  let ho := fAdd .ne t.1 w.1
  (lo.1, ho.1, sm.2 ||| p.2 ||| q.2 ||| lo.2 ||| t.2 ||| u.2 ||| v.2 ||| w.2 ||| ho.2)

def execGlin (d n : Nat) (s : State) : Out :=
  inGroup 1 (fun s => doneP s d (linear (s.g d) (s.g (d + 1)) (s.g n) (s.g (n + 1)))) s

def execGmean (d n : Nat) (s : State) : Out :=
  inGroup 1 (fun s =>
    let m := fDiv .ne (s.g (n + 1)) (s.g n)
    let v := fDiv .ne oneW (s.g n)
    doneP s d (m.1, v.1, m.2 ||| v.2)) s

def execGinfo (d n : Nat) (s : State) : Out :=
  inGroup 1 (fun s =>
    let l := fDiv .ne oneW (s.g (n + 1))
    let h := fDiv .ne (s.g n) (s.g (n + 1))
    doneP s d (l.1, h.1, l.2 ||| h.2)) s

/-- The residual of R137. -/
def residual (ld hd ls hs : Word) : Word × Nat :=
  if (fval ld).isZero || (fval ls).isZero then (0x7F800000#32, 0)
  else
    let a := fDiv .ne hd ld
    let b := fDiv .ne hs ls
    let r := fSub .ne a.1 b.1
    (r.1 &&& 0x7FFFFFFF#32, a.2 ||| b.2 ||| r.2)

def execGresd (d n : Nat) (s : State) : Out :=
  inGroup 1 (fun s => doneF s d (residual (s.g d) (s.g (d + 1)) (s.g n) (s.g (n + 1)))) s

/-! ### Slots (R138 to R145) -/

/-- SBASE of the variable record at o (R44). -/
def Core.sbase (c : Core) (o : Nat) : Nat := c.ld (o + 0x14) 2

/-- SCNT. -/
def Core.scnt (c : Core) (o : Nat) : Nat := c.ld (o + 0x16) 2

/-- VFLG. -/
def Core.vflg (c : Core) (o : Nat) : Nat := c.ld (o + 0x1C) 4

/-- The offset of slot i. -/
def Core.slotOff (c : Core) (o i : Nat) : Nat := c.sbase o + 16 * i

/-- SST of a slot record (R45). -/
def Core.sst (c : Core) (p : Nat) : Nat := c.ld (p + 12) 4

/-- Whether a slot is retired. -/
def Core.retired (c : Core) (p : Nat) : Bool := bits (c.sst p) 31 1 == 1

/-- EPOCH of a slot. -/
def Core.epoch (c : Core) (p : Nat) : Nat := bits (c.sst p) 16 8

/-- The checks of R139 in their order, over the slots that the form names or reads; B3 is given for a slot form. -/
def recordCheck (part : Word) (c : Core) (o : Nat) (b3 : Option Nat) : Option (Cause × DWord) :=
  let i := bits (b3.getD 0) 0 16
  let slots := if b3.isSome then [i] else List.range (c.scnt o)
  let bad (n v : Nat) : Option (Cause × DWord) := some (.slot, u64 (n * 2 ^ 32 + v))
  if o % 32 ≠ 0 then some (.align, u64 o)
  else if inPool part o 32 = false then some (.poolRange, u64 o)
  else if c.sbase o % 16 ≠ 0 then some (.align, u64 o)
  else if 0x6000 < c.sbase o + 16 * c.scnt o ∨ slots.any (fun k => !inPool part (c.slotOff o k) 16) then
    some (.poolRange, u64 o)
  else if bits (c.vflg o) 0 1 = 0 then bad 1 o
  else if bits (c.vflg o) 2 30 ≠ 0 then bad 2 o
  else if b3.isSome ∧ c.scnt o ≤ i then bad 3 i
  else
    match slots.find? fun k => bits (c.sst (c.slotOff o k)) 24 7 != 0 with
    | some k => bad 4 (c.slotOff o k)
    | none => if bits (b3.getD 0) 24 8 ≠ 0 then bad 5 (b3.getD 0) else none

/-- A slot form: the record's offset o, the slot's offset p and the epoch e, after the checks. -/
def slotForm (d n : Nat) (f : Nat → Nat → Nat → State → Out) (s : State) : Out :=
  inGroup 1 (fun s =>
    let o := Z (s.g n)
    let b3 := Z (s.g (d + 3))
    match recordCheck s.part s.me o (some b3) with
    | some (c, v) => trap c v s
    | none => f o (s.me.slotOff o (bits b3 0 16)) (bits b3 16 8) s) s

/-- A late message counts in SLDISC (R140). -/
def Core.late (c : Core) : Core := { c with sldisc := sat32W c.sldisc }
where
  sat32W (w : Word) : Word := if w = 0xFFFFFFFF#32 then w else w + 1

/-- A slot form's status to B3. -/
def doneSt (s : State) (d st : Nat) : Out := doneWr s (d + 3) (u32 st)

def execSlget (d n : Nat) (s : State) : Out :=
  slotForm d n (fun _ p e s =>
    let c := s.me
    let st := if c.retired p then 2 else if c.epoch p ≠ e then 3 else 0
    if st = 0 ∧ c.ld (p + 8) 4 < Z (s.g (d + 2)) then block (.slget d n) s
    else done (s.wrs d [c.ldw p, c.ldw (p + 4), c.ldw (p + 8), u32 st])) s

/-- The delivery of a message by `slput` (R141), field by field in the written order: the core and the flags raised. -/
def Core.slput (c : Core) (o p : Nat) (l h v : Word) : Core × Nat :=
  let m : Word × Word × Nat :=
    if bits (c.vflg o) 1 1 = 1 ∧ c.ldw (p + 8) ≠ 0 then damped (c.ldw (o + 0x10)) l h (c.ldw p) (c.ldw (p + 4)) else (l, h, 0)
  let dl := fSub .ne m.1 (c.ldw p)
  let dh := fSub .ne m.2.1 (c.ldw (p + 4))
  let bl := fAdd .ne (c.ldw (o + 8)) dl.1
  let c := c.stw (o + 8) bl.1
  let bh := fAdd .ne (c.ldw (o + 12)) dh.1
  (((((c.stw (o + 12) bh.1).stw p m.1).stw (p + 4) m.2.1).stw (p + 8) v).setFulls p true 4,
    m.2.2 ||| dl.2 ||| dh.2 ||| bl.2 ||| bh.2)

def execSlput (d n : Nat) (s : State) : Out :=
  slotForm d n (fun o p e s =>
    let c := s.me
    if c.retired p then doneSt (s.setMe c.late) d 2
    else if c.epoch p ≠ e then doneSt (s.setMe c.late) d 3
    else if Z (s.g (d + 2)) ≤ c.ld (p + 8) 4 then doneSt s d 1
    else
      let r := c.slput o p (s.g d) (s.g (d + 1)) (s.g (d + 2))
      doneSt ((s.setMe r.1).flags r.2) d 0) s

/-- The retirement of a slot (R143), field by field in the written order: the core and the flags raised. -/
def Core.slret (c : Core) (o p : Nat) : Core × Nat :=
  let bl := fSub .ne (c.ldw (o + 8)) (c.ldw p)
  let c := c.stw (o + 8) bl.1
  let bh := fSub .ne (c.ldw (o + 12)) (c.ldw (p + 4))
  let c := c.stw (o + 12) bh.1
  (c.stw (p + 12) (c.ldw (p + 12) ||| 0x80000000#32), bl.2 ||| bh.2)

def execSlret (d n : Nat) (s : State) : Out :=
  slotForm d n (fun o p e s =>
    let c := s.me
    if c.retired p then doneSt s d 2
    else if c.epoch p ≠ e then doneSt s d 3
    else
      let r := c.slret o p
      doneSt ((s.setMe r.1).flags r.2) d 0) s

def execSlnew (d n : Nat) (s : State) : Out :=
  slotForm d n (fun _ p e s =>
    let c := s.me
    if c.retired p = false then doneSt s d 4
    else if c.epoch p = e then doneSt s d 3
    else
      let c := (((c.stw p 0).stw (p + 4) 0).stw (p + 8) 0).stw (p + 12) (u32 (e * 2 ^ 16 + Z (s.g (d + 2)) % 2 ^ 16))
      doneSt (s.setMe c) d 0) s

/-- The live slots of a list added to the belief of the record at o, one after another (R145): the core and the flags raised. -/
def Core.addSlots (c : Core) (o fl : Nat) : List Nat → Core × Nat
  | [] => (c, fl)
  | i :: is =>
    let p := c.slotOff o i
    if c.retired p then c.addSlots o fl is
    else
      let l := fAdd .ne (c.ldw (o + 8)) (c.ldw p)
      let c := c.stw (o + 8) l.1
      let h := fAdd .ne (c.ldw (o + 12)) (c.ldw (p + 4))
      (c.stw (o + 12) h.1).addSlots o (fl ||| l.2 ||| h.2) is

/-- The belief of the record at o recomputed (R145): the prior, then the live slots in order, then VER; with the flags raised. -/
def Core.belief (c : Core) (o : Nat) : Core × Nat :=
  let n := c.scnt o
  let c := c.stw (o + 8) (c.ldw o)
  let r := (c.stw (o + 12) (c.ldw (o + 4))).addSlots o 0 (List.range n)
  (r.1.stw (o + 0x18) (r.1.ldw (o + 0x18) + 1), r.2)

def execBelief (d : Nat) (s : State) : Out :=
  inGroup 1 (fun s =>
    let o := Z (s.g d)
    match recordCheck s.part s.me o none with
    | some (c, v) => trap c v s
    | none =>
      let r := s.me.belief o
      doneWr ((s.setMe r.1).flags r.2) d (r.1.ldw (o + 0x18))) s

/-! ### Convergence (R146 to R149) -/

/-- A core after `cvupd` of a residual (R147). -/
def Core.cvupd (c : Core) (x : Word) : Core :=
  let nan := (fval x).isNan
  let r := if nan then qnan else if !(fval c.cvres).isNan && ltVal (fval c.cvres) (fval x) then x else c.cvres
  let passed := nan || (!(fval c.cvthr).isNan && ltVal (fval c.cvthr) (fval x))
  { c with cvres := r, cvcnt := if passed && c.cvcnt != 0xFFFFFFFF#32 then c.cvcnt + 1 else c.cvcnt }

def execCvupd (d : Nat) (s : State) : Out := inGroup 1 (fun s => done (s.setMe (s.me.cvupd (s.g d)))) s

def execCvrd (d : Nat) (s : State) : Out :=
  inGroup 1 (fun s =>
    let v := Z (s.g d)
    let c := s.me
    let clear := bits v 31 1 = 1
    if bits v 8 23 ≠ 0 then trap .illegal (u64 v) s
    else if 5 ≤ bits v 0 8 then trap .illegal (u64 s.issue.word) s
    else
      match bits v 0 8 with
      | 0 => doneWr s d c.cvres
      | 1 => doneWr s d c.cvcnt
      | 2 => doneWr (if clear then s.setMe { c with sldisc := 0 } else s) d c.sldisc
      | 3 => doneWr (if clear then s.setMe { c with blost := 0 } else s) d c.blost
      | _ => doneWr s d c.cvwin) s

/-- The window of a core handed to the rein tree (R149, R177). -/
def State.closeWindow (s : State) (l : Nat) : State :=
  let c := s.core l
  let s := s.setCore l { c with cvres := 0, cvcnt := 0, cvwin := c.cvwin + 1 }
  match c.queue with
  | none => s
  | some q =>
    match (s.queue q).launch with
    | none => s
    | some la =>
      let w : Closed := { index := c.index, win := c.cvwin.toNat, res := c.cvres, cnt := c.cvcnt.toNat }
      s.setQueue q { s.queue q with launch := some { la with closed := la.closed ++ [w] } }

def execCvclr (s : State) : Out := inGroup 1 (fun s => done (s.closeWindow s.issue.lid)) s

end Sys2Proof.Machine
end

