-- ==== Sys2Proof/Machine/Tasks.lean ====
section
/-! DEFINITION. Tasks (R153 to R172): the dispatcher, the task forms, graph nodes, clauses (R129 to R131) and remote pool atomics
at their owner (R270). -/

namespace Sys2Proof.Machine

/-! ### Graph nodes (R170 to R172) -/

/-- A graph node of a core. -/
def Core.node (c : Core) (n : Nat) : Node := Map.get Node.empty c.nodes n

/-- A core with a graph node replaced. -/
def Core.setNode (c : Core) (n : Nat) (x : Node) : Core := { c with nodes := Map.set Node.empty c.nodes n x }

/-- The run-queue entry of a node task. -/
def Node.entry (x : Node) : QEntry :=
  { kind := .local, level := x.prio, start := x.start, args := x.words, flit := none, uid := 0, tag := 0, serial := 0 }

/-- A node fires if it is armed and its count is at or below 0 (R170). -/
def Core.fire (c : Core) (n : Nat) : Core :=
  let x := c.node n
  if x.arm && x.cnt ≤ 0 then
    if c.queueFull then c.setNode n { x with arm := false, pend := true }
    else (c.setNode n { x with arm := false }).enqueue x.entry
  else c

/-- A signal acts on a node (R172). -/
def Core.signal (c : Core) (n : Nat) : Core :=
  let x := c.node n
  (c.setNode n { x with cnt := max (x.cnt - 1) (-32768) }).fire n

/-- The lowest-numbered pending node enters an entry that frees (R170). -/
def Core.settleNodes (c : Core) : Core :=
  match (List.range 32).find? fun n => (c.node n).pend with
  | some n => if c.queueFull then c else (c.setNode n { c.node n with pend := false }).enqueue (c.node n).entry
  | none => c

def execNode (d n : Nat) (s : State) : Out :=
  let v := Z (s.g d)
  let k := bits v 0 5
  if bits v 5 3 ≠ 0 ∨ bits v 18 14 ≠ 0 then trap .illegal (u64 v) s
  else if (s.a n).toNat % 2 = 1 then trap .align (s.a n) s
  else
    let c := s.me
    let x := c.node k
    if x.arm || x.pend then doneWr s d 1
    else
      let y : Node := { arm := true, cnt := max (x.cnt + bits v 8 8) (-32768), pend := false, start := s.a n,
                        words := argWords (s.g 0) (s.g 1) (s.g 2) (s.g 3), prio := bits v 16 2 }
      doneWr (s.setMe ((c.setNode k y).fire k)) d 0

def execSig (d : Nat) (s : State) : Out :=
  let v := Z (s.g d)
  let n := bits v 27 5
  let c := bits v 0 20
  if bits v 20 7 ≠ 0 then trap .illegal (u64 s.issue.word) s
  else if c = s.issue.lid then done (s.setMe (s.me.signal n))
  else
    sendThen (.sig d) { s.flitTo (u32 c) .system (0x0200 + n) 0 0 0 0 0 with pri := statPri s.slot.stat } s done

def execSigDelivery (f : Flit) (s : State) : Out :=
  whenOn (f.kind == .system && f.cls == 0 && f.ksf / 256 == 2) s fun s =>
    arrive f (fun _ => none) plainBounce (fun s _ =>
      let s := s.hear f
      s.setCore f.dst ((s.core f.dst).signal (f.ksf % 32))) s

/-! ### Task forms (R163 to R169) -/

/-- STAT.INL written. -/
def Slot.inl (x : Slot) (b : Bool) : Slot := { x with stat := setBits x.stat 2 1 b.toNat }

/-- IMAGE of the executing launch. -/
def State.image (s : State) : DWord := ((s.launchOf s.issue.lid).map (·.image)).getD 0

/-- The child runs inline (R164, R165): INL, a7 and the transfer of control. -/
def runInline (a : DWord) (s : State) : Out := .next ((s.setSlot (s.slot.inl true) |>.wra 7 s.next).finish a)

/-- `spawn` ends with a status (R164): queued, or the child inline. -/
def spawned (d n st : Nat) (s : State) : Out :=
  let a := s.a n
  if st = 0 then doneWr (s.setSlot (s.slot.inl false)) d 0 else runInline a (s.wr d (u32 st))

/-- A local task of the executing context (R165). -/
def State.taskEntry (s : State) (kind : QKind) (p : Nat) (a : DWord) : QEntry :=
  { kind := kind, level := p, start := a, args := argWords (s.g 0) (s.g 1) (s.g 2) (s.g 3), flit := none, uid := s.me.uid, tag := 0,
    serial := 0 }

/-- `spawn` (R164). Its flit carries the priority p of the form, as the pseudocode of R164 writes it, where R169 speaks of the task's own
(DESIGN CHOICE, log entry 39). -/
def execSpawn (d n p : Nat) (s : State) : Out :=
  let a := s.a n
  let c := bits (Z (s.g d)) 0 20
  let o : Int := (a.toNat : Int) - s.image.toNat
  if a.toNat % 2 = 1 then trap .align a s
  else if o < 0 ∨ 2 ^ 32 ≤ o then trap .prot a s
  else if c = s.issue.lid then
    if s.me.queueFull then spawned d n 6 s
    else spawned d n 0 (s.setMe (s.me.enqueue (s.taskEntry .spawn p a)))
  else if s.portOpen s.issue.lid true then
    let f : Flit := { dst := c, src := s.issue.lid, kind := .system, pri := p, cls := 0, ksf := 0x0100 + p, low := 0,
                      w0 := w32 o, w1 := s.g 0, w2 := s.g 1, w3 := s.g 2, w4 := s.g 3 }
    let s1 := s.inject s.issue.lid f (s.issue.slot * 16) s.serial
    .next ({ s1 with serial := s.serial + 1 }.waiting false true true (.spawn d n p))
  else blockAside (.spawn d n p) s

def execTask (n p : Nat) (s : State) : Out :=
  let a := s.a n
  if a.toNat % 2 = 1 then trap .align a s
  else if s.me.queueFull then runInline a s
  else
    let s' := s.setMe (s.me.enqueue (s.taskEntry .local p a))
    done (s'.setSlot (s'.slot.inl false))

def execDone (s : State) : Out := .next (s.endTask s.issue.lid s.issue.slot)

/-- `exit` (R167): it waits for the core's stores, then ends the core's part. -/
def execExit (s : State) : Out :=
  if s.coreSettled s.issue.lid then .next ((s.endTask s.issue.lid s.issue.slot).exitCore s.issue.lid) else block .exit s

/-- The events of R168. -/
def Core.events (c : Core) : Nat :=
  let mail : Bool := c.inboxes.any fun h => 1 ≤ (c.handle h).ready
  let bounced : Bool := match c.bmbx with
    | some h => 1 ≤ (c.handle h).ready
    | none => false
  mail.toNat + 2 * bounced.toNat + 4 * c.cut.complete.toNat

def execWaite (d : Nat) (s : State) : Out :=
  let v := Z (s.g d)
  if v = 0 ∨ 8 ≤ v then trap .illegal (u64 v) s
  else if s.me.events &&& v = 0 then block (.waite d) s
  else doneWr s d (u32 (s.me.events &&& v))

def execPri (n : Nat) (s : State) : Out := done (s.setSlot { s.slot with stat := setBits s.slot.stat 3 2 n })

/-! ### Spawns between cores (R164) -/

/-- The system reply of a spawn or of `fwdset` that has left the mesh, sent by the router of the core that it answers for; its KSF and
payload are presumed (log entry 14). -/
def State.systemReply (s : State) (x : InFlight) (ksf st : Nat) (tag : Nat) : State :=
  let f := x.flit
  let r : Flit := { dst := f.src, src := f.dst, kind := .system, pri := f.pri, cls := 1, ksf := ksf, low := 0,
                    w0 := u32 st, w1 := 0, w2 := 0, w3 := 0, w4 := 0 }
  s.emitFrom (s.bouncer f) f.dst r x.uid tag x.serial

def execSpawnRequest (f : Flit) (s : State) : Out :=
  whenOn (f.kind == .system && f.cls == 0 && f.ksf / 256 == 1) s fun s =>
    match s.inFlight f with
    | none => .next s
    | some x =>
      let c := f.dst
      let reply (s : State) (st : Nat) : State := s.systemReply x f.ksf st x.tag
      if s.arrivalHeld f then .next s
      else
        match s.fate c x.uid with
        | .bounce st => s.logFlit c x fun s => .next (reply (s.land x) st)
        | .spill _ => .next (reply (s.land x) 9)
        | .forward t => .next (s.forwardTo x t)
        | .here =>
          s.logFlit c x fun s =>
            if (s.core c).queueFull then .next (reply (s.land x) 6)
            else
              let s := ((s.land x).countIn c x).hear f
              let im := ((s.launchOf c).map (·.image)).getD 0
              let e : QEntry := { kind := .spawn, level := f.pri, start := im + u64 f.w0.toNat,
                                  args := argWords f.w1 f.w2 f.w3 f.w4, flit := some f, uid := x.uid, tag := x.tag,
                                  serial := x.serial }
              .next (reply (s.setCore c ((s.core c).enqueue e)) 0)

def execSpawnReply (f : Flit) (s : State) : Out :=
  whenOn (f.kind == .system && f.cls == 1 && f.ksf / 256 == 1) s fun s =>
    match s.inFlight f with
    | none => .next s
    | some x =>
      let c := f.dst
      let k := x.tag / 16
      match s.fate c x.uid with
      | .spill q => s.spillFlit q f fun s => .next (s.land x)
      | _ =>
        let s := (s.land x).hear f
        let co := s.core c
        let s := if f.w0 ≠ 0 then s.setCore c { co with crecv := co.crecv + 1 } else s
        match (s.slotAt c k).wait with
        | none => .next s
        | some w =>
          match w.instr with
          | .spawn d n _ => spawned d n f.w0.toNat (s.resume c k w)
          | _ => .next s

/-! ### The dispatcher (R155, R157 to R160) -/

/-- Whether an entry is a clause for R159: a clause, or a remote pool atomic (R270). -/
def QEntry.isClause (e : QEntry) : Bool := e.kind == .clause || e.kind == .atomic

/-- The oldest entry of the highest level among those of a sort (R158, R159). -/
def pickEntry (sort : QEntry → Bool) (q : List QEntry) : Option QEntry :=
  [3, 2, 1, 0].findSome? fun v => q.find? fun e => sort e && e.level == v

/-- Aging (R160): the oldest entry below the highest occupied level moves up one level. -/
def ageQueue (q : List QEntry) : List QEntry :=
  let h := q.foldl (fun m e => max m e.level) 0
  match q.findIdx? fun e => e.level < h with
  | some i => q.mapIdx fun j e => if j = i then { e with level := e.level + 1 } else e
  | none => q

/-- An entry leaves the run queue, which counts as a dispatch (R160), and a pending node may enter (R170). -/
def Core.dequeue (c : Core) (e : QEntry) : Core :=
  let age := (c.age + 1) % 256
  let q := c.runq.erase e
  { c with runq := if age = 0 then ageQueue q else q, age := age }.settleNodes

/-- Whether the run queue is open (R157) on a core that executes. -/
def Core.open_ (c : Core) : Bool := c.queue.isSome && !c.exited && !c.swapped && c.forward.isNone && c.entryOver

/-- The task that the dispatcher would take (R158). -/
def Core.nextTask (c : Core) : Option QEntry := if c.open_ then pickEntry (fun e => !e.isClause) c.runq else none

/-- Free slots of a core. -/
def Core.freeSlots (c : Core) : List Nat := (List.range (partC c.part)).filter fun k => (c.slot k).st == .free

/-- The origin of a queued task. -/
def QKind.origin (q : QKind) : Origin :=
  match q with
  | .call => Origin.call
  | .spawn => Origin.spawn
  | .service => Origin.service
  | .update m sh b st => Origin.update m sh b st
  | _ => Origin.local

/-- A slot with a task dispatched into it (R155, R190) at a priority. -/
def Slot.dispatch (x : Slot) (o : Origin) (serial : Nat) (prio : Nat) (start : DWord) (args : Map Word) : Slot :=
  { x with
    st := .ready, task := some { origin := o, serial := serial }, pc := start, fst := 0, stat := u32 (8 * prio), wait := none,
    stepDue := none, regs := Map.setList 0 x.regs 0 (Map.getList 0 args 0 4), aregs := Map.set 0 x.aregs 7 END, loaded := false,
    half := none }

/-- A task enters a slot at the level that its entry has now, aged or not (DESIGN CHOICE, log entry 38); a service task performs its
trap of R199. -/
def State.dispatchTo (s : State) (l k : Nat) (e : QEntry) : State :=
  let x := (s.slotAt l k).dispatch e.kind.origin s.serial e.level e.start (if e.kind = .service then [] else e.args)
  let s : State := { s with serial := s.serial + 1 }
  let s := s.setSlotAt l k x
  match e.kind, e.flit with
  | .service, some f =>
    s.takeTrap l k (u32 Cause.soft.code) (u64 (f.w0.toNat + 2 ^ 32 * (f.w1.toNat % 2 ^ 16))) END
  | _, _ => s

/-- One of several slots, freely chosen where there is more than one (log entry 4). -/
def State.pickSlot (s : State) (ks : List Nat) : State × Nat :=
  match ks with
  | [k] => (s, k)
  | ks => let r := s.choose ks.length; (r.1, ks.getD r.2 0)

def execTaskDispatch (l : Nat) (s : State) : Out :=
  match (s.core l).nextTask, (s.core l).freeSlots with
  | some e, k :: ks =>
    let (s, j) := s.pickSlot (k :: ks)
    .next ((s.setCore l ((s.core l).dequeue e)).dispatchTo l j e)
  | _, _ => .next s

/-! ### Clauses (R129 to R131) -/

/-- The meaning of an instruction of the clause subset (R130). -/
def clauseMeaning (i : Instr) : Option (State → Out) :=
  match i with
  | .add d n t => some (execAdd d n t)
  | .sub d n t => some (execSub d n t)
  | .mul d n t => some (execMul d n t)
  | .mulh d n t => some (execMulh d n t)
  | .and d n t => some (execAnd d n t)
  | .or d n t => some (execOr d n t)
  | .xor d n t => some (execXor d n t)
  | .andn d n t => some (execAndn d n t)
  | .shl d n t => some (execShl d n t)
  | .shr d n t => some (execShr d n t)
  | .sra d n t => some (execSra d n t)
  | .ror d n t => some (execRor d n t)
  | .div d n t => some (execDiv d n t)
  | .divz d n t => some (execDivz d n t)
  | .rem d n t => some (execRem d n t)
  | .remz d n t => some (execRemz d n t)
  | .min d n t => some (execMin d n t)
  | .max d n t => some (execMax d n t)
  | .minz d n t => some (execMinz d n t)
  | .maxz d n t => some (execMaxz d n t)
  | .slt d n t => some (execSlt d n t)
  | .sltz d n t => some (execSltz d n t)
  | .seq d n t => some (execSeq d n t)
  | .sne d n t => some (execSne d n t)
  | .mulhz d n t => some (execMulhz d n t)
  | .clz d n => some (execClz d n)
  | .ctz d n => some (execCtz d n)
  | .popc d n => some (execPopc d n)
  | .brev d n => some (execBrev d n)
  | .sextB d n => some (execSextB d n)
  | .sextH d n => some (execSextH d n)
  | .zextB d n => some (execZextB d n)
  | .zextH d n => some (execZextH d n)
  | .satsB d n => some (execSatsB d n)
  | .satsH d n => some (execSatsH d n)
  | .satzB d n => some (execSatzB d n)
  | .satzH d n => some (execSatzH d n)
  | .mov d n => some (execMov d n)
  | .li d imm => some (execLi d imm)
  | .addi d imm => some (execAddi d imm)
  | .andi d imm => some (execAndi d imm)
  | .ori d imm => some (execOri d imm)
  | .xori d imm => some (execXori d imm)
  | .shli d imm => some (execShli d imm)
  | .shri d imm => some (execShri d imm)
  | .srai d imm => some (execSrai d imm)
  | .slti d imm => some (execSlti d imm)
  | .ldp z d n imm => some (execLdp z d n imm)
  | .ldpBS z d n imm => some (execLdpBS z d n imm)
  | .stp z d n imm => some (execStp z d n imm)
  | .ldpq d n imm => some (execLdpq d n imm)
  | .stpq d n imm => some (execStpq d n imm)
  | .stpf d n imm => some (execStpf d n imm)
  | .sete d n imm => some (execSete d n imm)
  | .tstf d n imm => some (execTstf d n imm)
  | .hadv d h => some (execHadv d h)
  | .hpub d h => some (execHpub d h)
  | .hfree d h => some (execHfree d h)
  | .hcnt d h => some (execHcnt d h)
  | _ => none

/-- The pool offset and core registers of a remote pool atomic's fields (R66). -/
def Instr.poolFields : Instr → Option (Nat × Nat × Int)
  | .amaddRemote _ _ n t imm | .amandRemote _ _ n t imm | .amorRemote _ _ n t imm | .amxorRemote _ _ n t imm
  | .amminRemote _ _ n t imm | .ammaxRemote _ _ n t imm | .amminzRemote _ _ n t imm | .ammaxzRemote _ _ n t imm
  | .amswpRemote _ _ n t imm | .amcasRemote _ _ n t imm | .amfaddRemote _ n t imm => some (n, t, imm)
  | _ => none

/-- A local atomic of a clause (R130): performed on the core's own pool. -/
def localAtomic (op : AtOp) (w : Bool) (d n : Nat) (imm : Int) (s : State) : Out :=
  let o := (Z (s.g n) : Int) + imm
  match poolCheck s.part o (atomSize w) (atomSize w) with
  | some (c, v) => trap c v s
  | none =>
    let r := s.me.poolAtomic op w o.toNat (s.atomOperand op w d)
    done ((s.setMe r.1).wrOld op w d (leNat r.2))

/-- What a clause's instruction does on the core (R130): none outside the subset. -/
def clauseStep (i : Instr) (s : State) : Option (State → Out) :=
  match clauseMeaning i with
  | some f => some f
  | none =>
    match i.poolAtomic, Instr.poolFields i with
    | some (op, w, d), some (n, t, imm) =>
      if bits (Z (s.g t)) 0 20 = s.issue.lid then some (localAtomic op w d n imm) else none
    | _, _ => none

/-- Whether the prefix of an instruction is one a clause may hold: `xpage` with payload 0 or 3 (R130). -/
def clausePages (ws : List Nat) : Bool := ws.all fun w => w / 1024 != 0x3E || w % 1024 == 0 || w % 1024 == 3

/-- How a clause ends: the state, and the status with the cause and count of R127, or none if it ran to its end. -/
abbrev ClauseEnd := State × Option (Nat × Nat × Nat)

/-- A clause's instructions from `ws` on (R129, R131); `n` bounds their number and `m` counts those completed. -/
def State.runClause (s : State) : Nat → Nat → List Nat → ClauseEnd
  | _, _, [] => (s, none)
  | 0, _, _ => (s, none)
  | n + 1, m, ws =>
    match decodeWords ws with
    | .error _ => (s, some (7, 0, m))
    | .ok (i, rest) =>
      let used := ws.take (ws.length - rest.length)
      if clausePages used = false ∨ i.fits 16 (partH s.part) = false then (s, some (7, 0, m))
      else
        match clauseStep i s with
        | none => (s, some (7, 0, m))
        | some f =>
          match f s with
          | .next t =>
            let c := t.slot.tcause.toNat
            if c = 0 then t.runClause n (m + 1) rest else (s, some (8, c, m))
          | _ => (s, some (7, 0, m))

/-- The words of a clause flit (R120). -/
def clauseWords (f : Flit) : List Nat := (wordsOf f.payload).take f.ksf

/-- An acknowledgement or reply to a request flit (R270, R271). -/
def State.replyFlit (s : State) (f : Flit) (uid tag serial : Nat) (w0 w1 : Word) : State :=
  s.emit f.dst { dst := f.src, src := f.dst, kind := .reply, pri := f.pri, cls := 1,
                 ksf := tag / 16 * 2 ^ 14 + tag % 16 * 2 ^ 10, low := 0, w0 := w0, w1 := w1, w2 := 0, w3 := 0, w4 := 0 } uid tag serial

/-- A clause that core l has stopped is bounced (R127, R131). -/
def State.bounceClause (s : State) (l : Nat) (f : Flit) (e : QEntry) (st cause m : Nat) : State :=
  s.launchFlit (bounceOf f st cause m) (some (l / 8)) e.uid e.tag e.serial

def execClauseExecute (l : Nat) (s : State) : Out :=
  let c := s.core l
  match (if c.open_ then pickEntry QEntry.isClause c.runq else none) with
  | none => .next s
  | some e =>
    match e.kind, e.flit with
    | .clause, some f =>
      let old := s.issue
      let s := s.setCore l (c.setSlot clauseSlot { Slot.empty with st := .ready, regs := Map.set 0 [] 0 (u32 f.src) })
      let i : Issue := { lid := l, slot := clauseSlot, start := 0, length := 0, word := 0, stepping := false, since := none }
      let r := { s with issue := i }.runClause 10 0 (clauseWords f)
      let s := { r.1.setCore l (((r.1.core l).setSlot clauseSlot Slot.empty).dequeue e) with issue := old }
      let s := s.replyFlit { f with dst := l } e.uid e.tag e.serial 0 0
      .next (match r.2 with
        | none => s
        | some (st, cause, m) => s.bounceClause l f e st cause m)
    | _, _ => .next s

def execRemoteAtomicExecute (l : Nat) (s : State) : Out :=
  let c := s.core l
  match (if c.open_ then pickEntry QEntry.isClause c.runq else none) with
  | none => .next s
  | some e =>
    match e.kind, e.flit with
    | .atomic, some f =>
      let s := s.raise l (s.clockOf f)
      let (op, w, o, operand) := poolRequest f
      let r := (s.core l).poolAtomic op w o operand
      let s := s.setCore l (r.1.dequeue e)
      let v := leNat r.2
      .next (s.replyFlit { f with dst := l } e.uid e.tag e.serial (u32 v) (u32 (v / 2 ^ 32)))
    | _, _ => .next s

/-! ### Service requests (R199, R361) -/

/-- A service request that a bounce row refuses is dropped and reported (R361). -/
def State.serviceLost (s : State) (x : InFlight) (st : Nat) : State :=
  let s := s.land x
  let s : State := { s with dev := { s.dev with svst := BitVec.ofNat 8 st } }
  s.mevt 6

def execServiceRequest (f : Flit) (s : State) : Out :=
  whenOn (f.kind == .system && f.cls == 0 && f.ksf == 0x0300) s fun s =>
    match s.inFlight f with
    | none => .next s
    | some x =>
      let c := f.dst
      if s.arrivalHeld f then .next s
      else
      match s.fate c (s.core c).uid with
      | .bounce st => .next (s.serviceLost x st)
      | .spill q => s.spillFlit q f fun s => .next (s.land x)
      | .forward t => .next (s.forwardTo x t)
      | .here =>
        if (s.core c).queueFull then .next (s.serviceLost x 6)
        else
          .next ((s.land x).setCore c (((s.land x).core c).enqueue
            { kind := .service, level := 3, start := END, args := [], flit := some f, uid := (s.core c).uid, tag := 0, serial := 0 }))

end Sys2Proof.Machine
end

