-- ==== Sys2Proof/Machine/Traps.lean ====
section
/-! DEFINITION. Traps (R189 to R198): notices, step traps, and the page-4 forms `trap`, `brk`, `rett`, `halt`, `csync` and
`tlbinv`. -/

namespace Sys2Proof.Machine

/-! ### Notices and step traps (R192, R196) -/

/-- Whether a context takes a notice now (R192): it holds a task, INH is 0, no step trap is due, and its wait, if any, can be
abandoned. -/
def Slot.takesNotice (x : Slot) : Bool :=
  x.st == .ready && !x.notices.isEmpty && statInh x.stat == 0 && x.stepDue.isNone &&
    (match x.wait with
    | some w => !w.keep
    | none => true)

/-- The request entries of an abandoned wait (R192, R264, R271): an entry stays taken until its reply, bounce or deadline. -/
def Slot.abandon (x : Slot) : Slot :=
  { x with entries := x.entries.map fun e => (e.1, e.2.map fun en => match en.use with
      | .access _ => { en with use := .abandoned }
      | .load _ => { en with use := .abandoned }
      | .node => { en with use := .abandoned }
      | .object => { en with use := .abandoned }
      | _ => en) }

/-- A context's wait is abandoned: its requests under way run to their end and bring it nothing (R264). -/
def State.abandonWait (s : State) (l k : Nat) : State :=
  let x := s.slotAt l k
  if x.wait.isNone then s else s.setSlotAt l k { x with half := none }.abandon

/-- A context takes its oldest held notice (R192, R193). -/
def execNotice (l k : Nat) (s : State) : Out :=
  let x := s.slotAt l k
  whenOn x.takesNotice s fun s =>
    match x.notices with
    | [] => .next s
    | n :: ns =>
      let s := s.abandonWait l k
      let y := s.slotAt l k
      .next ((s.setSlotAt l k { y with notices := ns }).takeTrap l k n.cause n.val x.pc)

/-- A BREAK trap follows an instruction completed in U with STEP set (R196). -/
def execStepTrap (l k : Nat) (s : State) : Out :=
  let x := s.slotAt l k
  match x.stepDue with
  | none => .next s
  | some v => whenOn (x.st == .ready) s fun s => .next (s.takeTrap l k (u32 Cause.brk.code) v x.pc)

/-! ### Page-4 forms (R195, R197, R198) -/

/-- The TVAL of `trap` and `brk`: the code and the instruction's length. -/
def State.trapVal (s : State) (n : Nat) : DWord := u64 (n + s.issue.length * 2 ^ 56)

def execTrap (n : Nat) (s : State) : Out := trap .soft (s.trapVal n) s
def execBrk (n : Nat) (s : State) : Out := trap .brk (s.trapVal n) s

def execRett (s : State) : Out :=
  inS (fun s =>
    let x := s.slot
    let l := s.issue.lid
    let k := s.issue.slot
    if statInh x.stat = 0 then trap .rett 0 s
    else if x.tstat.toNat / 2 ^ 6 ≠ 0 then .next (s.haltSlot l k (u32 Cause.rett.code) (u64 x.tstat.toNat) s.issue.start 1)
    else if x.tepc.toNat % 2 ≠ 0 then .next (s.haltSlot l k (u32 Cause.align.code) x.tepc s.issue.start 1)
    else
      let s := s.setSlot x.leaveTrap
      .next (if x.tepc = END then s.endTask l k else s)) s

def execHalt (s : State) : Out := inS (fun s => .next (s.haltSlot s.issue.lid s.issue.slot 0 0 s.issue.start 3)) s

/-- Whether every store that a context has issued has been performed at its home. -/
def State.storesDone (s : State) : Bool :=
  let x := s.slot
  x.sbuf.isEmpty && x.entries.all fun e => match e.2 with
    | some en => (match en.use with
      | .stream _ _ => false
      | _ => true)
    | none => true

def execCsync (s : State) : Out :=
  inS (fun s =>
    if s.storesDone then
      let t := s.issue.lid / 8
      done (s.setTeam t { s.team t with icache := [], dist := none })
    else block .csync s) s

/-- Whether a request entry is held for an access to global memory or to an object (R271). -/
def EntryUse.translated (u : EntryUse) : Bool :=
  match u with
  | .access _ => true
  | .stream _ _ => true
  | .load _ => true
  | .coll _ => true
  | .node => true
  | .object => true
  | .abandoned => true
  | .poolAtomic _ _ => false
  | .clause _ => false

/-- Whether an access that used a dropped translation is still under way on the launch's cores (R198): to a home, to host memory, to
another module, or of the tug. -/
def State.tlbBusy (s : State) (q : Nat) (hit : DWord → Bool) : Bool :=
  let mine (l : Nat) : Bool := (s.core l).queue == some q
  s.reqs.any (fun r => mine r.lid) || s.posted.any (fun r => mine r.lid) || s.hostLoads.any (fun r => mine r.lid) ||
    s.cores.any fun c => c.2.queue == some q && (c.2.xfers.any (fun t => t.asked.isSome) ||
      c.2.slots.any fun x => x.2.sbuf.any (fun e => hit e.va) || x.2.entries.any fun e => match e.2 with
        | some en => en.use.translated
        | none => false)

def execTlbinv (d n : Nat) (s : State) : Out :=
  inS (fun s =>
    let v := Z (s.g d)
    if 1 < v then trap .illegal (u64 v) s
    else
      match s.me.queue with
      | none => done s
      | some q =>
        match (s.queue q).launch with
        | none => done s
        | some la =>
          let a := (s.a n).toNat % 2 ^ 50
          let drop (h : Held) : Bool := v == 1 || (h.va ≤ a && a < h.va + h.size)
          let gone := la.tlb.filter drop
          let hit (va : DWord) : Bool := v == 1 || gone.any fun h => h.va ≤ va.toNat % 2 ^ 50 && va.toNat % 2 ^ 50 < h.va + h.size
          if s.tlbBusy q hit then block (.tlbinv d n) s
          else done (s.setQueue q { s.queue q with launch := some { la with tlb := la.tlb.filter fun h => !drop h } })) s

end Sys2Proof.Machine
end

