-- ==== Sys2Proof/Machine/Images.lean ====
section
/-! DEFINITION. Core and context images (R200, R201): how the machine's state is laid out in them and read back. -/

namespace Sys2Proof.Machine

/-! ### Writing images -/

/-- Words as bytes. -/
def wordsBytes (ws : List Word) : List Byte := ws.flatMap fun w => leBytes w.toNat 4

/-- Double words as bytes. -/
def doublesBytes (ws : List DWord) : List Byte := ws.flatMap fun w => leBytes w.toNat 8

/-- The state code of a context (R201); one that an image brought counts as waiting until it issues (R203). -/
def Slot.code (x : Slot) : Nat :=
  match x.st with
  | .free => 0
  | .halted => 3
  | .ready => if x.wait.isSome || x.loaded then 2 else 1

/-- CST (R201) under a REGS code. -/
def Slot.cst (x : Slot) (regs : Nat) : Nat :=
  let c := match x.notices with
    | n :: _ => n.cause.toNat
    | [] => 0
  x.code + regs * 2 ^ 2 + bits c 0 8 * 2 ^ 8 + bits c 8 16 * 2 ^ 16

/-- NVAL (R201). -/
def Slot.nval (x : Slot) : DWord :=
  match x.notices with
  | n :: _ => n.val
  | [] => 0

/-- The 256-byte context block (R201). -/
def Slot.block (x : Slot) (regs : Nat) : List Byte :=
  doublesBytes [x.pc] ++ wordsBytes [x.stat, x.tcause] ++ doublesBytes [x.tval, x.tepc] ++
    wordsBytes [x.tstat, x.fst, x.sfst, u32 (x.cst regs)] ++ doublesBytes [x.tvec] ++ doublesBytes (Map.getList 0 x.aregs 0 8) ++
    wordsBytes (Map.getList 0 x.bank 0 4) ++ doublesBytes [x.ksrc, x.kdst, x.klay, x.kbase] ++
    wordsBytes (Map.getList 0 x.kext 0 4) ++ wordsBytes (Map.getList 0 x.sd 0 5) ++ wordsBytes [x.yjob] ++ doublesBytes [x.sdh] ++
    wordsBytes (Map.getList 0 x.rv 0 5) ++ leBytes 0 4 ++ doublesBytes [x.rvh, x.nval]

/-- A context image (R201): the block, then the general registers. -/
def Slot.image (x : Slot) (part : Word) : List Byte :=
  x.block (partRegs part) ++ wordsBytes (Map.getList 0 x.regs 0 (partG part))

/-- A handle record's 16 bytes (R99). -/
def Handle.bytes (x : Handle) : List Byte :=
  leBytes x.rbase 2 ++ leBytes x.rlog 1 ++ leBytes (x.bnd.toNat * 2 ^ 7 + x.mbx.toNat * 2 ^ 6 + x.resz) 1 ++
    wordsBytes [x.head, x.pub, x.rsv]

/-- The pool of an image (R76, R200): REG, HND, then the rest. -/
def Core.poolImage (c : Core) : List Byte :=
  let g := partG c.part
  ((List.range (partC c.part)).flatMap fun k => wordsBytes (Map.getList 0 (c.slot k).regs 0 g)) ++
    ((List.range (partH c.part)).flatMap fun h => (c.handle h).bytes) ++
    Map.getList 0 c.pool (hndEnd c.part) (0x6000 - hndEnd c.part)

/-- The full bits of an image: word w is bit w mod 8 of byte w / 8. -/
def Core.fullImage (c : Core) : List Byte :=
  (List.range 0x300).map fun b =>
    BitVec.ofNat 8 ((List.range 8).foldl (fun v i => v + (Map.get false c.full (8 * b + i)).toNat * 2 ^ i) 0)

/-- DSTAT (R200). -/
def Core.dstat (c : Core) : Nat :=
  bits c.derr.toNat 0 8 + bits c.dcode.toNat 0 8 * 2 ^ 8 + c.entryOver.toNat * 2 ^ 16 + c.exited.toNat * 2 ^ 17

/-- The core-state block (R200) of a core with logical id l. -/
def Core.stateImage (c : Core) (l : Nat) : List Byte :=
  leBytes c.pts 8 ++ wordsBytes [u32 l, c.cutid, c.cvres, c.cvcnt, c.cvthr, c.cvwin, c.sldisc, c.blost] ++
    wordsBytes [match c.bmbx with | some h => u32 h | none => 0xFFFFFFFF#32, u32 c.dstat] ++
    leBytes c.csent 8 ++ leBytes c.crecv 8 ++
    wordsBytes [u32 c.age, u32 c.edges.length, u32 c.runq.length, u32 c.index] ++ List.replicate 0xB0 0

/-- A graph node's 32 bytes (R200). -/
def Node.bytes (x : Node) : List Byte :=
  doublesBytes [x.start] ++ wordsBytes (Map.getList 0 x.words 0 4) ++ leBytes ((x.cnt + 2 ^ 16) % 2 ^ 16).toNat 2 ++
    leBytes (x.arm.toNat + 2 * x.pend.toNat + 4 * x.prio) 1 ++ leBytes 0 5

/-- A run-queue entry in flit form (R200), for a core l and an image address. -/
def QEntry.asFlit (e : QEntry) (l : Nat) (image : DWord) : Flit :=
  match e.flit with
  | some f =>
    (match e.kind with
    | .spawn => f
    | .service => f
    | _ => { f with pri := e.level })
  | none =>
    let w (i : Nat) : Word := Map.get 0 e.args i
    { dst := l, src := l, kind := .system, pri := e.level, cls := 0, ksf := 0x0100 + e.level, low := 0,
      w0 := u32 (e.start - image).toNat, w1 := w 0, w2 := w 1, w3 := w 2, w4 := w 3 }

/-- Bytes filled with zeros to a length. -/
def fillTo (bs : List Byte) (n : Nat) : List Byte := bs ++ List.replicate (n - bs.length) 0

/-- The first 32 KiB of a core image (R200), before the log. -/
def Core.image (c : Core) (l : Nat) (image : DWord) : List Byte :=
  c.poolImage ++ c.fullImage ++ c.stateImage l ++
    wordsBytes ((List.range 256).map (tabEntry c.dtab)) ++
    ((List.range 32).flatMap fun n => (c.node n).bytes) ++
    fillTo (c.runq.flatMap fun e => (e.asFlit l image).bytes) 0x800 ++
    ((List.range 4).flatMap fun k => (c.slot k).block (partRegs c.part)) ++
    fillTo (wordsBytes (c.edges.map u32)) 0x100 ++ List.replicate 0x700 0

/-! ### What an image carries (R200, R201, R205) -/

/-- A context as its image carries it: one notice, no engine state; a waiting context stands at its waiting instruction's start. -/
def Slot.carried (x : Slot) : Slot :=
  { x with wait := none, notices := x.notices.take 1, stepDue := none, lease := none, yask := none, sbuf := [], sfail := [],
           fclock := [], entries := [], loaded := true, half := none }

/-- Whether imaging the contexts of a core loses a notice or collects a streaming failure (R175, R201). -/
def Core.loses (c : Core) : Bool :=
  (List.range 4).any fun k => 1 < (c.slot k).notices.length || !(c.slot k).sfail.isEmpty

/-- DSTAT.LOST set where imaging loses something. -/
def Core.markLost (c : Core) : Core := if c.loses then { c with derr := errBit c.derr 2 } else c

/-- DSTAT.LOST set where the image of a core that runs on drops a held notice (R175, R201). -/
def Core.markDropped (c : Core) : Core :=
  if (List.range 4).any fun k => 1 < (c.slot k).notices.length then { c with derr := errBit c.derr 2 } else c

/-- A core as its image carries it to another place: the yoke's and the tug's state stay behind (R228, R205), and no copy of a line
comes along. -/
def Core.carried (c : Core) : Core :=
  let c := c.markLost
  { c with
    slots := c.slots.map (fun e => (e.1, e.2.carried)), l1 := [], far := [], yfmt := 0, nextJob := 1, jobs := [], latch := [],
    nextXfer := 1, xfers := [] }

/-! ### Reading images -/

/-- n little-endian bytes of an image. -/
def imgNat (bs : List Byte) (o n : Nat) : Nat := leNat ((bs.drop o).take n)

/-- A word of an image. -/
def imgW (bs : List Byte) (o : Nat) : Word := u32 (imgNat bs o 4)

/-- A double word of an image. -/
def imgD (bs : List Byte) (o : Nat) : DWord := u64 (imgNat bs o 8)

/-- k words of an image. -/
def imgWs (bs : List Byte) (o k : Nat) : Map Word := Map.setList 0 [] 0 ((List.range k).map fun i => imgW bs (o + 4 * i))

/-- A context from its block, its registers and a serial number for its task (R201, R203). Reserved bits of STAT, FST and TVEC stay 0
(R9, R39, R190), and so does bit 0 of the pc, which is always even (R49; DESIGN CHOICE, log entry 52). -/
def Slot.ofBlock (bs : List Byte) (regs : Map Word) (serial : Nat) : Slot :=
  let cst := imgNat bs 0x2C 4
  let st := bits cst 0 2
  { st := if st = 0 then .free else if st = 3 then .halted else .ready
    task := if st = 0 then none else some { origin := .local, serial := serial }
    regs := regs, aregs := Map.setList 0 [] 0 ((List.range 8).map fun i => imgD bs (0x38 + 8 * i)),
    pc := u64 (imgNat bs 0 8 / 2 * 2), stat := imgW bs 8 &&& 0x3F#32, tcause := imgW bs 0x0C, tval := imgD bs 0x10, tepc := imgD bs 0x18, tstat := imgW bs 0x20,
    tvec := u64 (imgNat bs 0x30 8 / 2 * 2), fst := imgW bs 0x24 &&& 0x1F#32, sfst := imgW bs 0x28 &&& 0x1F#32, bank := imgWs bs 0x78 4, sd := imgWs bs 0xB8 5,
    sdh := imgD bs 0xD0, rv := imgWs bs 0xD8 5, rvh := imgD bs 0xF0, yjob := imgW bs 0xCC, ksrc := imgD bs 0x88,
    kdst := imgD bs 0x90, klay := imgD bs 0x98, kbase := imgD bs 0xA0, kext := imgWs bs 0xA8 4, wait := none,
    notices := if bits cst 8 8 = 0 then [] else [{ cause := u32 (cst / 2 ^ 8), val := imgD bs 0xF8 }],
    stepDue := none, lease := none, yask := none, sbuf := [], sfail := [], fclock := [], entries := [],
    loaded := st = 1 ∨ st = 2, half := none }

/-- A handle record from its bytes. -/
def Handle.ofBytes (bs : List Byte) : Handle :=
  let r := imgNat bs 3 1
  { bnd := bits r 7 1 = 1, mbx := bits r 6 1 = 1, resz := bits r 0 2, rbase := imgNat bs 0 2, rlog := imgNat bs 2 1,
    head := imgW bs 4, pub := imgW bs 8, rsv := imgW bs 12 }

/-- A node from its bytes. -/
def Node.ofBytes (bs : List Byte) : Node :=
  let b := imgNat bs 26 1
  { arm := bits b 0 1 = 1, cnt := sxInt (imgNat bs 24 2) 16, pend := bits b 1 1 = 1, start := imgD bs 0, words := imgWs bs 8 4,
    prio := bits b 2 2 }

/-- A run-queue entry from its flit (R200), for a launch with image address and handlers. -/
def QEntry.ofFlit (f : Flit) (image : DWord) (htab : List Nat) (uid : Nat) : QEntry :=
  match f.kind with
  | .call => { kind := .call, level := f.pri, start := u64 (htab.getD f.ksf (2 ^ 64 - 1)), args := argWords f.w0 f.w1 f.w2 f.w3,
               flit := some f, uid := uid, tag := 0, serial := 0 }
  | .clause => { kind := .clause, level := f.pri, start := 0, args := [], flit := some f, uid := uid, tag := 0, serial := 0 }
  | _ =>
    if f.ksf / 256 = 3 then { kind := .service, level := 3, start := END, args := [], flit := some f, uid := uid, tag := 0, serial := 0 }
    else if f.ksf / 256 = 4 then
      { kind := .atomic, level := f.pri, start := 0, args := [], flit := some f, uid := uid, tag := 0, serial := 0 }
    else { kind := if f.src = f.dst then .local else .spawn, level := f.pri, start := image + u64 f.w0.toNat,
           args := argWords f.w1 f.w2 f.w3 f.w4, flit := if f.src = f.dst then none else some f, uid := uid, tag := 0, serial := 0 }

/-- The full bits of an image. -/
def fullOf (bs : List Byte) : Map Bool :=
  Map.setList false [] 0 ((List.range 6144).map fun w => bits (imgNat bs (w / 8) 1) (w % 8) 1 == 1)

/-- A core from the first 32 KiB of its image, for a launch of queue q with a partition word (R200, R215). -/
def Core.ofImage (bs : List Byte) (q uid : Nat) (part : Word) (image : DWord) (htab : List Nat) (serial : Nat) : Core :=
  let g := partG part
  let st := bs.drop 0x6300
  let slots := (List.range (partC part)).map fun k =>
    (k, Slot.ofBlock (bs.drop (0x7400 + 256 * k)) (imgWs bs (4 * g * k) g) (serial + k))
  let d := imgNat st 0x2C 4
  let bm := imgNat st 0x28 4
  { queue := some q, uid := uid, index := imgNat st 0x4C 4, exited := bits d 17 1 = 1, swapped := false, forward := none,
    pts := imgNat st 0 8, part := part, cutid := imgW st 0x0C,
    pool := Map.setList 0 [] (hndEnd part) ((bs.drop (hndEnd part)).take (0x6000 - hndEnd part)),
    full := fullOf (bs.drop 0x6000),
    handles := (List.range (partH part)).foldl (fun m h =>
      Map.set Handle.empty m h (Handle.ofBytes (bs.drop (4 * partC part * g + 16 * h)))) [],
    cvres := imgW st 0x10, cvcnt := imgW st 0x14, cvthr := imgW st 0x18, cvwin := imgW st 0x1C, sldisc := imgW st 0x20,
    blost := imgW st 0x24, bmbx := if bm < 16 then some bm else none, derr := u32 (bits d 0 8), dcode := u32 (bits d 8 8),
    entryOver := bits d 16 1 = 1, csent := imgNat st 0x30 8, crecv := imgNat st 0x38 8, age := imgNat st 0x40 4 % 256,
    edges := (List.range (imgNat st 0x44 4)).map fun i => imgNat bs (0x7800 + 4 * i) 4 % 2 ^ 20,
    runq := (List.range (min (imgNat st 0x48 4) 64)).map fun i =>
      QEntry.ofFlit (Flit.ofBytes ((bs.drop (0x6C00 + 32 * i)).take 32)) image htab uid,
    nodes := (List.range 32).foldl (fun m n => Map.set Node.empty m n (Node.ofBytes ((bs.drop (0x6800 + 32 * n)).take 32))) [],
    dtab := (List.range 256).foldl (fun t c => setTabEntry t c (imgW bs (0x6400 + 4 * c))) [],
    rot := 0, cut := CoreCut.none, l1 := [], far := [], yfmt := 0, nextJob := 1, jobs := [], latch := [], nextXfer := 1, xfers := [],
    nextColl := 1, colls := [], slots := slots.filter fun e => e.2 ≠ Slot.empty }

end Sys2Proof.Machine
end

