-- ==== Sys2Proof/Machine/Cuts.lean ====
section
/-! DEFINITION. Cuts (R208 to R214), context images in memory (R202, R203), migration (R204 to R207), and slices (R184, R218). -/

namespace Sys2Proof.Machine

/-! ### Cores of a launch -/

/-- The launch placed on a queue, if any. -/
def State.placed (s : State) (q : Nat) : Option Launch :=
  match (s.queue q).launch with
  | some la => if la.phase = .placed then some la else none
  | none => none

/-- A launch of a queue replaced. -/
def State.setLaunch (s : State) (q : Nat) (la : Launch) : State := s.setQueue q { s.queue q with launch := some la }

/-- Whether a core runs its launch's work now: it holds the work of an index and has not been vacated. -/
def Core.works (c : Core) (q : Nat) : Bool := c.queue == some q && c.forward.isNone

/-- The cores that hold the work of a queue's launch. -/
def State.workers (s : State) (q : Nat) : List (Nat × Core) := s.cores.filter fun e => e.2.works q

/-- The core that holds the work of an index. -/
def State.indexCore (s : State) (q k : Nat) : Option Nat := ((s.workers q).find? fun e => e.2.index == k).map (·.1)

/-! ### Update tasks in images (R314) -/

/-- A context's image is written at a place: an update task that it carries is remembered there, so that its end still counts. -/
def State.sendAway (s : State) (p : Place) (uid : Nat) (t : Option Task) : State :=
  let rest := s.away.filter fun e => e.1 != p
  { s with
    away := match t with
      | some { origin := .update m sh b st, .. } => (p, uid, .update m sh b st) :: rest
      | _ => rest }

/-- The origin of a task whose image is read from a place by a core of the same launch. -/
def State.calledBack (s : State) (p : Place) (uid : Nat) : Origin :=
  match s.away.find? fun e => e.1 == p && e.2.1 == uid with
  | some e => e.2.2
  | none => .local

/-- A slot with its task's origin replaced. -/
def Slot.from (x : Slot) (o : Origin) : Slot := { x with task := x.task.map fun t => { t with origin := o } }

/-- The place of a context's block in a core image (R200). -/
def blockPlace (image k : Nat) : Place := .memory (image + 0x7400 + 256 * k)

/-! ### Recording (R209 to R214) -/

/-- Whether a context waits for the reply of a spawn. -/
def Slot.awaitsSpawn (x : Slot) : Bool :=
  match x.wait with
  | some w => !w.poll && (match w.instr with
    | .spawn .. => true
    | _ => false)
  | none => false

/-- Whether a context waits for the reply of a remote pool atomic. -/
def Slot.awaitsAtomic (x : Slot) : Bool :=
  x.entries.any fun e => match e.2 with
    | some en => (match en.use with
      | .poolAtomic _ _ => true
      | _ => false)
    | none => false

/-- Whether a core may record now (R209): no context waits for the reply of a remote pool atomic or of a spawn. -/
def Core.mayRecord (c : Core) : Bool :=
  (List.range 4).all fun k => !(c.slot k).awaitsSpawn && !(c.slot k).awaitsAtomic

/-- The step traps that are due are taken before a record stands between instructions (R196). -/
def State.settleSteps (s : State) (l : Nat) : State :=
  (List.range 4).foldl (fun s k =>
    match (s.slotAt l k).stepDue with
    | some v => if (s.slotAt l k).st = .ready then s.takeTrap l k (u32 Cause.brk.code) v (s.slotAt l k).pc else s
    | none => s) s

/-- The markers of a cut to the cores of the edge list (R209), at priority 0 (DESIGN CHOICE, log entry 41). -/
def State.markers (s : State) (l : Nat) (n : Word) : List Nat → State
  | [] => s
  | e :: es =>
    let f : Flit := { dst := e, src := l, kind := .marker, pri := 0, cls := 2, ksf := n.toNat % 2 ^ 16, low := 0, w0 := n, w1 := 0,
                      w2 := 0, w3 := 0, w4 := 0 }
    (s.emit l f (s.core l).uid 0 0).markers l n es

/-- A core records a snapshot cut (R209, R210): DSTAT.LOST for the notices that its image drops (R175, R201), the image, CUTID, and the
markers. -/
def State.recordSnapshot (s : State) (l : Nat) (la : Launch) (n : Word) (k : State → Out) : Out :=
  let s := s.settleSteps l
  let c := (s.core l).markDropped
  let a := imageAt la.cuta.toNat c.index
  atPhys a 0x10000 s fun s =>
    let s := s.putBytes a (c.image l la.image ++ leBytes 0 0x20)
    let s := s.setCore l { c with
      cutid := n, cut := { due := false, holding := true, complete := false, sentAt := c.csent, logged := 0, unlogged := 0 } }
    k (s.markers l n c.edges)

/-- Whether a core may be saved now (R205, R214): its stores and transfers are done and its yoke jobs have ended. -/
def State.maySave (s : State) (l : Nat) : Bool :=
  s.coreSettled l && (s.core l).mayRecord && (s.core l).jobs.all fun j => j.state != .queued

/-- A core records a save cut and is swapped out (R214). -/
def State.recordSave (s : State) (l : Nat) (la : Launch) (n : Word) (k : State → Out) : Out :=
  let s := s.settleSteps l
  let c := s.core l
  let a := imageAt la.sava.toNat c.index
  atPhys a 0x10000 s fun s =>
    let s := s.putBytes a (c.markLost.image l la.image ++ leBytes 0 0x20)
    let s := (List.range 4).foldl (fun s k => s.sendAway (blockPlace a k) c.uid (c.slot k).task) s
    let s := s.setCore l { c with
      cutid := n, swapped := true, cut := { due := false, holding := false, complete := false, sentAt := c.csent, logged := 0, unlogged := 0 } }
    k (s.markers l n c.edges)

/-- Whether a core has yet to record the cut of its launch. -/
def Core.unrecorded (c : Core) (u : Cut) : Bool := !u.complete && (c.cutid != u.id || c.cut.complete)

/-- Whether a core can record a cut now (R209, R214). -/
def State.canRecord (s : State) (l : Nat) (u : Cut) : Bool := if u.save then s.maySave l else (s.core l).mayRecord

/-- The launch's cut reaches a core (R209): a core that has not recorded it records it if it can, and else stops issuing until it can. -/
def State.recordCut (s : State) (q l : Nat) : Out :=
  match s.placed q with
  | none => .next s
  | some la =>
    match la.cut with
    | none => .next s
    | some u =>
      if (s.core l).unrecorded u = false ∨ (s.core l).swapped then .next s
      else if s.canRecord l u = false then
        .next (s.setCore l { s.core l with cut := { (s.core l).cut with due := true } })
      else if u.save then s.recordSave l la u.id .next
      else s.recordSnapshot l la u.id .next

/-- The id of the next cut after a core's CUTID (R213). -/
def nextCut (w : Word) : Word := if w + 1 = 0 then 1 else w + 1

/-- The header of a cut as the root writes it at the start (R212). -/
def State.startHeader (s : State) (area : Nat) (n : Word) : State := s.putBytes area (leBytes n.toNat 4 ++ leBytes 0 4)

/-! ### The cut forms (R213) -/

/-- `snap` (R213): it records before its result is written, so its image shows the context at the `snap` (log entry 23). -/
def execSnap (d : Nat) (s : State) : Out :=
  inGroup 4 (fun s =>
    match s.me.queue with
    | none => doneWr s d 0xFFFFFFFF#32
    | some q =>
      match (s.queue q).launch with
      | none => doneWr s d 0xFFFFFFFF#32
      | some la =>
        let n := nextCut s.me.cutid
        let other := match la.cut with
          | some u => !u.complete && (u.save || u.id != n)
          | none => false
        if la.cuta = 0 then doneWr s d 0xFFFFFFFF#32
        else if s.me.cut.complete = false || other then doneWr s d 0
        else if s.me.mayRecord = false then block (.snap d) s
        else
          let started := match la.cut with
            | some u => !u.complete
            | none => false
          atPhys la.cuta.toNat 64 s fun s =>
            let s := if started then s
              else (s.startHeader la.cuta.toNat n).setLaunch q { la with cut := some { id := n, save := false, complete := false } }
            s.recordSnapshot s.issue.lid la n fun s => doneWr s d n) s

def execMark (d : Nat) (s : State) : Out :=
  inGroup 4 (fun s =>
    let v := Z (s.g d)
    let e := bits v 0 20
    let c := s.me
    if bits v 20 11 ≠ 0 then trap .illegal (u64 v) s
    else if bits v 31 1 = 1 then doneWr (s.setMe { c with edges := c.edges.erase e }) d 0
    else if e ∈ c.edges then doneWr s d 0
    else if 64 ≤ c.edges.length then doneWr s d 1
    else doneWr (s.setMe { c with edges := c.edges ++ [e] }) d 0) s

def execCutst (d : Nat) (s : State) : Out :=
  inGroup 4 (fun s => doneWr s d (if s.me.cut.complete then 1 else 0)) s

/-- A marker reaches a core (R209, R213). -/
def execMarkerArrival (f : Flit) (s : State) : Out :=
  whenOn (f.kind == .marker) s fun s =>
    match s.inFlight f with
    | none => .next s
    | some x =>
      if s.arrivalHeld f then .next s
      else
      match s.fate f.dst x.uid with
      | .bounce _ => .next (s.land x)
      | .spill q => s.spillFlit q f fun s => .next (s.land x)
      | .forward t => .next (s.forwardTo x t)
      | .here =>
        match (s.core f.dst).queue with
        | none => .next (s.land x)
        | some q =>
          let now := match (s.placed q).bind (·.cut) with
            | some u => u.id == f.w0 && (s.core f.dst).unrecorded u
            | none => false
          if now then (s.land x).recordCut q f.dst else .next (s.land x)

/-- The start of a cut reaches the core of an index down the rein tree (R209). -/
def execCutStartArrival (q k : Nat) (s : State) : Out :=
  match s.indexCore q k with
  | some l => s.recordCut q l
  | none => .next s

/-- The sum over the working cores of a launch. -/
def State.sumOver (s : State) (q : Nat) (f : Core → Nat) : Nat := (s.workers q).foldl (fun n e => n + f e.2) 0

/-- Whether the root can complete a cut (R211): every core has recorded and the sums are equal. A save cut whose cores have all exited
is abandoned instead (R185). -/
def State.cutReady (s : State) (q : Nat) (la : Launch) (u : Cut) : Bool :=
  !u.complete && (s.workers q).length == 8 * la.tcnt &&
    (s.workers q).all (fun e => e.2.cutid == u.id && !e.2.cut.complete) &&
    s.sumOver q (·.cut.sentAt) == s.sumOver q (·.crecv) &&
    !(u.save && (s.workers q).all fun e => e.2.exited)

/-- The header that the root writes when a cut completes (R211, R212). -/
def State.cutHeader (s : State) (q : Nat) (la : Launch) (u : Cut) : List Byte :=
  let passed := (s.workers q).any fun e => e.2.cut.unlogged != 0
  leBytes u.id.toNat 4 ++ leBytes (if passed then 2 else 1) 4 ++ leBytes la.fteam 4 ++ leBytes la.tcnt 4 ++
    leBytes (s.sumOver q (·.cut.sentAt)) 8 ++ List.replicate 40 0

/-- Every core of a launch, vacated ones included, runs no launch, and the teams it entered are free (R173, R214). Its pool and
registers are gone at once, where R78 zeroes them at the next placement (DESIGN CHOICE, log entry 5). -/
def State.releaseCores (s : State) (q uid : Nat) : State :=
  { s with cores := s.cores.filter (fun e => e.2.queue != some q),
           teams := s.teams.map fun e => (e.1, if e.2.guest = some uid then { e.2 with guest := none } else e.2) }

/-- The flits of a saved launch still in flight go to its spill queue (R214). -/
def State.spillRest (s : State) (q uid : Nat) (k : State → Out) : List InFlight → Out
  | [] => k s
  | x :: xs => if x.uid = uid then s.spillFlit q x.flit fun s => (s.land x).spillRest q uid k xs else s.spillRest q uid k xs

/-- A launch of equal or higher priority waits in the arbiter (R184). -/
def State.rivalWaits (s : State) (q prio : Nat) : Bool :=
  s.queues.any fun e => e.1 != q && (match e.2.launch with
    | some la => la.phase != .placed && prio ≤ la.prio
    | none => false)

/-- A save cut starts (R184, R214): the header of the save area and of an empty spill queue. -/
def State.startSave (s : State) (q : Nat) (la : Launch) : Out :=
  let n := nextCut (((s.workers q).head?.map (·.2.cutid)).getD 0)
  let a := la.sava.toNat
  atPhys a (0x10000 * (8 * la.tcnt + 1) + 0x200000) s fun s =>
    let s := (s.startHeader a n).putBytes (a + 0x10000 * (8 * la.tcnt + 1)) (leBytes 0 32)
    let s := s.setQueue q { s.queue q with spilled := 0 }
    .next (s.setLaunch q { la with cut := some { id := n, save := true, complete := false }, expired := false })

/-- A slice expires (R184, R185, R214, R218). -/
def State.expire (s : State) (q : Nat) : Out :=
  match s.placed q with
  | none => .next s
  | some la =>
    let busy := match la.cut with
      | some u => !u.complete
      | none => false
    if la.slice = 0 ∨ la.sava = 0 ∨ s.rivalWaits q la.prio = false then .next s
    else if busy then .next (s.setLaunch q { la with expired := true })
    else s.startSave q la

def execSliceExpiry (q : Nat) (s : State) : Out := s.expire q

/-- `slice` (R218); the time left is the implementation's (log entry 12). -/
def execSlice (d : Nat) (s : State) : Out :=
  inGroup 4 (inS fun s =>
    let v := Z (s.g d)
    let q := s.me.queue.getD 0
    let sl := ((s.launchOf s.issue.lid).map (·.slice)).getD 0
    if 1 < v then trap .illegal (u64 v) s
    else if sl = 0 then doneWr s d 0xFFFFFFFF#32
    else if v = 0 then doneWr { s with free := s.free + 1 } d (u32 (Config.sliceLeft s.free % (sl + 1)))
    else
      match doneWr s d 0 with
      | .next t => t.expire q
      | o => o) s

/-- The root completes a cut (R211, R214). -/
def execCutComplete (q : Nat) (s : State) : Out :=
  match s.placed q with
  | none => .next s
  | some la =>
    match la.cut with
    | none => .next s
    | some u =>
      whenOn (s.cutReady q la u) s fun s =>
        if u.save then
          let s := s.putBytes la.sava.toNat (s.cutHeader q la u)
          s.spillRest q la.uid (fun s =>
            let known := (s.workers q).foldl (fun m e => Map.set (1, []) m e.1 (e.2.nextColl, e.2.colls)) []
            let s := s.releaseCores q la.uid
            let s : State := s.setLaunch q { la with
              colls := known, phase := .saved, restore := true, arrived := s.stamp, cut := none, expired := false, tlb := [] }
            .next { s with stamp := s.stamp + 1 }) s.flight
        else
          let s := s.putBytes la.cuta.toNat (s.cutHeader q la u)
          let s := s.setLaunch q { la with cut := some { u with complete := true } }
          if la.expired then s.expire q else .next s

/-- Completion of a cut reaches the core of an index (R211): its held sends are released. -/
def execCutCompletionArrival (q k : Nat) (s : State) : Out :=
  match s.indexCore q k, s.placed q with
  | some l, some la =>
    let c := s.core l
    let passed := match la.cut with
      | some u => u.complete || u.id != c.cutid
      | none => true
    whenOn (!c.cut.complete && passed) s fun s =>
      .next (s.setCore l { c with cut := { c.cut with holding := false, complete := true } })
  | _, _ => .next s

/-! ### Context images in memory (R202, R203) -/

/-- The pages of n bytes from an address, checked line by line as a store or a load would be; the places of the lines. -/
def State.planLines (s : State) (acc : Acc) (va : Nat) : Nat → State × Except (Cause × DWord) (List Place)
  | 0 => (s, .ok [])
  | n + 1 =>
    match s.resolve s.issue.lid va acc with
    | (s, .error c) => (s, .error (c, u64 va))
    | (s, .ok (.object _)) => (s, .error (.prot, u64 va))
    | (s, .ok p) =>
      match s.planLines acc (va + 128) n with
      | (s, .error e) => (s, .error e)
      | (s, .ok ps) => (s, .ok (p :: ps))

/-- The bytes of a context image in each of its lines (R201): whole lines, and with 16 registers half a line. -/
def imageLines (part : Word) : List Nat :=
  let n := 256 + 4 * partG part
  List.replicate (n / 128) 128 ++ if n % 128 = 0 then [] else [n % 128]

/-- The lines of an image stored to their places, in order, as ordinary stores of a core, up to the first that lies in another module: how
many of them. -/
def State.storeLines (s : State) (l : Nat) : List Place → List Byte → State × Nat
  | [], _ => (s, 0)
  | p :: ps, bs =>
    let b := bs.take 128
    let go (s : State) : State × Nat :=
      let r := s.storeLines l ps (bs.drop 128)
      (r.1, r.2 + 1)
    match p with
    | .memory pa => go (s.perform l pa (.store b)).1
    | .host a => go { s with hostOut := s.hostOut ++ [HostWrite.data a b] }
    | _ => (s, 0)

/-- Whether a context slot can be imaged now (R202). -/
def State.mayImage (s : State) (l k : Nat) : Bool :=
  let c := s.core l
  !(c.slot k).awaitsSpawn && s.slotSettled l k && c.xfers.all (fun x => x.slot != k || !x.active) &&
    c.jobs.all fun j => j.slot != k || j.state != .queued

/-- `ctxout` waits with its image taken, a wait for stores, which no notice abandons (R202, R264). -/
def holdLines (i : Instr) (j st : Nat) (img : List Byte) (s : State) : Out :=
  .next ((s.setSlot { s.slot with half := some (outgoingBytes j st img) }).waiting true true true i)

/-- `ctxout` with every line stored: the slot is freed (R202). A notice that reached it since its image was taken is lost (R175). -/
def ctxoutEnds (d k : Nat) (ps : List Place) (img : List Byte) (s : State) : Out :=
  let l := s.issue.lid
  let x := s.slotAt l k
  let lost := 1 < x.notices.length || !x.sfail.isEmpty || x.image s.part != img
  let s := match ps with
    | p :: _ => s.sendAway p (s.core l).uid x.task
    | [] => s
  let c := s.core l
  let c := { c.setSlot k { x.ended with notices := [], sfail := [] } with
    derr := if lost then errBit c.derr 2 else c.derr }
  doneWr (s.setCore l c) d 0

/-- `ctxout` stores the lines of its image from number j on (R202): one to another module takes a request entry, and waits as an ordinary
store does (R256, R271, R340, R344). -/
def ctxoutStores (d n k j : Nat) (ps : List Place) (img : List Byte) (s : State) : Out :=
  let l := s.issue.lid
  let i : Instr := .ctxout d n
  let r := s.storeLines l (ps.drop j) (img.drop (128 * j))
  let s := r.1
  let j := j + r.2
  match ps[j]? with
  | some (.far m a) =>
    (match s.slot.freeEntry with
    | none => holdLines i j 0 img s
    | some e =>
      let p := s.request l s.issue.slot e m a s.deadline (.store ((img.drop (128 * j)).take 128)) 0 s.me.pts
      if s.repliesFull l || s.outputFull p then holdLines i j 0 img s
      else
        match s.sendPacket p with
        | none => trap .remote (s.a n + u64 (128 * j)) s
        | some s =>
          let s1 := s.setSlot (s.slot.take e (.access s.me.pts) s.serial (s.placeLevel (.far m a)))
          holdLines i j 1 img { s1 with serial := s.serial + 1 })
  | _ => ctxoutEnds d k ps img s

/-- `ctxout` (R202); a slot that the partition does not have answers as a free one does (DESIGN CHOICE, log entry 42). Lines already stored
stay stored where a later line's store fails. -/
def execCtxout (d n : Nat) (s : State) : Out :=
  inGroup 4 (inS fun s =>
    let v := Z (s.g d)
    let l := s.issue.lid
    let k := v % 4
    let a := (s.a n).toNat
    if 4 ≤ v ∨ k = s.issue.slot then trap .illegal (u64 v) s
    else if a % 128 ≠ 0 then trap .align (s.a n) s
    else
      match s.planLines .wr a (imageLines s.part).length with
      | (_, .error (c, e)) => trap c e s
      | (s, .ok ps) =>
        match s.slot.outgoing with
        | some (j, 0, img) => ctxoutStores d n k j ps img s
        | some (j, 1, img) => holdLines (.ctxout d n) j 1 img s
        | some (j, 2, img) => ctxoutStores d n k (j + 1) ps img s
        | some (j, st, _) => trap (causeOf (st - 2)) (s.a n + u64 (128 * j)) s
        | none =>
          if partC s.part ≤ k ∨ (s.slotAt l k).st = .free then doneWr s d 1
          else if s.mayImage l k = false then block (.ctxout d n) s
          else
            let s := s.settleSteps l
            ctxoutStores d n k 0 ps ((s.slotAt l k).image s.part) s) s

/-- The bytes of lines loaded at once by the executing context. -/
def State.loadLines (s : State) (va : Nat) : List Nat → State × Except (Cause × DWord) (List Byte)
  | [] => (s, .ok [])
  | n :: ns =>
    match s.loadNow (u64 va) n with
    | (s, .error e) => (s, .error e)
    | (s, .ok b) =>
      match s.loadLines (va + 128) ns with
      | (s, .error e) => (s, .error e)
      | (s, .ok bs) => (s, .ok (b ++ bs))

/-- Whether `ctxin` refuses an image (R203). -/
def refusesImage (bs : List Byte) (part : Word) : Bool :=
  let cst := imgNat bs 0x2C 4
  bits cst 2 2 != partRegs part || bits cst 0 2 == 0 || imgNat bs 8 4 / 2 ^ 6 != 0 || imgNat bs 0x20 4 / 2 ^ 6 != 0 ||
    imgNat bs 0xEC 4 != 0

/-- `ctxin` (R203); a slot that the partition does not have answers as one that is not free (DESIGN CHOICE, log entry 42). -/
def execCtxin (d n : Nat) (s : State) : Out :=
  inGroup 4 (inS fun s =>
    let v := Z (s.g d)
    let l := s.issue.lid
    let k := v % 4
    let a := (s.a n).toNat
    if 4 ≤ v ∨ k = s.issue.slot then trap .illegal (u64 v) s
    else if a % 128 ≠ 0 then trap .align (s.a n) s
    else if partC s.part ≤ k ∨ (s.slotAt l k).st ≠ .free then doneWr s d 1
    else
      match s.loadLines a (imageLines s.part) with
      | (_, .error (c, e)) => trap c e s
      | (s1, .ok bs) =>
        if refusesImage bs s.part then doneWr s1 d 2
        else
          let x := Slot.ofBlock bs (imgWs bs 256 (partG s.part)) s.serial
          let o := match s.planLines .rd a 1 with
            | (_, .ok (p :: _)) => s1.calledBack p s.me.uid
            | _ => .local
          doneWr ({ s1 with serial := s.serial + 1 }.setSlotAt l k (x.from o)) d 0) s

/-! ### Migration (R204 to R207) -/

/-- Whether a team is out of placement or holds cores that no launch may enter. -/
def State.barred (s : State) (t : Nat) : Bool := s.dev.fenced.contains t || s.dev.computeOff

/-- Whether a launch's own range holds a team. -/
def Launch.covers (la : Launch) (t : Nat) : Bool := la.phase == .placed && la.fteam ≤ t && t < la.fteam + la.tcnt

/-- The moves that wait to be made (R205): the launch, and the core moved to. -/
def State.moves (s : State) : List (Nat × Nat) :=
  s.cores.flatMap fun e => (List.range 4).filterMap fun k => match (e.2.slot k).wait with
    | some w =>
      (match w.instr with
      | .migr d => some (e.2.uid, bits (Map.get 0 (e.2.slot k).regs d : Word).toNat 0 20)
      | _ => none)
    | none => none

/-- Whether a launch occupies a team (R173), or a waiting move is about to. -/
def State.occupied (s : State) (t : Nat) : Bool :=
  (s.team t).guest.isSome || s.queues.any (fun e => (e.2.launch.map (·.covers t)).getD false) ||
    s.moves.any fun m => m.2 / 8 == t

/-- Whether every occupation of a team is by moves of one launch (R204). -/
def State.guestOf (s : State) (uid t : Nat) : Bool :=
  ((s.team t).guest == some uid || (s.team t).guest.isNone) && s.moves.all (fun m => m.2 / 8 != t || m.1 == uid) &&
    s.queues.all fun e => !(e.2.launch.map (·.covers t)).getD false

/-- Whether a core is free for a launch (R204). -/
def State.freeFor (s : State) (uid t : Nat) : Bool :=
  (s.core t).queue.isNone && !s.barred (t / 8) && (!s.occupied (t / 8) || s.guestOf uid (t / 8)) && s.moves.all fun m => m.2 != t

/-- The core ids by which hitches know the cores of a launch, rewritten: owners of shards and issuers of collectives (R205, R215). -/
def State.moveIds (s : State) (uid : Nat) (f : Nat → Nat) : State :=
  { s with
    shards := s.shards.map fun h => if h.uid = uid then { h with owner := f h.owner } else h
    holds := s.holds.map fun h =>
      { h with issuer := h.issuer.map fun i => if i.uid = uid then { i with lid := f i.lid } else i } }

/-- Whether a core may move now (R205). -/
def State.mayMove (s : State) (l : Nat) : Bool :=
  s.coreSettled l && (s.core l).jobs.all (fun j => j.state != .queued) &&
    (List.range 4).all fun k => !(s.slotAt l k).awaitsSpawn && !(s.slotAt l k).awaitsAtomic

/-- `migr` (R205): the checks are made once; while it waits, the other contexts stop and arrivals are held. -/
def execMigr (d : Nat) (s : State) : Out :=
  inGroup 4 (inS fun s =>
    let v := Z (s.g d)
    let l := s.issue.lid
    let t := bits v 0 20
    if bits v 20 12 ≠ 0 then trap .illegal (u64 v) s
    else if s.issue.since.isNone ∧ t = l then doneWr s d 2
    else if s.issue.since.isNone ∧ 8 * s.dev.tcnt ≤ t then doneWr s d 3
    else if s.issue.since.isNone ∧ s.freeFor s.me.uid t = false then doneWr s d 1
    else if s.mayMove l = false then block (.migr d) s
    else
      let s := (s.wr d 0).finish s.next
      let s := s.settleSteps l
      let c := s.core l
      let s := s.setCore t { c.carried with rot := c.rot }
      let s := s.setTeam (t / 8) { s.team (t / 8) with guest := some c.uid }
      let gone : Core := { Core.empty with queue := c.queue, uid := c.uid, index := c.index, part := c.part, forward := some t, latch := c.latch }
      .next ((s.setCore l gone).moveIds c.uid fun i => if i = l then t else i)) s

/-- The KSF of the system flit of `fwdset` and of its reply (presumed, log entry 14). -/
def fwdsetKsf : Nat := 0x0500

def execFwdset (d n : Nat) (s : State) : Out :=
  inGroup 4 (inS fun s =>
    let v := Z (s.g d)
    if bits v 20 12 ≠ 0 then trap .illegal (u64 s.issue.word) s
    else if s.portOpen s.issue.lid false then
      let f := s.flitTo (s.g d) .system fwdsetKsf (s.g n) 0 0 0 0
      let s1 := s.inject s.issue.lid f (s.issue.slot * 16) (s.issue.since.getD (s.stamp + 1))
      .next (s1.waiting false false true (.fwdset d n))
    else blockAside (.fwdset d n) s) s

/-- A request of `fwdset` at the core that it names; at one that is swapped out it is spilled (R214). -/
def execFwdsetRequest (f : Flit) (s : State) : Out :=
  whenOn (f.kind == .system && f.cls == 0 && f.ksf == fwdsetKsf) s fun s =>
    match s.inFlight f with
    | none => .next s
    | some x =>
      if s.arrivalHeld f then .next s
      else if let .spill q := s.fate f.dst x.uid then s.spillFlit q f fun s => .next (s.land x)
      else
      let s := s.land x
      let c := s.core f.dst
      if c.forward.isSome && c.uid == x.uid then
        let s := s.setCore f.dst (if f.w0 = 0xFFFFFFFF#32 then { Core.empty with latch := c.latch } else { c with forward := some (bits f.w0.toNat 0 20) })
        .next (s.systemReply x fwdsetKsf 0 x.tag)
      else .next (s.systemReply x fwdsetKsf 1 x.tag)

def execFwdsetReply (f : Flit) (s : State) : Out :=
  whenOn (f.kind == .system && f.cls == 1 && f.ksf == fwdsetKsf) s fun s =>
    match s.inFlight f with
    | none => .next s
    | some x =>
      match s.fate f.dst x.uid with
      | .spill q => s.spillFlit q f fun s => .next (s.land x)
      | _ =>
        let s := s.land x
        match (s.slotAt f.dst (x.tag / 16)).wait with
        | none => .next s
        | some w =>
          match w.instr with
          | .fwdset d _ => if x.serial = w.since then doneWr (s.resume f.dst (x.tag / 16) w) d f.w0 else .next s
          | _ => .next s

end Sys2Proof.Machine
end

