-- ==== Sys2Proof/Machine/Launches.lean ====
section
/-! DEFINITION. Launches (R173 to R185, R355 to R358): records, the arbiter, placement, restores, the rein tree, and golden epochs
(R187). -/

namespace Sys2Proof.Machine

/-! ### Completion records (R176, R358) -/

/-- The greater of two residuals by value (R175): a NaN wins, +0 when both are zero. -/
def maxRes (a b : Word) : Word :=
  if (fval a).isNan then a
  else if (fval b).isNan then b
  else if (fval a).isZero && (fval b).isZero then 0
  else if ltVal (fval a) (fval b) then b else a

/-- Two done records combined (R175). -/
def DoneRec.join (a b : DoneRec) : DoneRec :=
  { err := a.err ||| b.err, code := max a.code b.code, count := min (a.count + b.count) (2 ^ 32 - 1), res := maxRes a.res b.res,
    cores := a.cores + b.cores }

/-- The record of no core. -/
def DoneRec.zero : DoneRec := { err := 0, code := 0, count := 0, res := 0, cores := 0 }

/-- A completion record and its message leave for the host (R176). -/
def State.complete (s : State) (q seq sts fteam : Nat) (r : DoneRec) : State :=
  let bs := leBytes seq 4 ++ leBytes sts 4 ++ leBytes (r.err + r.code * 2 ^ 8) 4 ++ leBytes r.count 4 ++ leBytes r.res.toNat 4 ++
    leBytes r.cores 4 ++ leBytes fteam 4 ++ leBytes 0 4
  { s with hostOut := s.hostOut ++ [HostWrite.data (((s.queue q).cpla.toNat + 32 * (seq % 256)) % 2 ^ 64) bs, HostWrite.msix q] }

/-- A placed launch ends: its cores run no launch, its shards close (R311), and its record is written. -/
def State.endLaunch (s : State) (q : Nat) (la : Launch) (sts : Nat) (r : DoneRec) : State :=
  let r := if la.lost then { r with err := r.err ||| 4 } else r
  let s := (s.complete q la.seq sts la.fteam r).releaseCores q la.uid
  let s : State := { s with shards := s.shards.filter fun h => h.uid != la.uid, away := s.away.filter fun e => e.2.1 != la.uid }
  s.setQueue q { s.queue q with launch := none }

/-- What the rein tree has combined of a launch (R358). -/
def Launch.sofar (la : Launch) : DoneRec :=
  la.coreDone.foldl (fun r e => match e.2 with
    | some d => r.join d
    | none => r) DoneRec.zero

/-! ### The rein tree (R174, R175, R177) -/

/-- The child positions of a position in a tree of n teams (R174). -/
def treeKids (n j : Nat) : List Nat := ((List.range 4).map (4 * j + 1 + ·)).filter (· < n)

/-- The done record of one team and its children, once every core has exited and every child has reported. -/
def Launch.teamRec (la : Launch) (t : Nat) : Option DoneRec :=
  let j := (t + la.tcnt - la.root) % la.tcnt
  let cores := (List.range 8).map fun i => Map.get none la.coreDone (8 * t + i)
  let kids := (treeKids la.tcnt j).map fun k => Map.get none la.teamDone k
  if (cores ++ kids).all Option.isSome then some ((cores ++ kids).foldl (fun r d => r.join (d.getD DoneRec.zero)) DoneRec.zero)
  else none

/-- The windows that some core has closed, the next one after LCVWIN first. -/
def Launch.openWindows (la : Launch) (last : Word) : List Nat :=
  let d (w : Nat) : Nat := (u32 w - last - 1).toNat
  (la.closed.map (·.win)).foldl (fun ws w =>
    if w ∈ ws then ws else (ws.takeWhile fun v => d v < d w) ++ w :: (ws.dropWhile fun v => d v < d w)) []

/-- The first window that is complete (R177). -/
def Launch.window (la : Launch) (last : Word) : Option Nat :=
  (la.openWindows last).find? fun w => (List.range (8 * la.tcnt)).all fun k =>
    la.closed.any (fun c => c.index == k && c.win == w) || (Map.get none la.coreDone k).isSome

/-- The convergence registers of a launch's queue after a window (R177). -/
def State.takeWindow (s : State) (q : Nat) (la : Launch) (w : Nat) : State :=
  let qu := s.queue q
  let cs := la.closed.filter fun c => c.win == w
  let cnt : Nat := min (cs.foldl (fun (n : Nat) c => n + c.cnt) 0) (2 ^ 32 - 1)
  let run : Nat := if cnt = 0 then min (qu.run + 1) 0xFFFF else 0
  s.setQueue q { qu with
    lcvres := cs.foldl (fun r c => maxRes r c.res) 0, lcvcnt := u32 cnt, lcvwin := u32 w, run := run,
    stl := la.setw != 0 && la.setw ≤ run, launch := some { la with closed := la.closed.filter fun c => c.win != w } }

/-- The complete windows of a launch taken one after another, at most n of them. -/
def State.takeWindows (s : State) (q : Nat) : Nat → State
  | 0 => s
  | n + 1 =>
    match s.placed q with
    | none => s
    | some la =>
      match la.window (s.queue q).lcvwin with
      | none => s
      | some w => (s.takeWindow q la w).takeWindows q n

def execConvergenceWindow (q : Nat) (s : State) : Out :=
  match s.placed q with
  | none => .next s
  | some la =>
    match la.window (s.queue q).lcvwin with
    | none => .next s
    | some w => .next (s.takeWindow q la w)

/-- A team's router reports to its parent, or the root takes the windows that are complete (R177) and completes the launch (R174, R176); `t`
counts from the launch's first team. The message holds no credit and does not lie in flight (DEDUCED, log entry 14). -/
def execDoneMessage (q t : Nat) (s : State) : Out :=
  match s.placed q with
  | none => .next s
  | some la =>
    let j := (t + la.tcnt - la.root) % la.tcnt
    whenOn (t < la.tcnt && (Map.get none la.teamDone j).isNone) s fun s =>
      match la.teamRec t with
      | none => .next s
      | some r =>
        if j = 0 then .next ((s.takeWindows q la.closed.length).endLaunch q la 0 r)
        else .next (s.setLaunch q { la with teamDone := Map.set none la.teamDone j (some r) })

/-! ### Records (R178 to R180, R217, R356) -/

/-- A byte read through a queue's page table with RD (R180); one of host memory is free, and its read may fail (R360, log entry 1). -/
def State.tableByte (s : State) (root va : Nat) : State × Option Byte :=
  let va := if va / 2 ^ 63 = 1 ∧ bits va 50 13 = s.dev.mnum then va % 2 ^ 50 else va
  if va / 2 ^ 50 ≠ 0 then (s, none)
  else
    match s.walk va levels root with
    | .error c => (if c = .memErr then s.report else s, none)
    | .ok (e, sz) =>
      match placeOf e sz va .rd with
      | .ok (.memory pa) => if s.badAt pa then (s.report, none) else (s, some (s.byte pa))
      | .ok (.host a) =>
        let r := s.freeBytes hostModule a 1
        let k := r.1.choose 2
        (k.1, if k.2 = 0 then r.2.head? else none)
      | _ => (s, none)

/-- Consecutive bytes read through a queue's page table. -/
def State.tableBytes (s : State) (root va : Nat) : Nat → State × Option (List Byte)
  | 0 => (s, some [])
  | n + 1 =>
    match s.tableByte root va with
    | (s, none) => (s, none)
    | (s, some b) =>
      match s.tableBytes root ((va + 1) % 2 ^ 64) n with
      | (s, none) => (s, none)
      | (s, some bs) => (s, some (b :: bs))

/-- The entries of a handler table from its bytes. -/
def tableEntries (bs : List Byte) : Nat → List Nat
  | 0 => []
  | n + 1 => leNat (bs.take 8) :: tableEntries (bs.drop 8) n

/-- The launch of a record's 64 bytes (R179), before its checks. -/
def launchOfRecord (bs : List Byte) (uid seq arrived : Nat) (restore : Bool) (htab : List Nat) : Launch :=
  { uid := uid, phase := .waiting, restore := restore, arrived := arrived, seq := seq, image := imgD bs 0, entry := imgNat bs 0x10 4,
    part := imgW bs 0x14, fteamAsked := imgNat bs 0x18 4, fteam := 0, tcnt := imgNat bs 0x1C 4, root := imgNat bs 0x20 4,
    slice := imgNat bs 0x24 4, args := imgD bs 0x28, htab := htab, prio := imgNat bs 0x32 1 % 8, fset := imgNat bs 0x34 4,
    lease := imgNat bs 0x38 4, setw := imgNat bs 0x3C 2, ptroot := 0, rvec := 0, cuta := 0, sava := 0, dln := 0, teamDone := [],
    coreDone := [], closed := [], cut := none, expired := false, lost := false, colls := [], tlb := [] }

/-- Whether the fields of a record break their limits (R180 BADREC), before its handler table. -/
def badRecord (bs : List Byte) (la : Launch) : Bool :=
  imgNat bs 0x33 1 != 0 || 8 ≤ imgNat bs 0x32 1 || imgNat bs 0x3E 2 != 0 || la.image.toNat % 128 != 0 || la.entry % 2 == 1 ||
    la.tcnt == 0 || la.tcnt ≤ la.root || 64 < imgNat bs 0x30 2 || 2 ^ 16 < la.lease

/-- The first 32 KiB of the image of an index in a save area. -/
def State.savedImage (s : State) (area k : Nat) : List Byte := s.bytesAt (imageAt area k) 0x8000

/-- Whether the reserved bytes of a core image are zero (R200, R217). -/
def imageClean (bs : List Byte) : Bool :=
  ((bs.drop 0x6350).take 0xB0).all (· == 0) && ((bs.drop 0x7900).take 0x700).all (· == 0) &&
    (List.range 4).all (fun k => imgNat bs (0x7400 + 256 * k + 0xEC) 4 == 0) &&
    (List.range 32).all fun n => imgNat bs (0x6800 + 32 * n + 27) 5 == 0

/-- The REGS codes of an image's contexts against a partition word (R217; an image holds no other part of the word). -/
def imagePart (bs : List Byte) (part : Word) : Bool :=
  (List.range (partC part)).all fun k => bits (imgNat bs (0x7400 + 256 * k + 0x2C) 4) 2 2 == partRegs part

/-- The INDEX of an image. -/
def imageIndex (bs : List Byte) : Nat := imgNat bs (0x6300 + 0x4C) 4

/-- Whether the attachment has accepted every feature group that a launch uses (R180, R217). -/
def State.featured (s : State) (la : Launch) : Bool := la.fset &&& s.dev.accept.toNat == la.fset

/-- The refusal of a restore (R217, R356). -/
def State.restoreRefusal (s : State) (area : Nat) (la : Launch) : Option Nat :=
  let n := 8 * la.tcnt
  if area = 0 ∨ leNat (s.bytesAt (area + 4) 4) ≠ 1 then some 2
  else if s.dev.tcnt < leNat (s.bytesAt (area + 12) 4) then some 6
  else
    let ims := (List.range n).map fun k => s.savedImage area k
    if ims.any (fun b => !imagePart b la.part) then some 7
    else if s.featured la = false then some 8
    else if ims.any (fun b => !imageClean b || n ≤ imageIndex b) || !(ims.map imageIndex).Nodup then some 9
    else none

/-- The status by which the arbiter refuses a record, with the handler table it read (R180). -/
def State.recordStatus (s : State) (q : Nat) (bs : List Byte) (la : Launch) : State × Except Nat (List Nat) :=
  let hcnt := imgNat bs 0x30 2
  if partOk la.part = false then (s, .error 1)
  else if badRecord bs la then (s, .error 2)
  else
    let r := s.tableBytes (s.queue q).ptroot.toNat (imgNat bs 8 8) (8 * hcnt)
    match r with
    | (s, none) => (s, .error 2)
    | (s, some tb) =>
      let hs := tableEntries tb hcnt
      let acc := s.dev.accept.toNat
      if hs.any (fun a => a % 2 == 1 && a != 2 ^ 64 - 1) then (s, .error 2)
      else if s.dev.tcnt < la.tcnt ∨ (la.fteamAsked ≠ 0xFFFFFFFF ∧ (s.dev.tcnt < la.fteamAsked + la.tcnt ∨
          s.dev.fenced.any fun t => la.fteamAsked ≤ t && t < la.fteamAsked + la.tcnt)) then (s, .error 3)
      else if la.fset &&& acc ≠ la.fset ∨ (la.slice ≠ 0 ∧ bits la.fset 4 1 = 0) then (s, .error 4)
      else if (s.queue q).launch.isSome then (s, .error 5)
      else if la.restore then
        match s.restoreRefusal (s.queue q).sava.toNat la with
        | some st => (s, .error st)
        | none => (s, .ok hs)
      else (s, .ok hs)

/-- A record that LREC does not take (R353, R355, R363). -/
def State.badWrite (s : State) (q : Nat) : State :=
  s.setQueue q { s.queue q with badw := min ((s.queue q).badw + 1) 255 }

def execLaunchRecord (q : Nat) (bs : List Byte) (s : State) : Out :=
  whenOn (decide (q < 64)) s fun s =>
    if bs.length ≠ 64 ∨ s.dev.fwRdy = false then .next (s.badWrite q)
    else
      let qu := s.queue q
      let seq := qu.seq + 1
      let restore := qu.rst
      let s := s.setQueue q { qu with seq := seq, rst := false }
      let la := launchOfRecord bs s.serial seq.toNat s.stamp restore []
      match s.recordStatus q bs la with
      | (s, .error st) => .next (s.complete q seq.toNat st 0xFFFFFFFF DoneRec.zero)
      | (s, .ok hs) =>
        let s := s.setQueue q { s.queue q with launch := some { la with htab := hs } }
        .next { s with serial := s.serial + 1, stamp := s.stamp + 1 }

/-! ### Placement (R182, R183) -/

/-- Whether a team is free for a placement. -/
def State.teamFree (s : State) (t : Nat) : Bool := decide (t < s.dev.tcnt) && !s.occupied t && !s.barred t

/-- Whether a range of teams is free. -/
def State.rangeFree (s : State) (f n : Nat) : Bool := (List.range n).all fun i => s.teamFree (f + i)

/-- The range that a launch would be placed in (R182). -/
def State.rangeFor (s : State) (la : Launch) : Option Nat :=
  if la.fteamAsked ≠ 0xFFFFFFFF then (if s.rangeFree la.fteamAsked la.tcnt then some la.fteamAsked else none)
  else (List.range s.dev.tcnt).find? fun f => s.rangeFree f la.tcnt

/-- The launches waiting in the arbiter. -/
def State.waitingLaunches (s : State) : List (Nat × Launch) :=
  s.queues.filterMap fun e => match e.2.launch with
    | some la => if la.phase = .placed then none else some (e.1, la)
    | none => none

/-- The launches that may be placed now (R182), restores or not. -/
def State.placeable (s : State) (restore : Bool) : List (Nat × Launch) :=
  s.waitingLaunches.filter fun e =>
    e.2.restore == restore && (s.rangeFor e.2).isSome &&
      s.waitingLaunches.all fun f => !(e.2.prio ≤ f.2.prio && f.2.arrived < e.2.arrived)

/-- A core as placement leaves it (R78, R183), with its runtime vector and its entry task in slot k. -/
def placedCore (s : State) (q : Nat) (la : Launch) (idx k : Nat) : Core :=
  let slots := (List.range (partC la.part)).map fun i => (i, { Slot.empty with tvec := u64 (la.rvec.toNat / 2 * 2) })
  let c : Core := { Core.empty with queue := some q, uid := la.uid, index := idx, part := la.part, age := 1,
                                    slots := slots.filter fun e => e.2 ≠ Slot.empty }
  c.setSlot k ((c.slot k).dispatch .entry s.serial 0 (la.image + u64 la.entry)
    (argWords (u32 la.fteam) (u32 la.tcnt) (u32 la.args.toNat) (u32 (la.args.toNat / 2 ^ 32))))

/-- The cores of indexes 0 to n − 1 placed. -/
def State.placeCores (s : State) (q : Nat) (la : Launch) : Nat → State
  | 0 => s
  | n + 1 =>
    let s := s.placeCores q la n
    let (s, k) := s.pickSlot (List.range (partC la.part))
    let s : State := s.setCore (8 * la.fteam + n) (placedCore s q la n k)
    { s with serial := s.serial + 1 }

/-- The teams of a range as placement leaves them: no stale code, and the code distributed from ENTRY on (R183). -/
def State.placeTeams (s : State) (la : Launch) : Nat → State
  | 0 => s
  | n + 1 =>
    let s := s.placeTeams la n
    let t := la.fteam + n
    s.setTeam t { s.team t with icache := [], dist := some (s.stamp, (la.image + u64 la.entry).toNat) }

/-- A launch with what a placement captures (R355). -/
def Launch.capture (la : Launch) (qu : Queue) (f : Nat) : Launch :=
  { la with phase := .placed, fteam := f, ptroot := qu.ptroot, rvec := qu.rvec, cuta := qu.cuta, sava := qu.sava, dln := qu.dln,
            cut := none, expired := false, tlb := [] }

/-- At placement every object slot that the host has not created is free (R290): the host creates groups (R293), programs barriers. -/
def State.freeObjects (s : State) : State :=
  { s with objects := s.objects.filter fun e => match e.2 with
      | .barrier _ => false
      | _ => true }

/-- A launch placed (R183). -/
def State.place (s : State) (q : Nat) (la : Launch) (f : Nat) : State :=
  let qu := s.queue q
  let la := la.capture qu f
  let s := s.setQueue q { qu with launch := some la, lcvres := 0, lcvcnt := 0, lcvwin := 0xFFFFFFFF, run := 0, stl := false }
  let s := (s.placeTeams la la.tcnt).placeCores q la (8 * la.tcnt)
  { s with stamp := s.stamp + 1 }.freeObjects

def execLaunchPlacement (s : State) : Out :=
  match s.placeable false with
  | [] => .next s
  | e :: es =>
    let (s, i) := if es.isEmpty then (s, 0) else s.choose (es.length + 1)
    let (q, la) := (e :: es).getD i e
    match s.rangeFor la with
    | none => .next s
    | some f => .next (s.place q la f)

/-! ### Restores (R215, R216) -/

/-- The ids of the cores of a save area, image LID to restored LID. -/
def State.lidMap (s : State) (area f n : Nat) : List (Nat × Nat) :=
  (List.range n).map fun k => let b := s.savedImage area k; (imgNat b (0x6300 + 8) 4, 8 * f + imageIndex b)

/-- An id rewritten. -/
def rewriteId (m : List (Nat × Nat)) (l : Nat) : Nat := ((m.find? fun e => e.1 == l).map (·.2)).getD l

/-- A flit with its ids rewritten (R215). -/
def rewriteFlit (m : List (Nat × Nat)) (f : Flit) : Flit := { f with dst := rewriteId m f.dst, src := rewriteId m f.src }

/-- A queued call that is the update call of a block (R314): its handler and arguments say so. -/
def QEntry.asUpdate (shards : List Shard) (uid : Nat) (e : QEntry) : QEntry :=
  match e.kind, e.flit with
  | .call, some f =>
    let b := f.w0.toNat
    (match shards.find? fun h =>
        h.uid == uid && h.role == 1 && h.hidx == f.ksf && b < h.nblk && h.recv.testBit b && !h.appl.testBit b &&
          f.w1 == u32 h.step && u64 (f.w2.toNat + 2 ^ 32 * f.w3.toNat) == u64 (h.stage.va + h.blen * b) with
    | some h => { e with kind := .update h.model h.shard b h.step }
    | none => e)
  | _, _ => e

/-- A core as a restore leaves it (R215, R216), with what it knew of its collectives (R308; log entry 27); `first` is the first team of
the launch when it was saved. Every context with a task takes SLICE where the core's id differs from the image's, or the core had
migrated. -/
def restoredCore (s : State) (q : Nat) (la : Launch) (first : Nat) (m : List (Nat × Nat)) (b : List Byte) : Core :=
  let c := Core.ofImage b q la.uid la.part la.image la.htab s.serial
  let old := imgNat b (0x6300 + 8) 4
  let new := rewriteId m old
  let k := Map.get (1, []) la.colls old
  let c := { c with
    nextColl := k.1, colls := k.2,
    edges := c.edges.map (rewriteId m),
    runq := c.runq.map fun e => QEntry.asUpdate s.shards la.uid { e with flit := e.flit.map (rewriteFlit m) } }
  if new = old ∧ old = 8 * first + c.index then c
  else { c with slots := c.slots.map fun e =>
    (e.1, if e.2.task.isSome then e.2.notify (u32 Cause.slice.code) (u64 (old * 2 ^ 32 + new)) else e.2) }

/-- A restored core whose run queue its image shows as not open yet: its one task is the entry task, whose end or first wait will open it
(R157; an image does not name it: DEDUCED, log entry 53). -/
def Core.withEntry (c : Core) : Core :=
  match (List.range 4).find? fun k => (c.slot k).task.isSome with
  | some k => if c.entryOver then c else c.setSlot k ((c.slot k).from .entry)
  | none => c

/-- The images of a save area loaded. -/
def State.loadImages (s : State) (q : Nat) (la : Launch) (first : Nat) (m : List (Nat × Nat)) : Nat → State
  | 0 => s
  | n + 1 =>
    let s := s.loadImages q la first m n
    let b := s.savedImage la.sava.toNat n
    let c := restoredCore s q la first m b
    let a := imageAt la.sava.toNat n
    let c := ({ c with slots := c.slots.map fun e => (e.1, e.2.from (s.calledBack (blockPlace a e.1) la.uid)) } : Core).withEntry
    let s : State := s.setCore (8 * la.fteam + imageIndex b) c
    { s with serial := s.serial + 4 }

/-- The flits of a spill queue re-injected in order (R215). Their requests' tags are gone, and they hold no credit (DESIGN CHOICE, log entry
14). -/
def State.reinject (s : State) (uid a : Nat) (m : List (Nat × Nat)) (i : Nat) : Nat → State
  | 0 => s
  | n + 1 =>
    let f := rewriteFlit m (Flit.ofBytes (s.bytesAt (a + 32 * (i + 1)) 32))
    (s.launchFlit f none uid (2 ^ 20) 0).reinject uid a m (i + 1) n

/-- The done records of the cores that had exited when they were saved. -/
def State.exitedDone (s : State) (q : Nat) : Map (Option DoneRec) :=
  (s.workers q).foldl (fun d e => if e.2.exited then Map.set none d e.2.index (some e.2.doneRec) else d) []

/-- A saved launch placed again (R215). A flit that its spill queue lost sets LOST in its record (R357). -/
def State.restore (s : State) (q : Nat) (la : Launch) (f : Nat) : State :=
  let fresh := la.phase == .waiting
  let qu := s.queue q
  let la := la.capture qu f
  let area := la.sava.toNat
  let la := { la with lost := la.lost || leNat (s.bytesAt (area + 0x10000 * (8 * la.tcnt + 1) + 4) 4) != 0 }
  let m := s.lidMap area f (8 * la.tcnt)
  let qu := if fresh then { qu with lcvres := 0, lcvcnt := 0, lcvwin := 0xFFFFFFFF, run := 0, stl := false } else qu
  let s := s.setQueue q { qu with launch := some la }
  let s := (s.placeTeams la la.tcnt).loadImages q la (leNat (s.bytesAt (area + 8) 4)) m (8 * la.tcnt)
  let s := s.setLaunch q { la with teamDone := [], coreDone := s.exitedDone q }
  let s := s.moveIds la.uid (rewriteId m)
  let a := area + 0x10000 * (8 * la.tcnt + 1)
  s.reinject la.uid a m 0 (leNat (s.bytesAt a 4))

/-- A restore is placed (R215), or refused RSTFEAT where the attachment no longer accepts a feature group of the launch (R217). -/
def execRestorePlacement (s : State) : Out :=
  match s.placeable true with
  | [] => .next s
  | e :: es =>
    let (s, i) := if es.isEmpty then (s, 0) else s.choose (es.length + 1)
    let (q, la) := (e :: es).getD i e
    match s.rangeFor la with
    | none => .next s
    | some f =>
      if s.featured la = false then .next (s.endLaunch q la 8 la.sofar)
      else
      let a := (s.queue q).sava.toNat
      atPhys a (0x10000 * (8 * la.tcnt + 1) + 0x200000) s fun s => .next (s.restore q la f)

/-! ### Golden epochs (R187) -/

/-- A new epoch: the next router's undelivered flit with the lowest injection stamp becomes golden. The map from logical to physical
teams is hidden; the model takes the identity (log entry 14). -/
def execGoldenEpoch (s : State) : Out :=
  let r := (s.goldenRouter + 1) % 131072
  let best := s.flight.foldl (fun b x =>
    if x.team = some r ∧ s.injected x then
      (match b with
      | some n => some (min n x.stamp)
      | none => some x.stamp)
    else b) none
  .next { s with goldenRouter := r, goldenStamp := best }

end Sys2Proof.Machine
end

