-- ==== Sys2Proof/Machine/Objects.lean ====
section
/-! DEFINITION. Objects (R290 to R292), barriers (R297 to R300), and the requests of other modules to memory and objects (R331). -/

namespace Sys2Proof.Machine

/-! ### Object slots (R290, R291) -/

/-- What an object slot holds. -/
def State.obj (s : State) (n : Nat) : Obj := Map.get Obj.free s.objects n

/-- The state with an object slot replaced. -/
def State.setObj (s : State) (n : Nat) (o : Obj) : State := { s with objects := Map.set Obj.free s.objects n o }

/-- The group in an object slot. -/
def State.groupAt (s : State) (n : Nat) : Option Group :=
  match s.obj n with
  | .group g => some g
  | _ => none

/-- The state with a group replaced. -/
def State.setGroup (s : State) (n : Nat) (g : Group) : State := s.setObj n (.group g)

/-- What an object operand names (R290, R291): a slot here, an address of another module, or the cause of a trap. -/
inductive ObjRef where
  | here (n : Nat)
  | far (m a : Nat)
  | fails (c : Cause)
  deriving DecidableEq, Repr

/-- The slot of a place on an object page (R290, R291). -/
def objPlace (p : Place) : ObjRef :=
  match p with
  | .object pa => if 2 ^ 20 ≤ pa / 64 then .fails .xlate else .here (pa / 64)
  | .far m a => .far m a
  | _ => .fails .prot

/-- obj(va, k) of R291 up to the slot's kind. -/
def State.objRef (s : State) (va : DWord) : State × ObjRef :=
  if va.toNat % 64 ≠ 0 then (s, .fails .align)
  else
    match s.resolve s.issue.lid va.toNat .rd with
    | (s, .error c) => (s, .fails c)
    | (s, .ok p) => (s, objPlace p)

/-- TCAUSE of a BARRIER trap with its reason (R292). -/
def barrierCode (reason : Nat) : Nat := Cause.barrier.code + 256 * reason

/-- A BARRIER trap (R292). -/
def barrierTrap (reason : Nat) (va : DWord) (s : State) : Out :=
  .next (s.takeTrap s.issue.lid s.issue.slot (u32 (barrierCode reason)) va s.issue.start)

/-! ### Barriers (R297 to R299) -/

/-- What a barrier form asks of its object, with the value of gd. -/
inductive BarOp where
  | join (v : Word)
  | init (v : Word)
  | query
  deriving DecidableEq, Repr

/-- What an object answers: a trap (ILLEGAL, FEATURE or a BARRIER reason), a wait, or the values of gd and g[d+1] with a clock. -/
inductive BarRes where
  | illegal
  | feature
  | refused (reason : Nat)
  | waits
  | gives (d d1 : Option Word) (clock : Nat)
  deriving DecidableEq, Repr

/-- The level that core c of module m shares with a barrier's anchor (R162, R298). -/
def State.anchorLevel (s : State) (m c : Nat) (a : Nat × Nat) : Nat :=
  if m ≠ a.1 then 5
  else if m = s.dev.mnum then s.levelOf c a.2
  else if c = a.2 then 0
  else if c / 8 = a.2 / 8 then 1
  else if Config.shareString (c / 8) (a.2 / 8) then 2
  else if Config.shareQuarter (c / 8) (a.2 / 8) then 3
  else 4

/-- Whether an arrival from core c of module m is inside a barrier's scope (R298). -/
def State.inScope (s : State) (b : Barrier) (m c : Nat) : Bool :=
  if b.scope ≤ 3 then s.anchorLevel m c b.anchor ≤ b.scope
  else if b.scope = 4 then m == s.dev.mnum
  else if b.scope = 5 then groupOf m == groupOf s.dev.mnum
  else true

/-- One arrival with its clock; the last one of a phase completes it (R297). -/
def Barrier.arrive (b : Barrier) (t : Nat) : Barrier :=
  let top := max b.aclk t
  if b.arr + 1 = b.count then { b with phase := (b.phase + 1) % 2 ^ 31, arr := 0, pclk := top, aclk := 0 }
  else { b with arr := b.arr + 1, aclk := top }

/-- The status of a wait for phase p that is over (R299): BRESET where a `binit` started a later phase. -/
def Barrier.status (b : Barrier) (p : Nat) : Word :=
  let d := (b.rphase + 2 ^ 31 - p) % 2 ^ 31
  if 1 ≤ d ∧ d ≤ 2 ^ 30 then 1 else 0

/-- Whether a value of gd names a barrier (R299). -/
def initOk (v : Nat) : Bool := bits v 27 5 == 0 && bits v 20 4 == 0 && bits v 0 20 != 0 && bits v 24 3 != 7

/-- The barrier that `binit` makes of a slot (R299). -/
def Obj.init (o : Obj) (v m c : Nat) : Barrier :=
  let p := match o with
    | .barrier b => (b.phase + 1) % 2 ^ 31
    | _ => 0
  let t := match o with
    | .barrier b => b.pclk
    | _ => 0
  { count := bits v 0 20, arr := 0, phase := p, rphase := p, scope := bits v 24 3, anchor := (m, c), pclk := t, aclk := 0 }

/-- `bjoin` on an object (R299). -/
def State.joinObj (s : State) (n m c t : Nat) (fab : Bool) (v : Word) : State × BarRes :=
  let arrives := v.getLsbD 31
  match s.obj n with
  | .barrier b =>
    if 5 ≤ b.scope ∧ fab = false then (s, .feature)
    else if arrives then
      if bits v.toNat 0 31 ≠ 0 then (s, .illegal)
      else if s.inScope b m c = false then (s, .refused 2)
      else (s.setObj n (.barrier (b.arrive t)), .gives (some (u32 b.phase)) (some 0) 0)
    else if b.phase = v.toNat then (s, .waits)
    else (s, .gives (some (u32 b.phase)) (some (b.status v.toNat)) b.pclk)
  | _ => if arrives then (s, .refused 1) else (s, .gives (some 0) (some 2) 0)

/-- `binit` on an object (R299). -/
def State.initObj (s : State) (n m c : Nat) (fab : Bool) (v : Word) : State × BarRes :=
  match s.obj n with
  | .group _ => (s, .refused 1)
  | o =>
    if v = 0xFFFFFFFF#32 then (s.setObj n .free, .gives (some 0) none 0)
    else if initOk v.toNat = false then (s, .illegal)
    else if 5 ≤ bits v.toNat 24 3 ∧ fab = false then (s, .feature)
    else
      let b := o.init v.toNat m c
      (s.setObj n (.barrier b), .gives (some (u32 b.phase)) none 0)

/-- `bqry` on an object (R299). -/
def State.queryObj (s : State) (n : Nat) (fab : Bool) : State × BarRes :=
  match s.obj n with
  | .barrier b =>
    if 5 ≤ b.scope ∧ fab = false then (s, .feature)
    else (s, .gives (some (u32 b.phase)) (some (u32 (b.count - b.arr))) 0)
  | .group g => (s, .gives (some (u32 g.epoch)) (some (u32 (2 ^ 31 + g.live.length))) 0)
  | .free => (s, .gives (some 0) (some 0xFFFFFFFF) 0)

/-- A barrier form performed on slot n for core c of module m with clock t. -/
def State.barrier (s : State) (n m c t : Nat) (fab : Bool) (op : BarOp) : State × BarRes :=
  match op with
  | .join v => s.joinObj n m c t fab v
  | .init v => s.initObj n m c fab v
  | .query => s.queryObj n fab

/-! ### Requests to objects of other modules (R290, R334) -/

/-- The code of an object request (presumed, log entry 19); 3 is `gform`, 4 asks which slot holds a group. -/
def BarOp.code : BarOp → Nat
  | .join _ => 0
  | .init _ => 1
  | .query => 2

/-- The value of gd in an object request. -/
def BarOp.val : BarOp → Word
  | .join v => v
  | .init v => v
  | .query => 0

/-- A form on the object of another module at va (R290, R271): a request that waits for its reply. A notice abandons the wait (R192), not
the request. -/
def objectRequest (i : Instr) (va : DWord) (m a code : Nat) (v : Word) (s : State) : Out :=
  match s.slot.freeEntry with
  | none => block i s
  | some e =>
    let p : Packet := { dmod := m, smod := s.dev.mnum, pk := 3, core := s.issue.lid, slot := s.issue.slot, entry := e,
                        serial := s.serial, clock := s.me.pts, addr := a, budget := s.deadline, status := 0,
                        data := leBytes code 4 ++ leBytes v.toNat 4 }
    if s.repliesFull s.issue.lid || s.outputFull p then block i s
    else
      match s.sendPacket p with
      | none => trap .remote va s
      | some s =>
        let s1 := s.setSlot (s.slot.take e .object s.serial (s.placeLevel (.far m a)))
        .next ({ s1 with serial := s.serial + 1 }.waiting false false true i)

/-- obj(va, 2) for the GROUP of a record that is on another module (R291): it is asked for the slot (code 4, the model's own; log entry
19). -/
def groupRequest (i : Instr) (va : DWord) (m a : Nat) (s : State) : Out :=
  objectRequest i va m a 4 0 (s.setSlot { s.slot with half := some (leBytes va.toNat 8) })

/-! ### The barrier forms (R299) -/

/-- A barrier form: obj(as), then its effect here or at another module. -/
def objectForm (i : Instr) (d n : Nat) (op : Word → BarOp) (s : State) : Out :=
  let va := s.a n
  match s.objRef va with
  | (s, .fails c) => trap c va s
  | (s, .far m a) =>
    objectRequest i va m a (op (s.g d)).code (op (s.g d)).val s
  | (s, .here k) =>
    match s.barrier k s.dev.mnum s.issue.lid s.me.pts (s.accepts 5) (op (s.g d)) with
    | (s, .illegal) => trap .illegal (u64 (Z (s.g d))) s
    | (s, .feature) => trap .feature va s
    | (s, .refused r) => barrierTrap r va s
    | (s, .waits) => block i s
    | (s, .gives x y t) => done (((s.raise s.issue.lid t).wrOpt d x).wrOpt (d + 1) y)

def execBjoin (d n : Nat) (s : State) : Out := objectForm (.bjoin d n) d n .join s
def execBinit (d n : Nat) (s : State) : Out := objectForm (.binit d n) d n .init s
def execBqry (d n : Nat) (s : State) : Out := objectForm (.bqry d n) d n (fun _ => .query) s

/-! ### Waiters of other modules (R297) -/

/-- The answer to an object request. -/
def objectAnswer (p : Packet) (r : BarRes) : Packet :=
  match r with
  | .illegal => Packet.reply p 7 1 0 []
  | .feature => Packet.reply p 7 5 0 []
  | .refused k => Packet.reply p 7 (barrierCode k) 0 []
  | .waits => Packet.reply p 7 0 0 []
  | .gives x y t => Packet.reply p 7 0 t (objectData x y)

/-- The operation of an object request of code 0 to 2. -/
def barOpOf (p : Packet) : BarOp :=
  let v := u32 (leNat ((p.data.drop 4).take 4))
  match leNat (p.data.take 4) with
  | 0 => .join v
  | 1 => .init v
  | _ => .query

/-- Whether the wait of another module's core is over (R299). -/
def State.farReady (s : State) (w : Nat × Packet) : Bool :=
  match s.obj w.1, barOpOf w.2 with
  | .barrier b, .join v => b.phase != v.toNat
  | _, _ => true

/-- PHASE and PCLK of a slot, 0 where it holds no barrier. -/
def State.phaseOf (s : State) (n : Nat) : Nat × Nat :=
  match s.obj n with
  | .barrier b => (b.phase, b.pclk)
  | _ => (0, 0)

/-- The hitch sends the phase that has changed to every module with a waiter (R297): each waiter of another module is answered, the
oldest first. -/
def execBarrierCompletion (m obj phase pclk : Nat) (s : State) : Out :=
  whenOn (m == s.dev.mnum && s.phaseOf obj == (phase, pclk)) s fun s =>
    let now := s.farWaits.filter fun w => w.1 == obj && s.farReady w
    let s := { s with farWaits := s.farWaits.filter fun w => !(w.1 == obj && s.farReady w) }
    .next (now.foldl (fun s w => s.answer (objectAnswer w.2 (s.barrier obj w.2.smod w.2.core w.2.clock true (barOpOf w.2)).2)) s)

end Sys2Proof.Machine
end

