-- ==== Sys2Proof/Machine/Groups.lean ====
section
/-! DEFINITION. Group objects and re-formations (R293 to R296), and collectives (R301 to R308). -/

namespace Sys2Proof.Machine

/-! ### Messages of the hitches (R294) -/

/-- A message of a hitch to a module: this module's own hitch takes it as a step of the agenda. -/
def State.tell (s : State) (m : Nat) (e : Event) : State :=
  if m = s.dev.mnum then { s with agenda := s.agenda ++ [.happen e] } else { s with outbox := s.outbox ++ [(m, e)] }

/-- The same message to several modules. -/
def State.tellAll (s : State) (ms : List Nat) (e : Event) : State := ms.foldl (fun s m => s.tell m e) s

/-- A flit of another epoch is discarded and counted (R294, R354). -/
def State.stray (s : State) : State :=
  { s with dev := { s.dev with stray := if s.dev.stray = 0xFFFFFFFF#32 then s.dev.stray else s.dev.stray + 1 } }

/-- The module of a rank (R293). -/
def Group.modOf (g : Group) (r : Nat) : Nat := g.mods.getD r 0

/-- The modules of ranks. -/
def Group.modsOf (g : Group) (rs : List Nat) : List Nat := rs.map g.modOf

/-- The leader: the lowest live rank (R293). -/
def Group.leader (g : Group) : Nat := g.live.headD 0

/-- Whether this module is live in its copy. -/
def Group.amLive (g : Group) : Bool := g.live.contains g.rank

/-- A request that meets STATE 1 is held (R295). -/
def State.holdBack (s : State) (n : Nat) (g : Group) (e : Event) : State := s.setGroup n { g with held := g.held ++ [e] }

/-- Ranks of both lists. -/
def unite (a b : List Nat) : List Nat := a ++ b.filter fun r => !a.contains r

/-! ### Sending FORM (R295 step 1) -/

/-- The number under which a FORM of this module is answered: its module and its ask. -/
def State.askSrc (s : State) (id : Nat) : Nat := s.dev.mnum + 2 ^ 13 * id

/-- FORM goes to a rank. -/
def State.sendForm (s : State) (n : Nat) (g : Group) (a : Asker) (drop : List Nat) (r : Nat) : State :=
  let k : Ask := { id := s.serial, asker := a, drop := drop, leader := r }
  let s := s.setGroup n { g with asks := g.asks ++ [k] }
  let src := s.askSrc k.id
  { s with serial := s.serial + 1 }.tell (g.modOf r) (.form n src drop)

/-- FORM goes to the leader of this module's copy. -/
def State.askForm (s : State) (n : Nat) (a : Asker) (drop : List Nat) : State :=
  match s.groupAt n with
  | some g => s.sendForm n g a drop g.leader
  | none => s

/-! ### Collectives of a member (R303 to R308) -/

/-- The elements of a destination written as ordinary stores (R307): the greatest write time. An element whose sector is uncorrectable
keeps its bytes and is reported, and the collective still ends with its status (DESIGN CHOICE, log entry 54). -/
def State.writeElems (s : State) (size p : Nat) : List Nat → List Byte → State × Nat
  | [], _ => (s, 0)
  | a :: as, bs =>
    if s.badPart a size then s.report.writeElems size p as (bs.drop size)
    else
      let r := s.storeLine a (bs.take size) p
      let q := r.1.writeElems size p as (bs.drop size)
      (q.1, max r.2 q.2)

/-- The records of a core in which a collective has ended with a status word and the clock of its stores. -/
def endRecs (ks : List CollRec) (i : Issuer) (h : Hold) (st t : Nat) : List CollRec :=
  ks.map fun k => if k.id = i.id ∧ k.obj = h.obj ∧ k.seq = h.seq ∧ k.epoch = h.epoch then { k with ended := some (u32 st, t) } else k

/-- The queue whose launch is saved under a uid. -/
def State.savedAs (s : State) (uid : Nat) : Option (Nat × Launch) :=
  s.queues.findSome? fun e => match e.2.launch with
    | some la => if la.uid = uid ∧ la.phase ≠ .placed then some (e.1, la) else none
    | none => none

/-- The clock with which a hitch writes DST (R307): its issuing core's, or, while the launch of that core is saved, the hitch's own
(DESIGN CHOICE, log entry 27). -/
def State.issuerClock (s : State) (i : Issuer) : Nat :=
  let c := s.core (s.whereIs i.lid 64)
  if c.uid = i.uid then c.pts else max s.hitchClock s.base

/-- What a core knows of a collective that has ended (R304, R308): its request entry is free and its record has the status. The record of
a core whose launch is saved is kept with the launch. -/
def State.settleColl (s : State) (h : Hold) (i : Issuer) (st t : Nat) : State :=
  let l := s.whereIs i.lid 64
  let c := s.core l
  if c.uid = i.uid then
    let x := c.slot i.slot
    let c := if (Map.get none x.entries i.entry).map (·.serial) = some i.serial then c.setSlot i.slot (x.release i.entry) else c
    s.setCore l { c with colls := endRecs c.colls i h st t }
  else
    match s.savedAs i.uid with
    | none => s
    | some (q, la) =>
      let k := Map.get (1, []) la.colls i.lid
      s.setQueue q { s.queue q with launch := some { la with colls := Map.set (1, []) la.colls i.lid (k.1, endRecs k.2 i h st t) } }

/-- A collective ends at this member with a status word (R304, R306, R307): DST when OK, then what its core knows of it. -/
def State.endColl (s : State) (h : Hold) (st : Nat) (data : List Byte) : State :=
  match h.issuer with
  | none => { s with holds := s.holds.map fun x => if x = h then { h with result := some (st, data), ended := true } else x }
  | some i =>
    let r := if st % 256 = 0 then s.writeElems h.size (s.issuerClock i) h.dst data else (s, 0)
    let s : State := { r.1 with
      holds := r.1.holds.map fun x => if x = h then { h with result := some (st, data), ended := true, clock := r.2 } else x }
    s.settleColl h i st r.2

/-- A member's record of a collective. -/
def State.holdOf (s : State) (obj epoch seq : Nat) : Option Hold :=
  s.holds.find? fun h => h.obj == obj && h.epoch == epoch && h.seq == seq

/-- Collectives of a group that have not ended here end with one status (R306). -/
def State.endAll (s : State) (obj st : Nat) : State :=
  (s.holds.filter fun h => h.obj == obj && !h.ended).foldl (fun s h => s.endColl h st []) s

/-! ### Re-formation at the leader (R295) -/

/-- The answers to the FORMs that joined (R295 step 5). -/
def State.answerForms (s : State) (n e : Nat) (live fs : List Nat) : State :=
  fs.foldl (fun s f => s.tell (f % 2 ^ 13) (.formAnswer n f e live)) s

/-- The leader's part ends once every live member has acknowledged (R295 step 5). -/
def State.settleLead (s : State) (n : Nat) : State :=
  match s.groupAt n with
  | some g =>
    match g.lead with
    | some ld =>
      match ld.committed with
      | some (e, live) =>
        if live.all (fun r => ld.acks.contains r) then (s.setGroup n { g with lead := none }).answerForms n e live ld.forms else s
      | none => s
    | none => s
  | none => s

/-- What the leader decides about one collective (R306). -/
def decideColl (root : Nat) (live : List Nat) (as : List PrepAnswer) (seq : Nat) : CollDecision :=
  let held := live.map fun r => ((as.find? fun a => a.rank == r).bind fun a => a.colls.find? fun c => c.seq == seq).bind (·.held)
  match held with
  | some x :: _ =>
    if held.all Option.isSome then { seq := seq, status := x, data := [] }
    else { seq := seq, status := if live.contains root then 4 else 3 + 2 ^ 16 * root, data := [] }
  | _ => { seq := seq, status := if live.contains root then 4 else 3 + 2 ^ 16 * root, data := [] }

/-- The decisions about every collective that some live member reports. -/
def decideColls (root : Nat) (live : List Nat) (as : List PrepAnswer) : List CollDecision :=
  let seqs := (as.flatMap fun a => a.colls.map (·.seq)).eraseDups
  seqs.map (decideColl root live as)

/-- The primary of each shard after the decision (R320): a live primary, else a live mirror whose primary was dropped. A mirror's report
names its primary's module. -/
def decideShards (g : Group) (live : List Nat) (as : List PrepAnswer) : List ShardReport :=
  let all := as.flatMap fun a => a.shards.map fun h => (a.rank, h)
  let keys := (all.map fun e => (e.2.model, e.2.shard)).eraseDups
  keys.filterMap fun k =>
    let of (role : Nat) : List (Nat × ShardReport) := all.filter fun e => e.2.model == k.1 && e.2.shard == k.2 && e.2.role == role
    let gone (m : Nat) : Bool := !(g.modsOf live).contains m
    let node : Option Nat := match of 1 with
      | e :: _ => some e.1
      | [] => ((of 2).find? fun (e : Nat × ShardReport) => gone e.2.module_).map Prod.fst
    node.map fun r => { model := k.1, shard := k.2, role := 1, module_ := g.modOf r }

/-- The leader decides and sends COMMIT (R295 step 3). -/
def State.sendCommit (s : State) (n : Nat) (g : Group) (ld : Lead) : State :=
  let live := ld.asked.filter fun r => !ld.drop.contains r && ld.answers.any fun a => a.rank == r
  let as := ld.answers.filter fun a => live.contains a.rank
  let e := 1 + ld.answers.foldl (fun m a => max m a.epoch) (if ld.answers = [] then g.epoch else 0)
  let ev : Event := .commit n ⟨e, g.rank⟩ live (decideColls g.leader live as) (decideShards g live as)
  let s := s.setGroup n { g with lead := some { ld with committed := some (e, live) } }
  (s.tellAll (g.modsOf live) ev).settleLead n

/-- The leader decides once every rank that it asked and has not dropped has answered. -/
def State.tryCommit (s : State) (n : Nat) : State :=
  match s.groupAt n with
  | some g =>
    match g.lead with
    | some ld =>
      if ld.committed.isNone && ld.asked.all (fun r => ld.drop.contains r || ld.answers.any fun a => a.rank == r) then
        s.sendCommit n g ld
      else s
    | none => s
  | none => s

/-- A re-formation starts at its leader, among the ranks that are live (R295 step 2). -/
def State.startLead (s : State) (n : Nat) (g : Group) (live : List Nat) (src : Nat) (drop : List Nat) : State :=
  let asked := live.filter fun r => !drop.contains r
  let ld : Lead := { drop := drop, asked := asked, answers := [], forms := [src], committed := none, acks := [] }
  ((s.setGroup n { g with lead := some ld }).tellAll (g.modsOf asked) (.prepare n g.rank)).tryCommit n

/-- Whether a FORM drops ranks, and only ranks that are dropped already (R295). -/
def knownDrop (live drop : List Nat) : Bool := drop != [] && drop.all fun r => !live.contains r

/-- A FORM at a leader (R295): after COMMIT is sent it is judged against the new live set. -/
def execForm (n src : Nat) (drop : List Nat) (s : State) : Out :=
  match s.groupAt n with
  | none => .next s
  | some g =>
    match g.lead with
    | some ld =>
      match ld.committed with
      | none =>
        let ld := { ld with drop := unite ld.drop drop, forms := ld.forms ++ [src] }
        .next ((s.setGroup n { g with lead := some ld }).tryCommit n)
      | some (e, live) =>
        if knownDrop live drop then .next (s.answerForms n e live [src])
        else .next ((s.answerForms n e live ld.forms).startLead n g live src drop)
    | none =>
      if knownDrop g.live drop then .next (s.answerForms n g.epoch g.live [src]) else .next (s.startLead n g g.live src drop)

/-- A member's collectives as it reports them (R304, R306). -/
def State.collReports (s : State) (n : Nat) (g : Group) : List CollReport :=
  (s.holds.filter fun h => h.obj == n && h.epoch == g.epoch).map fun h =>
    { seq := h.seq, held := h.result.map (·.1), data := (h.result.map (·.2)).getD [] }

/-- A member's shards as it reports them (R295, R313): a mirror names its primary. A primary whose `pnopen` still waits for a mirror
reports too, since it serves already. -/
def State.shardReports (s : State) (n : Nat) : List ShardReport :=
  (s.shards.filter fun h => h.obj == n && (!h.opening || h.role == 1)).filterMap fun h =>
    if h.role = 1 then some { model := h.model, shard := h.shard, role := 1, module_ := s.dev.mnum }
    else if h.role = 2 then h.partner.map fun m => { model := h.model, shard := h.shard, role := 2, module_ := m }
    else none

def execPrepare (n leader : Nat) (s : State) : Out :=
  match s.groupAt n with
  | none => .next s
  | some g =>
    let a : PrepAnswer := { obj := n, rank := g.rank, epoch := g.epoch, colls := s.collReports n g, shards := s.shardReports n }
    .next ((s.setGroup n { g with forming := true, prepared := some leader, overdue := false }).tell (g.modOf leader) (.prepareAnswer a))

def execPrepareAnswer (a : PrepAnswer) (s : State) : Out :=
  match s.groupAt a.obj with
  | none => .next s
  | some g =>
    match g.lead with
    | none => .next s
    | some ld =>
      whenOn (ld.committed.isNone && ld.asked.contains a.rank && !ld.answers.any fun b => b.rank == a.rank) s fun s =>
        .next ((s.setGroup a.obj { g with lead := some { ld with answers := ld.answers ++ [a] } }).tryCommit a.obj)

def execCommitAck (n rank : Nat) (s : State) : Out :=
  match s.groupAt n with
  | none => .next s
  | some g =>
    match g.lead with
    | none => .next s
    | some ld =>
      whenOn (ld.committed.isSome) s fun s =>
        .next ((s.setGroup n { g with lead := some { ld with acks := ld.acks ++ [rank] } }).settleLead n)

/-- The answer that a `gform` gets: E, or 0 where the module is not in the live set (R296). -/
def formValue (g : Group) (e : Nat) (live : List Nat) (m : Nat) : Word :=
  if live.any fun r => g.modOf r == m then u32 e else 0

/-- Whether a context waits for the answer to a `gform`. -/
def Slot.awaitsForm (x : Slot) : Option (Wait × Nat) :=
  match x.wait with
  | some w =>
    (match w.instr with
    | .gform d _ => if w.poll then none else some (w, d)
    | _ => none)
  | none => none

/-- An ask is answered (R295 step 5, R296); a module that is out of the live set ends its collectives of the group (R306). -/
def State.answered (s : State) (n : Nat) (a : Ask) (e : Nat) (live : List Nat) : Out :=
  match s.groupAt n with
  | none => .next s
  | some g =>
    let s := s.setGroup n { g with asks := g.asks.erase a }
    let s := if live.contains g.rank then s else s.endAll n 4
    match a.asker with
    | .hitch => .next s
    | .far p => .next (s.answer (objectAnswer p (.gives (some (formValue g e live p.smod)) none s.hitchClock)))
    | .context l k since =>
      match (s.slotAt l k).awaitsForm with
      | some (w, d) => if w.since = since then doneWr (s.resume l k w) d (formValue g e live s.dev.mnum) else .next s
      | none => .next s

def execFormAnswer (n src e : Nat) (live : List Nat) (s : State) : Out :=
  match s.groupAt n with
  | none => .next s
  | some g =>
    match g.asks.find? fun a => s.askSrc a.id == src with
    | none => .next s
    | some a => s.answered n a e live

/-- D passes (R295): at a leader the silent members join the drop set, or are passed over after COMMIT; else the silent leader of the
oldest FORM joins its drop set and the next live rank is tried. -/
def execReformationDeadline (n : Nat) (s : State) : Out :=
  match s.groupAt n with
  | none => .next s
  | some g =>
    match g.lead with
    | some ld =>
      (match ld.committed with
      | none =>
        let silent := ld.asked.filter fun r => !ld.answers.any fun a => a.rank == r
        .next ((s.setGroup n { g with lead := some { ld with drop := unite ld.drop silent } }).tryCommit n)
      | some (e, live) => .next ((s.setGroup n { g with lead := none }).answerForms n e live ld.forms))
    | none =>
      match g.asks with
      | [] => .next s
      | a :: as =>
        match g.live.find? fun r => a.leader < r with
        | some r => .next (s.sendForm n { g with asks := as } a.asker (unite a.drop [a.leader]) r)
        | none => s.answered n a 0 []

/-- No COMMIT within 2D of PREPARE (R295): step 1 again without the silent leader, whose COMMIT is still taken if it comes. -/
def execCommitTimeout (n : Nat) (s : State) : Out :=
  match s.groupAt n with
  | none => .next s
  | some g =>
    match g.prepared with
    | none => .next s
    | some r =>
      whenOn (!g.overdue) s fun s =>
      let g := { g with overdue := true }
      match g.live.find? fun k => k ≠ r with
      | some k => .next (s.sendForm n g .hitch [r] k)
      | none => .next (s.setGroup n g)

/-! ### `gform` (R296) -/

/-- The drop set of a value of gd, or none where it is ILLEGAL (R296). -/
def dropSet (v nmem : Nat) : Option (List Nat) :=
  let rs := if bits v 31 1 = 1 then [bits v 0 13] else (List.range 31).filter fun r => v.testBit r
  if (bits v 31 1 = 1 ∧ bits v 13 18 ≠ 0) ∨ rs.any (fun r => nmem ≤ r) then none else some rs

def execGform (d n : Nat) (s : State) : Out :=
  inGroup 5 (fun s =>
    let va := s.a n
    match s.objRef va with
    | (s, .fails c) => trap c va s
    | (s, .far m a) => objectRequest (.gform d n) va m a 3 (s.g d) s
    | (s, .here k) =>
      match s.groupAt k with
      | none => barrierTrap 3 va s
      | some g =>
        if g.amLive = false then barrierTrap 4 va s
        else
          match dropSet (Z (s.g d)) g.nmem with
          | none => trap .illegal (s.formIllegal d) s
          | some rs =>
            .next ((s.askForm k (.context s.issue.lid s.issue.slot (s.issue.since.getD s.stamp)) rs).waiting false false true (.gform d n))) s

/-- `gform` asked by another module of its object here (R290, R296): the reply comes with the answer to the FORM. -/
def State.farForm (s : State) (k : Nat) (p : Packet) : State :=
  let v := leNat ((p.data.drop 4).take 4)
  match s.groupAt k with
  | none => s.answer (objectAnswer p (.refused 3))
  | some g =>
    if !(g.live.any fun r => g.modOf r == p.smod) then s.answer (objectAnswer p (.refused 4))
    else
      match dropSet v g.nmem with
      | none => s.answer (objectAnswer p .illegal)
      | some rs => s.askForm k (.far p) rs

/-! ### The arithmetic of collectives (R301, R302) -/

/-- Bytes of an element. -/
def collSize (fmt : Nat) : Nat := if fmt = 0x02 then 2 else 4

/-- An element as the fold takes it: bf16 is decoded exactly. -/
def collIn (fmt v : Nat) : Word := if fmt = 0x02 then exactB32 (bf16.val v) else u32 v

/-- An element as the fold leaves it. -/
def collOut (fmt : Nat) (v : Word) : Nat := if fmt = 0x02 then (narrow bf16 .ne v).1 else v.toNat

/-- One step of the fold. -/
def collOp (op fmt : Nat) (r x : Word) : Word :=
  let float := fmt = 0x00 ∨ fmt = 0x02
  match op with
  | 0 => if float then (fAdd .ne r x).1 else r + x
  | 1 =>
    if float then (fMinMax true r x).1
    else if fmt = 0x14 then (if r.toInt < x.toInt then x else r)
    else (if r.toNat < x.toNat then x else r)
  | 2 =>
    if float then (fMinMax false r x).1
    else if fmt = 0x14 then (if x.toInt < r.toInt then x else r)
    else (if x.toNat < r.toNat then x else r)
  | 3 => r &&& x
  | 4 => r ||| x
  | _ => r ^^^ x

/-- n elements of a list of bytes. -/
def elemsOf (size : Nat) : Nat → List Byte → List Nat
  | 0, _ => []
  | n + 1, bs => leNat (bs.take size) :: elemsOf size n (bs.drop size)

/-- The left fold over the members' elements in rank order (R302); one member's data are copied. -/
def reduceElems (op fmt n : Nat) (ds : List (List Byte)) : List Byte :=
  match ds with
  | [] => []
  | [d] => d
  | d :: rest =>
    let first := (elemsOf (collSize fmt) n d).map (collIn fmt)
    let sums := rest.foldl (fun rs x => List.zipWith (collOp op fmt) rs ((elemsOf (collSize fmt) n x).map (collIn fmt))) first
    sums.flatMap fun v => leBytes (collOut fmt v) (collSize fmt)

/-- The source of a broadcast, if its rank is live. -/
def broadcastData (cs : List Contribution) : Option (List Byte) :=
  match cs with
  | [] => none
  | c :: _ => (cs.find? fun x => x.rank == c.brank).map (·.data)

/-- The data that the member at position p receives (R301); contributions in rank order. A broadcast whose source is not live has no
data of the manual: `free` stands for it (log entry 4). -/
def collData (cs : List Contribution) (free : List Byte) (p : Nat) : List Byte :=
  match cs with
  | [] => []
  | c :: _ =>
    let w := c.count * collSize c.fmt
    let ds := cs.map (·.data)
    match c.kind with
    | 0 => reduceElems c.op c.fmt c.count ds
    | 1 => ((reduceElems c.op c.fmt (cs.length * c.count) ds).drop (p * w)).take w
    | 2 => ds.flatten
    | _ => (broadcastData cs).getD free

/-- Whether the contributions agree (R304). -/
def agree (cs : List Contribution) : Bool :=
  match cs with
  | [] => true
  | c :: rest =>
    rest.all fun x => x.kind == c.kind && x.op == c.op && x.fmt == c.fmt && x.count == c.count && x.brank == c.brank

/-! ### The root of a collective (R304) -/

/-- The root's record of a collective in the current epoch. -/
def State.rootOf (s : State) (n epoch seq : Nat) : Option Root :=
  s.roots.find? fun r => r.obj == n && r.epoch == epoch && r.seq == seq

/-- A root's record replaced. -/
def State.setRoot (s : State) (r : Root) : State :=
  { s with roots := (s.roots.filter fun x => !(x.obj == r.obj && x.epoch == r.epoch && x.seq == r.seq)) ++ [r] }

/-- RESULT goes to every live member (R304 step 4). -/
def State.sendResult (s : State) (g : Group) (r : Root) (st : Nat) (lost : List Nat) : State :=
  let cs := g.live.filterMap fun k => r.got.find? fun c => c.rank == k
  let fr := if st = 0 ∧ (cs.head?.map (·.kind)) = some 3 ∧ broadcastData cs = none then
      s.freeBytes hostModule 0 ((cs.head?.map fun c => c.count * collSize c.fmt).getD 0) else (s, [])
  let s := fr.1.setRoot { r with st := .sent st lost [] }
  (List.range g.live.length).foldl (fun s p =>
    s.tell (g.modOf (g.live.getD p 0)) (.collResult r.obj r.epoch r.seq st (if st = 0 then collData cs fr.2 p else []))) s

/-- RELEASE goes to every live member, then a re-formation drops the lost ones (R304 steps 3 to 5). -/
def State.release (s : State) (g : Group) (r : Root) (lost : List Nat) : State :=
  let s := (s.setRoot { r with st := .released }).tellAll (g.modsOf g.live) (.collRelease r.obj r.epoch r.seq)
  if lost = [] then s else s.askForm r.obj .hitch lost

def execCollContribution (c : Contribution) (s : State) : Out :=
  match s.groupAt c.obj with
  | none => .next s
  | some g =>
    if g.forming then .next (s.holdBack c.obj g (.collContribution c))
    else if c.epoch ≠ g.epoch then .next (s.tell (g.modOf c.rank) (.collResult c.obj c.epoch c.seq 4 []))
    else
      let r := (s.rootOf c.obj c.epoch c.seq).getD { obj := c.obj, epoch := c.epoch, seq := c.seq, got := [], st := .collecting }
      if r.st ≠ .collecting ∨ r.got.any (fun x => x.rank == c.rank) then .next s
      else
        let r := { r with got := r.got ++ [c] }
        if g.live.all (fun k => r.got.any fun x => x.rank == k) then
          let cs := g.live.filterMap fun k => r.got.find? fun x => x.rank == k
          .next (s.sendResult g r (if agree cs then 0 else 1 + 2 * 2 ^ 8) [])
        else .next (s.setRoot r)

/-- The lowest of a list of ranks. -/
def lowest (rs : List Nat) : Nat := rs.foldl min (rs.headD 0)

/-- D passes at a root (R304): it queries the missing members, then gives up on the silent ones, or counts as lost the members that have
not acknowledged RESULT. -/
def execCollDeadline (n seq : Nat) (s : State) : Out :=
  match s.groupAt n with
  | none => .next s
  | some g =>
    match s.rootOf n g.epoch seq with
    | none => .next s
    | some r =>
      whenOn (!g.forming) s fun s =>
        match r.st with
        | .collecting =>
          let miss := g.live.filter fun k => !r.got.any fun x => x.rank == k
          let s := s.setRoot { r with st := .querying miss [] }
          .next (miss.foldl (fun s k => s.tell (g.modOf k) (.collQueryAnswer n ⟨g.epoch, seq⟩ k)) s)
        | .querying miss answered =>
          let silent := miss.filter fun k => !answered.contains k
          .next (s.sendResult g r (2 + 2 ^ 16 * lowest silent) silent)
        | .sent _ lost acks =>
          let quiet := g.live.filter fun k => !acks.contains k
          .next (s.release g r (unite lost quiet))
        | .released => .next s

/-- The answer of a queried member reaches the root; at the queried member itself the same message is the query, which its hitch answers
(R304 step 3; log entry 19). -/
def execCollQueryAnswer (n : Nat) (q : EpochSeq) (rank : Nat) (s : State) : Out :=
  match s.groupAt n with
  | none => .next s
  | some g =>
    if q.epoch ≠ g.epoch then .next s.stray
    else
    match (s.rootOf n g.epoch q.seq).map fun (r : Root) => (r, r.st) with
    | some (r, .querying miss answered) =>
      whenOn (miss.contains rank && !answered.contains rank && !g.forming) s fun s =>
        let answered := answered ++ [rank]
        if miss.all (fun k => answered.contains k) then .next (s.sendResult g r (1 + 2 ^ 8 + 2 ^ 16 * lowest miss) [])
        else .next (s.setRoot { r with st := .querying miss answered })
    | some _ => .next s
    | none =>
      whenOn (rank == g.rank && g.leader != g.rank) s fun s => .next (s.tell (g.modOf g.leader) (.collQueryAnswer n q rank))

def execResultAck (n : Nat) (q : EpochSeq) (rank : Nat) (s : State) : Out :=
  match s.groupAt n with
  | none => .next s
  | some g =>
    if q.epoch ≠ g.epoch then .next s.stray
    else
    match (s.rootOf n g.epoch q.seq).map fun (r : Root) => (r, r.st) with
    | some (r, .sent st lost acks) =>
      let acks := unite acks [rank]
      if g.live.all (fun k => acks.contains k || lost.contains k) then .next (s.release g r lost)
      else .next (s.setRoot { r with st := .sent st lost acks })
    | _ => .next s

/-! ### A member of a collective (R304 to R307) -/

/-- A member takes RESULT (R304); ABORT_EPOCH is the answer to a contribution of another epoch, judged by the epoch that the
contribution carried, and ends it (R294). -/
def execCollResult (n epoch seq st : Nat) (data : List Byte) (s : State) : Out :=
  match s.groupAt n with
  | none => .next s
  | some g =>
    if st = 4 then
      if epoch ≠ g.epoch then .next s.stray
      else
        match s.holdOf n epoch seq with
        | some h => if h.ended then .next s else .next (s.endColl h 4 [])
        | none => .next s
    else if g.forming then .next (s.holdBack n g (.collResult n epoch seq st data))
    else if epoch ≠ g.epoch then .next s.stray
    else
      let s : State := match s.holdOf n epoch seq with
        | some h => { s with holds := s.holds.map fun x => if x = h ∧ h.ended = false then { h with result := some (st, data) } else x }
        | none => { s with holds := s.holds ++ [{ obj := n, epoch := epoch, seq := seq, issuer := none, dst := [], size := 0,
                                                   result := some (st, data), ended := false, clock := 0 }] }
      .next (s.tell (g.modOf g.leader) (.resultAck n ⟨epoch, seq⟩ g.rank))

def execCollRelease (n epoch seq : Nat) (s : State) : Out :=
  match s.groupAt n with
  | none => .next s
  | some g =>
    if epoch ≠ g.epoch then .next s.stray
    else
      match s.holdOf n epoch seq with
      | none => .next s
      | some h =>
        match h.result with
        | some (st, data) => whenOn (!h.ended) s fun s => .next (s.endColl h st data)
        | none => .next s

/-- 4D after its `coll` a member starts a re-formation (R304). -/
def execCollHoldTimeout (n seq : Nat) (s : State) : Out :=
  match s.groupAt n with
  | none => .next s
  | some g =>
    match s.holds.find? fun h => h.obj == n && h.seq == seq && h.issuer.isSome && !h.ended with
    | none => .next s
    | some _ => whenOn (!g.forming) s fun s => .next (s.askForm n .hitch [])

/-! ### `coll` and `cwait` (R303, R308) -/

/-- A collective descriptor (R301). -/
structure CollDesc where
  group : DWord
  src : DWord
  dst : DWord
  count : Nat
  seq : Nat
  brank : Nat
  fmt : Nat
  deriving DecidableEq, Repr

/-- The descriptor of 64 bytes, with whether it breaks R301 in itself. -/
def collDesc (bs : List Byte) (op : Nat) : CollDesc × Bool :=
  let d : CollDesc := { group := imgD bs 0, src := imgD bs 8, dst := imgD bs 0x10, count := imgNat bs 0x18 4, seq := imgNat bs 0x1C 4,
                        brank := imgNat bs 0x20 2, fmt := imgNat bs 0x22 1 }
  (d, (bs.drop 0x23).any (· != 0) || !([0x00, 0x02, 0x14, 0x15].contains d.fmt) || d.count == 0 || 2 ^ 20 < d.count ||
    (3 ≤ op && (d.fmt == 0x00 || d.fmt == 0x02)))

/-- The physical addresses of n elements, or the first failure (R303). -/
def State.elemPlaces (s : State) (acc : Acc) (va size : Nat) : Nat → State × Except (Cause × DWord) (List Nat)
  | 0 => (s, .ok [])
  | n + 1 =>
    if va % size ≠ 0 then (s, .error (.align, u64 va))
    else
      match s.resolve s.issue.lid va acc with
      | (s, .error c) => (s, .error (c, u64 va))
      | (s, .ok (.memory pa)) =>
        match s.elemPlaces acc ((va + size) % 2 ^ 64) size n with
        | (s, .error e) => (s, .error e)
        | (s, .ok ps) => (s, .ok (pa :: ps))
      | (s, .ok _) => (s, .error (.prot, u64 va))

/-- Elements read as loads of the executing context (R303), or the address of the first that is uncorrectable. -/
def State.readElems (s : State) (size va : Nat) : List Nat → State × Except DWord (List Byte)
  | [] => (s, .ok [])
  | pa :: ps =>
    let r := s.perform s.issue.lid pa (.load size)
    if r.2.1 ≠ 0 then (r.1, .error (u64 va))
    else
      match r.1.readElems size ((va + size) % 2 ^ 64) ps with
      | (s, .error e) => (s, .error e)
      | (s, .ok bs) => (s, .ok (overlay s.slot.sbuf (.memory pa) r.2.2.1 ++ bs))

/-- Elements of SRC and of DST for n live members (R301). -/
def collCounts (kind n count : Nat) : Nat × Nat :=
  match kind with
  | 1 => (n * count, count)
  | 2 => (count, n * count)
  | _ => (count, count)

/-- The next id of a collective, 1 to 255 (R303). -/
def nextId (n : Nat) : Nat := if 255 ≤ n then 1 else n + 1

/-- The contribution leaves (R303): the core's record, the member's hold, the request entry, and gd. -/
def contribute (d op kind k e : Nat) (g : Group) (ds : CollDesc) (dst : List Nat) (data : List Byte) (s : State) : Out :=
  let c := s.me
  let id := c.nextColl
  let i : Issuer := { uid := c.uid, lid := s.issue.lid, slot := s.issue.slot, entry := e, serial := s.serial, id := id }
  let early := s.holdOf k g.epoch ds.seq
  let h : Hold := { obj := k, epoch := g.epoch, seq := ds.seq, issuer := some i, dst := dst, size := collSize ds.fmt,
                    result := early.bind (·.result), ended := false, clock := 0 }
  let x : Contribution := { obj := k, rank := g.rank, epoch := g.epoch, seq := ds.seq, kind := kind, op := op, fmt := ds.fmt,
                            count := ds.count, brank := ds.brank, data := data }
  let rec1 : CollRec := { id := id, obj := k, epoch := g.epoch, seq := ds.seq, ended := none }
  let s1 := s.setGroup k { g with lastSeq := some ds.seq }
  let s2 : State := { s1 with
    holds := (s1.holds.filter fun y => !(y.obj == k && y.epoch == g.epoch && y.seq == ds.seq)) ++ [h], serial := s1.serial + 1 }
  let s3 := s2.setSlot (s2.slot.take e (.coll id) i.serial 5)
  let s4 := s3.setMe { s3.me with nextColl := nextId id, colls := (s3.me.colls ++ [rec1]).drop ((s3.me.colls.length + 1) - 64) }
  let s5 := s4.tell (g.modOf g.leader) (.collContribution x)
  let s6 := match early with
    | some y => if y.ended then s5.endColl h ((y.result.map (·.1)).getD 4) ((y.result.map (·.2)).getD []) else s5
    | none => s5
  doneWr s6 d (u32 id)

/-- `coll` once its descriptor and its group have been checked. A trap, and a wait for an entry or for a re-formation, go on from `s0`, the
state before the descriptor was loaded (R59, R73). -/
def startColl (d n imm op kind k : Nat) (g : Group) (ds : CollDesc) (s0 s : State) : Out :=
  let cnt := collCounts kind g.live.length ds.count
  let size := collSize ds.fmt
  match s.elemPlaces .rd ds.src.toNat size cnt.1 with
  | (s, .error (c, v)) => trap c v (s.backTo s0)
  | (s, .ok src) =>
    match s.elemPlaces .wr ds.dst.toNat size cnt.2 with
    | (s, .error (c, v)) => trap c v (s.backTo s0)
    | (s, .ok dst) =>
      match s.slot.freeEntry with
      | none => block (.coll d n imm) (s.backTo s0)
      | some e =>
        if g.forming then block (.coll d n imm) (s.backTo s0)
        else
          match s.readElems size ds.src.toNat (if kind = 3 ∧ ds.brank ≠ g.rank then [] else src) with
          | (s, .error v) => trap .memErr v (s.backTo s0)
          | (s, .ok data) => contribute d op kind k e g ds dst data s

/-- `coll` on the group of slot k (R303): the checks against this module's copy, then the start. `reason` is that of R292 where the slot
holds no group here: 3 for a slot of this module, 4 for one that another module has named (log entry 27). -/
def collOn (d n imm k reason : Nat) (ds : CollDesc) (s0 s : State) : Out :=
  let kind := bits imm 0 3
  let va := s.a n
  match s.groupAt k with
  | none => barrierTrap reason ds.group (s.backTo s0)
  | some g =>
    if kind = 3 ∧ g.nmem ≤ ds.brank then barrierTrap 7 va (s.backTo s0)
    else if g.amLive = false then barrierTrap 4 ds.group (s.backTo s0)
    else if (match g.lastSeq with
        | some q => decide (ds.seq ≤ q)
        | none => false) then barrierTrap 5 va (s.backTo s0)
    else startColl d n imm (bits imm 3 3) kind k g ds s0 s

def execColl (d n imm : Nat) (s0 : State) : Out :=
  inGroup 5 (fun s =>
    let op := bits imm 3 3
    let kind := bits imm 0 3
    let va := s.a n
    if bits imm 6 4 ≠ 0 ∨ 5 < op ∨ 3 < kind then trap .illegal (u64 s.issue.word) s
    else if va.toNat % 64 ≠ 0 then trap .align va s
    else
      match s.loadNow va 64 with
      | (s, .error (c, v)) => trap c v (s.backTo s0)
      | (s, .ok bs) =>
        let ds := (collDesc bs op).1
        if (collDesc bs op).2 then barrierTrap 7 va (s.backTo s0)
        else
          match s.objRef ds.group with
          | (s, .fails c) => trap c ds.group (s.backTo s0)
          | (s, .far m a) =>
            (match s.farGroup ds.group with
            | none => groupRequest (.coll d n imm) ds.group m a (s.backTo s0)
            | some k => collOn d n imm k 4 ds s0 s)
          | (s, .here k) => collOn d n imm k 3 ds s0 s) s0

def execCwait (d : Nat) (s : State) : Out :=
  inGroup 5 (fun s =>
    let v := Z (s.g d)
    if bits v 8 23 ≠ 0 then trap .illegal (u64 s.issue.word) s
    else
      match (s.me.colls.reverse.take 64).find? fun r => r.id == bits v 0 8 with
      | none => doneWr s d 0xFFFFFFFF#32
      | some r =>
        match r.ended with
        | some (w, t) => doneWr (s.raise s.issue.lid t) d w
        | none => if bits v 31 1 = 1 then doneWr s d 0xFFFFFFFE#32 else block (.cwait d) s) s

end Sys2Proof.Machine
end

