-- ==== Sys2Proof/Machine/Nodes.lean ====
section
/-! DEFINITION. Parameter nodes (R283 to R286, R309 to R320): opening shards, pushes, update calls, streams, multicasts, closes, and COMMIT
with its decisions (R295, R306, R320). -/

namespace Sys2Proof.Machine

/-! ### Statuses (R283) -/

def stDuplicate : Nat := 1
def stEarly : Nat := 2
def stStale : Nat := 3
def stEpoch : Nat := 4
def stTimeout : Nat := 5
def stComplete : Nat := 0x10
def stIncomplete : Nat := 0x11
def stReformed : Nat := 0x12

/-! ### Shards open here -/

/-- The shard of a (MODEL, SHARD) pair open here (R310). -/
def State.shardOf (s : State) (model shard : Nat) : Option Shard := s.shards.find? fun h => h.model == model && h.shard == shard

/-- A shard replaced or added. -/
def State.setShard (s : State) (h : Shard) : State :=
  { s with shards := (s.shards.filter fun x => !(x.model == h.model && x.shard == h.shard)) ++ [h] }

/-- A shard closed. -/
def State.dropShard (s : State) (h : Shard) : State :=
  { s with shards := s.shards.filter fun x => !(x.model == h.model && x.shard == h.shard) }

/-- The epoch of a shard's group here. -/
def State.shardEpoch (s : State) (h : Shard) : Nat := ((s.groupAt h.obj).map (·.epoch)).getD 0

/-- Whether a shard's group is re-forming here (R295). -/
def State.shardForming (s : State) (h : Shard) : Bool := ((s.groupAt h.obj).map (·.forming)).getD false

/-- A bitmap with a bit set. -/
def setBit (m b : Nat) : Nat := m ||| 2 ^ b

/-- All blocks of a shard. -/
def Shard.full (h : Shard) : Nat := 2 ^ h.nblk - 1

/-- Blocks not received. -/
def Shard.unreceived (h : Shard) : Nat := h.full - (h.full &&& h.recv)

/-- The blocks of a bitmap in ascending order. -/
def Shard.blocks (h : Shard) (m : Nat) : List Nat := (List.range h.nblk).filter fun b => m.testBit b

/-- The hitch's clock raised. -/
def State.hitchHears (s : State) (t : Nat) : State := { s with hitchClock := max s.hitchClock t }

/-! ### Regions (R311) -/

/-- The physical address of an offset into a region. -/
def Region.at (r : Region) (o : Nat) : Nat :=
  let a := r.va + o
  r.pages.getD (a / 2 ^ 16 - r.va / 2 ^ 16) 0 + a % 2 ^ 16

/-- A byte range written by the hitch, line by line, with the clock p. -/
def State.writeLines (s : State) (r : Region) (p : Nat) : Nat → Nat → List Byte → State
  | 0, _, _ => s
  | n + 1, o, bs =>
    if bs = [] then s
    else
      let pa := r.at o
      let k := 128 - pa % 128
      let w := s.storeLine pa (bs.take k) p
      (w.1.hitchHears w.2).writeLines r p n (o + k) (bs.drop k)

/-- The least write time past every lease of the lines of a byte range (R262). -/
def State.pastLeases (s : State) (r : Region) (o n : Nat) : Nat :=
  (List.range n).foldl (fun t j => max t ((s.line (r.at (o + j) / 128)).rts + 1)) 0

/-- A byte range written by the hitch as one store, all with one write time (R286, R313, R315, R316). -/
def State.hitchWrite (s : State) (r : Region) (p o : Nat) (bs : List Byte) : State :=
  s.writeLines r (max p (s.pastLeases r o bs.length)) bs.length o bs

/-- n sectors read by the hitch as loads (R314). -/
def State.hitchRead (s : State) (r : Region) : Nat → Nat → State × List Byte
  | 0, _ => (s, [])
  | n + 1, o =>
    let pa := r.at o
    let h := s.homeRead (pa / 128) s.hitchClock 0
    let q := (h.1.hitchHears h.2.wts).hitchRead r n (o + 32)
    (q.1, s.bytesAt pa 32 ++ q.2)

/-- The BLEN bytes of a block of a region. -/
def State.readBlock (s : State) (h : Shard) (r : Region) (b : Nat) : State × List Byte := s.hitchRead r (h.blen / 32) (h.blen * b)

/-- The BLEN bytes of a block written. -/
def State.writeBlock (s : State) (h : Shard) (r : Region) (b : Nat) (bs : List Byte) : State :=
  s.hitchWrite r s.hitchClock (h.blen * b) bs

/-! ### Fresh weights (R286, R316) -/

/-- W of R286. -/
def freshWidth (blen fmt : Nat) : Nat := ((blen / 4 * fmtBits fmt + 7) / 8 + 15) / 16 * 16

/-- The weights of a block in FFMT, packed (R316, R32, R34). -/
def freshWeights (h : Shard) (bs : List Byte) : List Byte :=
  let codes := (elemsOf 4 (h.blen / 4) bs).map fun w => (encodeElem h.dtab h.ffmt (u32 w)).1
  leBytes (codes.foldr (fun c v => c + 2 ^ fmtBits h.ffmt * v) 0) (freshWidth h.blen h.ffmt)

/-- A multicast of a block to SUBS (R316). -/
def State.multicast (s : State) (h : Shard) (b : Nat) : State :=
  let r := s.readBlock h h.master b
  r.1.tellAll h.subs
    (.freshMulticast h.model h.shard b ((h.step + 1) % 2 ^ 32) (r.1.shardEpoch h) (freshWeights h r.2) r.1.hitchClock)

/-- Multicasts of several blocks. -/
def State.multicasts (s : State) (h : Shard) (bs : List Nat) : State := bs.foldl (fun s b => s.multicast h b) s

def execFreshMulticast (model shard blk tag epoch : Nat) (weights : List Byte) (clock : Nat) (s : State) : Out :=
  match s.shardOf model shard with
  | none => .next s
  | some h =>
    if epoch ≠ s.shardEpoch h then .next s.stray
    else
      whenOn (h.role == 0 && !h.opening && blk < h.nblk) s fun s =>
        let w := freshWidth h.blen h.ffmt
        let bs := padTo (weights.take w) w ++ leBytes tag 4 ++ leBytes 0 12
        let s := s.hitchHears clock
        .next (s.hitchWrite h.master s.hitchClock ((w + 16) * blk) bs)

/-! ### Pushes and update calls (R313, R314) -/

/-- The update call of a block (R314): it enters the owner's run queue, waits to be sent again where that is full, or is lost with the
owner. -/
def State.updateCall (s : State) (h : Shard) (b : Nat) : State :=
  let l := s.whereIs h.owner 64
  let c := s.core l
  if c.uid ≠ h.uid ∨ (c.exited ∧ !c.swapped) then s
  else if c.swapped || c.queueFull then s.setShard { h with calls := unite h.calls [b] }
  else
    let a := (h.stage.va + h.blen * b) % 2 ^ 64
    let f : Flit := { dst := l, src := l, kind := .call, pri := 1, cls := 0, ksf := h.hidx, low := u32 (s.hitchClock - s.base),
                      w0 := u32 b, w1 := u32 h.step, w2 := u32 a, w3 := u32 (a / 2 ^ 32), w4 := 0 }
    let e : QEntry := { kind := .update h.model h.shard b h.step, level := 1, start := u64 ((s.handler l h.hidx).getD 0),
                        args := argWords f.w0 f.w1 f.w2 f.w3, flit := some f, uid := h.uid, tag := 0, serial := 0 }
    ((s.setShard { h with calls := h.calls.filter (· ≠ b) }).setCore l (c.enqueue e)).raise l s.hitchClock

/-- The primary's answer to a push (R313). -/
def State.answerPush (s : State) (p : PnFrom) (st : Nat) : State := s.tell p.smod (.pnPushAnswer { p with clock := s.hitchClock } st)

/-- Whether a COMPLETE record has been passed to the mirror and is not acknowledged yet. -/
def Shard.passesComplete (h : Shard) : Bool :=
  match h.passing with
  | some r => r.status == stComplete
  | none => false

def execPnPushRequest (p : PnFrom) (blk step : Nat) (data : List Byte) (s : State) : Out :=
  match s.shardOf p.model p.shard with
  | none => .next s
  | some h =>
    match s.groupAt h.obj with
    | none => .next s
    | some g =>
      if g.forming then .next (s.holdBack h.obj g (.pnPushRequest p blk step data))
      else if p.epoch ≠ g.epoch then .next (s.answerPush p stEpoch)
      else
        whenOn (h.role == 1 && blk < h.nblk) s fun s =>
          let s := s.hitchHears p.clock
          if step < h.step then .next (s.answerPush p stStale)
          else if h.step < step then .next (s.answerPush p stEarly)
          else if h.recv.testBit blk then .next (s.answerPush p stDuplicate)
          else if h.passesComplete then .next (s.setShard { h with pushes := h.pushes ++ [.pnPushRequest p blk step data] })
          else
            let s := s.writeBlock h h.stage blk (padTo (data.take h.blen) h.blen)
            let h := { h with recv := setBit h.recv blk }
            .next (((s.setShard h).updateCall h blk).answerPush p 0)

def execUpdateCallResend (model shard blk : Nat) (s : State) : Out :=
  match s.shardOf model shard with
  | none => .next s
  | some h => whenOn (h.calls.contains blk && !s.shardForming h) s fun s => .next (s.updateCall h blk)

/-- A block is mirrored (R313): MACK, and the multicast. -/
def State.mirrored (s : State) (h : Shard) (b : Nat) : State :=
  let h := { h with mack := setBit h.mack b }
  (s.setShard h).multicast h b

/-- Work that a member does not start while its group re-forms waits for COMMIT (R295). -/
def State.afterCommit (s : State) (h : Shard) (e : Event) (f : State → Out) : Out :=
  match s.groupAt h.obj with
  | some g => if g.forming then .next (s.holdBack h.obj g e) else f s
  | none => f s

/-- The end of an update task (R313, R314): the block is streamed to the mirror, or mirrored at once where there is none. -/
def execUpdateTaskEnd (model shard blk step : Nat) (s : State) : Out :=
  match s.shardOf model shard with
  | none => .next s
  | some h =>
    s.afterCommit h (.updateTaskEnd model shard blk step) fun s =>
    whenOn (h.role == 1 && h.step == step && h.recv.testBit blk && !h.appl.testBit blk) s fun s =>
      let h := { h with appl := setBit h.appl blk, last := Map.set 0 h.last blk h.step }
      let s := s.hitchHears (s.core (s.whereIs h.owner 64)).pts
      match h.partner with
      | none => .next (s.mirrored h blk)
      | some m =>
        let a := (s.setShard h).readBlock h h.master blk
        let b := a.1.readBlock h h.moment blk
        .next (b.1.tell m (.mirrorStream model shard blk step (b.1.shardEpoch h) a.2 b.2 b.1.hitchClock))

/-- A whole stream at the mirror (R315). -/
def execMirrorStream (model shard blk step epoch : Nat) (master moment : List Byte) (clock : Nat) (s : State) : Out :=
  match s.shardOf model shard with
  | none => .next s
  | some h =>
    if epoch ≠ s.shardEpoch h then .next s.stray
    else
      match h.partner with
      | none => .next s
      | some m =>
        whenOn (h.role == 2 && blk < h.nblk) s fun s =>
          let s := s.hitchHears clock
          let s := (s.writeBlock h h.master blk (master.take h.blen)).writeBlock h h.moment blk (moment.take h.blen)
          let h := { h with appl := setBit h.appl blk, last := Map.set 0 h.last blk step }
          .next ((s.setShard h).tell m (.mirrorAck model shard blk step epoch))

def execMirrorAck (model shard blk step epoch : Nat) (s : State) : Out :=
  match s.shardOf model shard with
  | none => .next s
  | some h =>
    if epoch ≠ s.shardEpoch h then .next s.stray
    else
      s.afterCommit h (.mirrorAck model shard blk step epoch) fun s =>
        whenOn (h.role == 1 && h.step == step && h.appl.testBit blk && !h.mack.testBit blk) s fun s => .next (s.mirrored h blk)

/-! ### Closes (R313) -/

/-- The primary's answer to a close (R313). -/
def State.answerClose (s : State) (p : PnFrom) (st missing : Nat) : State :=
  s.tell p.smod (.closeAnswer { p with clock := s.hitchClock } st missing)

/-- A close record goes to SUBS (R316). -/
def State.sendRecord (s : State) (h : Shard) (r : CloseRec) : State :=
  s.tellAll h.subs (.closeRecordArrival h.model h.shard (s.shardEpoch h) { r with clock := s.hitchClock })

/-- The requests of a close are answered under the epoch of this copy (R294, R313). -/
def State.answerAll (s : State) (h : Shard) (r : CloseRec) (ps : List PnFrom) : State :=
  ps.foldl (fun s p => s.answerClose { p with epoch := s.shardEpoch h } r.status r.missing) s

/-- A close ends with a record that the mirror, if any, has acknowledged (R313): its requests are answered. After COMPLETE a close that was
held for the next step starts; after INCOMPLETE one that has come since the record was passed goes on. -/
def State.closed (s : State) (h : Shard) (r : CloseRec) : State :=
  let base := { h with passing := none, passers := [], cnum := r.num, latest := some r }
  if r.status = stComplete then
    let s := s.answerAll h r h.closers
    let step := (h.step + 1) % 2 ^ 32
    let due := base.later.filter fun e => e.2.1 == step
    let h' := { base with step := step, recv := 0, appl := 0, mack := 0, later := base.later.filter (fun e => e.2.1 != step),
                          pushes := [], calls := [], closing := if due = [] then none else some (due.any (·.2.2)),
                          closers := due.map (·.1) }
    let s := (s.setShard h').sendRecord h' r
    { s with agenda := s.agenda ++ h.pushes.map Action.happen }
  else
    let s := s.answerAll h r h.passers
    (s.setShard base).sendRecord base r

/-- A close record is passed to the mirror, or takes effect at once where there is none (R313). STATE is OPEN again once an INCOMPLETE
one is passed, so that a close that comes meanwhile opens a new one. -/
def State.passClose (s : State) (h : Shard) (st : Nat) : State :=
  let r : CloseRec := { num := h.cnum + 1, status := st, step := h.step, missing := h.unreceived, clock := s.hitchClock }
  let h := if st = stComplete then h else { h with closing := none, closers := [], passers := h.closers }
  match h.partner with
  | none => s.closed h r
  | some m => (s.setShard { h with passing := some r }).tell m (.passedClose h.model h.shard (s.shardEpoch h) r)

/-- Whether every block is settled, or, with FORCE, settled or not received (R313). -/
def Shard.settled (h : Shard) (force : Bool) : Bool :=
  (List.range h.nblk).all fun b =>
    (h.recv.testBit b && h.appl.testBit b && h.mack.testBit b) || (force && !h.recv.testBit b)

/-- Whether the close under way can complete. -/
def Shard.canSettle (h : Shard) : Bool :=
  h.role == 1 && h.passing.isNone && (match h.closing with
    | some f => h.settled f
    | none => false)

def execCloseSettled (model shard : Nat) (s : State) : Out :=
  match s.shardOf model shard with
  | none => .next s
  | some h => whenOn (h.canSettle && !s.shardForming h) s fun s => .next (s.passClose h stComplete)

def execCloseDeadline (model shard : Nat) (s : State) : Out :=
  match s.shardOf model shard with
  | none => .next s
  | some h =>
    whenOn (h.role == 1 && h.closing == some false && h.passing.isNone && h.unreceived != 0 && !s.shardForming h) s fun s =>
      .next (s.passClose h stIncomplete)

def execPnCloseRequest (p : PnFrom) (step : Nat) (force : Bool) (s : State) : Out :=
  match s.shardOf p.model p.shard with
  | none => .next s
  | some h =>
    match s.groupAt h.obj with
    | none => .next s
    | some g =>
      if g.forming then .next (s.holdBack h.obj g (.pnCloseRequest p step force))
      else if p.epoch ≠ g.epoch then .next (s.answerClose p stEpoch 0)
      else
        whenOn (h.role == 1) s fun s =>
          let s := s.hitchHears p.clock
          if step < h.step then .next (s.answerClose p stStale 0)
          else if h.step < step then .next (s.setShard { h with later := h.later ++ [(p, step, force)] })
          else .next (s.setShard { h with closing := some (h.closing.getD false || force), closers := h.closers ++ [p] })

/-- The mirror applies a passed close in one action (R313). -/
def execPassedClose (model shard epoch : Nat) (r : CloseRec) (s : State) : Out :=
  match s.shardOf model shard with
  | none => .next s
  | some h =>
    if epoch ≠ s.shardEpoch h then .next s.stray
    else
      match h.partner with
      | none => .next s
      | some m =>
        whenOn (h.role == 2) s fun s =>
          let s := s.hitchHears r.clock
          let h := { h with cnum := r.num, latest := some r }
          let h := if r.status = stComplete ∧ r.step = h.step then { h with step := (h.step + 1) % 2 ^ 32, appl := 0 } else h
          .next ((s.setShard h).tell m (.closeAck model shard r.num epoch))

def execCloseAck (model shard num epoch : Nat) (s : State) : Out :=
  match s.shardOf model shard with
  | none => .next s
  | some h =>
    if epoch ≠ s.shardEpoch h then .next s.stray
    else
      match h.passing with
      | some r => whenOn (h.role == 1 && r.num == num) s fun s => .next (s.closed h r)
      | none => .next s

/-- A subscriber keeps a newer close record (R318, R309). -/
def execCloseRecordArrival (model shard epoch : Nat) (r : CloseRec) (s : State) : Out :=
  match s.shardOf model shard with
  | none => .next s
  | some h =>
    if epoch ≠ s.shardEpoch h then .next s.stray
    else
      whenOn (h.role == 0 && !h.opening && h.cnum < r.num) s fun s =>
        let s := s.hitchHears r.clock
        let step := if r.status = stComplete then (r.step + 1) % 2 ^ 32 else h.step
        .next (s.setShard { h with cnum := r.num, latest := some { r with clock := s.hitchClock }, step := step })

/-! ### Opening a shard (R311) -/

/-- A context that waits for a reply completes, writing one register. -/
def State.completeAt (s : State) (l k : Nat) (w : Wait) (d : Nat) (v : Word) : State :=
  let s := (s.resume l k w).wr d v
  s.finish s.next

/-- The contexts that wait for an open complete: the opener with one value, those that joined with another. -/
def State.wakeOpeners (s : State) (first other : Word) : List (Nat × Nat × Nat × Bool) → State
  | [] => s
  | (l, k, since, f) :: ws =>
    let s := match (s.slotAt l k).wait with
      | some w =>
        (match w.instr with
        | .pnopen d _ => if w.poll || w.since != since then s else s.completeAt l k w d (if f then first else other)
        | _ => s)
      | none => s
    s.wakeOpeners first other ws

/-- An answer to a waiting open, judged by the epoch of its request (R294), or its DEADLINE (R311). The answer EPOCH names no node, and
the open goes on waiting. -/
def execPnOpenAnswer (model shard : Nat) (m : Option OpenReply) (s : State) : Out :=
  match s.shardOf model shard with
  | none => .next s
  | some h =>
    if m.any (fun r => r.epoch != s.shardEpoch h) then .next s.stray
    else
    whenOn (h.opening && m.all fun r => r.node.isSome) s fun s =>
      let ws := h.openers
      let h := { h with opening := false, openers := [] }
      match m.bind (·.node) with
      | some m =>
        if h.role = 0 then .next ((s.setShard { h with primary := some m }).wakeOpeners 0 1 ws)
        else
          let s := h.subs.foldl (fun s x => s.tell m (.pnOpenRequest x model shard 3 (s.shardEpoch h) [])) s
          .next ((s.setShard { h with partner := some m }).wakeOpeners 0 1 ws)
      | none =>
        if h.role = 0 then .next ((s.dropShard h).wakeOpeners 2 2 ws) else .next ((s.setShard h).wakeOpeners 2 1 ws)

/-- An open's request at another member (R311); role 3 is a primary's word to its mirror of a new subscriber (R309; log entry 19). -/
def execPnOpenRequest (m model shard role epoch : Nat) (dtab : List (Nat × Option Word)) (s : State) : Out :=
  match s.shardOf model shard with
  | none => .next s
  | some h =>
    match s.groupAt h.obj with
    | none => .next s
    | some g =>
      if g.forming then .next (s.holdBack h.obj g (.pnOpenRequest m model shard role epoch dtab))
      else if epoch ≠ g.epoch then
        .next (if role = 3 then s.stray else s.tell m (.pnOpenAnswer model shard (some ⟨epoch, none⟩)))
      else
        match role, h.role with
        | 0, 1 =>
          let h := { h with subs := unite h.subs [m] }
          let s := (s.setShard h).tell m (.pnOpenAnswer model shard (some ⟨epoch, some s.dev.mnum⟩))
          .next (match h.partner with
            | some q => s.tell q (.pnOpenRequest m model shard 3 epoch [])
            | none => s)
        | 1, 2 =>
          if h.partner.isSome then .next s
          else
            let h := { h with partner := some m, dtab := if 8 ≤ h.ffmt then dtab else h.dtab }
            .next ((s.setShard h).tell m (.pnOpenAnswer model shard (some ⟨epoch, some s.dev.mnum⟩)))
        | 3, 2 => .next (s.setShard { h with subs := unite h.subs [m] })
        | _, _ => .next s

/-- k double words loaded one after another by the executing context. -/
def State.loadSpan (s : State) (va : Nat) : Nat → State × Except (Cause × DWord) (List Byte)
  | 0 => (s, .ok [])
  | n + 1 =>
    match s.loadNow (u64 va) 8 with
    | (s, .error e) => (s, .error e)
    | (s, .ok b) =>
      match s.loadSpan ((va + 8) % 2 ^ 64) n with
      | (s, .error e) => (s, .error e)
      | (s, .ok bs) => (s, .ok (b ++ bs))

/-- The pages of a region that translate to module memory with RD and W (R311). -/
def State.regionPages (s : State) (va first : Nat) : Nat → State × Option (List Nat)
  | 0 => (s, some [])
  | n + 1 =>
    let a := max va (2 ^ 16 * first)
    match s.resolve s.issue.lid a .rd with
    | (s, .ok (.memory pa)) =>
      match s.resolve s.issue.lid a .wr with
      | (s, .ok (.memory _)) =>
        match s.regionPages va (first + 1) n with
        | (s, some ps) => (s, some ((pa - a % 2 ^ 16) :: ps))
        | (s, none) => (s, none)
      | (s, _) => (s, none)
    | (s, _) => (s, none)

/-- A region of n bytes, if it translates (R311). -/
def State.regionOf (s : State) (va n : Nat) : State × Option Region :=
  match s.regionPages va (va / 2 ^ 16) ((va + n - 1) / 2 ^ 16 - va / 2 ^ 16 + 1) with
  | (s, some ps) => (s, some { va := va, pages := ps })
  | (s, none) => (s, none)

/-- Whether the fields of a shard record meet R311, before its regions. The MOMENT and STAGE of a subscriber's record may hold any value
(DESIGN CHOICE, log entry 55). -/
def State.recordOk (s : State) (va : Nat) (bs : List Byte) : Bool :=
  let nblk := imgNat bs 4 2
  let blen := imgNat bs 6 2
  let role := imgNat bs 0x2B 1
  let hidx := imgNat bs 0x28 2
  va % 64 == 0 && (bs.drop 0x34).all (· == 0) && 1 ≤ nblk && nblk ≤ 32 && blen % 32 == 0 && 32 ≤ blen && blen ≤ 4096 && role ≤ 2 &&
    imgNat bs 0x2A 1 ≤ 0x0A && 1 ≤ imgNat bs 0x2C 4 &&
    (role == 0 || (imgNat bs 0x10 8 % 32 == 0 && imgNat bs 0x18 8 % 32 == 0 && imgNat bs 0x20 8 % 32 == 0 &&
      (s.handler s.issue.lid hidx).isSome))

/-- The three regions of a record (one for a subscriber), if they translate (R311). -/
def State.recordRegions (s : State) (bs : List Byte) : State × Option (Region × Region × Region) :=
  let n := imgNat bs 4 2
  let blen := imgNat bs 6 2
  let none_ : Region := { va := 0, pages := [] }
  if imgNat bs 0x2B 1 = 0 then
    match s.regionOf (imgNat bs 0x10 8) (n * (freshWidth blen (imgNat bs 0x2A 1) + 16)) with
    | (s, some r) => (s, some (r, none_, none_))
    | (s, none) => (s, none)
  else
    match s.regionOf (imgNat bs 0x10 8) (n * blen) with
    | (s, none) => (s, none)
    | (s, some a) =>
      match s.regionOf (imgNat bs 0x18 8) (n * blen) with
      | (s, none) => (s, none)
      | (s, some b) =>
        match s.regionOf (imgNat bs 0x20 8) (n * blen) with
        | (s, none) => (s, none)
        | (s, some c) => (s, some (a, b, c))

/-- The shard of a record that opens it. -/
def State.newShard (s : State) (k va : Nat) (bs : List Byte) (rs : Region × Region × Region) : Shard :=
  { model := imgNat bs 0 2, shard := imgNat bs 2 2, obj := k, va := va, uid := s.me.uid, owner := s.issue.lid, nblk := imgNat bs 4 2,
    blen := imgNat bs 6 2, hidx := imgNat bs 0x28 2, ffmt := imgNat bs 0x2A 1, role := imgNat bs 0x2B 1, deadline := imgNat bs 0x2C 4,
    master := rs.1, moment := rs.2.1, stage := rs.2.2, step := imgNat bs 0x30 4, recv := 0, appl := 0, mack := 0, last := [],
    closing := none, passing := none, closers := [], passers := [], later := [], pushes := [], partner := none, primary := none, subs := [], cnum := 0,
    latest := none, dtab := s.me.dtab, opening := imgNat bs 0x2B 1 != 2, openers := [], calls := [] }

/-- Whether a hitch has no step table left for a group in slot k (R309). -/
def State.tablesFull (s : State) (k : Nat) : Bool := 4096 ≤ (s.shards.filter fun h => h.role != 0 && h.obj % 4 == k % 4).length

/-- A shard opens (R311): a mirror at once, the others once an answer or DEADLINE comes. -/
def openShard (d n : Nat) (g : Group) (h : Shard) (s : State) : Out :=
  if h.role = 2 then doneWr (s.setShard h) d 0
  else
    let s := s.setShard { h with openers := [(s.issue.lid, s.issue.slot, s.issue.since.getD s.stamp, true)] }
    let ask : Event := .pnOpenRequest s.dev.mnum h.model h.shard h.role g.epoch (if h.role = 1 ∧ 8 ≤ h.ffmt then h.dtab else [])
    let s := s.tellAll ((g.modsOf g.live).filter (· ≠ s.dev.mnum)) ask
    .next (s.waiting false false true (.pnopen d n))

/-- `pnopen` on the group of slot k (R311); `reason` is that of R292 where the slot holds no group here, as for `coll`. A trap, and the wait
for a re-formation, go on from `s0`, the state before the record was loaded (R59, R73). -/
def openOn (d n k reason : Nat) (bs : List Byte) (rs : Region × Region × Region) (s0 s : State) : Out :=
  let va := s.a n
  let grp := imgD bs 8
  match s.groupAt k with
  | none => barrierTrap reason grp (s.backTo s0)
  | some g =>
    if g.amLive = false then barrierTrap 4 grp (s.backTo s0)
    else
      match s.shardOf (imgNat bs 0 2) (imgNat bs 2 2) with
      | some h =>
        if h.va ≠ va.toNat ∨ h.uid ≠ s.me.uid then doneWr s d 3
        else if h.opening then
          let s := s.setShard { h with openers := h.openers ++ [(s.issue.lid, s.issue.slot, s.issue.since.getD s.stamp, false)] }
          .next (s.waiting false false true (.pnopen d n))
        else doneWr s d 1
      | none =>
        if imgNat bs 0x2B 1 ≠ 0 ∧ s.tablesFull k then doneWr s d 4
        else if g.forming then block (.pnopen d n) (s.backTo s0)
        else openShard d n g (s.newShard k va.toNat bs rs) s

def execPnopen (d n : Nat) (s0 : State) : Out :=
  inGroup 6 (fun s =>
    let va := s.a n
    match s.loadSpan va.toNat 8 with
    | (s, .error (c, v)) => trap c v (s.backTo s0)
    | (s, .ok bs) =>
      if s.recordOk va.toNat bs = false then barrierTrap 7 va (s.backTo s0)
      else
        match s.recordRegions bs with
        | (s, none) => barrierTrap 7 va (s.backTo s0)
        | (s, some rs) =>
          let grp := imgD bs 8
          match s.objRef grp with
          | (s, .fails c) => trap c grp (s.backTo s0)
          | (s, .far m a) =>
            (match s.farGroup grp with
            | none => groupRequest (.pnopen d n) grp m a (s.backTo s0)
            | some k => openOn d n k 4 bs rs s0 s)
          | (s, .here k) => openOn d n k 3 bs rs s0 s) s0

/-! ### `pnpush`, `pnclose`, `pnpull`, `pnstat` (R312, R317 to R319) -/

/-- A request of the executing context to a node. -/
def State.pnFrom (s : State) (e : Nat) (h : Shard) : PnFrom :=
  { smod := s.dev.mnum, core := s.issue.lid, slot := s.issue.slot, entry := e, serial := s.serial, model := h.model, shard := h.shard,
    epoch := s.shardEpoch h, clock := s.me.pts }

/-- A request leaves with its entry, and its form waits (R312, R317). -/
def askNode (i : Instr) (e m : Nat) (ev : Event) (s : State) : Out :=
  let s1 := s.setSlot (s.slot.take e .node s.serial 5)
  let s2 : State := { s1 with serial := s1.serial + 1 }
  .next ((s2.tell m ev).waiting false false true i)

/-- `pnpush` (R312): a trap, and the wait for an entry or for a re-formation, go on from the state before the record was loaded (R59,
R73). -/
def execPnpush (d n : Nat) (s0 : State) : Out :=
  inGroup 6 (fun s =>
    let va := s.a n
    match s.loadSpan va.toNat 4 with
    | (s, .error (c, v)) => trap c v (s.backTo s0)
    | (s, .ok bs) =>
      match (s.shardOf (imgNat bs 0 2) (imgNat bs 2 2)).filter fun h => h.role == 0 && !h.opening with
      | none => barrierTrap 6 va (s.backTo s0)
      | some h =>
        let blk := imgNat bs 4 4
        if va.toNat % 32 ≠ 0 ∨ imgNat bs 0xC 4 ≠ h.blen ∨ h.nblk ≤ blk ∨ (bs.drop 0x10).any (· ≠ 0) then barrierTrap 7 va (s.backTo s0)
        else
          match h.primary with
          | none => doneWr s d (u32 stTimeout)
          | some m =>
            match s.slot.freeEntry with
            | none => block (.pnpush d n) (s.backTo s0)
            | some e =>
              if s.shardForming h then block (.pnpush d n) (s.backTo s0)
              else
                match s.loadSpan ((va.toNat + 32) % 2 ^ 64) (h.blen / 8) with
                | (s, .error (c, v)) => trap c v (s.backTo s0)
                | (s, .ok data) => askNode (.pnpush d n) e m (.pnPushRequest (s.pnFrom e h) blk (imgNat bs 8 4) data) s) s0

/-- The shard open here with the record that a form names (R310); a trap goes on from the state before its loads (R73). -/
def namedShard (va : DWord) (subOnly : Bool) (s0 : State) (f : Shard → State → Out) : Out :=
  match s0.loadSpan va.toNat 8 with
  | (s, .error (c, v)) => trap c v (s.backTo s0)
  | (s, .ok bs) =>
    match (s.shardOf (imgNat bs 0 2) (imgNat bs 2 2)).filter fun h =>
        !h.opening && h.va == va.toNat && h.uid == s.me.uid && (!subOnly || h.role == 0) with
    | none => barrierTrap 6 va (s.backTo s0)
    | some h => f h s

/-- The module to which a close goes (R317). -/
def State.closeTarget (s : State) (h : Shard) : Option Nat :=
  match h.role with
  | 0 => h.primary
  | 1 => some s.dev.mnum
  | _ => h.partner

def execPnclose (d n : Nat) (s : State) : Out :=
  inGroup 6 (fun s0 =>
    namedShard (s0.a n) false s0 fun h s =>
      match s.closeTarget h with
      | none => done ((s.wr d (u32 stTimeout)).wr (d + 1) 0)
      | some m =>
        match s.slot.freeEntry with
        | none => block (.pnclose d n) (s.backTo s0)
        | some e =>
          if s.shardForming h then block (.pnclose d n) (s.backTo s0)
          else
            let v := Z (s.g d)
            askNode (.pnclose d n) e m (.pnCloseRequest (s.pnFrom e h) (bits v 0 31) (bits v 31 1 == 1)) s) s

def execPnpull (d n : Nat) (s : State) : Out :=
  inGroup 6 (fun s0 =>
    namedShard (s0.a n) true s0 fun h s =>
      match h.latest with
      | none => block (.pnpull d n) (s.backTo s0)
      | some r =>
        if h.cnum ≤ Z (s.g d) then block (.pnpull d n) (s.backTo s0)
        else
          let s := s.raise s.issue.lid r.clock
          done (((s.wr d (u32 h.cnum)).wr (d + 1) (u32 (r.status + r.step % 2 ^ 24 * 2 ^ 8))).wr (d + 2) (u32 r.missing))) s

def execPnstat (d n : Nat) (s : State) : Out :=
  inGroup 6 (fun s0 =>
    namedShard (s0.a n) false s0 fun h s =>
      let v := Z (s.g d)
      if bits v 31 1 = 1 ∧ h.step ≤ bits v 0 31 then block (.pnstat d n) (s.backTo s0) else doneWr s d (u32 h.step)) s

/-- A request to a node is answered: its entry is freed, and the waiting form completes (R312, R317). -/
def nodeAnswer (p : PnFrom) (st missing : Nat) (s : State) : Out :=
  let tag := p.slot * 16 + p.entry
  match s.entryOf p.core tag p.serial with
  | none => .next s
  | some u =>
    let x := s.slotAt p.core p.slot
    let s := s.setSlotAt p.core p.slot (x.release p.entry)
    match u, x.wait with
    | .node, some w =>
      (match w.instr with
      | .pnpush d _ => let s := (s.resume p.core p.slot w).raise p.core p.clock; doneWr s d (u32 st)
      | .pnclose d _ =>
        let s := (s.resume p.core p.slot w).raise p.core p.clock
        done ((s.wr d (u32 st)).wr (d + 1) (u32 missing))
      | _ => .next s)
    | _, _ => .next s

/-- An answer is judged by the epoch that it carries back (R294). -/
def State.answerStray (s : State) (p : PnFrom) : Bool :=
  match s.shardOf p.model p.shard with
  | some h => s.shardEpoch h != p.epoch
  | none => false

def execPnPushAnswer (p : PnFrom) (st : Nat) (s : State) : Out :=
  if s.answerStray p then .next s.stray else nodeAnswer p st 0 s

/-- The answer to a close, or with TIMEOUT the passing of its deadline (R317). -/
def execCloseAnswer (p : PnFrom) (st missing : Nat) (s : State) : Out :=
  if st ≠ stTimeout ∧ s.answerStray p then .next s.stray else nodeAnswer p st missing s

/-! ### COMMIT (R295 step 4, R306, R320) -/

/-- The mirror becomes primary (R320). -/
def State.promote (s : State) (h : Shard) : State :=
  let h := { h with role := 1, partner := none, recv := h.appl, mack := h.appl, closing := none, passing := none, closers := [], passers := [] }
  let s := match h.latest with
    | some r => s.sendRecord h r
    | none => s
  let r : CloseRec := { num := h.cnum + 1, status := stReformed, step := h.step, missing := h.unreceived, clock := s.hitchClock }
  let h := { h with cnum := r.num, latest := some r }
  ((s.setShard h).sendRecord h r).multicasts h (h.blocks h.appl)

/-- What a COMMIT decides for one shard open here (R320). -/
def State.decideShard (s : State) (g : Group) (ds : List ShardReport) (h : Shard) : State :=
  let mods := g.modsOf g.live
  let gone (m : Option Nat) : Bool := match m with
    | some m => !mods.contains m
    | none => false
  let named := (ds.find? fun d => d.model == h.model && d.shard == h.shard).map (·.module_)
  let h := { h with subs := h.subs.filter fun m => mods.contains m }
  match h.role with
  | 0 => s.setShard { h with primary := if h.opening then h.primary else named }
  | 1 =>
    if gone h.partner then
      let h := { h with partner := none, mack := h.mack ||| h.appl }
      let s := (s.setShard h).multicasts h (h.blocks h.appl)
      match h.passing with
      | some r => s.closed h r
      | none => s
    else s.setShard h
  | _ => if gone h.partner ∧ named = some s.dev.mnum then s.promote h else s.setShard h

/-- What a COMMIT decides for one collective of this member (R306). -/
def State.decideHold (s : State) (ds : List CollDecision) (h : Hold) : State :=
  match ds.find? fun d => d.seq == h.seq with
  | some d => s.endColl h d.status ((h.result.map (·.2)).getD d.data)
  | none => s.endColl h 4 []

/-- What a member held while its group re-formed: an acknowledgement that it had taken counts on in the new epoch (R295). -/
def Event.after (epoch : Nat) : Event → Event
  | .mirrorAck m k b st _ => .mirrorAck m k b st epoch
  | e => e

/-- A COMMIT of R295: only the leader whose PREPARE this copy took last is obeyed (log entry 29). -/
def execCommit (n : Nat) (c : EpochFrom) (live : List Nat) (colls : List CollDecision) (shards : List ShardReport) (s : State) : Out :=
  match s.groupAt n with
  | none => .next s
  | some g =>
    match g.prepared with
    | none => .next s
    | some leader =>
      whenOn (leader == c.leader && decide (g.epoch < c.epoch)) s fun s =>
        let g' := { g with epoch := c.epoch, live := live, forming := false, prepared := none, overdue := false, held := [] }
        let mine := s.holds.filter fun h => h.obj == n && h.epoch == g.epoch && !h.ended
        let s := mine.foldl (fun s h => s.decideHold colls h) (s.setGroup n g')
        let s : State := { s with roots := s.roots.filter fun r => r.obj != n, holds := s.holds.filter fun h => h.obj != n }
        let s := (s.shards.filter fun h => h.obj == n).foldl (fun s h => s.decideShard g' shards h) s
        let s : State := { s with agenda := s.agenda ++ g.held.map fun e => .happen (e.after c.epoch) }
        .next (s.tell (g'.modOf leader) (.commitAck n g.rank))

/-! ### Requests that other modules and cores left unanswered (R272, R299) -/

/-- The deadline of a request to an object of another module (R296, R299). -/
def objectExpires (l k : Nat) (w : Wait) (s : State) : Out :=
  let s := s.resume l k w
  match w.instr with
  | .bjoin d _ => doneWr s (d + 1) 3
  | .binit _ n | .bqry _ n | .gform _ n => trap .remote (s.a n) s
  | i => if i.namesGroup then trap .remote (s.askedObject i) s else .next s

/-- Whether an address names another module. -/
def State.otherModule (s : State) (va : DWord) : Bool := va.toNat / 2 ^ 63 == 1 && bits va.toNat 50 13 != s.dev.mnum

/-- The deadline of a fabric-remote access passes (R272): REMOTE, or status 1 of `ldgt` (R279). A local `ldgt` has no deadline. -/
def accessExpires (l k e : Nat) (w : Wait) (s : State) : Out :=
  let s1 := s.resume l k w
  match w.instr.reads s1 with
  | none =>
    if isCtxout w.instr then .next (s.setSlotAt l k (((s.slotAt l k).release e).lineAnswered 5)) else .next s
  | some (va, _, _) =>
    if s.otherModule va then accessFails w.instr .remote 1 va (s1.setSlotAt l k ((s1.slotAt l k).release e)) else .next s

def execRemoteDeadline (l k e : Nat) (s : State) : Out :=
  let x := s.slotAt l k
  match Map.get none x.entries e with
  | none => .next s
  | some en =>
    let free (s : State) : State := s.setSlotAt l k (x.release e)
    match en.use, x.wait with
    | .access _, some w => accessExpires l k e w s
    | .load _, some w => accessExpires l k e w s
    | .stream _ va, _ =>
      let y := { x with sbuf := x.sbuf.filter (fun b => b.entry != some e), sfail := x.sfail ++ [SFail.mk en.level Cause.remote.code va] }
      .next (s.setSlotAt l k (y.release e))
    | .poolAtomic _ _, _ => .next (s.atomicFails l (k * 16 + e) en.serial 0)
    | .clause _, _ => .next (s.settleClause l (k * 16 + e) en.serial 0)
    | .node, some w =>
      (match w.instr with
      | .pnpush d _ => doneWr ((free s).resume l k w) d (u32 stTimeout)
      | .pnclose d _ => done ((((free s).resume l k w).wr d (u32 stTimeout)).wr (d + 1) 0)
      | _ => .next s)
    | .object, some w => objectExpires l k w (free s)
    | .abandoned, _ => if en.onFabric then .next (free s) else .next s
    | _, _ => .next s

/-- A request packet at its target (R290, R331, R341). -/
def execFabricTargetRequest (p : Packet) (s : State) : Out :=
  whenOn (p.isRequest && p.dmod == s.dev.mnum && p.budget != 0) s fun s =>
    if p.pk < 3 then
      let r := s.targetAccess p
      .next (r.1.answer r.2)
    else
      let s := (s.rebase p.clock).hitchHears p.clock
      match s.export p.addr .rd with
      | .error c => .next ((if c = .memErr then s.report else s).answer (Packet.reply p 7 c.status 0 []))
      | .ok pl =>
        match objPlace pl with
        | .fails c => .next (s.answer (Packet.reply p 7 c.status 0 []))
        | .far _ _ => .next (s.answer (Packet.reply p 7 5 0 []))
        | .here k =>
          if leNat (p.data.take 4) = 3 then .next (s.farForm k p)
          else if leNat (p.data.take 4) = 4 then
            .next (s.answer (objectAnswer p (if (s.groupAt k).isSome then .gives (some (u32 k)) none 0 else .refused 3)))
          else
            match s.barrier k p.smod p.core p.clock true (barOpOf p) with
            | (s, .waits) => .next { s with farWaits := s.farWaits ++ [(k, p)] }
            | (s, r) => .next (s.answer (objectAnswer p r))

end Sys2Proof.Machine
end

