-- ==== Sys2Proof/Machine/Device.lean ====
section
/-! DEFINITION. The device window and the groom (R351 to R372), module resets and power (R2, R359, R372), and the trap of words that are
no instruction (R62). -/

namespace Sys2Proof.Machine

/-! ### Registers of the device window (R352 to R355) -/

/-- QST (R355). -/
def Queue.qst (x : Queue) : Nat :=
  let ph (p : Phase) : Bool := match x.launch with
    | some la => la.phase == p
    | none => false
  bits x.splost 0 16 * 2 ^ 16 + bits x.badw 0 8 * 2 ^ 8 + (ph .saved).toNat * 2 + (ph .placed).toNat

/-- A register of a launch queue: its width in bytes and its value (R355, R177). -/
def Queue.reg (x : Queue) (off : Nat) : Option (Nat × Nat) :=
  match off with
  | 0x40 => some (8, x.cpla.toNat)
  | 0x48 => some (8, x.ptroot.toNat)
  | 0x50 => some (8, x.rvec.toNat)
  | 0x58 => some (8, x.cuta.toNat)
  | 0x60 => some (8, x.sava.toNat)
  | 0x68 => some (4, x.dln)
  | 0x6C => some (4, x.seq.toNat)
  | 0x70 => some (4, x.rst.toNat)
  | 0x74 => some (4, x.qst)
  | 0x80 => some (4, x.lcvres.toNat)
  | 0x84 => some (4, x.lcvcnt.toNat)
  | 0x88 => some (4, x.lcvwin.toNat)
  | 0x8C => some (4, x.stl.toNat * 2 ^ 31 + x.run)
  | _ => none

/-- FWST (R364). -/
def Device.fwst (d : Device) : Nat := d.fwRdy.toNat * 2 ^ 31 + bits d.fwWhy 0 8 * 2 ^ 8 + bits d.fwState 0 4

/-- A register of the module block: its width in bytes and its value (R354). -/
def Device.reg (d : Device) (off : Nat) : Option (Nat × Nat) :=
  match off with
  | 0x00 => some (4, d.mnum)
  | 0x04 => some (4, d.tcnt)
  | 0x08 => some (4, d.fenced.length)
  | 0x10 => some (16, Config.offer)
  | 0x20 => some (16, d.accept.toNat)
  | 0x30 => some (4, d.rbc.toNat)
  | 0x34 => some (4, d.stray.toNat)
  | 0x38 => some (4, d.serr.toNat)
  | 0x3C => some (4, d.uerr.toNat)
  | 0x40 => some (8, d.xroot.toNat)
  | 0x48 => some (4, d.mevt.toNat)
  | 0x50 => some (4, d.svcd)
  | 0x54 => some (4, d.svcw0.toNat)
  | 0x58 => some (4, d.svcw1)
  | 0x5C => some (4, d.svcReq.isSome.toNat)
  | 0x60 => some (4, d.gslot)
  | 0x64 => some (4, d.svst.toNat)
  | 0x68 => some (4, d.gist.toNat)
  | 0xC0 => some (8, d.fwa.toNat)
  | 0xC8 => some (4, d.fwlen.toNat)
  | 0xD0 => some (4, d.fwst)
  | 0xE4 => some (4, d.rpReason * 2 ^ 4 + d.rpState)
  | 0x100 => some (4, Map.get 6250 d.pcap 0)
  | 0x104 => some (4, Map.get 6250 d.pcap 1)
  | 0x108 => some (4, Map.get 6250 d.pcap 2)
  | 0x10C => some (4, Map.get 6250 d.pcap 3)
  | 0x110 => some (4, Map.get 0 d.pwr 0)
  | 0x114 => some (4, Map.get 0 d.pwr 1)
  | 0x118 => some (4, Map.get 0 d.pwr 2)
  | 0x11C => some (4, Map.get 0 d.pwr 3)
  | 0x120 => some (4, d.tampCnt * 2 ^ 16 + d.tampLvl)
  | _ => none

/-- The queue whose block holds an offset (R352). -/
def queueOf (off : Nat) : Option Nat := if 0x10000 ≤ off ∧ off < 0x50000 then some ((off - 0x10000) / 0x1000) else none

/-- The register at an offset. -/
def State.regAt (s : State) (off : Nat) : Option (Nat × Nat) :=
  match queueOf off with
  | some q => (s.queue q).reg (off % 0x1000)
  | none => if off < 0x1000 then s.dev.reg off else none

/-- Whether an access of a size at an offset goes to a write-only register (R354, R355). -/
def writeOnlyAt (off size : Nat) : Bool :=
  (off == 0x80 && size == 64) || (off == 0xCC && size == 4) || (off == 0xE0 && size == 4) ||
    ((queueOf off).isSome && off % 0x1000 == 0 && size == 64)

/-- What a read of the window returns (R352, R353). -/
def State.windowRead (s : State) (off size : Nat) : Nat :=
  let ones := 2 ^ (8 * size) - 1
  if size = 0 ∨ off % size ≠ 0 then ones
  else if writeOnlyAt off size then Config.writeOnly s.free
  else if 0xF0000 ≤ off ∧ off + size ≤ 0xF0410 ∧ (size = 4 ∨ size = 8) then leNat (Map.getList 0 s.dev.msix (off - 0xF0000) size)
  else if 0xF8000 ≤ off ∧ off + size ≤ 0xF8010 ∧ (size = 4 ∨ size = 8) then 0
  else
    match s.regAt off, s.regAt (off / 8 * 8) with
    | some (w, v), half =>
      if w = size then v
      else if size = 4 ∧ w = 8 then v % 2 ^ 32
      else match half with
        | some (8, u) => if size = 4 ∧ off % 8 = 4 then u / 2 ^ 32 else ones
        | _ => ones
    | none, some (8, u) => if size = 4 ∧ off % 8 = 4 then u / 2 ^ 32 else ones
    | none, _ => ones

/-- The RC fields of the module block after a read (R8, R354). -/
def Device.readClear (d : Device) (off : Nat) : Device :=
  match off with
  | 0x34 => { d with stray := 0 }
  | 0x38 => { d with serr := 0 }
  | 0x3C => { d with uerr := 0 }
  | 0x64 => { d with svst := 0 }
  | 0x68 => { d with gist := 0 }
  | 0x120 => { d with tampCnt := 0 }
  | _ => d

/-- The RC fields after a read (R8, R354, R355). -/
def State.readClear (s : State) (off size : Nat) : State :=
  if size ≠ 4 then s
  else
    match queueOf off with
    | some q => if off % 0x1000 = 0x74 then s.setQueue q { s.queue q with splost := 0, badw := 0 } else s
    | none => { s with dev := s.dev.readClear off }

def execReadClear (off size : Nat) (s : State) : Out :=
  whenOn s.dev.power s fun s =>
    let t := s.readClear off size
    .next { t with hostOut := t.hostOut ++ [.read off (s.windowRead off size)],
                   free := if writeOnlyAt off size then s.free + 1 else s.free }

/-- A 64-bit register written whole or by halves (R353). -/
def wr64 (off size base : Nat) (old : DWord) (v : Nat) : Option Nat :=
  if size = 8 ∧ off = base then some (v % 2 ^ 64)
  else if size = 4 ∧ off = base then some (old.toNat / 2 ^ 32 * 2 ^ 32 + v % 2 ^ 32)
  else if size = 4 ∧ off = base + 4 then some (v % 2 ^ 32 * 2 ^ 32 + old.toNat % 2 ^ 32)
  else none

/-- An address with its low n bits stored as 0. -/
def lowClear (v n : Nat) : DWord := u64 (v / 2 ^ n * 2 ^ n)

/-- The 32-bit registers of the module block that a write sets (R8, R354). -/
def Device.write32 (d : Device) (off v : Nat) : Device :=
  match off with
  | 0x48 => { d with mevt := d.mevt &&& ~~~(BitVec.ofNat 8 v) }
  | 0x50 => { d with svcd := v % 2 ^ 20 }
  | 0x54 => { d with svcw0 := u32 v }
  | 0x58 => { d with svcw1 := v % 2 ^ 16 }
  | 0x60 => { d with gslot := v % 2 ^ 20 }
  | 0xC8 => { d with fwlen := u32 v }
  | _ => d

/-- A write to the module block (R354). -/
def Device.write (d : Device) (off size v : Nat) : Device :=
  match wr64 off size 0x40 d.xroot v, wr64 off size 0xC0 d.fwa v with
  | some x, _ => { d with xroot := lowClear x 14 }
  | _, some x => { d with fwa := u64 x }
  | none, none => if size = 4 then d.write32 off v else d

/-- A write to a launch queue's block (R355). -/
def Queue.write (x : Queue) (off size v : Nat) : Queue :=
  match wr64 off size 0x40 x.cpla v, wr64 off size 0x48 x.ptroot v, wr64 off size 0x50 x.rvec v, wr64 off size 0x58 x.cuta v,
    wr64 off size 0x60 x.sava v with
  | some a, _, _, _, _ => { x with cpla := lowClear a 5 }
  | _, some a, _, _, _ => { x with ptroot := lowClear a 14 }
  | _, _, some a, _, _ => { x with rvec := u64 a }
  | _, _, _, some a, _ => { x with cuta := lowClear a 16 }
  | _, _, _, _, some a => { x with sava := lowClear a 16 }
  | _, _, _, _, _ =>
    if size = 4 ∧ off = 0x68 ∧ 1 ≤ v % 2 ^ 20 ∧ v % 2 ^ 20 ≤ 10 ^ 6 then { x with dln := v % 2 ^ 20 }
    else if size = 4 ∧ off = 0x70 then { x with rst := v % 2 == 1 }
    else x

/-- Whether the module takes register writes other than the firmware's (R365). -/
def Device.recovery (d : Device) : Bool := d.stored.isNone

/-- Whether an offset is one of the firmware registers. -/
def firmwareReg (off : Nat) : Bool := 0xC0 ≤ off && off < 0xD4

/-- The queue in whose LREC a write falls (R353). -/
def lrecAt (off : Nat) : Option Nat := (queueOf off).filter fun _ => off % 0x1000 < 64

/-- A write of the window (R352, R353) that is no launch record: LREC takes nothing else. -/
def State.windowWrite (s : State) (off size v : Nat) : State :=
  if size = 0 then s
  else if (lrecAt off).isSome then ((lrecAt off).map s.badWrite).getD s
  else if off % size ≠ 0 then s
  else if 0xF0000 ≤ off ∧ off + size ≤ 0xF0410 ∧ (size = 4 ∨ size = 8) then
    { s with dev := { s.dev with msix := Map.setList 0 s.dev.msix (off - 0xF0000) (leBytes v size) } }
  else
    match queueOf off with
    | some q => s.setQueue q ((s.queue q).write (off % 0x1000) size v)
    | none => if off < 0x1000 then { s with dev := s.dev.write off size v } else s

/-! ### Accepted features, power caps, the module number (R359, R370, R372) -/

/-- Whether some queue has LIVE or SAVED set (R355). -/
def State.liveOrSaved (s : State) : Bool :=
  s.queues.any fun e => match e.2.launch with
    | some la => la.phase != .waiting
    | none => false

/-- Whether the module takes writes to its ordinary registers. -/
def State.windowOpen (s : State) : Bool := s.dev.power && !s.dev.recovery

def execAccept (v : Nat) (s : State) : Out :=
  whenOn (s.windowOpen && !s.liveOrSaved) s fun s =>
    .next { s with dev := { s.dev with accept := (BitVec.ofNat 128 v &&& BitVec.ofNat 128 Config.offer) ||| 1#128 } }

def execPcap (q v : Nat) (s : State) : Out :=
  whenOn (s.windowOpen && q < 4) s fun s =>
    .next { s with dev := { s.dev with pcap := Map.set 6250 s.dev.pcap q (max 1500 (v % 2 ^ 16)) } }

/-- A write of MNUM (R372); in recovery the ROM takes only the firmware registers (R365). -/
def execMnumWrite (v : Nat) (s : State) : Out :=
  whenOn (s.windowOpen && !s.liveOrSaved) s fun s => .next { s with dev := { s.dev with mnum := v % 2 ^ 13 } }

/-! ### Service requests (R199, R361) -/

/-- The flit of a service request (R199). -/
def serviceFlit (d : Device) : Flit :=
  { dst := d.svcd, src := d.svcd, kind := .system, pri := 3, cls := 0, ksf := 0x0300, low := 0, w0 := d.svcw0, w1 := u32 d.svcw1,
    w2 := 0, w3 := 0, w4 := 0 }

/-- A waiting service request is injected. -/
def State.injectService (s : State) : State :=
  match s.dev.svcReq with
  | none => s
  | some f => { s with dev := { s.dev with svcReq := none } }.launchFlit f none 0 0 0

/-- A write to SVCGO (R361): the request waits for RDY (R364), and is injected at once where the firmware serves. -/
def execSvcgo (s : State) : Out :=
  whenOn (s.windowOpen && s.dev.svcReq.isNone) s fun s =>
    let t : State := { s with dev := { s.dev with svcReq := some (serviceFlit s.dev) } }
    .next (if s.dev.fwRdy then t.injectService else t)

/-! ### Group-object images (R293, R362) -/

/-- The member table at MTAB, as words. -/
def State.memberTable (s : State) (a n : Nat) : List Nat := (List.range n).map fun r => leNat (s.bytesAt (a + 4 * r) 4)

/-- Whether the fields of a group image break R293, before its member table. -/
def badImage (bs : List Byte) : Bool :=
  let n := imgNat bs 8 2
  imgNat bs 1 1 != 0 || n ≤ imgNat bs 2 2 || imgNat bs 4 4 == 0 || n == 0 || 8192 < n || imgNat bs 0x0A 2 != 0 ||
    imgNat bs 0x0C 4 == 0 || 10 ^ 6 < imgNat bs 0x0C 4 || (bs.drop 0x18).any (· != 0)

/-- The group of an image (R293), none where the image breaks it or its table cannot be read. -/
def State.groupOfImage (s : State) (bs : List Byte) : State × Option Group :=
  let n := imgNat bs 8 2
  let a := imgNat bs 0x10 8
  if badImage bs then (s, none)
  else if 2 ^ 41 < a + 4 * n then (s, none)
  else if s.badIn a (4 * n) then (s.report, none)
  else
    let ms := s.memberTable a n
    if ms.any (fun m => 2 ^ 13 ≤ m) then (s, none)
    else (s, some { forming := false, rank := imgNat bs 2 2, epoch := imgNat bs 4 4, nmem := n, gdl := imgNat bs 0x0C 4, mtab := a,
                    mods := ms, live := List.range n, lastSeq := none, prepared := none, overdue := false, lead := none, asks := [], held := [] })

/-- Whether the group in a slot has a collective or a shard in progress (R362). -/
def State.groupBusy (s : State) (n : Nat) : Bool :=
  (s.groupAt n).isSome &&
    (s.holds.any (fun h => h.obj == n && !h.ended) || s.roots.any (fun r => r.obj == n && r.st != .released) ||
      s.shards.any fun h => h.obj == n)

/-- An image discarded with a reason (R362). -/
def State.discardImage (s : State) (why : Nat) : State :=
  { s with dev := { s.dev with gist := BitVec.ofNat 8 why } }.mevt 7

/-- A group-object image written into a slot (R362). -/
def State.writeImage (s : State) (n : Nat) (bs : List Byte) : State :=
  if s.groupBusy n then s.discardImage 2
  else if imgNat bs 0 1 = 0 then s.setObj n .free
  else if imgNat bs 0 1 = 2 then
    match s.groupOfImage bs with
    | (s, some g) => s.setGroup n g
    | (s, none) => s.discardImage 1
  else s.discardImage 1

/-- A 64-byte write to GIMG (R362), which waits for RDY (R364). -/
def execGimg (image : List Byte) (s : State) : Out :=
  whenOn (s.windowOpen && image.length == 64) s fun s =>
    .next (if s.dev.fwRdy then s.writeImage s.dev.gslot image
      else { s with dev := { s.dev with images := s.dev.images ++ [(s.dev.gslot, image)] } })

/-! ### Repair commands (R368, R369) -/

/-- RPST set, with the module event of its change (R354, R368). -/
def State.setRepair (s : State) (st why : Nat) : State :=
  { s with dev := { s.dev with rpState := st, rpReason := why } }.mevt 3

/-- Every team of a quarter is fenced. -/
def State.quarterFenced (s : State) (q : Nat) : Bool :=
  (List.range s.dev.tcnt).all fun t => Config.quarterOf t % 4 != q || s.dev.fenced.contains t

/-- The REASON with which a command is refused (R368), none where it runs. -/
def State.repairRefusal (s : State) (op arg : Nat) : Option Nat :=
  match op with
  | 1 => if s.dev.tcnt ≤ arg then some 1 else if s.occupied arg then some 2 else none
  | 2 => if !s.dev.fenced.contains arg || s.dev.gated.contains (Config.quarterOf arg % 4) then some 3 else none
  | 3 => if 127 < arg then some 1 else none
  | 4 => if 3 < arg then some 1 else if s.quarterFenced arg then none else some 4
  | 5 => if s.dev.gated.contains arg then none else some 3
  | _ => some 1

/-- A command that the groom starts (R368): fencing is one action (R369); the others run until they are done. -/
def State.startRepair (s : State) (op arg : Nat) : State :=
  match s.repairRefusal op arg with
  | some why => s.setRepair 3 why
  | none =>
    match op with
    | 1 => { s with dev := { s.dev with
        fenced := if s.dev.fenced.contains arg then s.dev.fenced else s.dev.fenced ++ [arg] } }.setRepair 2 0
    | 2 => { s with dev := { s.dev with fenced := s.dev.fenced.erase arg } }.setRepair 2 0
    | _ => { s with dev := { s.dev with repair := some (op, arg) } }.setRepair 1 0

/-- A write to RPCMD (R368): discarded while a command runs; a command waits for RDY (R364). -/
def repairCommand (op arg : Nat) (s : State) : Out :=
  whenOn (s.windowOpen && s.dev.rpState != 1) s fun s =>
    .next (if s.dev.fwRdy then s.startRepair op arg
      else { s with dev := { s.dev with repair := some (op, arg) } }.setRepair 1 0)

def execRepairFence (t : Nat) (s : State) : Out := repairCommand 1 t s
def execUnfence (t : Nat) (s : State) : Out := repairCommand 2 t s
def execRecal (c : Nat) (s : State) : Out := repairCommand 3 c s
def execGate (q : Nat) (s : State) : Out := repairCommand 4 q s
def execUngate (q : Nat) (s : State) : Out := repairCommand 5 q s

/-- A running command finishes (R368). -/
def execRepairCommandDone (s : State) : Out :=
  whenOn (s.dev.rpState == 1 && s.dev.fwRdy) s fun s =>
    match s.dev.repair with
    | none => .next s
    | some (op, arg) =>
      let g := if op = 4 ∧ !s.dev.gated.contains arg then s.dev.gated ++ [arg]
        else if op = 5 then s.dev.gated.erase arg else s.dev.gated
      .next ({ s with dev := { s.dev with repair := none, gated := g } }.setRepair 2 0)

/-- The queue whose launch record a write carries (R353). -/
def recordAt (off size : Nat) : Option Nat := (lrecAt off).filter fun _ => off % 0x1000 == 0 && size == 64

/-- A write to a register without behaviour of its own (R8, R354, R355); a write to RPCMD of an OP that R368 does not give is refused, and
64 bytes at LREC are a launch record. -/
def execRegisterWrite (off size v : Nat) (s : State) : Out :=
  if off = 0xE0 ∧ size = 4 ∧ (bits v 28 4 = 0 ∨ 5 < bits v 28 4) then repairCommand (bits v 28 4) (bits v 0 28) s
  else whenOn (s.dev.power && (!s.dev.recovery || firmwareReg off)) s fun s =>
    match recordAt off size with
    | some q => execLaunchRecord q (leBytes v size) s
    | none => .next (s.windowWrite off size v)

/-! ### Firmware (R363 to R365) -/

/-- FWST changes (R354, R364). -/
def State.setFirmware (s : State) (st why : Nat) : State :=
  { s with dev := { s.dev with fwState := st, fwWhy := why } }.mevt 2

/-- The reason by which the ROM refuses an image (R363, R364), or its SVN. An image whose zero bytes are not zero is refused with the reason
1 of a bad header (DESIGN CHOICE, log entry 16). -/
def checkImage (bs : List Byte) (least : Nat) : Except Nat Nat :=
  let len := leNat ((bs.drop 8).take 4)
  let svn := leNat ((bs.drop 4).take 4)
  if leNat (bs.take 4) ≠ 0x4D524F47 ∨ 8 * 2 ^ 20 - 4096 < len ∨ bs.length < 0x40 + len + 96 ∨
      ((bs.drop 0x0C).take 52).any (· ≠ 0) then .error 1
  else if Config.ecdsaVerifies bs = false then .error 2
  else if Config.lmsVerifies bs = false then .error 3
  else if svn < least then .error 4
  else .ok svn

/-- STAGE (R364): FWLEN bytes at FWA are read; `stageLen` keeps their number. -/
def execStage (s : State) : Out :=
  whenOn (s.dev.power && (s.dev.fwState == 0 || s.dev.fwState == 2 || s.dev.fwState == 3 || s.dev.fwState == 5)) s fun s =>
    .next ({ s with dev := { s.dev with staged := none, stageLen := s.dev.fwlen.toNat } }.setFirmware 1 0)

/-- The verification of a staged image ends (R363, R364): of the bytes that the host's memory brought, as many as STAGE took from FWLEN, or
of those that the MCTP messages of R372 carried; no image stands for a host read error. -/
def execStageDone (image : Option FwImage) (s : State) : Out :=
  whenOn (s.dev.power && s.dev.fwState == 1 && (image.all fun m => m.outOfBand || m.bytes.length == s.dev.stageLen)) s fun s =>
    match image.map (·.bytes) with
    | none => .next (s.setFirmware 3 5)
    | some bs =>
      match checkImage bs s.dev.fuseMin with
      | .error why => .next (s.setFirmware 3 why)
      | .ok svn => .next ({ s with dev := { s.dev with staged := some svn, stagedHash := Config.imageHash bs } }.setFirmware 2 0)

def execActivate (s : State) : Out :=
  whenOn (s.dev.power && s.dev.fwState == 2) s fun s => .next (s.setFirmware 4 0)

/-- Whether a repair command runs; one that was given while RDY was 0 only waits for RDY (R364). -/
def Device.repairRuns (d : Device) : Bool := d.rpState == 1 && d.fwRdy

/-- At the service point the staged image replaces the stored one and the firmware restarts (R364), when no repair command runs. -/
def execActivation (s : State) : Out :=
  whenOn (s.dev.power && s.dev.fwState == 4 && !s.dev.repairRuns) s fun s =>
    match s.dev.staged with
    | none => .next s
    | some svn =>
      let t : State := { s with dev := { s.dev with
        stored := some svn, storedHash := s.dev.stagedHash, staged := none, fuseMin := max s.dev.fuseMin svn, fwRdy := false } }
      .next (t.mevt 2)

def execFwDiscard (s : State) : Out :=
  whenOn (s.dev.power && (s.dev.fwState == 2 || s.dev.fwState == 3)) s fun s =>
    .next ({ s with dev := { s.dev with staged := none } }.setFirmware 0 0)

/-- The groom's measurements (R366). -/
def Device.measured (d : Device) : Measured :=
  { rom := Config.romHash, image := d.storedHash, svn := d.stored.getD 0, fused := Config.shippedFused ++ d.fused, tcnt := d.tcnt,
    accept := d.accept.toNat }

/-- An answer of the groom from its measurements (R366): signed while it holds its attestation key. -/
def State.answerSpdm (s : State) (bs : List Byte) : State :=
  { s with hostOut := s.hostOut ++ [.spdm (Config.spdmAnswer bs s.dev.measured s.dev.attKeys s.free)], free := s.free + 1 }

/-- What waited for RDY is served (R364). -/
def State.serveWaiting (s : State) : State :=
  let images := s.dev.images
  let queries := s.dev.queries
  let s : State := { s with dev := { s.dev with images := [], queries := [] } }
  let s := s.injectService
  let s := images.foldl (fun (s : State) e => s.writeImage e.1 e.2) s
  let s := queries.foldl (fun (s : State) b => s.answerSpdm b) s
  match s.dev.rpState, s.dev.repair with
  | 1, some (op, arg) => { s with dev := { s.dev with repair := none, rpState := 0 } }.startRepair op arg
  | _, _ => s

/-- The links of the module (R321). -/
def allLinks : List LinkId := (List.range 288).map (fun n => ⟨true, n⟩) ++ (List.range 31).map fun n => ⟨false, n⟩

/-- The firmware starts the training of every link that is down (R363, R345). -/
def State.trainLinks (s : State) : State :=
  let s : State := allLinks.foldl (fun s l => if (s.link l).up then s else s.linkDown l) s
  { s with dev := { s.dev with linksBegun := true } }

/-- Whether some link is in training. -/
def State.linksTrain (s : State) : Bool := s.links.any fun e => e.2.training.isSome

/-- The ROM verifies and starts the stored firmware (R363): the first time after a reset it starts the training of the links, and once
none is in training it sets RDY (R363, R364); the attestation key is derived anew (R366). -/
def execFirmwareBoot (s : State) : Out :=
  whenOn (s.dev.power && !s.dev.fwRdy && s.dev.stored.isSome && !(s.dev.fwState == 4 && s.dev.staged.isSome)) s fun s =>
    if s.dev.linksBegun = false then .next s.trainLinks
    else if s.linksTrain then .next s
    else
    let t : State := { s with dev := { s.dev with fwRdy := true, attKeys := s.dev.idKey } }
    .next (t.setFirmware (if s.dev.fwState = 4 then 0 else s.dev.fwState) s.dev.fwWhy).serveWaiting

def execSpdmRequest (bytes : List Byte) (s : State) : Out :=
  whenOn s.dev.power s fun s =>
    .next (if s.dev.fwRdy then s.answerSpdm bytes else { s with dev := { s.dev with queries := s.dev.queries ++ [bytes] } })

/-! ### Tamper, power and heat (R358, R367, R370, R371) -/

/-- A launch ended by the groom (R358). -/
def State.haltLaunch (s : State) (q : Nat) (la : Launch) : State :=
  s.endLaunch q la 0x0A la.sofar

/-- Launches of some phases ended HALTED, in queue order. -/
def State.haltLaunches (s : State) (on : Phase → Bool) : State :=
  s.queues.foldl (fun (s : State) e => match e.2.launch with
    | some la => if on la.phase then s.haltLaunch e.1 la else s
    | none => s) s

/-- A level-1 event is logged (R367). -/
def State.tamper (s : State) (lvl : Nat) : State :=
  { s with dev := { s.dev with tampCnt := min (s.dev.tampCnt + 1) 0xFFFF, tampLvl := max s.dev.tampLvl lvl } }.mevt 1

/-- The action of level 2 (R367). -/
def State.erase (s : State) (lvl : Nat) : State :=
  let s := s.tamper lvl
  let s : State := { s with
    dev := { s.dev with attKeys := false }, cores := s.cores.map fun e => (e.1, { e.2 with pool := [] }) }
  s.haltLaunches fun p => p == .placed

def execTamperLevel1 (s : State) : Out := whenOn s.dev.power s fun s => .next (s.tamper 1)
def execTamperLevel2 (s : State) : Out := whenOn s.dev.power s fun s => .next (s.erase 2)
def execTamperLevel3 (s : State) : Out :=
  whenOn s.dev.power s fun s =>
    let t := s.erase 3
    .next { t with dev := { t.dev with idKey := false } }

/-- A quarter draws w watts: over its cap its clocks fall one step of 1/64, to 1/8 at least (R370). -/
def execPowerThrottle (q w : Nat) (s : State) : Out :=
  whenOn (s.dev.power && q < 4) s fun s =>
    let t : State := { s with dev := { s.dev with pwr := Map.set 0 s.dev.pwr q (w % 2 ^ 16) } }
    let l := Map.get 0 t.dev.level q
    if Map.get 6250 t.dev.pcap q < w % 2 ^ 16 then
      .next ({ t with dev := { t.dev with level := Map.set 0 t.dev.level q (min (l + 1) 56) } }.mevt 5)
    else .next { t with dev := { t.dev with level := Map.set 0 t.dev.level q (l - 1) } }

def execThermalThrottle (q : Nat) (s : State) : Out :=
  whenOn (s.dev.power && q < 4) s fun s =>
    .next ({ s with dev := { s.dev with level := Map.set 0 s.dev.level q 56 } }.mevt 4)

def execThermalTrip (s : State) : Out :=
  whenOn s.dev.power s fun s =>
    let t := s.haltLaunches fun _ => true
    .next { t with dev := { t.dev with computeOff := true } }

/-! ### Resets and power (R2, R359, R365, R372) -/

/-- The module after a reset: fenced teams are fused, and what the fuses and the groom's store hold stays (R2, R363, R367). What has
left the module has left; the model's own counters go on. -/
def State.restart (s : State) (d : Device) : State :=
  { State.reset with
    agenda := s.agenda, stamp := s.stamp, free := s.free, serial := s.serial, prompt := s.prompt, hostOut := s.hostOut,
    linkOut := s.linkOut, outbox := s.outbox, dev := d }

/-- The module block after a reset. -/
def Device.restarted (d : Device) : Device :=
  { Device.reset with
    mnum := d.mnum, tcnt := d.tcnt - d.fenced.length, stored := d.stored, fuseMin := d.fuseMin, idKey := d.idKey,
    attKeys := false, tampLvl := d.tampLvl, storedHash := d.storedHash, fused := d.fused ++ d.fenced }

def execModuleReset (s : State) : Out :=
  let d := s.dev.restarted
  .next (s.restart { d with tampLvl := if s.dev.power then d.tampLvl else 0, fwState := if d.recovery then 5 else 0 })

/-- Power fails while an image is activated (R365): the ROM boots into recovery. -/
def execActivationPowerFail (s : State) : Out :=
  whenOn (s.dev.power && s.dev.fwState == 4) s fun s =>
    .next (s.restart { s.dev.restarted with stored := none, fwState := 5, tampLvl := 0 })

/-- The module loses power or stops answering (R372). Its memory stands as it was (R288 lists the words of a failed primary) until the
module is reset. -/
def execModulePowerLoss (s : State) : Out :=
  .next { s.restart { s.dev.restarted with
    tcnt := s.dev.tcnt, fenced := s.dev.fenced, fused := s.dev.fused, power := false, tampLvl := 0,
    stored := if s.dev.fwState = 4 then none else s.dev.stored } with mem := s.mem, lines := s.lines, bad := s.bad }

/-- A launch ends without a record (R359). -/
def State.dropLaunch (s : State) (q : Nat) (la : Launch) : State :=
  let s := s.releaseCores q la.uid
  let s : State := { s with shards := s.shards.filter fun h => h.uid != la.uid, away := s.away.filter fun e => e.2.1 != la.uid }
  s.setQueue q { s.queue q with launch := none }

def execAttachmentReset (s : State) : Out :=
  whenOn s.dev.power s fun s =>
    let t := s.queues.foldl (fun (s : State) e => match e.2.launch with
      | some la => s.dropLaunch e.1 la
      | none => s) s
    .next { t with dev := { t.dev with accept := 1 } }

/-! ### Words that are no instruction (R62) -/

/-- The trap that decode or fetch raises before any effect (R56, R58, R62): its cause and TVAL. -/
def execUnassignedWord (cause tval : Nat) (s : State) : Out :=
  .next (s.takeTrap s.issue.lid s.issue.slot (u32 cause) (u64 tval) s.issue.start)

end Sys2Proof.Machine
end

