-- ==== Sys2Proof/Machine/Float.lean ====
section
/-! DEFINITION. Page 1 of R64, scalar half: floating point on b32 words (R105 to R114). -/

namespace Sys2Proof.Machine

/-- A T form on two b32 words (R105). -/
def floatT (f : Word → Word → Word × Nat) (d n : Nat) (t : Option Nat) (s : State) : Out :=
  doneF s d (f (s.opA d n t) (s.opB n t))

/-- A single-operand form on a b32 word (R105). -/
def float1 (f : Word → Word × Nat) (d n : Nat) (s : State) : Out := doneF s d (f (s.g n))

/-- A comparison: 1 or 0 with its flags (R110). -/
def floatCmp (f : Word → Word → Bool × Nat) (d n : Nat) (t : Option Nat) (s : State) : Out :=
  floatT (fun a b => (if (f a b).1 then 1 else 0, (f a b).2)) d n t s

def execFadd (m : RMode) (d n : Nat) (t : Option Nat) (s : State) : Out := floatT (fAdd m) d n t s
def execFsub (m : RMode) (d n : Nat) (t : Option Nat) (s : State) : Out := floatT (fSub m) d n t s
def execFmul (m : RMode) (d n : Nat) (t : Option Nat) (s : State) : Out := floatT (fMul m) d n t s
def execFdiv (m : RMode) (d n : Nat) (t : Option Nat) (s : State) : Out := floatT (fDiv m) d n t s
def execFsqrt (m : RMode) (d n : Nat) (s : State) : Out := float1 (fSqrt m) d n s

/-- A fused form (R107): ±(gs × gt) ± gd, rounded once. -/
def fused (m : RMode) (negP negZ : Bool) (d n t : Nat) (s : State) : Out :=
  doneF s d (fMulAdd m negP negZ (s.g n) (s.g t) (s.g d))

def execFma (m : RMode) (d n t : Nat) (s : State) : Out := fused m false false d n t s
def execFms (m : RMode) (d n t : Nat) (s : State) : Out := fused m false true d n t s
def execFnma (m : RMode) (d n t : Nat) (s : State) : Out := fused m true false d n t s
def execFnms (m : RMode) (d n t : Nat) (s : State) : Out := fused m true true d n t s
def execFmin (d n : Nat) (t : Option Nat) (s : State) : Out := floatT (fMinMax false) d n t s
def execFmax (d n : Nat) (t : Option Nat) (s : State) : Out := floatT (fMinMax true) d n t s
def execFsgn (d n : Nat) (t : Option Nat) (s : State) : Out := floatT (fun a b => (fSgn a b, 0)) d n t s
def execFabs (d n : Nat) (s : State) : Out := float1 (fun a => (a &&& 0x7FFFFFFF#32, 0)) d n s
def execFneg (d n : Nat) (s : State) : Out := float1 (fun a => (a ^^^ 0x80000000#32, 0)) d n s
def execFclass (d n : Nat) (s : State) : Out := float1 (fun a => (fClass a, 0)) d n s
def execFeq (d n : Nat) (t : Option Nat) (s : State) : Out := floatCmp fEq d n t s
def execFlt (d n : Nat) (t : Option Nat) (s : State) : Out := floatCmp fLt d n t s
def execFle (d n : Nat) (t : Option Nat) (s : State) : Out := floatCmp fLe d n t s
def execFcvtiS (m : RMode) (d n : Nat) (s : State) : Out := float1 (fToInt m (-2147483648) 2147483647) d n s
def execFcvtiZ (m : RMode) (d n : Nat) (s : State) : Out := float1 (fToInt m 0 4294967295) d n s
def execFcvtfS (m : RMode) (d n : Nat) (s : State) : Out := float1 (fun a => intToF m (S a)) d n s
def execFcvtfZ (m : RMode) (d n : Nat) (s : State) : Out := float1 (fun a => intToF m (Z a)) d n s
def execFcvthB16 (m : RMode) (d n : Nat) (s : State) : Out :=
  float1 (fun a => let r := narrow b16 m a; (u32 r.1, r.2)) d n s
def execFcvthBf16 (m : RMode) (d n : Nat) (s : State) : Out :=
  float1 (fun a => let r := narrow bf16 m a; (u32 r.1, r.2)) d n s
def execFcvthXB16 (d n : Nat) (s : State) : Out := float1 (fun a => widen b16 (Z a % 2 ^ 16)) d n s
def execFcvthXBf16 (d n : Nat) (s : State) : Out := float1 (fun a => widen bf16 (Z a % 2 ^ 16)) d n s
def execFrnd (m : RMode) (d n : Nat) (s : State) : Out := float1 (fRnd m) d n s

end Sys2Proof.Machine
end

