-- ==== Sys2Proof/Machine/Quad.lean ====
section
/-! DEFINITION. Page 1 of R64, quad half: the quad unit (R249 to R254). Every operand is read before any result is written, and the
flags of the lanes are ORed into FST. -/

namespace Sys2Proof.Machine

/-- A quad written from its four lanes with the lanes' flags (R249). -/
def doneQ (s : State) (d : Nat) (r : Nat → Word × Nat) : Out :=
  done ((s.wrs (4 * d) [(r 0).1, (r 1).1, (r 2).1, (r 3).1]).flags ((r 0).2 ||| (r 1).2 ||| (r 2).2 ||| (r 3).2))

/-- A lanewise T form (R250). -/
def quadT (f : Word → Word → Word × Nat) (d n : Nat) (t : Option Nat) (s : State) : Out :=
  doneQ s d fun i => f (s.lane (quadA d n t) i) (s.lane (quadB n t) i)

/-- A lanewise single-operand form (R250). -/
def quad1 (f : Word → Word × Nat) (d n : Nat) (s : State) : Out :=
  doneQ s d fun i => f (s.lane n i)

def execQadd (m : RMode) (d n : Nat) (t : Option Nat) (s : State) : Out := quadT (fAdd m) d n t s
def execQsub (m : RMode) (d n : Nat) (t : Option Nat) (s : State) : Out := quadT (fSub m) d n t s
def execQmul (m : RMode) (d n : Nat) (t : Option Nat) (s : State) : Out := quadT (fMul m) d n t s
def execQfma (m : RMode) (d n t : Nat) (s : State) : Out :=
  doneQ s d fun i => fMulAdd m false false (s.lane n i) (s.lane t i) (s.lane d i)
def execQmin (d n : Nat) (t : Option Nat) (s : State) : Out := quadT (fMinMax false) d n t s
def execQmax (d n : Nat) (t : Option Nat) (s : State) : Out := quadT (fMinMax true) d n t s
def execQabs (d n : Nat) (s : State) : Out := quad1 (fun a => (a &&& 0x7FFFFFFF#32, 0)) d n s
def execQneg (d n : Nat) (s : State) : Out := quad1 (fun a => (a ^^^ 0x80000000#32, 0)) d n s
def execQiadd (d n : Nat) (t : Option Nat) (s : State) : Out := quadT (fun a b => (a + b, 0)) d n t s
def execQimul (d n : Nat) (t : Option Nat) (s : State) : Out := quadT (fun a b => (a * b, 0)) d n t s
def execQand (d n : Nat) (t : Option Nat) (s : State) : Out := quadT (fun a b => (a &&& b, 0)) d n t s

/-- The exact sum of terms rounded once (R251), with the flags of the terms. -/
def sumRound (m : RMode) (ts : List (FVal × Nat)) : Word × Nat :=
  let r := sumVals m (ts.map Prod.fst)
  roundB32 m (r.1, ts.foldl (fun a t => a ||| t.2) r.2)

/-- `qdot` (R251): without a third quad, t is s. -/
def execQdot (m : RMode) (d n : Nat) (t : Option Nat) (s : State) : Out :=
  doneF s d (sumRound m ((List.range 4).map fun i =>
    mulVals (fval (s.lane n i)) (fval (s.lane (t.getD n) i))))

def execQsum (m : RMode) (d n : Nat) (s : State) : Out :=
  doneF s d (sumRound m ((List.range 4).map fun i => (fval (s.lane n i), 0)))

def execQbcast (d n : Nat) (s : State) : Out := doneQ s d fun _ => (s.g n, 0)

def execQshuf (d n sel : Nat) (s : State) : Out :=
  doneQ s d fun i => (s.lane n (bits sel (2 * i) 2), 0)

def execQsel (d n t : Nat) (s : State) : Out :=
  doneQ s d fun i => (if s.lane d i ≠ 0 then s.lane n i else s.lane t i, 0)

/-- The conditions of `qcmp` (R252). -/
def qcond (c : Nat) (a b : Word) : Bool × Nat :=
  match c with
  | 0 => fEq a b
  | 1 => fLt a b
  | 2 => fLe a b
  | 3 => (a == b, 0)
  | 4 => (decide (S a < S b), 0)
  | _ => (decide (Z a < Z b), 0)

def execQcmp (d n : Nat) (t : Option Nat) (c : Nat) (s : State) : Out :=
  quadT (fun a b => (if (qcond c a b).1 then 0xFFFFFFFF#32 else 0, (qcond c a b).2)) d n t s

/-- The conversions of `qcvt` (R253). -/
def qconv (m : RMode) (c : Nat) (a : Word) : Word × Nat :=
  match c with
  | 0 => fToInt m (-2147483648) 2147483647 a
  | 1 => fToInt m 0 4294967295 a
  | 2 => intToF m (S a)
  | 3 => intToF m (Z a)
  | 4 => let r := narrow bf16 m a; (u32 r.1 <<< 16, r.2)
  | 5 => let r := narrow f19 m a; (u32 r.1 <<< 13, r.2)
  | _ => fRnd m a

def execQcvt (m : RMode) (d n c : Nat) (s : State) : Out := quad1 (qconv m c) d n s

def execQscl (m : RMode) (d n : Nat) (s : State) : Out :=
  doneQ s d fun i => fScale m (s.lane d i) (S (s.g n))

/-- Whether a packed format of R254 takes two words. -/
def packedWide (f : Nat) : Bool := f ∈ [0x01, 0x02, 0x12, 0x13]

/-- The code of lane i in a packed word of format f; `v` holds two words for the 16-bit formats (R254). -/
def packedCode (f v i : Nat) : Nat :=
  if packedWide f then bits v (16 * i) 16
  else if f ∈ [0x06, 0x09] then bits v (6 * i) 6
  else if f ∈ [0x07, 0x0A] then bits v (4 * i) 4
  else bits v (8 * i) 8

/-- A lane decoded from its code: floats to b32, integers extended (R254). -/
def unpackLane (t : Map (Option Word)) (f c : Nat) : Word :=
  if f = 0x10 then sext32 c 1
  else if f = 0x11 then u32 c
  else if f = 0x12 then sext32 c 2
  else if f = 0x13 then u32 c
  else exactB32 (decodeElem t f c)

/-- A lane encoded to its code (R254): integers saturate by R83 without a flag. -/
def packLane (t : Map (Option Word)) (f : Nat) (x : Word) : Nat × Nat :=
  if f = 0x10 then (Z (clampI (-128) 127 (S x)) % 2 ^ 8, 0)
  else if f = 0x11 then (Z (clampI 0 255 (S x)), 0)
  else if f = 0x12 then (Z (clampI (-32768) 32767 (S x)) % 2 ^ 16, 0)
  else if f = 0x13 then (Z (clampI 0 65535 (S x)), 0)
  else encodeElem t f x

def execQdec (d n f : Nat) (s : State) : Out :=
  let v := if packedWide f then s.pair n else Z (s.g n)
  doneQ s d fun i => (unpackLane s.me.dtab f (packedCode f v i), 0)

/-- The packed width of a lane (R254). -/
def packedBits (f : Nat) : Nat :=
  if packedWide f then 16 else if f ∈ [0x06, 0x09] then 6 else if f ∈ [0x07, 0x0A] then 4 else 8

def execQenc (d n f : Nat) (s : State) : Out :=
  let r := fun i => packLane s.me.dtab f (s.lane n i)
  let w := 2 ^ packedBits f
  let v := (r 0).1 + w * ((r 1).1 + w * ((r 2).1 + w * (r 3).1))
  let s' := if packedWide f then s.wrPair d v else s.wr d (u32 v)
  done (s'.flags ((r 0).2 ||| (r 1).2 ||| (r 2).2 ||| (r 3).2))

end Sys2Proof.Machine
end

