-- ==== Sys2Proof/Machine/Dispatch.lean ====
section
/-! DEFINITION. The meaning of every row of spec/opcode_table.json: one arm per constructor of Instr. -/

namespace Sys2Proof.Machine

def exec (i : Instr) (s : State) : Host.Outcome State Fault Refusal :=
  match i with
  | .add d n t => Sys2Proof.Machine.execAdd d n t s
  | .sub d n t => Sys2Proof.Machine.execSub d n t s
  | .mul d n t => Sys2Proof.Machine.execMul d n t s
  | .mulh d n t => Sys2Proof.Machine.execMulh d n t s
  | .and d n t => Sys2Proof.Machine.execAnd d n t s
  | .or d n t => Sys2Proof.Machine.execOr d n t s
  | .xor d n t => Sys2Proof.Machine.execXor d n t s
  | .andn d n t => Sys2Proof.Machine.execAndn d n t s
  | .shl d n t => Sys2Proof.Machine.execShl d n t s
  | .shr d n t => Sys2Proof.Machine.execShr d n t s
  | .sra d n t => Sys2Proof.Machine.execSra d n t s
  | .ror d n t => Sys2Proof.Machine.execRor d n t s
  | .div d n t => Sys2Proof.Machine.execDiv d n t s
  | .divz d n t => Sys2Proof.Machine.execDivz d n t s
  | .rem d n t => Sys2Proof.Machine.execRem d n t s
  | .remz d n t => Sys2Proof.Machine.execRemz d n t s
  | .min d n t => Sys2Proof.Machine.execMin d n t s
  | .max d n t => Sys2Proof.Machine.execMax d n t s
  | .minz d n t => Sys2Proof.Machine.execMinz d n t s
  | .maxz d n t => Sys2Proof.Machine.execMaxz d n t s
  | .slt d n t => Sys2Proof.Machine.execSlt d n t s
  | .sltz d n t => Sys2Proof.Machine.execSltz d n t s
  | .seq d n t => Sys2Proof.Machine.execSeq d n t s
  | .sne d n t => Sys2Proof.Machine.execSne d n t s
  | .mulhz d n t => Sys2Proof.Machine.execMulhz d n t s
  | .clz d n => Sys2Proof.Machine.execClz d n s
  | .ctz d n => Sys2Proof.Machine.execCtz d n s
  | .popc d n => Sys2Proof.Machine.execPopc d n s
  | .brev d n => Sys2Proof.Machine.execBrev d n s
  | .sextB d n => Sys2Proof.Machine.execSextB d n s
  | .sextH d n => Sys2Proof.Machine.execSextH d n s
  | .zextB d n => Sys2Proof.Machine.execZextB d n s
  | .zextH d n => Sys2Proof.Machine.execZextH d n s
  | .satsB d n => Sys2Proof.Machine.execSatsB d n s
  | .satsH d n => Sys2Proof.Machine.execSatsH d n s
  | .satzB d n => Sys2Proof.Machine.execSatzB d n s
  | .satzH d n => Sys2Proof.Machine.execSatzH d n s
  | .mov d n => Sys2Proof.Machine.execMov d n s
  | .mfs x d n => Sys2Proof.Machine.execMfs x d n s
  | .mts x d n => Sys2Proof.Machine.execMts x d n s
  | .aadd d n => Sys2Proof.Machine.execAadd d n s
  | .asub d n => Sys2Proof.Machine.execAsub d n s
  | .amov d n => Sys2Proof.Machine.execAmov d n s
  | .alea d n imm => Sys2Proof.Machine.execAlea d n imm s
  | .aget d n => Sys2Proof.Machine.execAget d n s
  | .agetHi d n => Sys2Proof.Machine.execAgetHi d n s
  | .aaddi d imm => Sys2Proof.Machine.execAaddi d imm s
  | .apc d imm => Sys2Proof.Machine.execApc d imm s
  | .li d imm => Sys2Proof.Machine.execLi d imm s
  | .addi d imm => Sys2Proof.Machine.execAddi d imm s
  | .andi d imm => Sys2Proof.Machine.execAndi d imm s
  | .ori d imm => Sys2Proof.Machine.execOri d imm s
  | .xori d imm => Sys2Proof.Machine.execXori d imm s
  | .shli d imm => Sys2Proof.Machine.execShli d imm s
  | .shri d imm => Sys2Proof.Machine.execShri d imm s
  | .srai d imm => Sys2Proof.Machine.execSrai d imm s
  | .slti d imm => Sys2Proof.Machine.execSlti d imm s
  | .j imm => Sys2Proof.Machine.execJ imm s
  | .call imm => Sys2Proof.Machine.execCall imm s
  | .jr n => Sys2Proof.Machine.execJr n s
  | .callr n => Sys2Proof.Machine.execCallr n s
  | .beq d n imm => Sys2Proof.Machine.execBeq d n imm s
  | .bne d n imm => Sys2Proof.Machine.execBne d n imm s
  | .blt d n imm => Sys2Proof.Machine.execBlt d n imm s
  | .bge d n imm => Sys2Proof.Machine.execBge d n imm s
  | .bltz d n imm => Sys2Proof.Machine.execBltz d n imm s
  | .bgez d n imm => Sys2Proof.Machine.execBgez d n imm s
  | .bz d imm => Sys2Proof.Machine.execBz d imm s
  | .bnz d imm => Sys2Proof.Machine.execBnz d imm s
  | .loop d imm => Sys2Proof.Machine.execLoop d imm s
  | .ldp z d n imm => Sys2Proof.Machine.execLdp z d n imm s
  | .ldpBS z d n imm => Sys2Proof.Machine.execLdpBS z d n imm s
  | .stp z d n imm => Sys2Proof.Machine.execStp z d n imm s
  | .ldpq d n imm => Sys2Proof.Machine.execLdpq d n imm s
  | .stpq d n imm => Sys2Proof.Machine.execStpq d n imm s
  | .ldps d n imm => Sys2Proof.Machine.execLdps d n imm s
  | .stpf d n imm => Sys2Proof.Machine.execStpf d n imm s
  | .sete d n imm => Sys2Proof.Machine.execSete d n imm s
  | .tstf d n imm => Sys2Proof.Machine.execTstf d n imm s
  | .hbind d h => Sys2Proof.Machine.execHbind d h s
  | .hwait d h => Sys2Proof.Machine.execHwait d h s
  | .hfree d h => Sys2Proof.Machine.execHfree d h s
  | .hadv d h => Sys2Proof.Machine.execHadv d h s
  | .hpub d h => Sys2Proof.Machine.execHpub d h s
  | .hld d h => Sys2Proof.Machine.execHld d h s
  | .hst d h => Sys2Proof.Machine.execHst d h s
  | .hcnt d h => Sys2Proof.Machine.execHcnt d h s
  | .fadd m d n t => Sys2Proof.Machine.execFadd m d n t s
  | .fsub m d n t => Sys2Proof.Machine.execFsub m d n t s
  | .fmul m d n t => Sys2Proof.Machine.execFmul m d n t s
  | .fdiv m d n t => Sys2Proof.Machine.execFdiv m d n t s
  | .fsqrt m d n => Sys2Proof.Machine.execFsqrt m d n s
  | .fma m d n t => Sys2Proof.Machine.execFma m d n t s
  | .fms m d n t => Sys2Proof.Machine.execFms m d n t s
  | .fnma m d n t => Sys2Proof.Machine.execFnma m d n t s
  | .fnms m d n t => Sys2Proof.Machine.execFnms m d n t s
  | .fmin d n t => Sys2Proof.Machine.execFmin d n t s
  | .fmax d n t => Sys2Proof.Machine.execFmax d n t s
  | .fsgn d n t => Sys2Proof.Machine.execFsgn d n t s
  | .fabs d n => Sys2Proof.Machine.execFabs d n s
  | .fneg d n => Sys2Proof.Machine.execFneg d n s
  | .fclass d n => Sys2Proof.Machine.execFclass d n s
  | .feq d n t => Sys2Proof.Machine.execFeq d n t s
  | .flt d n t => Sys2Proof.Machine.execFlt d n t s
  | .fle d n t => Sys2Proof.Machine.execFle d n t s
  | .fcvtiS m d n => Sys2Proof.Machine.execFcvtiS m d n s
  | .fcvtiZ m d n => Sys2Proof.Machine.execFcvtiZ m d n s
  | .fcvtfS m d n => Sys2Proof.Machine.execFcvtfS m d n s
  | .fcvtfZ m d n => Sys2Proof.Machine.execFcvtfZ m d n s
  | .fcvthB16 m d n => Sys2Proof.Machine.execFcvthB16 m d n s
  | .fcvthBf16 m d n => Sys2Proof.Machine.execFcvthBf16 m d n s
  | .fcvthXB16 d n => Sys2Proof.Machine.execFcvthXB16 d n s
  | .fcvthXBf16 d n => Sys2Proof.Machine.execFcvthXBf16 d n s
  | .frnd m d n => Sys2Proof.Machine.execFrnd m d n s
  | .qadd m d n t => Sys2Proof.Machine.execQadd m d n t s
  | .qsub m d n t => Sys2Proof.Machine.execQsub m d n t s
  | .qmul m d n t => Sys2Proof.Machine.execQmul m d n t s
  | .qfma m d n t => Sys2Proof.Machine.execQfma m d n t s
  | .qdot m d n t => Sys2Proof.Machine.execQdot m d n t s
  | .qsum m d n => Sys2Proof.Machine.execQsum m d n s
  | .qmin d n t => Sys2Proof.Machine.execQmin d n t s
  | .qmax d n t => Sys2Proof.Machine.execQmax d n t s
  | .qabs d n => Sys2Proof.Machine.execQabs d n s
  | .qneg d n => Sys2Proof.Machine.execQneg d n s
  | .qbcast d n => Sys2Proof.Machine.execQbcast d n s
  | .qshuf d n sel => Sys2Proof.Machine.execQshuf d n sel s
  | .qsel d n t => Sys2Proof.Machine.execQsel d n t s
  | .qcmp d n t c => Sys2Proof.Machine.execQcmp d n t c s
  | .qiadd d n t => Sys2Proof.Machine.execQiadd d n t s
  | .qimul d n t => Sys2Proof.Machine.execQimul d n t s
  | .qand d n t => Sys2Proof.Machine.execQand d n t s
  | .qcvt m d n c => Sys2Proof.Machine.execQcvt m d n c s
  | .qdec d n f => Sys2Proof.Machine.execQdec d n f s
  | .qenc d n f => Sys2Proof.Machine.execQenc d n f s
  | .qscl m d n => Sys2Proof.Machine.execQscl m d n s
  | .msg d k => Sys2Proof.Machine.execMsg d k s
  | .callm d k => Sys2Proof.Machine.execCallm d k s
  | .clause v0 v1 v2 => Sys2Proof.Machine.execClause v0 v1 v2 s
  | .mcast d k => Sys2Proof.Machine.execMcast d k s
  | .mbind d h => Sys2Proof.Machine.execMbind d h s
  | .bnc d h => Sys2Proof.Machine.execBnc d h s
  | .spawn d n p => Sys2Proof.Machine.execSpawn d n p s
  | .task n p => Sys2Proof.Machine.execTask n p s
  | .waite d => Sys2Proof.Machine.execWaite d s
  | .pri n => Sys2Proof.Machine.execPri n s
  | .node d n => Sys2Proof.Machine.execNode d n s
  | .sig d => Sys2Proof.Machine.execSig d s
  | .gcomb d n => Sys2Proof.Machine.execGcomb d n s
  | .gsplit d n => Sys2Proof.Machine.execGsplit d n s
  | .gdamp d n => Sys2Proof.Machine.execGdamp d n s
  | .glin d n => Sys2Proof.Machine.execGlin d n s
  | .gmean d n => Sys2Proof.Machine.execGmean d n s
  | .ginfo d n => Sys2Proof.Machine.execGinfo d n s
  | .gresd d n => Sys2Proof.Machine.execGresd d n s
  | .slget d n => Sys2Proof.Machine.execSlget d n s
  | .slput d n => Sys2Proof.Machine.execSlput d n s
  | .slret d n => Sys2Proof.Machine.execSlret d n s
  | .slnew d n => Sys2Proof.Machine.execSlnew d n s
  | .belief d => Sys2Proof.Machine.execBelief d s
  | .cvupd d => Sys2Proof.Machine.execCvupd d s
  | .cvrd d => Sys2Proof.Machine.execCvrd d s
  | .ftype d n => Sys2Proof.Machine.execFtype d n s
  | .snap d => Sys2Proof.Machine.execSnap d s
  | .mark d => Sys2Proof.Machine.execMark d s
  | .cutst d => Sys2Proof.Machine.execCutst d s
  | .ldg z d n imm => Sys2Proof.Machine.execLdg z d n imm s
  | .ldgBS z d n imm => Sys2Proof.Machine.execLdgBS z d n imm s
  | .stg z d n imm => Sys2Proof.Machine.execStg z d n imm s
  | .stgn z d n imm => Sys2Proof.Machine.execStgn z d n imm s
  | .ldgtW d n imm => Sys2Proof.Machine.execLdgtW d n imm s
  | .ldgtD d n imm => Sys2Proof.Machine.execLdgtD d n imm s
  | .pref n imm => Sys2Proof.Machine.execPref n imm s
  | .renew n imm => Sys2Proof.Machine.execRenew n imm s
  | .discard d n imm => Sys2Proof.Machine.execDiscard d n imm s
  | .fence c => Sys2Proof.Machine.execFence c s
  | .tick n => Sys2Proof.Machine.execTick n s
  | .clkj d => Sys2Proof.Machine.execClkj d s
  | .amadd w d n imm => Sys2Proof.Machine.execAmadd w d n imm s
  | .amand w d n imm => Sys2Proof.Machine.execAmand w d n imm s
  | .amor w d n imm => Sys2Proof.Machine.execAmor w d n imm s
  | .amxor w d n imm => Sys2Proof.Machine.execAmxor w d n imm s
  | .ammin w d n imm => Sys2Proof.Machine.execAmmin w d n imm s
  | .ammax w d n imm => Sys2Proof.Machine.execAmmax w d n imm s
  | .amminz w d n imm => Sys2Proof.Machine.execAmminz w d n imm s
  | .ammaxz w d n imm => Sys2Proof.Machine.execAmmaxz w d n imm s
  | .amswp w d n imm => Sys2Proof.Machine.execAmswp w d n imm s
  | .amcas w d n imm => Sys2Proof.Machine.execAmcas w d n imm s
  | .amfadd d n imm => Sys2Proof.Machine.execAmfadd d n imm s
  | .amaddRemote w d n t imm => Sys2Proof.Machine.execAmaddRemote w d n t imm s
  | .amandRemote w d n t imm => Sys2Proof.Machine.execAmandRemote w d n t imm s
  | .amorRemote w d n t imm => Sys2Proof.Machine.execAmorRemote w d n t imm s
  | .amxorRemote w d n t imm => Sys2Proof.Machine.execAmxorRemote w d n t imm s
  | .amminRemote w d n t imm => Sys2Proof.Machine.execAmminRemote w d n t imm s
  | .ammaxRemote w d n t imm => Sys2Proof.Machine.execAmmaxRemote w d n t imm s
  | .amminzRemote w d n t imm => Sys2Proof.Machine.execAmminzRemote w d n t imm s
  | .ammaxzRemote w d n t imm => Sys2Proof.Machine.execAmmaxzRemote w d n t imm s
  | .amswpRemote w d n t imm => Sys2Proof.Machine.execAmswpRemote w d n t imm s
  | .amcasRemote w d n t imm => Sys2Proof.Machine.execAmcasRemote w d n t imm s
  | .amfaddRemote d n t imm => Sys2Proof.Machine.execAmfaddRemote d n t imm s
  | .ylease n => Sys2Proof.Machine.execYlease n s
  | .yzero d => Sys2Proof.Machine.execYzero d s
  | .yfmt d => Sys2Proof.Machine.execYfmt d s
  | .yldb d n t => Sys2Proof.Machine.execYldb d n t s
  | .ymma d n => Sys2Proof.Machine.execYmma d n s
  | .ymmaRa d n => Sys2Proof.Machine.execYmmaRa d n s
  | .ymmaRb d n => Sys2Proof.Machine.execYmmaRb d n s
  | .ymmaRr d n => Sys2Proof.Machine.execYmmaRr d n s
  | .yst d n => Sys2Proof.Machine.execYst d n s
  | .ywait d => Sys2Proof.Machine.execYwait d s
  | .ypoll d => Sys2Proof.Machine.execYpoll d s
  | .yprog d => Sys2Proof.Machine.execYprog d s
  | .yres d => Sys2Proof.Machine.execYres d s
  | .kset n => Sys2Proof.Machine.execKset n s
  | .kgo d => Sys2Proof.Machine.execKgo d s
  | .kwait d => Sys2Proof.Machine.execKwait d s
  | .kpoll d => Sys2Proof.Machine.execKpoll d s
  | .tbinit d n => Sys2Proof.Machine.execTbinit d n s
  | .tbarr d n => Sys2Proof.Machine.execTbarr d n s
  | .tbwait d n => Sys2Proof.Machine.execTbwait d n s
  | .bjoin d n => Sys2Proof.Machine.execBjoin d n s
  | .binit d n => Sys2Proof.Machine.execBinit d n s
  | .bqry d n => Sys2Proof.Machine.execBqry d n s
  | .coll d n imm => Sys2Proof.Machine.execColl d n imm s
  | .cwait d => Sys2Proof.Machine.execCwait d s
  | .gform d n => Sys2Proof.Machine.execGform d n s
  | .pnopen d n => Sys2Proof.Machine.execPnopen d n s
  | .pnpush d n => Sys2Proof.Machine.execPnpush d n s
  | .pnpull d n => Sys2Proof.Machine.execPnpull d n s
  | .pnclose d n => Sys2Proof.Machine.execPnclose d n s
  | .pnstat d n => Sys2Proof.Machine.execPnstat d n s
  | .trap n => Sys2Proof.Machine.execTrap n s
  | .brk n => Sys2Proof.Machine.execBrk n s
  | .tlbinv d n => Sys2Proof.Machine.execTlbinv d n s
  | .migr d => Sys2Proof.Machine.execMigr d s
  | .ctxout d n => Sys2Proof.Machine.execCtxout d n s
  | .ctxin d n => Sys2Proof.Machine.execCtxin d n s
  | .fwdset d n => Sys2Proof.Machine.execFwdset d n s
  | .slice d => Sys2Proof.Machine.execSlice d s
  | .lretr d n => Sys2Proof.Machine.execLretr d n s
  | .lstat d n => Sys2Proof.Machine.execLstat d n s
  | .lctl d n => Sys2Proof.Machine.execLctl d n s
  | .ret => Sys2Proof.Machine.execRet s
  | .done => Sys2Proof.Machine.execDone s
  | .exit => Sys2Proof.Machine.execExit s
  | .cvclr => Sys2Proof.Machine.execCvclr s
  | .yfree => Sys2Proof.Machine.execYfree s
  | .yrot => Sys2Proof.Machine.execYrot s
  | .rett => Sys2Proof.Machine.execRett s
  | .csync => Sys2Proof.Machine.execCsync s
  | .halt => Sys2Proof.Machine.execHalt s
  | .ctrlRetrain l => Sys2Proof.Machine.execCtrlRetrain l s
  | .notice lid k => Sys2Proof.Machine.execNotice lid k s
  | .stepTrap lid k => Sys2Proof.Machine.execStepTrap lid k s
  | .taskDispatch lid => Sys2Proof.Machine.execTaskDispatch lid s
  | .clauseExecute lid => Sys2Proof.Machine.execClauseExecute lid s
  | .dataDelivery f => Sys2Proof.Machine.execDataDelivery f s
  | .callDelivery f => Sys2Proof.Machine.execCallDelivery f s
  | .clauseDelivery f => Sys2Proof.Machine.execClauseDelivery f s
  | .bounceDelivery f => Sys2Proof.Machine.execBounceDelivery f s
  | .spawnRequest f => Sys2Proof.Machine.execSpawnRequest f s
  | .spawnReply f => Sys2Proof.Machine.execSpawnReply f s
  | .sigDelivery f => Sys2Proof.Machine.execSigDelivery f s
  | .serviceRequest f => Sys2Proof.Machine.execServiceRequest f s
  | .fwdsetRequest f => Sys2Proof.Machine.execFwdsetRequest f s
  | .fwdsetReply f => Sys2Proof.Machine.execFwdsetReply f s
  | .remoteAtomicRequest f => Sys2Proof.Machine.execRemoteAtomicRequest f s
  | .remoteAtomicExecute lid => Sys2Proof.Machine.execRemoteAtomicExecute lid s
  | .remoteAtomicReply f => Sys2Proof.Machine.execRemoteAtomicReply f s
  | .clauseAck f => Sys2Proof.Machine.execClauseAck f s
  | .remoteDeadline lid k entry => Sys2Proof.Machine.execRemoteDeadline lid k entry s
  | .goldenEpoch => Sys2Proof.Machine.execGoldenEpoch s
  | .homeLoad id => Sys2Proof.Machine.execHomeLoad id s
  | .homeStore id => Sys2Proof.Machine.execHomeStore id s
  | .homeAtomic id => Sys2Proof.Machine.execHomeAtomic id s
  | .memoryReply r => Sys2Proof.Machine.execMemoryReply r s
  | .streamingDrain lid k j => Sys2Proof.Machine.execStreamingDrain lid k j s
  | .idleClockAdvance lid => Sys2Proof.Machine.execIdleClockAdvance lid s
  | .rebase => Sys2Proof.Machine.execRebase s
  | .hostLoadCompletion lid k data => Sys2Proof.Machine.execHostLoadCompletion lid k data s
  | .hostReadTimeout lid k => Sys2Proof.Machine.execHostReadTimeout lid k s
  | .yokeLeaseGrant team => Sys2Proof.Machine.execYokeLeaseGrant team s
  | .kstep lid => Sys2Proof.Machine.execKstep lid s
  | .yzeroJob lid => Sys2Proof.Machine.execYzeroJob lid s
  | .ystJob lid => Sys2Proof.Machine.execYstJob lid s
  | .yokeJobStop lid far => Sys2Proof.Machine.execYokeJobStop lid far s
  | .tugSize lid id => Sys2Proof.Machine.execTugSize lid id s
  | .tugSectorLand lid id => Sys2Proof.Machine.execTugSectorLand lid id s
  | .tugTableLoad lid id => Sys2Proof.Machine.execTugTableLoad lid id s
  | .tugStop lid id far => Sys2Proof.Machine.execTugStop lid id far s
  | .launchRecord q bytes => Sys2Proof.Machine.execLaunchRecord q bytes s
  | .launchPlacement => Sys2Proof.Machine.execLaunchPlacement s
  | .restorePlacement => Sys2Proof.Machine.execRestorePlacement s
  | .doneMessage q team => Sys2Proof.Machine.execDoneMessage q team s
  | .convergenceWindow q => Sys2Proof.Machine.execConvergenceWindow q s
  | .sliceExpiry q => Sys2Proof.Machine.execSliceExpiry q s
  | .markerArrival f => Sys2Proof.Machine.execMarkerArrival f s
  | .cutStartArrival q k => Sys2Proof.Machine.execCutStartArrival q k s
  | .cutComplete q => Sys2Proof.Machine.execCutComplete q s
  | .cutCompletionArrival q k => Sys2Proof.Machine.execCutCompletionArrival q k s
  | .linkFlitReceive l f => Sys2Proof.Machine.execLinkFlitReceive l f s
  | .linkAck l n => Sys2Proof.Machine.execLinkAck l n s
  | .linkNak l n => Sys2Proof.Machine.execLinkNak l n s
  | .ackTimer l => Sys2Proof.Machine.execAckTimer l s
  | .linkAckTimeout l => Sys2Proof.Machine.execLinkAckTimeout l s
  | .trainingRound l passed partner peer => Sys2Proof.Machine.execTrainingRound l passed partner peer s
  | .handbackRequest l lane => Sys2Proof.Machine.execHandbackRequest l lane s
  | .handbackRefused l lane => Sys2Proof.Machine.execHandbackRefused l lane s
  | .laneReturn l r => Sys2Proof.Machine.execLaneReturn l r s
  | .laneFail l r => Sys2Proof.Machine.execLaneFail l r s
  | .reachWord p l w => Sys2Proof.Machine.execReachWord p l w s
  | .routingNotice p l inRouting peer => Sys2Proof.Machine.execRoutingNotice p l inRouting peer s
  | .packetForward p held => Sys2Proof.Machine.execPacketForward p held s
  | .fabricTargetRequest p => Sys2Proof.Machine.execFabricTargetRequest p s
  | .barrierCompletion m obj phase pclk => Sys2Proof.Machine.execBarrierCompletion m obj phase pclk s
  | .form obj src drop => Sys2Proof.Machine.execForm obj src drop s
  | .prepare obj leader => Sys2Proof.Machine.execPrepare obj leader s
  | .reformationDeadline obj => Sys2Proof.Machine.execReformationDeadline obj s
  | .commit obj epoch live colls shards => Sys2Proof.Machine.execCommit obj epoch live colls shards s
  | .commitTimeout obj => Sys2Proof.Machine.execCommitTimeout obj s
  | .formAnswer obj src epoch live => Sys2Proof.Machine.execFormAnswer obj src epoch live s
  | .collContribution c => Sys2Proof.Machine.execCollContribution c s
  | .collDeadline obj seq => Sys2Proof.Machine.execCollDeadline obj seq s
  | .collResult obj epoch seq status data => Sys2Proof.Machine.execCollResult obj epoch seq status data s
  | .collRelease obj epoch seq => Sys2Proof.Machine.execCollRelease obj epoch seq s
  | .collHoldTimeout obj seq => Sys2Proof.Machine.execCollHoldTimeout obj seq s
  | .pnOpenAnswer model shard m => Sys2Proof.Machine.execPnOpenAnswer model shard m s
  | .pnPushRequest p blk step data => Sys2Proof.Machine.execPnPushRequest p blk step data s
  | .pnPushAnswer p status => Sys2Proof.Machine.execPnPushAnswer p status s
  | .updateCallResend model shard blk => Sys2Proof.Machine.execUpdateCallResend model shard blk s
  | .updateTaskEnd model shard blk step => Sys2Proof.Machine.execUpdateTaskEnd model shard blk step s
  | .mirrorStream model shard blk step epoch master moment clock => Sys2Proof.Machine.execMirrorStream model shard blk step epoch master moment clock s
  | .mirrorAck model shard blk step epoch => Sys2Proof.Machine.execMirrorAck model shard blk step epoch s
  | .freshMulticast model shard blk tag epoch weights clock => Sys2Proof.Machine.execFreshMulticast model shard blk tag epoch weights clock s
  | .pnCloseRequest p step force => Sys2Proof.Machine.execPnCloseRequest p step force s
  | .closeSettled model shard => Sys2Proof.Machine.execCloseSettled model shard s
  | .closeDeadline model shard => Sys2Proof.Machine.execCloseDeadline model shard s
  | .passedClose model shard epoch r => Sys2Proof.Machine.execPassedClose model shard epoch r s
  | .closeRecordArrival model shard epoch r => Sys2Proof.Machine.execCloseRecordArrival model shard epoch r s
  | .closeAnswer p status missing => Sys2Proof.Machine.execCloseAnswer p status missing s
  | .svcgo => Sys2Proof.Machine.execSvcgo s
  | .gimg image => Sys2Proof.Machine.execGimg image s
  | .accept v => Sys2Proof.Machine.execAccept v s
  | .pcap q v => Sys2Proof.Machine.execPcap q v s
  | .stage => Sys2Proof.Machine.execStage s
  | .stageDone image => Sys2Proof.Machine.execStageDone image s
  | .activate => Sys2Proof.Machine.execActivate s
  | .activation => Sys2Proof.Machine.execActivation s
  | .fwDiscard => Sys2Proof.Machine.execFwDiscard s
  | .firmwareBoot => Sys2Proof.Machine.execFirmwareBoot s
  | .activationPowerFail => Sys2Proof.Machine.execActivationPowerFail s
  | .repairFence t => Sys2Proof.Machine.execRepairFence t s
  | .unfence t => Sys2Proof.Machine.execUnfence t s
  | .recal c => Sys2Proof.Machine.execRecal c s
  | .gate q => Sys2Proof.Machine.execGate q s
  | .ungate q => Sys2Proof.Machine.execUngate q s
  | .mnumWrite v => Sys2Proof.Machine.execMnumWrite v s
  | .spdmRequest bytes => Sys2Proof.Machine.execSpdmRequest bytes s
  | .tamperLevel1 => Sys2Proof.Machine.execTamperLevel1 s
  | .tamperLevel2 => Sys2Proof.Machine.execTamperLevel2 s
  | .tamperLevel3 => Sys2Proof.Machine.execTamperLevel3 s
  | .powerThrottle q w => Sys2Proof.Machine.execPowerThrottle q w s
  | .thermalThrottle q => Sys2Proof.Machine.execThermalThrottle q s
  | .thermalTrip => Sys2Proof.Machine.execThermalTrip s
  | .moduleReset => Sys2Proof.Machine.execModuleReset s
  | .attachmentReset => Sys2Proof.Machine.execAttachmentReset s
  | .readClear off size => Sys2Proof.Machine.execReadClear off size s
  | .registerWrite off size v => Sys2Proof.Machine.execRegisterWrite off size v s
  | .unassignedWord cause tval => Sys2Proof.Machine.execUnassignedWord cause tval s
  | .postedWrite lid k => Sys2Proof.Machine.execPostedWrite lid k s
  | .softError p sector corrected => Sys2Proof.Machine.execSoftError p sector corrected s
  | .modulePowerLoss => Sys2Proof.Machine.execModulePowerLoss s
  | .prepareAnswer a => Sys2Proof.Machine.execPrepareAnswer a s
  | .commitAck obj rank => Sys2Proof.Machine.execCommitAck obj rank s
  | .resultAck obj seq rank => Sys2Proof.Machine.execResultAck obj seq rank s
  | .collQueryAnswer obj seq rank => Sys2Proof.Machine.execCollQueryAnswer obj seq rank s
  | .closeAck model shard num epoch => Sys2Proof.Machine.execCloseAck model shard num epoch s
  | .pnOpenRequest m model shard role epoch dtab => Sys2Proof.Machine.execPnOpenRequest m model shard role epoch dtab s
  | .repairCommandDone => Sys2Proof.Machine.execRepairCommandDone s

end Sys2Proof.Machine
end

