-- ==== Sys2Proof/Machine/Events.lean ====
section
/-! DEFINITION. The steps of the part as the agenda and the machine itself take them: each event's meaning, the event that a flit in
flight brings about, and the event that comes next when nothing outside asks for another (log entry 2). -/

namespace Sys2Proof.Machine

/-- The meaning of an event: that of the constructor of `Instr` of the same name. -/
def runEvent (e : Event) (s : State) : Out :=
  match e with
  | .ctrlRetrain l => execCtrlRetrain l s
  | .notice lid k => execNotice lid k s
  | .stepTrap lid k => execStepTrap lid k s
  | .taskDispatch lid => execTaskDispatch lid s
  | .clauseExecute lid => execClauseExecute lid s
  | .dataDelivery f => execDataDelivery f s
  | .callDelivery f => execCallDelivery f s
  | .clauseDelivery f => execClauseDelivery f s
  | .bounceDelivery f => execBounceDelivery f s
  | .spawnRequest f => execSpawnRequest f s
  | .spawnReply f => execSpawnReply f s
  | .sigDelivery f => execSigDelivery f s
  | .serviceRequest f => execServiceRequest f s
  | .fwdsetRequest f => execFwdsetRequest f s
  | .fwdsetReply f => execFwdsetReply f s
  | .remoteAtomicRequest f => execRemoteAtomicRequest f s
  | .remoteAtomicExecute lid => execRemoteAtomicExecute lid s
  | .remoteAtomicReply f => execRemoteAtomicReply f s
  | .clauseAck f => execClauseAck f s
  | .remoteDeadline lid k entry => execRemoteDeadline lid k entry s
  | .goldenEpoch => execGoldenEpoch s
  | .homeLoad id => execHomeLoad id s
  | .homeStore id => execHomeStore id s
  | .homeAtomic id => execHomeAtomic id s
  | .memoryReply r => execMemoryReply r s
  | .streamingDrain lid k i => execStreamingDrain lid k i s
  | .idleClockAdvance lid => execIdleClockAdvance lid s
  | .rebase => execRebase s
  | .hostLoadCompletion lid k data => execHostLoadCompletion lid k data s
  | .hostReadTimeout lid k => execHostReadTimeout lid k s
  | .yokeLeaseGrant team => execYokeLeaseGrant team s
  | .kstep lid => execKstep lid s
  | .yzeroJob lid => execYzeroJob lid s
  | .ystJob lid => execYstJob lid s
  | .yokeJobStop lid far => execYokeJobStop lid far s
  | .tugSize lid id => execTugSize lid id s
  | .tugSectorLand lid id => execTugSectorLand lid id s
  | .tugTableLoad lid id => execTugTableLoad lid id s
  | .tugStop lid id far => execTugStop lid id far s
  | .launchRecord q bytes => execLaunchRecord q bytes s
  | .launchPlacement => execLaunchPlacement s
  | .restorePlacement => execRestorePlacement s
  | .doneMessage q team => execDoneMessage q team s
  | .convergenceWindow q => execConvergenceWindow q s
  | .sliceExpiry q => execSliceExpiry q s
  | .markerArrival f => execMarkerArrival f s
  | .cutStartArrival q k => execCutStartArrival q k s
  | .cutComplete q => execCutComplete q s
  | .cutCompletionArrival q k => execCutCompletionArrival q k s
  | .linkFlitReceive l f => execLinkFlitReceive l f s
  | .linkAck l n => execLinkAck l n s
  | .linkNak l n => execLinkNak l n s
  | .ackTimer l => execAckTimer l s
  | .linkAckTimeout l => execLinkAckTimeout l s
  | .trainingRound l passed partner peer => execTrainingRound l passed partner peer s
  | .handbackRequest l lane => execHandbackRequest l lane s
  | .handbackRefused l lane => execHandbackRefused l lane s
  | .laneReturn l r => execLaneReturn l r s
  | .laneFail l r => execLaneFail l r s
  | .reachWord p l w => execReachWord p l w s
  | .routingNotice p l inRouting peer => execRoutingNotice p l inRouting peer s
  | .packetForward p held => execPacketForward p held s
  | .fabricTargetRequest p => execFabricTargetRequest p s
  | .barrierCompletion m obj phase pclk => execBarrierCompletion m obj phase pclk s
  | .form obj src drop => execForm obj src drop s
  | .prepare obj leader => execPrepare obj leader s
  | .reformationDeadline obj => execReformationDeadline obj s
  | .commit obj epoch live colls shards => execCommit obj epoch live colls shards s
  | .commitTimeout obj => execCommitTimeout obj s
  | .formAnswer obj src epoch live => execFormAnswer obj src epoch live s
  | .collContribution c => execCollContribution c s
  | .collDeadline obj seq => execCollDeadline obj seq s
  | .collResult obj epoch seq status data => execCollResult obj epoch seq status data s
  | .collRelease obj epoch seq => execCollRelease obj epoch seq s
  | .collHoldTimeout obj seq => execCollHoldTimeout obj seq s
  | .pnOpenAnswer model shard m => execPnOpenAnswer model shard m s
  | .pnPushRequest p blk step data => execPnPushRequest p blk step data s
  | .pnPushAnswer p status => execPnPushAnswer p status s
  | .updateCallResend model shard blk => execUpdateCallResend model shard blk s
  | .updateTaskEnd model shard blk step => execUpdateTaskEnd model shard blk step s
  | .mirrorStream model shard blk step epoch master moment clock => execMirrorStream model shard blk step epoch master moment clock s
  | .mirrorAck model shard blk step epoch => execMirrorAck model shard blk step epoch s
  | .freshMulticast model shard blk tag epoch weights clock => execFreshMulticast model shard blk tag epoch weights clock s
  | .pnCloseRequest p step force => execPnCloseRequest p step force s
  | .closeSettled model shard => execCloseSettled model shard s
  | .closeDeadline model shard => execCloseDeadline model shard s
  | .passedClose model shard epoch r => execPassedClose model shard epoch r s
  | .closeRecordArrival model shard epoch r => execCloseRecordArrival model shard epoch r s
  | .closeAnswer p status missing => execCloseAnswer p status missing s
  | .svcgo => execSvcgo s
  | .gimg image => execGimg image s
  | .accept v => execAccept v s
  | .pcap q v => execPcap q v s
  | .stage => execStage s
  | .stageDone image => execStageDone image s
  | .activate => execActivate s
  | .activation => execActivation s
  | .fwDiscard => execFwDiscard s
  | .firmwareBoot => execFirmwareBoot s
  | .activationPowerFail => execActivationPowerFail s
  | .repairFence t => execRepairFence t s
  | .unfence t => execUnfence t s
  | .recal c => execRecal c s
  | .gate q => execGate q s
  | .ungate q => execUngate q s
  | .mnumWrite v => execMnumWrite v s
  | .spdmRequest bytes => execSpdmRequest bytes s
  | .tamperLevel1 => execTamperLevel1 s
  | .tamperLevel2 => execTamperLevel2 s
  | .tamperLevel3 => execTamperLevel3 s
  | .powerThrottle q w => execPowerThrottle q w s
  | .thermalThrottle q => execThermalThrottle q s
  | .thermalTrip => execThermalTrip s
  | .moduleReset => execModuleReset s
  | .attachmentReset => execAttachmentReset s
  | .readClear off size => execReadClear off size s
  | .registerWrite off size v => execRegisterWrite off size v s
  | .unassignedWord cause tval => execUnassignedWord cause tval s
  | .postedWrite lid k => execPostedWrite lid k s
  | .softError p sector corrected => execSoftError p sector corrected s
  | .modulePowerLoss => execModulePowerLoss s
  | .prepareAnswer a => execPrepareAnswer a s
  | .commitAck obj rank => execCommitAck obj rank s
  | .resultAck obj seq rank => execResultAck obj seq rank s
  | .collQueryAnswer obj seq rank => execCollQueryAnswer obj seq rank s
  | .closeAck model shard num epoch => execCloseAck model shard num epoch s
  | .pnOpenRequest m model shard role epoch dtab => execPnOpenRequest m model shard role epoch dtab s
  | .repairCommandDone => execRepairCommandDone s

/-! ### Flits in flight -/

/-- What an arriving system flit is (R116, R164, R172, R199, R270). -/
def systemEvent (f : Flit) : Event :=
  if f.cls = 0 then
    match f.ksf / 256 with
    | 1 => .spawnRequest f
    | 2 => .sigDelivery f
    | 3 => .serviceRequest f
    | 4 => .remoteAtomicRequest f
    | _ => .fwdsetRequest f
  else if f.ksf / 256 = 1 then .spawnReply f
  else .fwdsetReply f

/-- What an arriving flit brings about (R121, R122, R128, R270). -/
def State.flitEvent (s : State) (x : InFlight) : Event :=
  let f := x.flit
  match f.kind with
  | .data => .dataDelivery f
  | .call => .callDelivery f
  | .clause => .clauseDelivery f
  | .bounce => .bounceDelivery f
  | .marker => .markerArrival f
  | .reply =>
    match s.entryOf f.dst x.tag x.serial with
    | some (.clause _) => .clauseAck f
    | _ => .remoteAtomicReply f
  | _ => systemEvent f

/-- The flit that arrives next: the golden one if there is one (R187), else the oldest that its router has injected and that no move
holds (R186, R205). -/
def State.nextFlit (s : State) : Option InFlight :=
  let can := s.flight.filter fun x => s.injected x && !s.arrivalHeld x.flit
  match can.find? fun x => s.goldenStamp == some x.stamp with
  | some x => some x
  | none => can.head?

/-! ### What comes next by itself (log entry 2) -/

/-- The event of a request under way to a home or back (R261 to R264). -/
def HomeReq.event (r : HomeReq) : Event :=
  match r.answer, r.op with
  | some a, _ => .memoryReply a
  | none, .load _ => .homeLoad r.id
  | none, .atomic .. => .homeAtomic r.id
  | none, _ => .homeStore r.id

/-- Whether an entry of a streaming buffer can drain now (R269). -/
def State.canDrain (s : State) (l : Nat) (x : Slot) (i : Nat) : Bool :=
  x.mayDrain i &&
    match x.sbuf[i]? with
    | some e => (match e.place with
      | .far m a => x.freeEntry.isSome && !s.repliesFull l && !s.outputFull (s.request l 0 0 m a 1 (.store e.data) 0 e.clock)
      | _ => true)
    | none => true

/-- The first entry of a core's streaming buffers that can drain. -/
def State.nextDrain (s : State) (l : Nat) (c : Core) : Option Event :=
  (List.range 4).findSome? fun k =>
    ((List.range (c.slot k).sbuf.length).find? fun i => s.canDrain l (c.slot k) i).map fun i => .streamingDrain l k i

/-- The next step of a core's tug transfers (R240 to R248). -/
def State.nextTug (s : State) (l : Nat) (c : Core) : Option Event :=
  (c.xfers.find? fun x => x.active && x.asked.isNone && !s.farBlocked l x).map fun x =>
    match x.state, x.op with
    | .queued, _ => (match (s.sizeXfer l x none).2 with
      | .ok _ => .tugSize l x.id
      | .error _ => .tugStop l x.id none)
    | _, 2 => (match (s.tableImage l x none).2 with
      | .ok _ => .tugTableLoad l x.id
      | .error _ => .tugStop l x.id none)
    | _, _ =>
      if x.fars ≠ [] || s.farDue l x then .tugSectorLand l x.id
      else (match (s.nextSector l x none).2.2.2 with
      | none => .tugSectorLand l x.id
      | some _ => .tugStop l x.id none)

/-- The next step of a core's yoke jobs, if it is the core's turn (R226, R233 to R237). -/
def State.nextYoke (s : State) (l : Nat) : Option Event :=
  (s.turnJob l).map fun j =>
    match j.kind with
    | .zero _ => .yzeroJob l
    | .store _ _ => .ystJob l
    | .mma ra rb n _ => (match (s.kOperands l none j ra rb n).2 with
      | .ok _ => .kstep l
      | .error _ => .yokeJobStop l none)

/-- The step that a core's clauses put in place of its next issue (R159), if its open queue holds one. -/
def Core.clauseFirst (c : Core) (l : Nat) : Option Event :=
  (if c.open_ then pickEntry QEntry.isClause c.runq else none).map fun e =>
    if e.kind = .atomic then .remoteAtomicExecute l else .clauseExecute l

/-- The dispatcher's next step on a core (R155, R158, R159). -/
def Core.nextDispatch (c : Core) (l : Nat) : Option Event :=
  match c.clauseFirst l with
  | some e => some e
  | none => if c.nextTask.isSome && !c.freeSlots.isEmpty then some (.taskDispatch l) else none

/-- What a core's hardware does next. -/
def State.coreEvent (s : State) (l : Nat) (c : Core) : Option Event :=
  s.nextDrain l c <|> s.nextTug l c <|> s.nextYoke l <|> c.nextDispatch l

/-- The team of a launch whose router can report (R174, R175), counted from the launch's first team. -/
def Launch.readyTeam (la : Launch) : Option Nat :=
  (List.range la.tcnt).find? fun t =>
    (Map.get none la.teamDone ((t + la.tcnt - la.root) % la.tcnt)).isNone && (la.teamRec t).isSome

/-- The index whose core can record the cut of its launch, or learns that the cut is over (R209, R211). -/
def State.cutEvent (s : State) (q : Nat) (la : Launch) : Option Event :=
  let passed (c : Core) : Bool := !c.cut.complete && (match la.cut with
    | some u => u.complete || u.id != c.cutid
    | none => true)
  let start (e : Nat × Core) : Bool := match la.cut with
    | some u => e.2.unrecorded u && !e.2.swapped && (!e.2.cut.due || s.canRecord e.1 u)
    | none => false
  match (s.workers q).find? fun e => passed e.2 with
  | some e => some (.cutCompletionArrival q e.2.index)
  | none => ((s.workers q).find? start).map fun e => .cutStartArrival q e.2.index

/-- What the rein tree and the arbiter of a queue do next (R174 to R177, R211). -/
def State.queueEvent (s : State) (q : Nat) (qu : Queue) : Option Event :=
  match qu.launch with
  | none => none
  | some la =>
    if la.phase ≠ .placed then none
    else if (la.window qu.lcvwin).isSome then some (.convergenceWindow q)
    else
      match la.readyTeam with
      | some t => some (.doneMessage q t)
      | none =>
        if (match la.cut with
          | some u => s.cutReady q la u
          | none => false) then some (.cutComplete q)
        else s.cutEvent q la

/-- What the groom does next (R363, R364, R368); `training` tells that a link is in training, for which a firmware that has begun it
waits. -/
def Device.event (d : Device) (training : Bool) : Option Event :=
  if d.power = false then none
  else if d.fwState = 4 && d.staged.isSome && !d.repairRuns then some .activation
  else if !d.fwRdy && d.stored.isSome && !(d.fwState == 4 && d.staged.isSome) && !(d.linksBegun && training) then some .firmwareBoot
  else if d.rpState == 1 && d.fwRdy && d.repair.isSome then some .repairCommandDone
  else none

/-- What a parameter node does next (R313, R314). -/
def State.shardEvent (s : State) (h : Shard) : Option Event :=
  if s.shardForming h then none
  else if h.canSettle then some (.closeSettled h.model h.shard)
  else
    let c := s.core (s.whereIs h.owner 64)
    if c.uid == h.uid && !c.exited && !c.swapped && !c.queueFull then
      h.calls.head?.map fun b => .updateCallResend h.model h.shard b
    else none

/-- The barrier whose waiters of other modules have an answer (R297). -/
def State.barrierEvent (s : State) : Option Event :=
  (s.farWaits.find? s.farReady).map fun w => .barrierCompletion s.dev.mnum w.1 (s.phaseOf w.1).1 (s.phaseOf w.1).2

/-- The packet that can be forwarded (R341, R344). -/
def State.transitEvent (s : State) : Option Event :=
  (s.transit.find? fun t =>
    match s.route t.pkt.dmod t.came with
    | some r => s.roomOn r.1 (t.pkt.channel r.2) t.raw.length
    | none => false).map fun t => .packetForward t.pkt 0

/-- A link with flits that it can send now and has not sent, where steps are not prompt (log entry 3). -/
def State.unsent (s : State) : Option LinkId :=
  if s.prompt then none
  else allLinks.find? fun l => (s.link l).up && (s.link l).upNext.isSome && decide ((s.link l).retry.length < l.retryCap)

/-- The event that happens next by itself, none when only instructions are left to issue. What time, the host, a link or another
module brings comes by the agenda alone. -/
def State.pending (s : State) : Option Event :=
  s.dev.event s.linksTrain <|>
  (s.nextFlit.map s.flitEvent) <|>
  (s.reqs.head?.map HomeReq.event) <|>
  (s.posted.head?.map fun p => .postedWrite p.lid p.slot) <|>
  (s.cores.findSome? fun e => s.coreEvent e.1 e.2) <|>
  ((s.cores.find? fun e => s.canGrant (e.1 / 8)).map fun e => .yokeLeaseGrant (e.1 / 8)) <|>
  (s.queues.findSome? fun e => s.queueEvent e.1 e.2) <|>
  (if (s.placeable false).isEmpty then none else some .launchPlacement) <|>
  (if (s.placeable true).isEmpty then none else some .restorePlacement) <|>
  s.barrierEvent <|>
  (s.shards.findSome? s.shardEvent) <|>
  s.transitEvent <|>
  (if s.rebaseDue 0 then some .rebase else none)

end Sys2Proof.Machine
end

