-- ==== Sys2Proof/Machine/Issue.lean ====
section
/-! DEFINITION. Issue (R49, R56, R58, R98, R104, R196, R198): fetching and decoding an instruction, and which of a core's contexts
issues next. -/

namespace Sys2Proof.Machine

/-! ### Fetch (R56, R183, R198, R258) -/

/-- A byte as it was before the order stamp f: b is the byte of the version created at `made`, `older` are the versions before it. -/
def byteAtStamp (b : Byte) (a f made : Nat) : List Version → Byte
  | [] => b
  | v :: vs => if made < f then b else byteAtStamp ((Map.get none v.undo a).getD b) a f v.made vs

/-- A byte of module memory as it was before an order stamp. -/
def State.byteBefore (s : State) (f a : Nat) : Byte :=
  let h := s.line (a / 128)
  byteAtStamp (s.byte a) a f h.made h.older

/-- The halfword at a physical address. -/
def State.half (s : State) (pa : Nat) : Nat := (s.byte pa).toNat + 256 * (s.byte (pa + 1)).toNat

/-- The halfword at a physical address as it was before an order stamp. -/
def State.halfBefore (s : State) (f pa : Nat) : Nat := (s.byteBefore f pa).toNat + 256 * (s.byteBefore f (pa + 1)).toNat

/-- What a team's instruction cache may hold for a halfword beside what memory holds now: the content at the fill of its line, and the
code distributed at placement (R183, R198; log entry 9). -/
def State.staleCode (s : State) (t va pa : Nat) : List Nat :=
  let tm := s.team t
  let filled := Map.get 0 tm.icache (pa / 128)
  let olds := (if filled = 0 then [] else [s.halfBefore (filled - 1) pa]) ++
    (match tm.dist with
    | some (f, a) => if a ≤ va ∧ va < a + 0x8000 then [s.halfBefore f pa] else []
    | none => [])
  olds.filter fun v => v != s.half pa

/-- A halfword of module memory fetched by a core: what memory holds, or what the instruction cache may still hold, a free choice. -/
def State.fetchMem (s : State) (l va pa : Nat) : State × Nat :=
  let t := l / 8
  let tm := s.team t
  let filled (s : State) : State :=
    if Map.get 0 tm.icache (pa / 128) = 0 then s.setTeam t { tm with icache := Map.set 0 tm.icache (pa / 128) (s.stamp + 1) } else s
  match s.staleCode t va pa with
  | [] => (filled s, s.half pa)
  | olds =>
    let (s', k) := s.choose (olds.length + 1)
    match olds[k]? with
    | some v => (s', v)
    | none => (s'.setTeam t { tm with icache := Map.set 0 tm.icache (pa / 128) (s.stamp + 1) }, s.half pa)

/-- fetch16 of R56: a halfword, or the cause of the fetch fault. A halfword of host memory is free, and its read may fail (R360, log
entry 1). No rule names a fetch through the space of another module (R256, R260, R331): it faults XLATE (DESIGN CHOICE, log entry
40). -/
def State.fetchHalf (s : State) (l : Nat) (pc : DWord) : State × Except Cause Nat :=
  match s.resolve l pc.toNat .fetch with
  | (s, .error c) => (s, .error c)
  | (s, .ok (.memory pa)) =>
    if s.badIn pa 2 then (s.report, .error .memErr)
    else
      let r := s.fetchMem l pc.toNat pa
      (r.1, .ok r.2)
  | (s, .ok (.host a)) =>
    let r := s.freeBytes hostModule a 2
    let k := r.1.choose 2
    (k.1, if k.2 = 0 then .ok (leNat r.2) else .error .memErr)
  | (s, .ok (.object _)) => (s, .error .prot)
  | (s, .ok (.far _ _)) => (s, .error .xlate)

/-- An instruction as it was fetched: its meaning's syntax, its instruction word, and its length in bytes. -/
structure Fetched1 where
  instr : Instr
  word : Nat
  length : Nat
  deriving DecidableEq, Repr

/-- decode of R56 from a state of its loop: the instruction, or the cause and TVAL of the trap. `n` bounds the words, of which four
prefixes and the instruction word are the most. -/
def State.fetchLoop (s : State) (l : Nat) (start pc : DWord) (sc : Scan) : Nat → State × Except (Nat × Nat) Fetched1
  | 0 => (s, .error (Cause.illegal.code, 0))
  | n + 1 =>
    match s.fetchHalf l pc with
    | (s, .error c) => (s, .error (c.code, pc.toNat))
    | (s, .ok w) =>
      match sc.feed w with
      | .more sc => s.fetchLoop l start (pc + 2) sc n
      | .stop _ => (s, .error (Cause.illegal.code, w))
      | .base =>
        match Sys2Proof.finish sc w with
        | .error _ => (s, .error (Cause.illegal.code, w))
        | .ok i =>
          if i.fits (partG (s.core l).part) (partH (s.core l).part) then (s, .ok ⟨i, w, (pc + 2 - start).toNat⟩)
          else (s, .error (Cause.illegal.code, w))

/-- The decode of the instruction at an address by a core (R56). -/
def State.fetch (s : State) (l : Nat) (pc : DWord) : State × Except (Nat × Nat) Fetched1 := s.fetchLoop l pc pc Scan.start 5

/-- Whether STEP makes a BREAK follow an instruction issued by a context (R196). -/
def Slot.steps (x : Slot) : Bool := statMode x.stat == 0 && statStep x.stat == 1

/-- The state in which a context issues the instruction at its pc, of a word and length. -/
def State.issuing (s : State) (l k : Nat) (word length : Nat) : State :=
  let x := s.slotAt l k
  { s.setSlotAt l k { x with loaded := false } with issue := { lid := l, slot := k, start := x.pc, length := length, word := word, stepping := x.steps, since := none } }

/-- A context issues (R56): the instruction at its pc is fetched and executed, or traps before any effect. Control that has reached
END by a trap entry or by the start of its task ends the task (R156). -/
def State.issueSlot (ex : Instr → State → Out) (s : State) (l k : Nat) : Out :=
  if (s.slotAt l k).pc = END then .next (s.endTask l k)
  else
  match s.fetch l (s.slotAt l k).pc with
  | (s, .ok f) => ex f.instr (s.issuing l k f.word f.length)
  | (s, .error (c, v)) => execUnassignedWord c v (s.issuing l k 0 0)

/-! ### Which context goes on (R98, R104, R192, R196) -/

/-- The slots of a core from its pointer on. -/
def Core.turns (c : Core) : List Nat := (List.range 4).map fun i => (c.rot + i) % 4

/-- Whether a context is stopped by another of its core, or by a cut (R202, R205, R209): another waits in `migr` or in `snap`, another
waits in `ctxout` for this one, or a cut that has reached the core waits to be recorded. -/
def Core.stops (c : Core) (k : Nat) : Bool :=
  c.cut.due || (List.range 4).any fun j => j != k && match (c.slot j).wait with
    | some w =>
      (match w.instr with
      | .migr _ => true
      | .snap _ => true
      | .ctxout d _ => (Map.get 0 (c.slot j).regs d : Word).toNat == k
      | _ => false)
    | none => false

/-- A list in order of age, the oldest first; equals keep their order. -/
def oldestFirst {α : Type} (age : α → Nat) (ws : List α) : List α :=
  ws.foldl (fun out e => (out.takeWhile fun f => age f ≤ age e) ++ e :: (out.dropWhile fun f => age f ≤ age e)) []

/-- Contexts of a core that wait and are tried again, the oldest wait first (R104). -/
def Core.waiters (c : Core) : List (Nat × Wait) :=
  let ws := (List.range 4).filterMap fun k => match (c.slot k).wait with
    | some w => if w.poll && (c.slot k).st == .ready && !c.stops k then some (k, w) else none
    | none => none
  oldestFirst (fun e => e.2.since) ws

/-- Whether a waiting instruction tried again still waits. -/
def stillWaits (l k : Nat) (w : Wait) (o : Out) : Bool :=
  match o with
  | .next t => (match (t.slotAt l k).wait with
    | some v => v.poll && v.since == w.since && v.start == w.start
    | none => false)
  | _ => false

/-- Whether an instruction waits for a ring, a mailbox, a slot record or a transaction barrier of its core's pool, whose changes wake
their waiters one at a time (R104, R124, R142, R168, R246). -/
def onRing : Instr → Bool
  | .hwait _ _ => true
  | .hld _ _ => true
  | .hst _ _ => true
  | .slget _ _ => true
  | .tbwait _ _ => true
  | .waite _ => true
  | .mfs _ _ 0x02D => true
  | _ => false

/-- The first waiting instruction of a list of contexts that can go on (R98, R104). -/
def State.tryWaiters (ex : Instr → State → Out) (s : State) : List (Nat × Nat × Wait) → Option Out
  | [] => none
  | (l, k, w) :: ws =>
    let o := ex w.instr { s with issue := w.issue l k }
    if stillWaits l k w o then s.tryWaiters ex ws else some o

/-- Whether a core executes instructions. -/
def Core.runs (c : Core) : Bool := c.queue.isSome && !c.exited && !c.swapped && c.forward.isNone

/-- Whether an instruction waits for a phase of a barrier object, whose waiters are woken one at a time whatever their core (R297). -/
def onPhase : Instr → Bool
  | .bjoin _ _ => true
  | _ => false

/-- The contexts of all cores that wait for a phase, the oldest wait first (R297). -/
def State.joiners (s : State) : List (Nat × Nat × Wait) :=
  oldestFirst (fun e => e.2.2.since)
    (s.cores.flatMap fun e => if e.2.runs then (e.2.waiters.filter fun w => onPhase w.2.instr).map fun w => (e.1, w) else [])

/-- The waiting instruction that a change has let go on: the oldest such wait for the pool of a core (R104), or for a phase (R297). It goes
on before anything else happens. -/
def State.awake (ex : Instr → State → Out) (s : State) : Option Out :=
  (s.cores.findSome? fun e =>
    if e.2.runs then s.tryWaiters ex ((e.2.waiters.filter fun w => onRing w.2.instr).map fun w => (e.1, w)) else none) <|>
  s.tryWaiters ex s.joiners

/-- A core's next issue: a notice or step trap that is due, else the oldest wait that can end, else the next ready context. A core whose
slots are all halted performs `exit` (R194). None when the core has nothing to do. -/
def State.issueOn (ex : Instr → State → Out) (s : State) (l : Nat) : Option Out :=
  let c := s.core l
  if c.runs = false then none
  else if c.allHalted then (if s.coreSettled l then some (.next (s.haltedExit l)) else none)
  else
    match c.turns.find? fun k => (c.slot k).st == .ready && (c.slot k).stepDue.isSome && !c.stops k with
    | some k => some (execStepTrap l k s)
    | none =>
      match c.turns.find? fun k => (c.slot k).takesNotice && !c.stops k with
      | some k => some (execNotice l k s)
      | none =>
        match s.tryWaiters ex (c.waiters.map fun w => (l, w)) with
        | some o => some o
        | none =>
          match c.turns.find? fun k => (c.slot k).st == .ready && (c.slot k).wait.isNone && !c.stops k with
          | some k => some ((s.setCore l { c with rot := (k + 1) % 4 }).issueSlot ex l k)
          | none => none

/-- The cores from the turn on. -/
def State.coreTurns (s : State) : List Nat :=
  let ls := s.cores.map (·.1)
  ls.filter (fun l => s.turn ≤ l) ++ ls.filter fun l => l < s.turn

/-- The next issue of the module: the first core from the turn on that has one. -/
def State.issueNext (ex : Instr → State → Out) (s : State) : Out :=
  match s.coreTurns.findSome? fun l => { s with turn := l + 1 }.issueOn ex l with
  | some o => o
  | none => .next s

/-- One step of the module (log entry 2): a wait that a change of its core's pool or of a barrier has ended (R104, R297), else what the agenda asks for, else
what happens by itself, else a flit that waits for its link, else the next issue. A clause takes the place of an issue (R159). -/
def State.advance (ex : Instr → State → Out) (s : State) : Out :=
  match s.awake ex with
  | some o => o
  | none =>
    match s.agenda with
    | .happen e :: as => runEvent e { s with agenda := as }
    | .issue l :: as =>
      (match (s.core l).clauseFirst l with
      | some e => runEvent e { s with agenda := as }
      | none => ({ s with agenda := as }.issueOn ex l).getD (.next { s with agenda := as }))
    | [] =>
      match s.pending with
      | some e => runEvent e s
      | none =>
        match s.unsent with
        | some l => .next (s.pump l)
        | none => s.issueNext ex

/-! ### A program placed from outside (log entry 7) -/

/-- The partition word of the placed program: four contexts of 128 registers, 4 KiB of accumulators, 16 handles (R74). -/
def placedPart : Word := 0xF4100000#32

/-- The virtual and physical address of the placed program. -/
def placedAt : Nat := 0x300000

/-- The root of its page table. -/
def placedRoot : Nat := 0x100000

/-- Its launch, as a record of one team with no handlers makes it (R179). -/
def placedLaunch : Launch :=
  { uid := 0, phase := .placed, restore := false, arrived := 0, seq := 1, image := u64 placedAt, entry := 0, part := placedPart,
    fteamAsked := 0, fteam := 0, tcnt := 1, root := 0, slice := 0, args := 0, htab := [], prio := 0, fset := 0xFF, lease := 0,
    setw := 0, ptroot := u64 placedRoot, rvec := 0, cuta := 0, sava := 0, dln := 1000, teamDone := [], coreDone := [],
    closed := [], cut := none, expired := false, lost := false, colls := [], tlb := [] }

/-- Core 0 as placement leaves it (R78, R183, R261). -/
def placedCore0 : Core :=
  { Core.empty with
    queue := some 0, part := placedPart, age := 1,
    slots := [(0, { Slot.empty with st := .ready, task := some { origin := .entry, serial := 0 }, pc := u64 placedAt,
                                    regs := [(1, 1)], aregs := [(7, END)] })] }

/-- The bytes of an instruction of the opcode table, with zeros up to the longest instruction (five words, R56). -/
def placedBytes (nbits w : Nat) : List Byte :=
  padTo (bytesOf (if nbits ≤ 16 then [w % 65536] else [w / 65536 % 65536, w % 65536])) 10

/-- Module memory with the program and a page table that maps the first 1 GiB onto itself, readable, writable and executable (R258). -/
def placedMem (m : List Host.Cell) (bs : List Byte) : List Host.Cell :=
  let m := Map.setList 0 m placedRoot (leBytes 0x200001 8)
  let m := Map.setList 0 m 0x200000 (leBytes 0x1F 8)
  Map.setList 0 m placedAt bs

end Sys2Proof.Machine
end

