-- ==== Sys2Proof/Machine/Step.lean ====
section
/-! DEFINITION. The step of the machine, and a program placed from outside. -/

namespace Sys2Proof.Machine

/-- One step (log entry 2). -/
def step (s : State) : Host.Outcome State Fault Refusal := s.advance exec

/-- The state with an instruction of the opcode table stored where the next step fetches: a launch of one team is placed on queue 0 as
if the host had loaded it, core 0 is about to issue the instruction, and nothing else is under way (log entry 7). -/
def State.withFetchWord (s : State) (nbits w : Nat) : State :=
  { s with
    agenda := [], turn := 0, cores := [(0, placedCore0)], teams := [],
    queues := [(0, { Queue.empty with ptroot := u64 placedRoot, seq := 1, launch := some placedLaunch })],
    mem := placedMem s.mem (placedBytes nbits w), lines := [], bad := [], reqs := [], posted := [], hostLoads := [], flight := [],
    goldenStamp := none, links := [], transit := [], farWaits := [], shards := [],
    dev := { s.dev with
      power := true, accept := 0xFF, fwRdy := true, fwState := 0, staged := none, rpState := 0, repair := none } }

end Sys2Proof.Machine
end

