-- ==== Sys2Proof/Safety.lean ====
section
/-! DEFINITION. What claims about the machine say: the memory invariant, and what a step leaves as it was (the frames of R58: an
instruction has no other effect than those its rule gives it). -/

namespace Sys2Proof.Machine

/-- The invariant of module memory: its canonical form. -/
def State.MemoryInv (s : State) : Prop := Memory.wf s.mem

/-- Everything of the module but its cores is as it was: memory, lines, launches, mesh, links, objects, the device window. -/
def SameModule (s t : State) : Prop := t = { s with cores := t.cores }

/-- Every byte of module memory reads as before. -/
def SameMemory (s t : State) : Prop := ∀ a, t.byte a = s.byte a

/-- No core but `l` changed. -/
def SameCores (l : Nat) (s t : State) : Prop := ∀ k, k ≠ l → t.core k = s.core k

/-- No context of a core but `k` changed. -/
def SameSlots (k : Nat) (c e : Core) : Prop := ∀ j, j ≠ k → e.slot j = c.slot j

/-- Of a core only contexts changed: pool, full bits, handles, queues, nodes, decode table, engines and clocks are as they were. -/
def OnlySlots (c e : Core) : Prop := e = { c with slots := e.slots }

/-- Of a context only its general and address registers and its progress (pc, wait, the step trap that is due, what a waiting form has
learnt) changed: STAT, FST, the
trap registers, the S bank, the slot views, the engines' registers, notices, entries and buffers are as they were. -/
def OnlyRegisters (x y : Slot) : Prop :=
  y = { x with regs := y.regs, aregs := y.aregs, pc := y.pc, wait := y.wait, stepDue := y.stepDue, half := y.half }

/-- The executing context's general registers outside `ds` and address registers outside `as` read as before. -/
def SameRegisters (ds as : List Nat) (s t : State) : Prop :=
  (∀ n, n ∉ ds → t.g n = s.g n) ∧ ∀ n, n ∉ as → t.a n = s.a n

/-- The executing context stands at `pc`, waits for nothing, and owes a step trap exactly if STEP was set at issue (R196). -/
def AtPc (pc : DWord) (s t : State) : Prop :=
  t.slot.pc = pc ∧ t.slot.wait = none ∧ t.slot.half = none ∧ t.slot.stepDue = if s.issue.stepping then some s.issue.start else none

/-- The executing instruction has read global memory on the way from `s` to `u`: of its core only the clock and the copies of lines
changed, and no other core did. -/
def HasRead (s u : State) : Prop :=
  u.issue = s.issue ∧ SameCores s.issue.lid s u ∧ u.me = { s.me with pts := u.me.pts, l1 := u.me.l1, far := u.me.far }

/-- The executing instruction completed and control goes to `pc`. Of the module, `m` says what it is now but for its cores; no core but
the executing one changed; `c` says what that core is now but for its contexts; no context but the executing one changed; `x` says
what that context is now but for its registers and progress; and no register outside `ds` and `as` changed. -/
def Went (m : State) (c : Core) (x : Slot) (ds as : List Nat) (pc : DWord) (s t : State) : Prop :=
  SameModule m t ∧ SameCores s.issue.lid s t ∧ OnlySlots c t.me ∧ SameSlots s.issue.slot s.me t.me ∧
    OnlyRegisters x t.slot ∧ SameRegisters ds as s t ∧ AtPc pc s t

/-- The executing instruction completed, and nothing changed but its registers `ds`, `as` and its progress. -/
def Completed (ds as : List Nat) (pc : DWord) (s t : State) : Prop := Went s s.me s.slot ds as pc s t ∧ SameMemory s t

/-- `exec` answers a next state of the instruction, and `P` holds of it. -/
def Runs (i : Instr) (s : State) (P : State → Prop) : Prop := ∃ t, exec i s = .next t ∧ P t

/-- The instruction writes general register d with a value of which `V` holds, has no other effect, and goes on at the next address. -/
def WritesG (i : Instr) (s : State) (d : Nat) (V : Word → Prop) : Prop :=
  Runs i s fun t => V (t.g d) ∧ Completed [d] [] s.next s t

/-- The instruction writes address register d with `v`, has no other effect, and goes on at the next address. -/
def WritesA (i : Instr) (s : State) (d : Nat) (v : DWord) : Prop :=
  Runs i s fun t => t.a d = v ∧ Completed [] [d] s.next s t

/-- The instruction takes a trap with a cause and a TVAL as its whole effect (R73, R193). -/
def Traps (i : Instr) (s : State) (c : Cause) (v : DWord) : Prop := exec i s = trap c v s

/-- The instruction writes general register d with `r.1`, ORs the flags `r.2` into FST (R40), has no other effect, and goes on at the
next address. -/
def WritesF (i : Instr) (s : State) (d : Nat) (r : Word × Nat) : Prop :=
  Runs i s fun t => t.g d = r.1 ∧ Went s s.me { s.slot with fst := s.slot.fst ||| u32 (r.2 % 32) } [d] [] s.next s t ∧ SameMemory s t

/-- The real number that a finite value is (R19). -/
def FVal.Is (v : FVal) (x : ℝ) : Prop :=
  match v with
  | .fin n m e => x = (if n then -1 else 1) * (m * (2 : ℝ) ^ e)
  | _ => False

/-- Where rounding a value of magnitude `x` with an unbounded exponent and w fraction bits stays below 2^k, with `up` if the mode rounds
this sign away from zero and `near` if it rounds to nearest even. -/
def StaysBelow (near up : Prop) (w : Nat) (x : ℝ) (k : Int) : Prop :=
  (near → x < (1 - 2 ^ (-(w : Int) - 2)) * 2 ^ k) ∧ (up → x ≤ (1 - 2 ^ (-(w : Int) - 1)) * 2 ^ k) ∧ (¬near → ¬up → x < 2 ^ k)

/-- Code c with flags `fl` is the real number x rounded to an IEEE format in a mode (R36, R38): the nearest finite value, of two equally
near the even one, or the nearest one on the side that the mode names; or, where the rounding with an unbounded exponent leaves the
format's range, an infinity or the largest finite value with OF and NX. NX says that the result is not x, UF that x, so rounded, is also
below the smallest normal number. -/
def FFmt.Rounded (f : FFmt) (md : RMode) (x : ℝ) (c fl : Nat) : Prop :=
  let up : Prop := md = .ru ∧ 0 < x ∨ md = .rd ∧ x < 0
  let fits : Prop := StaysBelow (md = .ne) up f.w |x| (f.emax + 1 - f.bias)
  (x ≠ 0 → ((f.val c).neg = true ↔ x < 0)) ∧
  ((∃ y, (f.val c).Is y ∧
      (∀ d z, (f.val d).Is z → match md with
        | .ne => |x - y| ≤ |x - z| ∧ (|x - y| = |x - z| → y ≠ z → c % 2 = 0)
        | .rz => |y| ≤ |x| ∧ 0 ≤ x * y ∧ (|z| ≤ |x| → 0 ≤ x * z → |z| ≤ |y|)
        | .rd => y ≤ x ∧ (z ≤ x → z ≤ y)
        | .ru => x ≤ y ∧ (x ≤ z → y ≤ z)) ∧
      (fits ∨ md ≠ .ne ∧ ¬up) ∧ (x = y → fl = 0) ∧ (¬fits → fl = 5) ∧
      (x ≠ y → fits → (StaysBelow (md = .ne) up f.w |x| (1 - f.bias) → fl = 3) ∧
        (¬StaysBelow (md = .ne) up f.w |x| (1 - f.bias) → fl = 1))) ∨
    (f.val c).isInf = true ∧ ¬fits ∧ (md = .ne ∨ up) ∧ fl = 5)

/-- A b32 word with its flags is x rounded (R36, R38). -/
def RoundedWord (md : RMode) (x : ℝ) (r : Word × Nat) : Prop := b32.Rounded md x r.1.toNat r.2

/-- k is x rounded to an integer in a mode (R36). -/
def RoundedInt (md : RMode) (x : ℝ) (k : Int) : Prop :=
  match md with
  | .ne => |x - k| ≤ 1 / 2 ∧ (|x - k| = 1 / 2 → k % 2 = 0)
  | .rz => |(k : ℝ)| ≤ |x| ∧ |x| < |(k : ℝ)| + 1 ∧ 0 ≤ x * k
  | .rd => k ≤ x ∧ x < k + 1
  | .ru => x ≤ k ∧ (k : ℝ) - 1 < x

/-- The instruction writes the four lanes of quad d with `(r i).1`, ORs the lanes' flags into FST (R249), has no other effect, and goes
on at the next address. -/
def WritesQ (i : Instr) (s : State) (d : Nat) (r : Nat → Word × Nat) : Prop :=
  Runs i s fun t => (∀ k, k < 4 → t.g (4 * d + k) = (r k).1) ∧
    Went s s.me { s.slot with fst := s.slot.fst ||| u32 (((r 0).2 ||| (r 1).2 ||| (r 2).2 ||| (r 3).2) % 32) }
      [4 * d, 4 * d + 1, 4 * d + 2, 4 * d + 3] [] s.next s t ∧ SameMemory s t

/-- The instruction waits (R98): it has no effect until its condition holds; its context keeps the instruction's start as its pc. A first
wait of the entry task opens the run queue (R157). -/
def Waits (i : Instr) (s : State) : Prop :=
  Runs i s fun t => SameModule { s with stamp := s.stamp + 1 } t ∧ SameCores s.issue.lid s t ∧
    t.me = { s.me with slots := t.me.slots, entryOver := t.me.entryOver } ∧ SameSlots s.issue.slot s.me t.me ∧
    ∃ w, t.slot = { s.slot with wait := some w, pc := s.issue.start } ∧ w.instr = i ∧ w.start = s.issue.start ∧
      w.sbuf = s.slot.sbuf

/-- A pool form of n bytes at `(gr + imm)` (R91): ALIGN, then POOLRANGE, then what it does at its offset. -/
def PoolForm (n r : Nat) (imm : Int) (i : Instr) (s : State) (P : Nat → Prop) : Prop :=
  if (Z (s.g r) + imm) % n ≠ 0 then Traps i s .align (w64 (Z (s.g r) + imm))
  else if Z (s.g r) + imm < 0 ∨ 0x6000 < Z (s.g r) + imm + n ∨ Z (s.g r) + imm < hndEnd s.me.part then
    Traps i s .poolRange (w64 (Z (s.g r) + imm))
  else P (Z (s.g r) + imm).toNat

/-- The instruction completes with the executing core's pool as `p` and its full bits as `f`, and no other effect but on general
registers `ds`. -/
def WentPool (p : Map Byte) (f : Map Bool) (ds : List Nat) (s t : State) : Prop :=
  Went s { s.me with pool := p, full := f } s.slot ds [] s.next s t ∧ SameMemory s t

/-- `p'` holds the n bytes of `b` at o, and every other byte of `p`. -/
def PoolWritten (p p' : Map Byte) (o n : Nat) (b : Nat → Byte) : Prop :=
  ∀ a, Map.get 0 p' a = if o ≤ a ∧ a < o + n then b (a - o) else Map.get 0 p a

/-- Byte i of a word, the lowest first (R6). -/
def byteOf (v : Word) (i : Nat) : Byte := BitVec.ofNat 8 (Z v / 256 ^ i)

/-- A handle form (R100): PROT with the handle's number on an unbound handle and, for a producer form, on a mailbox. -/
def HandleForm (h : Nat) (producer : Prop) (i : Instr) (s : State) (P : Prop) : Prop :=
  ((s.me.handle h).bnd = false ∨ producer ∧ (s.me.handle h).mbx = true → Traps i s .prot (u64 h)) ∧
    ((s.me.handle h).bnd = true → ¬(producer ∧ (s.me.handle h).mbx = true) → P)

/-- The instruction completes with handle record h as `y` and the executing core's pool as `p`, and no other effect but on general
registers `ds`. -/
def WentHandle (h : Nat) (y : Handle) (p : Map Byte) (ds : List Nat) (s t : State) : Prop :=
  (∃ hs, Went s { s.me with handles := hs, pool := p } s.slot ds [] s.next s t ∧
    ∀ j, Map.get Handle.empty hs j = if j = h then y else s.me.handle j) ∧ SameMemory s t

/-- The offset of entry(i) of a handle record (R99). -/
def entryAt (x : Handle) (i : Word) : Nat := x.rbase + Z i % 2 ^ x.rlog * (4 * 2 ^ x.resz)

/-- A difference of two free-running counts (R99). -/
def countDiff (a b : Word) : Nat := Z (w32 ((Z a : Int) - Z b))

/-- Whether the injection port of core l takes a flit now (R119, R186, R210): its team's router has one of its 16 credits free, a
counted flit does not wait for a snapshot cut, and the core's clock fits the flit (log entry 47). -/
def PortFree (s : State) (l : Nat) (counted : Bool) : Prop :=
  (s.flight.filter fun x => x.team == some (l / 8)).length < 16 ∧ (counted = true → (s.core l).cut.holding = false) ∧
    (s.core l).pts - s.base < 2 ^ 32

/-- The flit that the executing context sends (R115, R116, R119): SRC, PRI and the low clock are its core's (a clock below BASE counts as
BASE, log entry 24). -/
def flitOf (s : State) (k : FlitKind) (dst pri ksf : Nat) (w0 w1 w2 w3 w4 : Word) : Flit :=
  { dst := dst, src := s.issue.lid, kind := k, pri := pri, cls := 0, ksf := ksf, low := u32 (s.me.pts - s.base),
    w0 := w0, w1 := w1, w2 := w2, w3 := w3, w4 := w4 }

/-- The sending instruction completes: `f` is in flight on a credit of the core's router, the core's CSENT is `sent` higher (R208), its
context is `x` but for registers and progress, and nothing else changed but registers `ds`. -/
def Sent (f : Flit) (sent : Nat) (x : Slot) (s t : State) : Prop :=
  (∃ tag serial next, Went { s with
      flight := s.flight ++ [⟨f, some (s.issue.lid / 8), s.me.uid, s.stamp, tag, serial⟩], stamp := s.stamp + 1, serial := next }
    { s.me with csent := s.me.csent + sent } x [] [] s.next s t) ∧ SameMemory s t

/-- What is in flight once `x` has left: every other flit, in order and as it was, but for the low clock of one that had waited for a
credit and is injected now (R186), which is its sender's at this moment (R265) where that is still a core of its launch; a bounce has no
clock. -/
def Freed (s : State) (x : InFlight) (fs : List InFlight) : Prop :=
  ∃ r : InFlight → InFlight, fs = (s.flight.erase x).map r ∧ ∀ y ∈ s.flight.erase x,
    r y = if s.injected y = false ∧ { s with flight := s.flight.erase x }.injected y = true ∧ y.flit.kind ≠ .bounce ∧
        (s.core y.flit.src).queue ≠ none ∧ (s.core y.flit.src).uid = y.uid
      then { y with flit := { y.flit with low := u32 ((s.core y.flit.src).pts - s.base) } } else y

/-- The clock of every sender with a flit in flight fits a flit: none calls for a rebase (R268). -/
def Clocked (s : State) : Prop := ∀ y ∈ s.flight, (s.core y.flit.src).pts - s.base < 2 ^ 32

/-- A flit `x` in flight ends at core `x.flit.dst`, which is `c` now; nothing else of the module changed but what is in flight. -/
def Landed (x : InFlight) (c : Core) (s t : State) : Prop :=
  SameModule { s with flight := t.flight, goldenStamp := t.goldenStamp } t ∧ Freed s x t.flight ∧
    SameCores x.flit.dst s t ∧ t.core x.flit.dst = c ∧ SameMemory s t

/-- A flit `x` in flight is refused at its destination with a status (R127): it goes back as a bounce with its payload, from the
router of its destination's team (that of its sender's where no team has it, log entry 14), and its destination is as it was. -/
def Bounced (x : InFlight) (st cause count : Nat) (s t : State) : Prop :=
  SameModule { s with flight := t.flight, goldenStamp := t.goldenStamp, stamp := s.stamp + 1 } t ∧ (∀ l, t.core l = s.core l) ∧
    SameMemory s t ∧ ∃ b fs, Freed s x fs ∧ t.flight = fs ++ [b] ∧
      b.team = some ((if x.flit.dst < 8 * s.dev.tcnt then x.flit.dst else x.flit.src) / 8) ∧
      b.flit = { x.flit with
        dst := x.flit.src, src := x.flit.dst, kind := .bounce, cls := 2, ksf := st,
        low := u32 (cause * 2 ^ 24 + count * 2 ^ 19 + x.flit.kind.code * 2 ^ 16 + x.flit.ksf) }

/-- Bit i of `w'` is `b`, and its other bits are those of `w`. -/
def BitSet (w w' : Word) (i : Nat) (b : Bool) : Prop := ∀ j, j < 32 → w'.getLsbD j = if j = i then b else w.getLsbD j

/-- The arguments that a task form captures (R155): g0 to g3 of the executing context. -/
def CapturesArgs (s : State) (args : Map Word) : Prop := ∀ i, i < 4 → Map.get 0 args i = s.g i

/-- A new run-queue entry for a task at `a` of level p, with the executing context's g0 to g3. -/
def NewTask (e : QEntry) (k : QKind) (p : Nat) (a : DWord) (s : State) : Prop :=
  e.kind = k ∧ e.level = p ∧ e.start = a ∧ CapturesArgs s e.args

/-- The instruction writes the pair (g[d], g[d+1]) with `r`'s first two words, ORs the flags `r.2.2` into FST, has no other effect, and
goes on at the next address. -/
def WritesP (i : Instr) (s : State) (d : Nat) (r : Word × Word × Nat) : Prop :=
  Runs i s fun t => t.g d = r.1 ∧ t.g (d + 1) = r.2.1 ∧
    Went s s.me { s.slot with fst := s.slot.fst ||| u32 (r.2.2 % 32) } [d, d + 1] [] s.next s t ∧ SameMemory s t

/-- The word at an offset of a pool. -/
def poolWord (p : Map Byte) (o : Nat) : Word := u32 (leNat (Map.getList 0 p o 4))

/-- The instruction completes with the executing core's pool as `p` and its full bits as `f`, writes status `st` to general register r,
ORs flags into FST, and has no other effect. -/
def WentStatus (p : Map Byte) (f : Map Bool) (r st fl : Nat) (s t : State) : Prop :=
  t.g r = u32 st ∧ Went s { s.me with pool := p, full := f } { s.slot with fst := s.slot.fst ||| u32 (fl % 32) } [r] [] s.next s t ∧
    SameMemory s t

/-- Trap entry of a context with INH = 0 (R193), as the rule states it register by register. -/
def Entered (x y : Slot) (c : Word) (v e : DWord) : Prop :=
  y = { x with
    tcause := c, tval := v, tepc := e, tstat := x.stat, sfst := x.fst, regs := y.regs, bank := y.bank, stat := y.stat, pc := x.tvec,
    wait := none, stepDue := none, yask := none, loaded := false, half := none } ∧
  (∀ n, Map.get 0 y.regs n = if n < 4 then Map.get 0 x.bank n else Map.get 0 x.regs n) ∧
  (∀ n, n < 4 → Map.get 0 y.bank n = Map.get 0 x.regs n) ∧
  ∀ i, i < 32 → y.stat.getLsbD i = if i = 0 ∨ i = 1 then true else if i = 5 then false else x.stat.getLsbD i

/-- Only context k of core l changed, to `y`. -/
def OnlyContextAt (l k : Nat) (y : Slot) (s t : State) : Prop :=
  SameModule { s with issue := t.issue } t ∧ SameCores l s t ∧ OnlySlots (s.core l) (t.core l) ∧ SameSlots k (s.core l) (t.core l) ∧
    t.slotAt l k = y ∧ SameMemory s t

/-- A global form whose address is `va` reaches n bytes of module memory at `pa`: its address is aligned (R257), it has the request entry
that an `ldgt` needs (R271), and its translation grants the right (R258), leaving the state `u`. A page keeps alignment. -/
def Reaches (i : Instr) (s u : State) (va : DWord) (pa n : Nat) : Prop :=
  ∃ op, i.access s = some (va, n, op) ∧ va.toNat % n = 0 ∧ pa % n = 0 ∧ (i.soft.isSome = true → s.slot.freeEntry ≠ none) ∧
    s.resolve s.issue.lid va.toNat op.acc = (u, .ok (.memory pa))

/-- A timestamp that a store or a lease would set is stored as an offset from BASE as it stands: no rebase must come first (R268). -/
def Fits (s : State) (t : Nat) : Prop := t ≤ s.base + (2 ^ 32 - 1)

/-- A global load of n bytes at `pa` completes (R261, R274): it reads the current version of the line, or an older one of which the core
could meet a usable copy; `V` holds of the value; its clock is raised to the version's write time; no byte of memory changes. -/
def Loaded (u : State) (pa n : Nat) (ds : List Nat) (V : Nat → Prop) (s t : State) : Prop :=
  ∃ w, (w = (u.line (pa / 128)).wts ∨ ∃ c ∈ u.staleCopies s.issue.lid (pa / 128), c.wts = w) ∧
    V (leNat (overlay s.slot.sbuf (.memory pa) (u.verBytes w pa n))) ∧
    Went { u with lines := t.lines, teams := t.teams, free := t.free } { u.me with pts := max u.me.pts w, l1 := t.me.l1 } u.slot ds []
      s.next s t ∧ SameMemory s t

/-- n bytes `bs` at `pa` have been read on the way from `u` to `v` for the executing instruction (R261, R269, R274): of the current version
of the line, or of an older one of which the core could meet a usable copy, under the context's own streaming stores; the clock is raised to
the version's write time. -/
def ReadAt (u : State) (pa n : Nat) (bs : List Byte) (v : State) : Prop :=
  ∃ w, (w = (u.line (pa / 128)).wts ∨ ∃ c ∈ u.staleCopies u.issue.lid (pa / 128), c.wts = w) ∧
    bs = overlay u.slot.sbuf (.memory pa) (u.verBytes w pa n) ∧
    v = { u with lines := v.lines, teams := v.teams, free := v.free, cores := v.cores } ∧ SameCores u.issue.lid u v ∧
    v.me = { u.me with pts := max u.me.pts w, l1 := v.me.l1 }

/-- A store of n bytes `b` at `pa` by the executing core has been performed at the home (R262): those bytes changed, the line's clocks
and the core's are the store's write time, and the sectors written whole are no longer in error (R277). -/
def StoredAt (u : State) (pa n : Nat) (b : Nat → Byte) (x : Slot) (ds : List Nat) (s t : State) : Prop :=
  (∀ a, t.byte a = if pa ≤ a ∧ a < pa + n then b (a - pa) else s.byte a) ∧
  (∀ k, Map.get false t.bad k = if pa ≤ 32 * k ∧ 32 * k + 32 ≤ pa + n then false else Map.get false s.bad k) ∧
  ∃ w, w = max u.me.pts ((u.line (pa / 128)).rts + 1) ∧ (t.line (pa / 128)).wts = w ∧ (t.line (pa / 128)).rts = w ∧
    (∀ ln, ln ≠ pa / 128 → t.line ln = s.line ln) ∧
    Went { u with mem := t.mem, lines := t.lines, bad := t.bad, stamp := u.stamp + 1 } { u.me with pts := w, l1 := t.me.l1 } x ds []
      s.next s t

/-- f(old, B) of an atomic on n-byte values (R282); `c` is the B' of a compare-and-swap, whose E is B. -/
def AtomicNew (op : AtOp) (n old b c new : Nat) : Prop :=
  match op with
  | .add => new = (old + b) % 2 ^ (8 * n)
  | .and => ∀ i, new.testBit i = (old.testBit i && b.testBit i)
  | .or => ∀ i, new.testBit i = (old.testBit i || b.testBit i)
  | .xor => ∀ i, new.testBit i = (old.testBit i ^^ b.testBit i)
  | .min => new = if (BitVec.ofNat (8 * n) b).toInt < (BitVec.ofNat (8 * n) old).toInt then b else old
  | .max => new = if (BitVec.ofNat (8 * n) old).toInt < (BitVec.ofNat (8 * n) b).toInt then b else old
  | .minz => new = min old b
  | .maxz => new = max old b
  | .swp => new = b
  | .cas => new = if old = b then c else old
  | .fadd => new = Z (fAdd .ne (u32 old) (u32 b)).1

/-- A core's pool has performed an atomic on n bytes at o (R270, R282): the bytes are f(old, B), of operand bytes B and then B', and the
full bits of their words are set. -/
def PoolAtomicDone (op : AtOp) (n o : Nat) (operand : List Byte) (c e : Core) : Prop :=
  ∃ p f new, e = { c with pool := p, full := f } ∧
    AtomicNew op n (leNat (Map.getList 0 c.pool o n)) (leNat (operand.take n)) (leNat (operand.drop n)) new ∧
    PoolWritten c.pool p o n (fun j => BitVec.ofNat 8 (new / 256 ^ j)) ∧
    ∀ k, Map.get false f k = if o / 4 ≤ k ∧ k < o / 4 + n / 4 then true else Map.get false c.full k

/-- No context of a core waits to move it (R205: while one does, arrivals are held). -/
def Staying (c : Core) : Prop := ∀ k, k < 4 → ∀ w, (c.slot k).wait = some w → ∀ d, w.instr ≠ .migr d

/-- Entry e is the lowest free request entry of a context. -/
def FreeEntry (x : Slot) (e : Nat) : Prop :=
  e < 16 ∧ Map.get none x.entries e = none ∧ ∀ j, j < e → Map.get none x.entries j ≠ none

/-- A flit in flight of a kind and class arrives at core `c` of its launch, which takes it now: nothing above the last rows of R121
applies, no cut holds the core, it does not wait to move, and the clocks of the senders fit their flits. -/
def Arrives (x : InFlight) (s : State) (c : Core) (kind : FlitKind) (cls : Nat) : Prop :=
  s.inFlight x.flit = some x ∧ x.flit.kind = kind ∧ x.flit.cls = cls ∧ c = s.core x.flit.dst ∧ s.fate x.flit.dst x.uid = .here ∧
    c.cut.holding = false ∧ Staying c ∧ Clocked s

/-- The executing command is accepted (R225): its context's lease of `m` is spent by one, its job enters the core's records with the next
id, its kind and operand block, and YJOB holds the id. The jobs that have not completed are the earlier ones and this one. -/
def JobAccepted (kind : YKind) (blk : List Byte) (m : Nat) (s t : State) : Prop :=
  (∃ js, Went s { s.me with jobs := js, nextJob := if 255 ≤ s.me.nextJob then 1 else s.me.nextJob + 1 }
      { s.slot with lease := if m ≤ 1 then none else some (m - 1), yjob := u32 s.me.nextJob } [] [] s.next s t ∧
    ∃ j, js.filter (fun x => x.state ≠ .complete) = (s.me.jobs.filter fun x => x.state ≠ .complete) ++ [j] ∧ j.id = s.me.nextJob ∧
      j.kind = kind ∧ j.state = .queued ∧ j.progress = 0 ∧ j.fmt = s.me.yfmt ∧ j.block = blk ∧ j.dtab = s.me.dtab ∧
      j.slot = s.issue.slot ∧ j.serial = (s.slot.task.map (·.serial)).getD 0 ∧ j.clock = s.me.pts ∧ j.sbuf = s.slot.sbuf ∧
      j.flags = 0 ∧ j.recs = none) ∧
  SameMemory s t

/-- The barrier at o (R246) has PEND and SEC changed by one action of the tug, which includes the completion check (R248), on the way from
pool p to q. -/
def BarrierMoved (o : Nat) (pend sec : Nat → Nat) (p q : Map Byte) : Prop :=
  let g := Z (poolWord p o)
  let k := pend (g / 2 ^ 8 % 2 ^ 8)
  let n := sec (Z (poolWord p (o + 8)))
  poolWord q (o + 8) = u32 n ∧ poolWord q (o + 12) = poolWord p (o + 12) ∧
  (∀ a, (a < o ∨ o + 16 ≤ a) → Map.get 0 q a = Map.get 0 p a) ∧
  if poolWord p (o + 4) = 0 ∧ k % 2 ^ 8 = 0 ∧ u32 n = 0 then
    poolWord q o = u32 (g / 2 ^ 16 * 2 ^ 16 + g / 2 ^ 4 % 2 ^ 4 * 2 ^ 4 + (g + 1) % 2 ^ 4) ∧ poolWord q (o + 4) = poolWord p (o + 12)
  else poolWord q o = u32 (g / 2 ^ 16 * 2 ^ 16 + k % 2 ^ 8 * 2 ^ 8 + g % 2 ^ 8) ∧ poolWord q (o + 4) = poolWord p (o + 4)

/-- The barrier that a transfer names has moved, or it names none and the pool is as it was. -/
def Xfer.Accounted (x : Xfer) (pend sec : Nat → Nat) (p q : Map Byte) : Prop :=
  (∀ o, x.barrier = some o → BarrierMoved o pend sec p q) ∧ (x.barrier = none → q = p)

/-- A byte that changes have made of `b`: where none names its place it is as it was, where one does the bits of its mask are those of its
value. -/
def Changed (ps : List Patch) (pl : Place) (b e : Byte) : Prop :=
  ((∀ p ∈ ps, p.place ≠ pl) → e = b) ∧
  ∀ p, ps.filter (fun q => q.place = pl) = [p] → ∀ i, i < 8 →
    e.getLsbD i = ((b.getLsbD i && !p.mask.testBit i) || p.val.testBit i)

/-- The messages `es` of this module's hitch, each with its module, have gone out in order; this module's own are steps of its agenda
(R294). -/
def ToldAll (es : List (Nat × Event)) (s t : State) : Prop :=
  t.agenda = s.agenda ++ (es.filter fun e => e.1 == s.dev.mnum).map (fun e => .happen e.2) ∧
    t.outbox = s.outbox ++ es.filter fun e => e.1 != s.dev.mnum

/-- A step of a hitch leaves group `g` in object slot n and sends `es`; nothing else of the module changes. -/
def Hitched (n : Nat) (g : Group) (es : List (Nat × Event)) (s t : State) : Prop :=
  t = { s with objects := t.objects, agenda := t.agenda, outbox := t.outbox, serial := t.serial } ∧ t.groupAt n = some g ∧
    (∀ j, j ≠ n → t.obj j = s.obj j) ∧ ToldAll es s t

/-- What the leader of a group decides from the answers `as` for the ranks `live` (R306, R320): a status for every collective that one of
them reports, and the primary of every shard that has one, a live primary or else a live mirror whose primary is dropped. -/
def CommitDecides (g : Group) (as : List PrepAnswer) (live : List Nat) (cs : List CollDecision) (hs : List ShardReport) : Prop :=
  let held (q r : Nat) : Option Nat :=
    ((as.find? fun a => a.rank == r).bind fun a => a.colls.find? fun c => c.seq == q).bind fun c => c.held
  let node (k m role : Nat) (b : PrepAnswer) : Prop := b ∈ as ∧ b.rank ∈ live ∧
    ∃ h ∈ b.shards, h.model = k ∧ h.shard = m ∧ h.role = role ∧ (role = 1 ∨ h.module_ ∉ g.modsOf live)
  (∀ q, (∃ c ∈ cs, c.seq = q) ↔ ∃ b ∈ as, b.rank ∈ live ∧ ∃ c ∈ b.colls, c.seq = q) ∧
  (∀ c ∈ cs, ((∀ r ∈ live, held c.seq r ≠ none) → ∀ r, live.head? = some r → held c.seq r = some c.status) ∧
    ((∃ r ∈ live, held c.seq r = none) → c.status = if g.leader ∈ live then 4 else 3 + 2 ^ 16 * g.leader)) ∧
  (∀ k m, (∃ x ∈ hs, x.model = k ∧ x.shard = m) ↔ ∃ b, node k m 1 b ∨ node k m 2 b) ∧
  ∀ x ∈ hs, x.role = 1 ∧ ∃ b, x.module_ = g.modOf b.rank ∧
    (node x.model x.shard 1 b ∨ node x.model x.shard 2 b ∧ ∀ a, ¬node x.model x.shard 1 a)

/-- The hitch has sent `e` to module m; to this module it is a step of the agenda. -/
def Told (m : Nat) (e : Event) (s t : State) : Prop :=
  (m = s.dev.mnum → .happen e ∈ t.agenda) ∧ (m ≠ s.dev.mnum → (m, e) ∈ t.outbox)

/-- No clock that the hitch meets with clock c calls for a rebase (R268). -/
def Calm (s : State) (c : Nat) : Prop :=
  ∃ t, Fits s t ∧ max c s.hitchClock + 4 ≤ t ∧ (∀ l, (s.core l).pts + 4 ≤ t) ∧ ∀ ln, (s.line ln).wts + 4 ≤ t ∧ (s.line ln).rts + 4 ≤ t

/-- A region's pages are 64 KiB pages, and its n bytes from offset o on lie in different places. -/
def Region.Apart (r : Region) (o n : Nat) : Prop :=
  (∀ a ∈ r.pages, a % 2 ^ 16 = 0) ∧ ∀ i j, i < n → j < n → r.at (o + i) = r.at (o + j) → i = j

/-- `bs` are the bytes of block b of a region, as memory holds them. -/
def BlockBytes (s : State) (h : Shard) (r : Region) (b : Nat) (bs : List Byte) : Prop :=
  bs.length = h.blen ∧ ∀ j, j < h.blen → bs.getD j 0 = s.byte (r.at (h.blen * b + j))

/-- A region holds `bs` from offset o on, and every other byte of memory is as it was. -/
def RegionWritten (r : Region) (o : Nat) (bs : List Byte) (s t : State) : Prop :=
  (∀ j, j < bs.length → t.byte (r.at (o + j)) = bs.getD j 0) ∧ ∀ a, (∀ j, j < bs.length → a ≠ r.at (o + j)) → t.byte a = s.byte a

/-- `ws` are the weights of a block's words in FFMT, packed (R286, R316). -/
def PackedWeights (h : Shard) (bs ws : List Byte) : Prop :=
  let n := fmtBits h.ffmt
  ws.length = freshWidth h.blen h.ffmt ∧ (∀ k, h.blen / 4 * n ≤ k → (leNat ws).testBit k = false) ∧
  ∀ i b, i < h.blen / 4 → b < n → (leNat ws).testBit (n * i + b) =
    (encodeElem h.dtab h.ffmt (u32 (leNat ((bs.drop (4 * i)).take 4)))).1.testBit b

/-- Block b of a shard has gone to every subscriber as fresh weights (R316). -/
def Multicast (h : Shard) (b epoch : Nat) (s t : State) : Prop :=
  ∃ bs ws c, BlockBytes s h h.master b bs ∧ PackedWeights h bs ws ∧ s.hitchClock ≤ c ∧
    ∀ m ∈ h.subs, Told m (.freshMulticast h.model h.shard b ((h.step + 1) % 2 ^ 32) epoch ws c) s t

/-- Shard `h` is open here as it stands, and every other shard as before. -/
def OnlyShard (h : Shard) (s t : State) : Prop :=
  t.shardOf h.model h.shard = some h ∧ ∀ m k, (m, k) ≠ (h.model, h.shard) → t.shardOf m k = s.shardOf m k

/-- The selector word of R321 in register n names item i of lane e in direction r of link `l`. -/
def Selects (n : Nat) (s : State) (i e : Nat) (l : LinkId) (r : Dir) : Prop :=
  Z (s.g n) = i * 2 ^ 24 + e * 2 ^ 16 + (if l.glb then 2 ^ 15 else 0) + (if r = .rx then 2 ^ 14 else 0) + l.num ∧ i < 16 ∧
    (if l.glb then l.num ≤ 287 ∧ e < 8 else l.num ≤ 30 ∧ e < 16)

/-- Link `l` is `y` now, and nothing else of the module changed. -/
def LinkBecame (l : LinkId) (y : Link) (s t : State) : Prop :=
  t = { s with links := t.links } ∧ t.link l = y ∧ ∀ m, m.key ≠ l.key → t.link m = s.link m

/-- Only link `l` changed, with what links send, the words about routing and the fabric event. -/
def OnlyLink (l : LinkId) (s t : State) : Prop :=
  t = { s with
    links := t.links, linkOut := t.linkOut, outbox := t.outbox, hostOut := t.hostOut, dev := { s.dev with mevt := t.dev.mevt } } ∧
  ∀ m, m.key ≠ l.key → t.link m = s.link m

/-- Link `l` is `y` now but for its routing. Where this end's own part in it changes while the link is up, the far end is told (log entry
19). Where the link enters or leaves routing (R342), EVT[30] is set in both directions, the fabric event is raised, and every other hitch
of the group is told. -/
def Rerouted (l : LinkId) (y : Link) (s t : State) : Prop :=
  let z : Link := { y with told := if y.up then y.ownIn else y.told }
  let word : List (Nat × Event) := if y.up = true ∧ y.told ≠ y.ownIn then
      [(y.peerMod, .routingNotice (y.peerMod % 32) (if l.glb then ⟨true, Z y.peer % 2 ^ 9⟩ else ⟨false, 30 - l.num⟩) y.ownIn s.dev.mnum)]
    else []
  OnlyLink l s t ∧
  (y.routing = y.inRouting → t.link l = z ∧ t.outbox = s.outbox ++ word ∧ t.dev = s.dev) ∧
  (y.routing ≠ y.inRouting →
    t.link l = { z with
      routing := y.inRouting, tx := { y.tx with evt := y.tx.evt ||| 2 ^ 30 }, rx := { y.rx with evt := y.rx.evt ||| 2 ^ 30 } } ∧
    t.dev.mevt.getLsbD 0 = true ∧ (∀ e ∈ word, e ∈ t.outbox) ∧
    ∀ q, q < 32 → q ≠ s.dev.mnum % 32 →
      (s.dev.mnum / 32 * 32 + q, Event.routingNotice (s.dev.mnum % 32) l y.inRouting y.peerMod) ∈ t.outbox)

/-- Link `l` goes down (R339, R342, R345): its unacknowledged flits and the rest of a packet begun are discarded, the buffer entries of
packets accepted whole stay held (R338), no lane carries flits, EVT[31] and the fabric event are set, and training starts with every lane at the highest speed. -/
def WentDown (l : LinkId) (s t : State) : Prop :=
  let k := s.link l
  let down (x : LinkDir) : LinkDir :=
    { x with act := 0, wst := 2, lmap := 0, lout := 0x1F, evt := if k.up = true then x.evt ||| 2 ^ 31 else x.evt }
  OnlyLink l s t ∧ (k.up = true → t.dev.mevt.getLsbD 0 = true) ∧
    (k.up = true ∨ k.routing = false → t.link l = { k with
      up := false, round := 0, retry := [], begun := none, asm := [], held := (t.link l).held, notes := [], handed := [], mark := [],
      waiting := false, debt := 0, training := some ⟨1, 2 ^ (if l.glb then 8 else 16) - 1, 0, 0⟩, routing := false, tx := down k.tx, rx := down k.rx }) ∧
    ∀ c, Map.get 0 (t.link l).held c = (s.transit.filter fun x => x.link == some l && x.ch == c).foldl (fun n x => n + x.flits) 0

/-- The transmitter of link `l` opens a hand-back of a lane (R324 step 1, R346): its items, the notice that names HSEQ and the lane, and
then the flits that go out, of which the first is HSEQ and opens the boundary (the second, where the first still owes a return boundary,
log entry 19). An empty boundary flit goes out where no packet waits. -/
def HandedBack (l : LinkId) (lane : Nat) (s t : State) : Prop :=
  let k := s.link l
  let h := if k.mark = [] then k.nextSeq else if k.nextSeq + 1 < 2 ^ 32 then k.nextSeq + 1 else 1
  OnlyLink l s t ∧ (t.link l).rx = { k.rx with evt := (t.link l).rx.evt } ∧
    (t.link l).tx = { k.tx with hseq := h, act := k.tx.act - 1, wst := 1, lout := lane, evt := (t.link l).tx.evt } ∧
    (t.link l).handed = k.handed ++ [(h, lane)] ∧
    ∃ fs : List FabFlit, t.linkOut = s.linkOut ++ (l, ctlFlit 8 h lane) :: fs.map (fun f => (l, f)) ∧
      (∀ f, fs.head? = some f → f.seq = k.nextSeq ∧ f.lk = k.mark.headD 1) ∧
      (k.up = true → k.retry.length < l.retryCap → k.mark = [] → k.txq = [] → k.begun = none → ∃ f, fs = [f] ∧ f.ch = 15)

/-- The receiver of link `l` refuses a flit (R337): one NAK that names the number it expects, until it has accepted that flit. -/
def Nakked (l : LinkId) (s t : State) : Prop :=
  let k := s.link l
  if k.waiting then t = s
  else LinkBecame l { k with waiting := true, rx := { k.rx with nakc := min (k.rx.nakc + 1) (2 ^ 32 - 1) } } s { t with linkOut := s.linkOut } ∧
    t.linkOut = s.linkOut ++ [(l, ctlFlit 4 k.expect 0)]

end Sys2Proof.Machine
end

