-- ==== Sys2Proof/Certificates/Slice0/Obligations.lean ====
section
/-! DEFINITION. The statements for the provers, in the order of the spec's sections. -/

open Sys2Proof Sys2Proof.Machine

/-! ### Integer arithmetic (spec/04) -/

/-- R80, R81: what every form but the divisions computes from A and B, with no flag, no trap and no other effect. A two-address form
takes A from gd and B from gs, a three-address form A from gs and B from gt. -/
def Sys2Proof.Part.IntegerArithmetic : Prop :=
  ∀ (d n : Nat) (t : Option Nat) (s : State), s.next ≠ END →
    ∀ a b : Word, a = t.elim (s.g d) (fun _ => s.g n) → b = t.elim (s.g n) s.g →
    WritesG (.add d n t) s d (fun v => v = w32 (Z a + Z b)) ∧
    WritesG (.sub d n t) s d (fun v => v = w32 ((Z a : Int) - Z b)) ∧
    WritesG (.mul d n t) s d (fun v => v = w32 (Z a * Z b)) ∧
    WritesG (.mulh d n t) s d (fun v => v = w32 (S a * S b / 2 ^ 32)) ∧
    WritesG (.mulhz d n t) s d (fun v => Z v = Z a * Z b / 2 ^ 32) ∧
    WritesG (.and d n t) s d (fun v => ∀ i, v.getLsbD i = (a.getLsbD i && b.getLsbD i)) ∧
    WritesG (.or d n t) s d (fun v => ∀ i, v.getLsbD i = (a.getLsbD i || b.getLsbD i)) ∧
    WritesG (.xor d n t) s d (fun v => ∀ i, v.getLsbD i = (a.getLsbD i ^^ b.getLsbD i)) ∧
    WritesG (.andn d n t) s d (fun v => ∀ i, i < 32 → v.getLsbD i = (a.getLsbD i && !b.getLsbD i)) ∧
    WritesG (.shl d n t) s d (fun v => v = w32 (Z a * 2 ^ (Z b % 32))) ∧
    WritesG (.shr d n t) s d (fun v => Z v = Z a / 2 ^ (Z b % 32)) ∧
    WritesG (.sra d n t) s d (fun v => v = w32 (S a / 2 ^ (Z b % 32))) ∧
    WritesG (.ror d n t) s d (fun v => ∀ i, i < 32 → v.getLsbD i = a.getLsbD ((i + Z b) % 32)) ∧
    WritesG (.min d n t) s d (fun v => S v = min (S a) (S b)) ∧
    WritesG (.max d n t) s d (fun v => S v = max (S a) (S b)) ∧
    WritesG (.minz d n t) s d (fun v => Z v = min (Z a) (Z b)) ∧
    WritesG (.maxz d n t) s d (fun v => Z v = max (Z a) (Z b)) ∧
    WritesG (.slt d n t) s d (fun v => v = if S a < S b then 1 else 0) ∧
    WritesG (.sltz d n t) s d (fun v => v = if Z a < Z b then 1 else 0) ∧
    WritesG (.seq d n t) s d (fun v => v = if a = b then 1 else 0) ∧
    WritesG (.sne d n t) s d (fun v => v = if a = b then 0 else 1)

/-- R82: division truncates toward zero; a zero divisor gives 0xFFFF_FFFF and A. -/
def Sys2Proof.Part.Division : Prop :=
  ∀ (d n : Nat) (t : Option Nat) (s : State), s.next ≠ END →
    ∀ a b : Word, a = t.elim (s.g d) (fun _ => s.g n) → b = t.elim (s.g n) s.g →
    ∀ q qz : Int, q = (S a).sign * (S b).sign * ((S a).natAbs / (S b).natAbs) → qz = Z a / Z b →
    WritesG (.div d n t) s d (fun v => v = if b = 0 then 0xFFFFFFFF#32 else w32 q) ∧
    WritesG (.rem d n t) s d (fun v => v = if b = 0 then a else w32 (S a - q * S b)) ∧
    WritesG (.divz d n t) s d (fun v => v = if b = 0 then 0xFFFFFFFF#32 else w32 qz) ∧
    WritesG (.remz d n t) s d (fun v => v = if b = 0 then a else w32 (Z a - qz * Z b))

/-- R83, R85: the single-operand forms. -/
def Sys2Proof.Part.SingleOperand : Prop :=
  ∀ (d n : Nat) (s : State), s.next ≠ END → ∀ a : Word, a = s.g n →
    WritesG (.clz d n) s d (fun v => Z v ≤ 32 ∧ (∀ i, i < Z v → a.getLsbD (31 - i) = false) ∧
      (Z v < 32 → a.getLsbD (31 - Z v) = true)) ∧
    WritesG (.ctz d n) s d (fun v => Z v ≤ 32 ∧ (∀ i, i < Z v → a.getLsbD i = false) ∧ (Z v < 32 → a.getLsbD (Z v) = true)) ∧
    WritesG (.popc d n) s d (fun v => Z v = ((List.range 32).filter fun i => a.getLsbD i).length) ∧
    WritesG (.brev d n) s d (fun v => ∀ i, i < 32 → v.getLsbD i = a.getLsbD (31 - i)) ∧
    WritesG (.sextB d n) s d (fun v => S v = (a.setWidth 8).toInt) ∧
    WritesG (.sextH d n) s d (fun v => S v = (a.setWidth 16).toInt) ∧
    WritesG (.zextB d n) s d (fun v => Z v = Z a % 2 ^ 8) ∧
    WritesG (.zextH d n) s d (fun v => Z v = Z a % 2 ^ 16) ∧
    WritesG (.satsB d n) s d (fun v => S v = min (max (S a) (-128)) 127) ∧
    WritesG (.satsH d n) s d (fun v => S v = min (max (S a) (-32768)) 32767) ∧
    WritesG (.satzB d n) s d (fun v => (Z v : Int) = min (max (S a) 0) 255) ∧
    WritesG (.satzH d n) s d (fun v => (Z v : Int) = min (max (S a) 0) 65535) ∧
    WritesG (.mov d n) s d (fun v => v = a)

/-- Every integer register form writes its result to gd, sets no flag, takes no trap, has no other effect and goes on at the next address;
division truncates toward zero, and a zero divisor gives 0xFFFF_FFFF and A. -/
def Obligations.IntegerForms : Prop :=
  Sys2Proof.Part.IntegerArithmetic ∧ Sys2Proof.Part.Division ∧ Sys2Proof.Part.SingleOperand

/-- R84: the immediate forms. -/
def Sys2Proof.Part.ImmediateForms : Prop :=
  ∀ (d : Nat) (imm : Int) (s : State), s.next ≠ END → ∀ a : Word, a = s.g d →
    WritesG (.li d imm) s d (fun v => v = w32 imm) ∧
    WritesG (.addi d imm) s d (fun v => v = w32 (Z a + imm)) ∧
    WritesG (.andi d imm) s d (fun v => ∀ i, v.getLsbD i = (a.getLsbD i && (w32 imm).getLsbD i)) ∧
    WritesG (.ori d imm) s d (fun v => ∀ i, v.getLsbD i = (a.getLsbD i || (w32 imm).getLsbD i)) ∧
    WritesG (.xori d imm) s d (fun v => ∀ i, v.getLsbD i = (a.getLsbD i ^^ (w32 imm).getLsbD i)) ∧
    WritesG (.shli d imm) s d (fun v => v = w32 (Z a * 2 ^ (Z (w32 imm) % 32))) ∧
    WritesG (.shri d imm) s d (fun v => Z v = Z a / 2 ^ (Z (w32 imm) % 32)) ∧
    WritesG (.srai d imm) s d (fun v => v = w32 (S a / 2 ^ (Z (w32 imm) % 32))) ∧
    WritesG (.slti d imm) s d (fun v => v = if S a < imm then 1 else 0)

/-- R87: address arithmetic wraps modulo 2^64. -/
def Sys2Proof.Part.AddressRegisters : Prop :=
  ∀ (d n : Nat) (imm : Int) (s : State), s.next ≠ END →
    WritesA (.aadd d n) s d (w64 ((s.a d).toNat + S (s.g n))) ∧
    WritesA (.asub d n) s d (w64 ((s.a d).toNat - S (s.g n))) ∧
    WritesA (.amov d n) s d (s.a n) ∧
    WritesA (.alea d n imm) s d (w64 ((s.a n).toNat + imm)) ∧
    WritesG (.aget d n) s d (fun v => Z v = (s.a n).toNat % 2 ^ 32) ∧
    WritesG (.agetHi d n) s d (fun v => Z v = (s.a n).toNat / 2 ^ 32) ∧
    WritesA (.aaddi d imm) s d (w64 ((s.a d).toNat + imm)) ∧
    WritesA (.apc d imm) s d (w64 (s.issue.start.toNat + imm))

/-- Each immediate form and each address-register form completes with its result in its one destination and no other effect; addresses wrap
modulo 2^64. -/
def Obligations.ImmediateAndAddressForms : Prop :=
  Sys2Proof.Part.ImmediateForms ∧ Sys2Proof.Part.AddressRegisters

/-- R88: jumps and calls. An odd register target traps ALIGN with the target as TVAL and writes nothing; a target END ends the task
(see TaskEnd), so it stands apart here. -/
def Sys2Proof.Part.JumpsAndCalls : Prop :=
  ∀ (n : Nat) (imm : Int) (s : State) (dest : DWord), dest = w64 (s.issue.start.toNat + 2 * imm) →
    (dest ≠ END → Runs (.j imm) s (Completed [] [] dest s) ∧
      Runs (.call imm) s (fun t => t.a 7 = s.next ∧ Completed [] [7] dest s t)) ∧
    ((s.a n).toNat % 2 = 0 → s.a n ≠ END → Runs (.jr n) s (Completed [] [] (s.a n) s) ∧
      Runs (.callr n) s (fun t => t.a 7 = s.next ∧ Completed [] [7] (s.a n) s t)) ∧
    ((s.a n).toNat % 2 = 1 → Traps (.jr n) s .align (s.a n) ∧ Traps (.callr n) s .align (s.a n)) ∧
    ((s.a 7).toNat % 2 = 0 → s.a 7 ≠ END → Runs .ret s (Completed [] [] (s.a 7) s)) ∧
    ((s.a 7).toNat % 2 = 1 → Traps .ret s .align (s.a 7))

/-- R89, R90: where a branch goes, and the count of `loop`. -/
def Sys2Proof.Part.Branches : Prop :=
  ∀ (d n : Nat) (imm : Int) (s : State) (dest : DWord), dest = w64 (s.issue.start.toNat + 2 * imm) → dest ≠ END → s.next ≠ END →
    Runs (.beq d n imm) s (Completed [] [] (if s.g d = s.g n then dest else s.next) s) ∧
    Runs (.bne d n imm) s (Completed [] [] (if s.g d = s.g n then s.next else dest) s) ∧
    Runs (.blt d n imm) s (Completed [] [] (if S (s.g d) < S (s.g n) then dest else s.next) s) ∧
    Runs (.bge d n imm) s (Completed [] [] (if S (s.g d) ≥ S (s.g n) then dest else s.next) s) ∧
    Runs (.bltz d n imm) s (Completed [] [] (if Z (s.g d) < Z (s.g n) then dest else s.next) s) ∧
    Runs (.bgez d n imm) s (Completed [] [] (if Z (s.g d) ≥ Z (s.g n) then dest else s.next) s) ∧
    Runs (.bz d imm) s (Completed [] [] (if s.g d = 0 then dest else s.next) s) ∧
    Runs (.bnz d imm) s (Completed [] [] (if s.g d = 0 then s.next else dest) s) ∧
    Runs (.loop d imm) s (fun t => t.g d = w32 ((Z (s.g d) : Int) - 1) ∧
      Completed [d] [] (if Z (s.g d) = 1 then s.next else dest) s t)

/-- Each jump, call, return, branch and loop goes to the address its rule gives, writes only its link or count, and traps ALIGN on an odd
target with nothing written. -/
def Obligations.ControlFlow : Prop :=
  Sys2Proof.Part.JumpsAndCalls ∧ Sys2Proof.Part.Branches

/-! ### The pool (spec/04) -/

/-- R91, R92, R93, R94: loads from the pool. -/
def Sys2Proof.Part.PoolLoads : Prop :=
  ∀ (z d n : Nat) (imm : Int) (s : State), s.next ≠ END →
    PoolForm (2 ^ z) n imm (.ldp z d n imm) s (fun o =>
      z ≤ 2 → WritesG (.ldp z d n imm) s d fun v => Z v = leNat (Map.getList 0 s.me.pool o (2 ^ z))) ∧
    PoolForm (2 ^ z) n imm (.ldpBS z d n imm) s (fun o =>
      z ≤ 1 → WritesG (.ldpBS z d n imm) s d fun v =>
        S v = (BitVec.ofNat (8 * 2 ^ z) (leNat (Map.getList 0 s.me.pool o (2 ^ z)))).toInt) ∧
    PoolForm 16 n imm (.ldpq d n imm) s (fun o =>
      Runs (.ldpq d n imm) s fun t => Completed [4 * d, 4 * d + 1, 4 * d + 2, 4 * d + 3] [] s.next s t ∧
        ∀ i, i < 4 → Z (t.g (4 * d + i)) = leNat (Map.getList 0 s.me.pool (o + 4 * i) 4))

/-- R91, R92, R93, R94: stores to the pool; the bytes outside the stored ones and every full bit are as they were. -/
def Sys2Proof.Part.PoolStores : Prop :=
  ∀ (z d n : Nat) (imm : Int) (s : State), s.next ≠ END →
    PoolForm (2 ^ z) n imm (.stp z d n imm) s (fun o =>
      Runs (.stp z d n imm) s fun t => ∃ p, WentPool p s.me.full [] s t ∧ PoolWritten s.me.pool p o (2 ^ z) (byteOf (s.g d))) ∧
    PoolForm 16 n imm (.stpq d n imm) s (fun o =>
      Runs (.stpq d n imm) s fun t => ∃ p, WentPool p s.me.full [] s t ∧
        PoolWritten s.me.pool p o 16 fun i => byteOf (s.g (4 * d + i / 4)) (i % 4))

/-- R91, R95, R96, R98: the full-bit forms; `ldps` of an empty word waits, and `sete` checks the range of its words, of at least one. -/
def Sys2Proof.Part.FullBits : Prop :=
  ∀ (d n : Nat) (imm : Int) (s : State), s.next ≠ END →
    PoolForm 4 n imm (.ldps d n imm) s (fun o =>
      (Map.get false s.me.full (o / 4) = true → WritesG (.ldps d n imm) s d fun v => Z v = leNat (Map.getList 0 s.me.pool o 4)) ∧
      (Map.get false s.me.full (o / 4) = false → Waits (.ldps d n imm) s)) ∧
    PoolForm 4 n imm (.stpf d n imm) s (fun o =>
      Runs (.stpf d n imm) s fun t => ∃ p f, WentPool p f [] s t ∧ PoolWritten s.me.pool p o 4 (byteOf (s.g d)) ∧
        ∀ w, Map.get false f w = if w = o / 4 then true else Map.get false s.me.full w) ∧
    PoolForm 4 n imm (.tstf d n imm) s (fun o =>
      WritesG (.tstf d n imm) s d fun v => v = if Map.get false s.me.full (o / 4) = true then 1 else 0) ∧
    ((Z (s.g n) + imm) % 4 ≠ 0 → Traps (.sete d n imm) s .align (w64 (Z (s.g n) + imm))) ∧
    ((Z (s.g n) + imm) % 4 = 0 → Z (s.g n) + imm < 0 ∨ 0x6000 < Z (s.g n) + imm + 4 * max (Z (s.g d)) 1 ∨
      Z (s.g n) + imm < hndEnd s.me.part → Traps (.sete d n imm) s .poolRange (w64 (Z (s.g n) + imm))) ∧
    (∀ o : Nat, (o : Int) = Z (s.g n) + imm → o % 4 = 0 → hndEnd s.me.part ≤ o → o + 4 * max (Z (s.g d)) 1 ≤ 0x6000 →
      Runs (.sete d n imm) s fun t => ∃ f, WentPool s.me.pool f [] s t ∧
        ∀ w, Map.get false f w = if o / 4 ≤ w ∧ w < o / 4 + Z (s.g d) then false else Map.get false s.me.full w)

/-- Each pool form checks its offset, then loads or stores exactly its bytes and full bits; ldps waits while the word is empty. -/
def Obligations.PoolForms : Prop :=
  Sys2Proof.Part.PoolLoads ∧ Sys2Proof.Part.PoolStores ∧ Sys2Proof.Part.FullBits

/-- R99, R101: binding and unbinding a handle, with the checks of the bind word. -/
def Sys2Proof.Part.HandleBind : Prop :=
  ∀ (d h : Nat) (s : State) (b l e : Nat), s.next ≠ END → b = Z (s.g d) % 2 ^ 16 → l = Z (s.g d) / 2 ^ 16 % 2 ^ 8 →
    e = 4 * 2 ^ (Z (s.g d) / 2 ^ 24 % 4) →
    if (s.me.handle h).mbx = true then Traps (.hbind d h) s .prot (u64 h)
    else if s.g d = 0xFFFFFFFF#32 then Runs (.hbind d h) s (WentHandle h Handle.empty s.me.pool [] s)
    else if 2 ^ 26 ≤ Z (s.g d) ∨ 10 < l then Traps (.hbind d h) s .illegal (u64 (Z (s.g d)))
    else if b % e ≠ 0 then Traps (.hbind d h) s .align (u64 b)
    else if b < hndEnd s.me.part ∨ 0x6000 < b + e * 2 ^ l then Traps (.hbind d h) s .poolRange (u64 b)
    else Runs (.hbind d h) s (WentHandle h ⟨true, false, Z (s.g d) / 2 ^ 24 % 4, b, l, 0, 0, 0⟩ s.me.pool [] s)

/-- R100, R102: the producer forms. -/
def Sys2Proof.Part.HandleProducers : Prop :=
  ∀ (d h : Nat) (s : State) (x : Handle), s.next ≠ END → x = s.me.handle h →
    HandleForm h True (.hadv d h) s (Runs (.hadv d h) s fun t =>
      if countDiff x.rsv x.head < 2 ^ x.rlog then
        t.g d = u32 (entryAt x x.rsv) ∧ WentHandle h { x with rsv := x.rsv + 1 } s.me.pool [d] s t
      else t.g d = 0xFFFFFFFF#32 ∧ Completed [d] [] s.next s t) ∧
    HandleForm h True (.hpub d h) s (Runs (.hpub d h) s fun t =>
      Z (t.g d) = countDiff x.rsv x.pub ∧ WentHandle h { x with pub := x.rsv } s.me.pool [d] s t) ∧
    HandleForm h True (.hst d h) s
      ((countDiff x.rsv x.head < 2 ^ x.rlog → Runs (.hst d h) s fun t => ∃ p,
          WentHandle h { x with rsv := x.rsv + 1, pub := x.rsv + 1 } p [] s t ∧
          PoolWritten s.me.pool p (entryAt x x.rsv) 4 (byteOf (s.g d))) ∧
        (2 ^ x.rlog ≤ countDiff x.rsv x.head → Waits (.hst d h) s))

/-- R100, R103: the consumer forms. -/
def Sys2Proof.Part.HandleConsumers : Prop :=
  ∀ (d h : Nat) (s : State) (x : Handle), s.next ≠ END → x = s.me.handle h →
    HandleForm h False (.hwait d h) s
      ((countDiff x.pub x.head ≠ 0 → WritesG (.hwait d h) s d fun v => v = u32 (entryAt x x.head)) ∧
        (countDiff x.pub x.head = 0 → Waits (.hwait d h) s)) ∧
    HandleForm h False (.hld d h) s
      ((countDiff x.pub x.head ≠ 0 → Runs (.hld d h) s fun t =>
          Z (t.g d) = leNat (Map.getList 0 s.me.pool (entryAt x x.head) 4) ∧
          WentHandle h { x with head := x.head + 1 } s.me.pool [d] s t) ∧
        (countDiff x.pub x.head = 0 → Waits (.hld d h) s)) ∧
    HandleForm h False (.hfree d h) s (Runs (.hfree d h) s fun t =>
      Z (t.g d) = min (Z (s.g d)) (countDiff x.pub x.head) ∧
        WentHandle h { x with head := x.head + u32 (min (Z (s.g d)) (countDiff x.pub x.head)) } s.me.pool [d] s t) ∧
    HandleForm h False (.hcnt d h) s (WritesG (.hcnt d h) s d fun v => Z v = countDiff x.pub x.head)

/-- hbind sets or clears a record after its checks; the producer and consumer forms move RSV, PUB and HEAD, wait where the rules say, and
touch only their entry. -/
def Obligations.HandleForms : Prop :=
  Sys2Proof.Part.HandleBind ∧ Sys2Proof.Part.HandleProducers ∧ Sys2Proof.Part.HandleConsumers

/-! ### Floating point (spec/02, spec/04, spec/11) -/

/-- R105, R106, R107, R40: what the arithmetic forms write and which flags they add. -/
def Sys2Proof.Part.FloatArithmetic : Prop :=
  ∀ (m : RMode) (d n r : Nat) (t : Option Nat) (s : State), s.next ≠ END → s.issue.slot < 4 →
    ∀ a b : Word, a = t.elim (s.g d) (fun _ => s.g n) → b = t.elim (s.g n) s.g →
    WritesF (.fadd m d n t) s d (fAdd m a b) ∧ WritesF (.fsub m d n t) s d (fSub m a b) ∧
    WritesF (.fmul m d n t) s d (fMul m a b) ∧ WritesF (.fdiv m d n t) s d (fDiv m a b) ∧
    WritesF (.fsqrt m d n) s d (fSqrt m (s.g n)) ∧
    WritesF (.fma m d n r) s d (fMulAdd m false false (s.g n) (s.g r) (s.g d)) ∧
    WritesF (.fms m d n r) s d (fMulAdd m false true (s.g n) (s.g r) (s.g d)) ∧
    WritesF (.fnma m d n r) s d (fMulAdd m true false (s.g n) (s.g r) (s.g d)) ∧
    WritesF (.fnms m d n r) s d (fMulAdd m true true (s.g n) (s.g r) (s.g d))

/-- R36, R38, R106, R107: every arithmetic operation gives the exact real result of its operands, rounded once in its mode, with the flags
of that rounding; where the exact result is zero, or there is none, the sign, the NaN and the flags are those of the rules. R37, R106: a
NaN operand gives 0x7FC0_0000, with NV exactly if it is signalling; R22, R36: adding a zero to a finite non-zero word,
and multiplying it by one, returns that word in every mode, without a flag; sums and products do not depend on the order. -/
def Sys2Proof.Part.FloatLaws : Prop :=
  ∀ (m : RMode) (a b c : Word),
    (∀ x y z : ℝ, (fval a).Is x → (fval b).Is y → (fval c).Is z →
      RoundedWord m (x + y) (fAdd m a b) ∧ RoundedWord m (x - y) (fSub m a b) ∧ RoundedWord m (x * y) (fMul m a b) ∧
      (y ≠ 0 → RoundedWord m (x / y) (fDiv m a b)) ∧ (0 ≤ x → RoundedWord m (Real.sqrt x) (fSqrt m a)) ∧
      RoundedWord m (x * y + z) (fMulAdd m false false a b c) ∧ RoundedWord m (x * y - z) (fMulAdd m false true a b c) ∧
      RoundedWord m (-(x * y) + z) (fMulAdd m true false a b c) ∧ RoundedWord m (-(x * y) - z) (fMulAdd m true true a b c) ∧
      (x + y = 0 → (fAdd m a b).1 = if (if a.msb = b.msb then a.msb = true else m = .rd) then 0x80000000#32 else 0#32) ∧
      (x * y = 0 → (fMul m a b).1 = if a.msb = b.msb then 0#32 else 0x80000000#32) ∧
      (x = 0 → (fSqrt m a).1 = a) ∧ (x < 0 → fSqrt m a = (0x7FC00000#32, 16)) ∧
      (y = 0 → x ≠ 0 → fDiv m a b = (if a.msb = b.msb then 0x7F800000#32 else 0xFF800000#32, 8)) ∧
      (y = 0 → x = 0 → fDiv m a b = (0x7FC00000#32, 16))) ∧
    (Z a % 2 ^ 31 = 0x7F800000 → (Z b % 2 ^ 31 = 0 → fMul m a b = (0x7FC00000#32, 16)) ∧
      (Z b % 2 ^ 31 = 0x7F800000 → a ≠ b → fAdd m a b = (0x7FC00000#32, 16)) ∧
      (Z b % 2 ^ 31 = 0x7F800000 → fDiv m a b = (0x7FC00000#32, 16)) ∧ (Z b % 2 ^ 31 < 0x7F800000 → fAdd m a b = (a, 0))) ∧
    (Z a % 2 ^ 31 > 0x7F800000 → Z b % 2 ^ 31 < 0x7F800000 →
      fAdd m a b = (0x7FC00000#32, if a.getLsbD 22 then 0 else 16) ∧ fMul m a b = (0x7FC00000#32, if a.getLsbD 22 then 0 else 16)) ∧
    (Z a % 2 ^ 31 < 0x7F800000 → Z a % 2 ^ 31 ≠ 0 → fAdd m a 0#32 = (a, 0) ∧ fMul m a 0x3F800000#32 = (a, 0)) ∧
    fAdd m a b = fAdd m b a ∧ fMul m a b = fMul m b a

/-- R108, R109, R110: selections, signs, classes and comparisons. -/
def Sys2Proof.Part.FloatSelection : Prop :=
  ∀ (d n : Nat) (t : Option Nat) (s : State), s.next ≠ END → s.issue.slot < 4 →
    ∀ a b : Word, a = t.elim (s.g d) (fun _ => s.g n) → b = t.elim (s.g n) s.g →
    ∀ nv : Word × Nat → Prop, (nv = fun r => r.2 = if (fval a).isSig ∨ (fval b).isSig then 16 else 0) →
    (∃ r, nv r ∧ WritesF (.fmin d n t) s d r ∧
      r.1 = if (fval a).isNan then (if (fval b).isNan then 0x7FC00000#32 else b) else if (fval b).isNan then a
        else if before b a then b else a) ∧
    (∃ r, nv r ∧ WritesF (.fmax d n t) s d r ∧
      r.1 = if (fval a).isNan then (if (fval b).isNan then 0x7FC00000#32 else b) else if (fval b).isNan then a
        else if before a b then b else a) ∧
    (∃ v : Word, WritesF (.fsgn d n t) s d (v, 0) ∧ ∀ i, i < 32 → v.getLsbD i = if i = 31 then b.getLsbD 31 else a.getLsbD i) ∧
    (∃ v : Word, WritesF (.fabs d n) s d (v, 0) ∧ ∀ i, i < 32 → v.getLsbD i = if i = 31 then false else (s.g n).getLsbD i) ∧
    (∃ v : Word, WritesF (.fneg d n) s d (v, 0) ∧
      ∀ i, i < 32 → v.getLsbD i = if i = 31 then !(s.g n).getLsbD 31 else (s.g n).getLsbD i) ∧
    WritesF (.fclass d n) s d (fClass (s.g n), 0) ∧
    (∃ r, nv r ∧ WritesF (.feq d n t) s d r ∧ r.1 = if eqVal (fval a) (fval b) then 1 else 0) ∧
    (∃ r, WritesF (.flt d n t) s d r ∧ r.2 = (if (fval a).isNan ∨ (fval b).isNan then 16 else 0) ∧
      r.1 = if (fval a).isNan ∨ (fval b).isNan then 0 else if ltVal (fval a) (fval b) then 1 else 0) ∧
    (∃ r, WritesF (.fle d n t) s d r ∧ r.2 = (if (fval a).isNan ∨ (fval b).isNan then 16 else 0) ∧
      r.1 = if (fval a).isNan ∨ (fval b).isNan then 0 else if ltVal (fval b) (fval a) then 0 else 1)

/-- The scalar float forms write the rounded result of their operands and OR its flags into FST; the operations obey the laws of rounding, NaN
and zero that the rules give; the selection and comparison forms give their values. -/
def Obligations.ScalarFloat : Prop :=
  Sys2Proof.Part.FloatArithmetic ∧ Sys2Proof.Part.FloatLaws ∧ Sys2Proof.Part.FloatSelection

/-- R111 to R114: the conversions. -/
def Sys2Proof.Part.FloatConversions : Prop :=
  ∀ (m : RMode) (d n : Nat) (s : State), s.next ≠ END → s.issue.slot < 4 → ∀ a : Word, a = s.g n →
    WritesF (.fcvtiS m d n) s d (fToInt m (-2 ^ 31) (2 ^ 31 - 1) a) ∧ WritesF (.fcvtiZ m d n) s d (fToInt m 0 (2 ^ 32 - 1) a) ∧
    WritesF (.fcvtfS m d n) s d (intToF m (S a)) ∧ WritesF (.fcvtfZ m d n) s d (intToF m (Z a)) ∧
    WritesF (.fcvthB16 m d n) s d (u32 (narrow b16 m a).1, (narrow b16 m a).2) ∧
    WritesF (.fcvthBf16 m d n) s d (u32 (narrow bf16 m a).1, (narrow bf16 m a).2) ∧
    WritesF (.fcvthXB16 d n) s d (widen b16 (Z a % 2 ^ 16)) ∧ WritesF (.fcvthXBf16 d n) s d (widen bf16 (Z a % 2 ^ 16)) ∧
    WritesF (.frnd m d n) s d (fRnd m a)

/-- R36, R38, R111 to R114: a finite value converts to the integer, or to the value of the format, that it rounds to, with the flags of
that; an integer that the destination does not hold gives the bound with NV. R111: a NaN converts to 0 with NV, and a value out of range to the bound with NV; R113: `fcvth.x.bf16` is a shift by 16 but for a
NaN. -/
def Sys2Proof.Part.ConversionLaws : Prop :=
  ∀ (m : RMode) (a : Word),
    (∀ x : ℝ, (fval a).Is x →
      (∀ lo hi : Int, (lo = -2 ^ 31 ∧ hi = 2 ^ 31 - 1) ∨ (lo = 0 ∧ hi = 2 ^ 32 - 1) → ∃ k, RoundedInt m x k ∧
        (k < lo → fToInt m lo hi a = (w32 lo, 16)) ∧ (hi < k → fToInt m lo hi a = (w32 hi, 16)) ∧
        (lo ≤ k → k ≤ hi → (fToInt m lo hi a).1 = w32 k ∧ (x = k → (fToInt m lo hi a).2 = 0) ∧ (x ≠ k → (fToInt m lo hi a).2 = 1))) ∧
      (∃ k, RoundedInt m x k ∧ (fval (fRnd m a).1).Is k ∧ (fRnd m a).1.msb = a.msb ∧ (x = k → (fRnd m a).2 = 0) ∧
        (x ≠ k → (fRnd m a).2 = 1)) ∧
      ∀ f ∈ [b16, bf16, f19], f.Rounded m x (narrow f m a).1 (narrow f m a).2 ∧ (f.val (narrow f m a).1).neg = a.msb) ∧
    (∀ k : Int, -2 ^ 31 ≤ k → k < 2 ^ 32 → RoundedWord m k (intToF m k) ∧ (k = 0 → intToF m k = (0, 0))) ∧
    (∀ f ∈ [b16, bf16], ∀ c x, (f.val c).Is x → (fval (widen f c).1).Is x ∧ (widen f c).2 = 0) ∧
    ((fval a).isNan = true → ∀ f ∈ [b16, bf16, f19], narrow f m a = (f.nan, if (fval a).isSig then 16 else 0)) ∧
    ((fval a).isNan = true → fToInt m (-2 ^ 31) (2 ^ 31 - 1) a = (0, 16) ∧ fToInt m 0 (2 ^ 32 - 1) a = (0, 16)) ∧
    (0x4F800000 ≤ Z a → Z a ≤ 0x7F800000 → fToInt m (-2 ^ 31) (2 ^ 31 - 1) a = (0x7FFFFFFF#32, 16) ∧
      fToInt m 0 (2 ^ 32 - 1) a = (0xFFFFFFFF#32, 16)) ∧
    (0xCF800000 ≤ Z a → Z a ≤ 0xFF800000 → fToInt m (-2 ^ 31) (2 ^ 31 - 1) a = (0x80000000#32, 16) ∧
      fToInt m 0 (2 ^ 32 - 1) a = (0, 16)) ∧
    ((fval (a <<< 16)).isNan = false → widen bf16 (Z a % 2 ^ 16) = (a <<< 16, 0))

/-- The conversion forms write their conversion with its flags; conversions saturate, round and treat NaN as the rules say. -/
def Obligations.FloatConversionForms : Prop :=
  Sys2Proof.Part.FloatConversions ∧ Sys2Proof.Part.ConversionLaws

/-- R249, R250, R252, R253: the lanewise forms of the quad unit, with every operand read before any result is written. -/
def Sys2Proof.Part.QuadLanes : Prop :=
  ∀ (m : RMode) (d n r c sel : Nat) (t : Option Nat) (s : State), s.next ≠ END → s.issue.slot < 4 → c ≤ 6 →
    ∀ a b x y z : Nat → Word, (a = fun i => s.g (4 * t.elim d (fun _ => n) + i)) → (b = fun i => s.g (4 * t.elim n id + i)) →
    (x = fun i => s.g (4 * n + i)) → (y = fun i => s.g (4 * r + i)) → (z = fun i => s.g (4 * d + i)) →
    WritesQ (.qadd m d n t) s d (fun i => fAdd m (a i) (b i)) ∧ WritesQ (.qsub m d n t) s d (fun i => fSub m (a i) (b i)) ∧
    WritesQ (.qmul m d n t) s d (fun i => fMul m (a i) (b i)) ∧
    WritesQ (.qfma m d n r) s d (fun i => fMulAdd m false false (x i) (y i) (z i)) ∧
    WritesQ (.qmin d n t) s d (fun i => fMinMax false (a i) (b i)) ∧ WritesQ (.qmax d n t) s d (fun i => fMinMax true (a i) (b i)) ∧
    WritesQ (.qabs d n) s d (fun i => (x i &&& 0x7FFFFFFF#32, 0)) ∧ WritesQ (.qneg d n) s d (fun i => (x i ^^^ 0x80000000#32, 0)) ∧
    WritesQ (.qiadd d n t) s d (fun i => (a i + b i, 0)) ∧ WritesQ (.qimul d n t) s d (fun i => (a i * b i, 0)) ∧
    WritesQ (.qand d n t) s d (fun i => (a i &&& b i, 0)) ∧ WritesQ (.qbcast d n) s d (fun _ => (s.g n, 0)) ∧
    WritesQ (.qshuf d n sel) s d (fun i => (x (sel / 4 ^ i % 4), 0)) ∧
    WritesQ (.qsel d n r) s d (fun i => (if z i = 0 then y i else x i, 0)) ∧
    (c ≤ 5 → WritesQ (.qcmp d n t c) s d (fun i => (if (qcond c (a i) (b i)).1 then 0xFFFFFFFF#32 else 0, (qcond c (a i) (b i)).2))) ∧
    WritesQ (.qcvt m d n c) s d (fun i => match c with
      | 0 => fToInt m (-2 ^ 31) (2 ^ 31 - 1) (x i)
      | 1 => fToInt m 0 (2 ^ 32 - 1) (x i)
      | 2 => intToF m (S (x i))
      | 3 => intToF m (Z (x i))
      | 4 => (u32 ((narrow bf16 m (x i)).1 * 2 ^ 16), (narrow bf16 m (x i)).2)
      | 5 => (u32 ((narrow f19 m (x i)).1 * 2 ^ 13), (narrow f19 m (x i)).2)
      | _ => fRnd m (x i)) ∧
    WritesQ (.qscl m d n) s d (fun i => fScale m (z i) (S (s.g n)))

/-- R251, R254: the sums of the quad unit, rounded once, and the packed forms. -/
def Sys2Proof.Part.QuadReductions : Prop :=
  ∀ (m : RMode) (d n f : Nat) (t : Option Nat) (s : State), s.next ≠ END → s.issue.slot < 4 →
    ∀ x y : Nat → Word, (x = fun i => s.g (4 * n + i)) → (y = fun i => s.g (4 * t.getD n + i)) →
    WritesF (.qdot m d n t) s d (sumRound m [mulVals (fval (x 0)) (fval (y 0)), mulVals (fval (x 1)) (fval (y 1)),
      mulVals (fval (x 2)) (fval (y 2)), mulVals (fval (x 3)) (fval (y 3))]) ∧
    WritesF (.qsum m d n) s d (sumRound m [(fval (x 0), 0), (fval (x 1), 0), (fval (x 2), 0), (fval (x 3), 0)]) ∧
    WritesQ (.qdec d n f) s d (fun i => (unpackLane s.me.dtab f
      (packedCode f (if packedWide f then Z (s.g n) + 2 ^ 32 * Z (s.g (n + 1)) else Z (s.g n)) i), 0)) ∧
    ∀ (w v : Nat) (c : Nat → Nat × Nat) (fl : Nat), w = 2 ^ packedBits f → (c = fun i => packLane s.me.dtab f (x i)) →
      v = (c 0).1 + w * ((c 1).1 + w * ((c 2).1 + w * (c 3).1)) → fl = ((c 0).2 ||| (c 1).2 ||| (c 2).2 ||| (c 3).2) →
      (packedWide f = false → WritesF (.qenc d n f) s d (u32 v, fl)) ∧
      (packedWide f = true → Runs (.qenc d n f) s fun u =>
        Went s s.me { s.slot with fst := s.slot.fst ||| u32 (fl % 32) } [d, d + 1] [] s.next s u ∧ SameMemory s u ∧
        u.g d = u32 v ∧ u.g (d + 1) = u32 (v / 2 ^ 32))

/-- The lane forms act lane by lane and OR the flags of the four lanes; qdot, qsum, qdec and qenc give their results. -/
def Obligations.QuadForms : Prop :=
  Sys2Proof.Part.QuadLanes ∧ Sys2Proof.Part.QuadReductions

/-! ### Special registers (spec/03, spec/04) -/

/-- R69, R70, R71, R86: what `mfs` reads. KGO and RVH, whose reads have effects, are stated with the tug and with messages. -/
def Sys2Proof.Part.SpecialReads : Prop :=
  ∀ (d : Nat) (s : State) (x : Slot) (c : Core), s.next ≠ END → x = s.slot → c = s.me →
    (∀ p ∈ [(0x000, x.stat), (0x008, x.fst), (0x011, u32 s.issue.lid), (0x012, c.part), (0x020, Map.get 0 x.sd 0),
        (0x021, Map.get 0 x.sd 1), (0x022, Map.get 0 x.sd 2), (0x023, Map.get 0 x.sd 3), (0x024, Map.get 0 x.sd 4),
        (0x028, Map.get 0 x.rv 0), (0x029, Map.get 0 x.rv 1), (0x02A, Map.get 0 x.rv 2), (0x02B, Map.get 0 x.rv 3),
        (0x02C, Map.get 0 x.rv 4), (0x030, c.cvres), (0x031, c.cvcnt), (0x032, c.cvthr), (0x038, x.yjob),
        (0x044, Map.get 0 x.kext 0), (0x045, Map.get 0 x.kext 1), (0x046, Map.get 0 x.kext 2), (0x047, Map.get 0 x.kext 3),
        (0x050, c.cutid)],
      WritesG (.mfs 0 d p.1) s d (fun v => v = p.2) ∧
        (s.issue.lid < 2 ^ 32 → WritesA (.mfs 2 d p.1) s d (u64 (Z p.2)))) ∧
    (∀ p ∈ [(0x010, u64 c.pts), (0x025, x.sdh), (0x040, x.ksrc), (0x041, x.kdst), (0x042, x.klay), (0x043, x.kbase)],
      WritesG (.mfs 0 d p.1) s d (fun v => Z v = p.2.toNat % 2 ^ 32) ∧
        WritesG (.mfs 1 d p.1) s d (fun v => Z v = p.2.toNat / 2 ^ 32) ∧ WritesA (.mfs 2 d p.1) s d p.2) ∧
    (statMode x.stat = 1 →
      (∀ p ∈ [(0x001, x.tcause), (0x004, x.tstat)],
        WritesG (.mfs 0 d p.1) s d (fun v => v = p.2) ∧ WritesA (.mfs 2 d p.1) s d (u64 (Z p.2))) ∧
      ∀ p ∈ [(0x002, x.tval), (0x003, x.tepc), (0x005, x.tvec)],
        WritesG (.mfs 0 d p.1) s d (fun v => Z v = p.2.toNat % 2 ^ 32) ∧
          WritesG (.mfs 1 d p.1) s d (fun v => Z v = p.2.toNat / 2 ^ 32) ∧ WritesA (.mfs 2 d p.1) s d p.2) ∧
    (statMode x.stat = 0 → ∀ n ∈ [0x001, 0x002, 0x003, 0x004, 0x005], ∀ k,
      Traps (.mfs k d n) s .priv (u64 s.issue.word) ∧ Traps (.mts k d n) s .priv (u64 s.issue.word))

/-- R8, R70, R71, R86: what `mts` writes, with no other effect; a write of a read-only register has none. SDH is stated with messages. -/
def Sys2Proof.Part.SpecialWrites : Prop :=
  ∀ (d : Nat) (s : State) (x : Slot) (c : Core), s.next ≠ END → x = s.slot → c = s.me →
    let dest (i : Instr) (e : Core) (y : Slot) : Prop := Runs i s fun t => Went s e y [] [] s.next s t ∧ SameMemory s t
    let w32s : List (Nat × (Word → Slot)) := [(0x008, fun v => { x with fst := v &&& 0x1F#32 }),
      (0x020, fun v => { x with sd := Map.set 0 x.sd 0 v }), (0x021, fun v => { x with sd := Map.set 0 x.sd 1 v }),
      (0x022, fun v => { x with sd := Map.set 0 x.sd 2 v }), (0x023, fun v => { x with sd := Map.set 0 x.sd 3 v }),
      (0x024, fun v => { x with sd := Map.set 0 x.sd 4 v }), (0x044, fun v => { x with kext := Map.set 0 x.kext 0 v }),
      (0x045, fun v => { x with kext := Map.set 0 x.kext 1 v }), (0x046, fun v => { x with kext := Map.set 0 x.kext 2 v }),
      (0x047, fun v => { x with kext := Map.set 0 x.kext 3 v })]
    let w64s : List (Nat × DWord × (DWord → Slot)) := [(0x040, x.ksrc, fun v => { x with ksrc := v }),
      (0x041, x.kdst, fun v => { x with kdst := v }), (0x042, x.klay, fun v => { x with klay := v }),
      (0x043, x.kbase, fun v => { x with kbase := v })]
    let cores : List (Nat × (Word → Core)) := [(0x030, fun v => { c with cvres := v }), (0x031, fun v => { c with cvcnt := v }),
      (0x032, fun v => { c with cvthr := v })]
    let s32s : List (Nat × (Word → Slot)) := [(0x000, fun v => { x with stat := v &&& 0x3F#32 }),
      (0x001, fun v => { x with tcause := v }), (0x004, fun v => { x with tstat := v })]
    let s64s : List (Nat × DWord × (DWord → Slot)) := [(0x002, x.tval, fun v => { x with tval := v }),
      (0x003, x.tepc, fun v => { x with tepc := v })]
    let low (v : DWord) : Word := u32 v.toNat
    let half (h : Nat) (o : DWord) : DWord :=
      if h = 0 then u64 (o.toNat / 2 ^ 32 * 2 ^ 32 + Z (s.g d)) else u64 (Z (s.g d) * 2 ^ 32 + o.toNat % 2 ^ 32)
    (∀ p ∈ w32s, dest (.mts 0 d p.1) c (p.2 (s.g d)) ∧ dest (.mts 2 d p.1) c (p.2 (low (s.a d)))) ∧
    (∀ p ∈ w64s, dest (.mts 0 d p.1) c (p.2.2 (half 0 p.2.1)) ∧ dest (.mts 1 d p.1) c (p.2.2 (half 1 p.2.1)) ∧
      dest (.mts 2 d p.1) c (p.2.2 (s.a d))) ∧
    (∀ p ∈ cores, dest (.mts 0 d p.1) (p.2 (s.g d)) x ∧ dest (.mts 2 d p.1) (p.2 (low (s.a d))) x) ∧
    (statMode x.stat = 1 →
      (∀ p ∈ s32s, dest (.mts 0 d p.1) c (p.2 (s.g d)) ∧ dest (.mts 2 d p.1) c (p.2 (low (s.a d)))) ∧
      (∀ p ∈ s64s, dest (.mts 0 d p.1) c (p.2.2 (half 0 p.2.1)) ∧ dest (.mts 1 d p.1) c (p.2.2 (half 1 p.2.1)) ∧
        dest (.mts 2 d p.1) c (p.2.2 (s.a d))) ∧
      (∀ h ∈ [0, 1], dest (.mts h d 0x005) c { x with tvec := half h x.tvec &&& ~~~1#64 }) ∧
      dest (.mts 2 d 0x005) c { x with tvec := s.a d &&& ~~~1#64 }) ∧
    (statMode x.stat = 0 → dest (.mts 0 d 0x000) c x ∧ dest (.mts 2 d 0x000) c x) ∧
    ∀ n ∈ [0x010, 0x011, 0x012, 0x028, 0x029, 0x02A, 0x02B, 0x02C, 0x02D, 0x038, 0x048, 0x050], ∀ k, dest (.mts k d n) c x

/-- mfs reads and mts writes every special register by its width and access; a read-only register takes nothing, and a privileged one traps
PRIV in U. -/
def Obligations.SpecialRegisterForms : Prop :=
  Sys2Proof.Part.SpecialReads ∧ Sys2Proof.Part.SpecialWrites

/-! ### Messages (spec/05) -/

/-- R115, R116, R119, R120: `msg`, `callm` and `mcast` send one flit when the port takes it, and else wait; `mcast` past the last core
traps ILLEGAL. Each copy of a multicast is a counted flit (R208). -/
def Sys2Proof.Part.MessageSends : Prop :=
  ∀ (d k : Nat) (s : State) (dst pri n : Nat), s.next ≠ END → dst = Z (s.g d) % 2 ^ 20 → n = Z (s.g d) / 2 ^ 20 →
    pri = statPri s.slot.stat → ∀ w : Nat → Word, (w = fun i => Map.get 0 s.slot.sd i) →
    (PortFree s s.issue.lid true →
      Runs (.msg d k) s (Sent (flitOf s .data dst pri k (w 0) (w 1) (w 2) (w 3) (w 4)) 1 s.slot s) ∧
      Runs (.callm d k) s (Sent (flitOf s .call dst pri k (s.g 0) (s.g 1) (s.g 2) (s.g 3) 0) 1 s.slot s) ∧
      (dst + n < 2 ^ 20 → Runs (.mcast d k) s fun t => t.me.csent = s.me.csent + n + 1 ∧
        SameCores s.issue.lid s t ∧ SameMemory s t ∧ AtPc s.next s t ∧
        ∃ fs : List InFlight, t.flight = s.flight ++ fs ∧ fs.length = n + 1 ∧
          ∀ i, i < n + 1 → fs[i]?.map (·.flit) = some (flitOf s .data (dst + i) pri k (w 0) (w 1) (w 2) (w 3) (w 4)))) ∧
    (¬PortFree s s.issue.lid true → Waits (.msg d k) s ∧ Waits (.callm d k) s ∧ (dst + n < 2 ^ 20 → Waits (.mcast d k) s)) ∧
    (2 ^ 20 ≤ dst + n → Traps (.mcast d k) s .illegal (u64 (Z (s.g d))))

/-- R118: a write of SDH sends a flit with the header written, SRC apart, and reads back as sent; reserved headers trap. A clause flit (KIND
2) takes a request entry, and the form waits where none is free or where the port does not take the flit. -/
def Sys2Proof.Part.HeaderSend : Prop :=
  ∀ (d : Nat) (s : State) (h k f : Nat), s.next ≠ END → h = (s.a d).toNat → k = h / 2 ^ 21 % 8 → f = h % 2 ^ 16 →
    s.issue.lid < 2 ^ 20 → ∀ w : Nat → Word, (w = fun i => Map.get 0 s.slot.sd i) →
    if 3 ≤ k then Traps (.mts 2 d 0x025) s .prot (u64 h)
    else if h / 2 ^ 16 % 8 ≠ 0 ∨ k = 0 ∧ 16 ≤ f ∨ k = 2 ∧ (f < 1 ∨ 10 < f) then Traps (.mts 2 d 0x025) s .illegal (u64 h)
    else
      let h' := u64 (h / 2 ^ 44 * 2 ^ 44 + s.issue.lid * 2 ^ 24 + h % 2 ^ 24)
      (k ≠ 2 →
        (PortFree s s.issue.lid true →
          Runs (.mts 2 d 0x025) s (Sent (flitOf s (if k = 0 then .data else .call) (h / 2 ^ 44) (h / 2 ^ 19 % 4) f (w 0) (w 1) (w 2) (w 3) (w 4))
            1 { s.slot with sdh := h' } s)) ∧
        (¬PortFree s s.issue.lid true → Waits (.mts 2 d 0x025) s)) ∧
      (k = 2 →
        ((∀ e, e < 16 → Map.get none s.slot.entries e ≠ none) → Waits (.mts 2 d 0x025) s) ∧
        ∀ e, FreeEntry s.slot e →
          (PortFree s s.issue.lid true → Runs (.mts 2 d 0x025) s fun t => ∃ lv,
            Sent (flitOf s .clause (h / 2 ^ 44) (h / 2 ^ 19 % 4) f (w 0) (w 1) (w 2) (w 3) (w 4)) 1
              { s.slot with sdh := h', entries := Map.set none s.slot.entries e (some ⟨.clause (h / 2 ^ 44), s.serial, lv⟩) } s t) ∧
          (¬PortFree s s.issue.lid true → Waits (.mts 2 d 0x025) s))

/-- R120, R271: a clause flit carries n words of the pool and takes a request entry. The form traps on an odd offset and on words outside
ACC and SCR, and waits where no entry is free or where the port does not take the flit. -/
def Sys2Proof.Part.ClauseSends : Prop :=
  ∀ (d r n o : Nat) (s : State), s.next ≠ END → o = Z (s.g r) → n ≤ 10 →
    if o % 2 ≠ 0 then Traps (.clause d r n) s .align (u64 o)
    else if o < hndEnd s.me.part ∨ 0x6000 < o + 2 * n then Traps (.clause d r n) s .poolRange (u64 o)
    else
      ((∀ e, e < 16 → Map.get none s.slot.entries e ≠ none) → Waits (.clause d r n) s) ∧
      ∀ e, FreeEntry s.slot e →
        (¬PortFree s s.issue.lid true → Waits (.clause d r n) s) ∧
        (PortFree s s.issue.lid true → Runs (.clause d r n) s fun t => ∃ f lv, Sent f 1 { s.slot with
            entries := Map.set none s.slot.entries e (some ⟨.clause (Z (s.g d) % 2 ^ 20), s.serial, lv⟩) } s t ∧
          f = flitOf s .clause (Z (s.g d) % 2 ^ 20) (statPri s.slot.stat) n f.w0 f.w1 f.w2 f.w3 f.w4 ∧
          ∀ i, i < 20 → f.payload.getD i 0 = if i < 2 * n then Map.get 0 s.me.pool (o + i) else 0)

/-- R124: binding and unbinding a mailbox, and choosing the bounce mailbox. -/
def Sys2Proof.Part.Mailboxes : Prop :=
  ∀ (d h : Nat) (s : State) (x : Handle) (v b l : Nat), s.next ≠ END → x = s.me.handle h → v = Z (s.g d) → b = v % 2 ^ 16 →
    l = v / 2 ^ 16 % 2 ^ 8 →
    (if x.bnd = true ∧ x.mbx = false then Traps (.mbind d h) s .prot (u64 h)
      else if s.g d = 0xFFFFFFFF#32 then Runs (.mbind d h) s fun t => t.me.handle h = Handle.empty ∧
        t.me.bmbx = (if s.me.bmbx = some h then none else s.me.bmbx) ∧ (∀ j, j ≠ h → t.me.handle j = s.me.handle j) ∧
        Went s { s.me with handles := t.me.handles, bmbx := t.me.bmbx } s.slot [] [] s.next s t
      else if 2 ^ 26 ≤ v ∨ 10 < l ∨ v / 2 ^ 24 % 4 ≠ 3 then Traps (.mbind d h) s .illegal (u64 v)
      else if b % 32 ≠ 0 then Traps (.mbind d h) s .align (u64 b)
      else if b < hndEnd s.me.part ∨ 0x6000 < b + 32 * 2 ^ l then Traps (.mbind d h) s .poolRange (u64 b)
      else Runs (.mbind d h) s (WentHandle h ⟨true, true, 3, b, l, 0, 0, 0⟩ s.me.pool [] s)) ∧
    (let prev : Word := (s.me.bmbx.map u32).getD 0xFFFFFFFF#32
     if s.g d = 0xFFFFFFFF#32 then Runs (.bnc d h) s fun t => t.g d = prev ∧
        Went s { s.me with bmbx := none } s.slot [d] [] s.next s t
      else if x.bnd = false ∨ x.mbx = false then Traps (.bnc d h) s .prot (u64 h)
      else Runs (.bnc d h) s fun t => t.g d = prev ∧ Went s { s.me with bmbx := some h } s.slot [d] [] s.next s t)

/-- Each sending form puts exactly its flit in flight on a credit of its router, or waits for the port; mbind and bnc set a mailbox after
their checks. -/
def Obligations.MessageForms : Prop :=
  Sys2Proof.Part.MessageSends ∧ Sys2Proof.Part.HeaderSend ∧ Sys2Proof.Part.ClauseSends ∧ Sys2Proof.Part.Mailboxes

/-- R121: what the first rows make of a flit of launch `uid` at core c. -/
def Sys2Proof.Part.FlitFates : Prop :=
  ∀ (s : State) (c uid q : Nat),
    (8 * s.dev.tcnt ≤ c → s.fate c uid = .bounce 1) ∧
    (c < 8 * s.dev.tcnt → (s.core c).queue = none → s.fate c uid = .bounce 1) ∧
    (c < 8 * s.dev.tcnt → (s.core c).queue = some q →
      ((s.core c).uid ≠ uid → s.fate c uid = .bounce 9) ∧
      ((s.core c).uid = uid →
        ((s.core c).exited = true → s.fate c uid = .bounce 2) ∧
        ((s.core c).exited = false →
          ((s.core c).swapped = true → s.fate c uid = .spill q) ∧
          ((s.core c).swapped = false →
            (∀ t, (s.core c).forward = some t → s.fate c uid = .forward t) ∧
            ((s.core c).forward = none → s.fate c uid = .here)))))

/-- R115, R121, R122, R123: delivery of a data flit into its mailbox, and its bounces, after which a flit that waited for the credit is
injected with its sender's clock of that moment (R186, R265). R205: while a `migr` waits, an arriving flit is held. -/
def Sys2Proof.Part.DataDelivery : Prop :=
  ∀ (x : InFlight) (f : Flit) (s : State) (c : Core) (h : Handle), f = x.flit → f.kind = .data → s.inFlight f = some x →
    c = s.core f.dst → h = c.handle f.ksf → c.cut.holding = false → Clocked s →
    (¬Staying c → Runs (.dataDelivery f) s fun t => t = s) ∧
    (Staying c → s.fate f.dst x.uid = .here →
      if h.bnd = false ∨ h.mbx = false then Runs (.dataDelivery f) s (Bounced x 3 0 0 s)
      else if 2 ^ h.rlog ≤ countDiff h.rsv h.head then Runs (.dataDelivery f) s (Bounced x 4 0 0 s)
      else Runs (.dataDelivery f) s fun t => ∃ p fl hs, Landed x { c with
          pool := p, full := fl, handles := hs, crecv := c.crecv + 1, pts := max c.pts (s.base + Z f.low) } s t ∧
        PoolWritten c.pool p (entryAt h h.rsv) 32 (fun i => f.bytes.getD i 0) ∧
        (∀ w, Map.get false fl w = if entryAt h h.rsv / 4 ≤ w ∧ w < entryAt h h.rsv / 4 + 8 then true else Map.get false c.full w) ∧
        ∀ j, Map.get Handle.empty hs j = if j = f.ksf then { h with rsv := h.rsv + 1, pub := h.pub + 1 } else c.handle j) ∧
    ∀ st, Staying c → s.fate f.dst x.uid = .bounce st → Runs (.dataDelivery f) s (Bounced x st 0 0 s)

/-- R121, R122, R123: a call and a clause enter the run queue at the flit's priority, and are bounced by a full run queue; a call with
no handler is bounced. -/
def Sys2Proof.Part.CallAndClauseDelivery : Prop :=
  ∀ (x : InFlight) (f : Flit) (s : State) (c : Core), f = x.flit → s.inFlight f = some x → c = s.core f.dst →
    s.fate f.dst x.uid = .here → c.cut.holding = false → Staying c → Clocked s →
    (f.kind = .call →
      (s.handler f.dst f.ksf = none → Runs (.callDelivery f) s (Bounced x 5 0 0 s)) ∧
      (∀ a, s.handler f.dst f.ksf = some a →
        if 64 ≤ c.runq.length then Runs (.callDelivery f) s (Bounced x 6 0 0 s)
        else Runs (.callDelivery f) s fun t => ∃ e, Landed x { c with
            crecv := c.crecv + 1, pts := max c.pts (s.base + Z f.low), runq := c.runq ++ [e] } s t ∧
          e.kind = .call ∧ e.level = f.pri ∧ e.start = u64 a ∧ e.flit = some f ∧
          Map.get 0 e.args 0 = f.w0 ∧ Map.get 0 e.args 1 = f.w1 ∧ Map.get 0 e.args 2 = f.w2 ∧ Map.get 0 e.args 3 = f.w3)) ∧
    (f.kind = .clause →
      if 64 ≤ c.runq.length then Runs (.clauseDelivery f) s (Bounced x 6 0 0 s)
      else Runs (.clauseDelivery f) s fun t => ∃ e, Landed x { c with
          crecv := c.crecv + 1, pts := max c.pts (s.base + Z f.low), runq := c.runq ++ [e] } s t ∧
        e.kind = .clause ∧ e.level = f.pri ∧ e.flit = some f)

/-- A delivered flit raises the clock of its core and enters its mailbox, its run queue or its clause list, and nothing else changes. -/
def Obligations.Deliveries : Prop :=
  Sys2Proof.Part.DataDelivery ∧ Sys2Proof.Part.CallAndClauseDelivery

/-- R122, R128: a bounce goes into the bounce mailbox; where there is none, or it is full, BLOST counts it. -/
def Sys2Proof.Part.BounceDelivery : Prop :=
  ∀ (x : InFlight) (f : Flit) (s : State) (c : Core), f = x.flit → f.kind = .bounce → s.inFlight f = some x → c = s.core f.dst →
    s.fate f.dst x.uid = .here → bits (Z f.low) 16 3 < 2 → Clocked s →
    (c.bmbx = none → Runs (.bounceDelivery f) s (Landed x { c with
      crecv := c.crecv + 1, blost := if c.blost = 0xFFFFFFFF#32 then c.blost else c.blost + 1 } s)) ∧
    (∀ h, c.bmbx = some h → c.mailboxRow h = some 4 → Runs (.bounceDelivery f) s (Landed x { c with
      crecv := c.crecv + 1, blost := if c.blost = 0xFFFFFFFF#32 then c.blost else c.blost + 1 } s)) ∧
    (∀ h, c.bmbx = some h → c.mailboxRow h = none → Runs (.bounceDelivery f) s fun t => t.core f.dst =
      { c.deposit h f with crecv := c.crecv + 1 } ∧ Freed s x t.flight ∧ SameCores f.dst s t ∧ SameMemory s t)

/-- R125: `mfs ad, %rvh` takes the flit at the head of the lowest mailbox that has one, waits where all are empty, and traps PROT where
there is no mailbox. -/
def Sys2Proof.Part.FlitTake : Prop :=
  ∀ (d : Nat) (s : State), s.next ≠ END →
    (s.me.inboxes = [] → Traps (.mfs 2 d 0x02D) s .prot 0x02D) ∧
    (s.me.inboxes ≠ [] → (∀ h ∈ s.me.inboxes, countDiff (s.me.handle h).pub (s.me.handle h).head = 0) → Waits (.mfs 2 d 0x02D) s) ∧
    (∀ (m o : Nat) (x : Handle) (ls rs : List Nat), s.me.inboxes = ls ++ m :: rs →
      (∀ h ∈ ls, countDiff (s.me.handle h).pub (s.me.handle h).head = 0) → x = s.me.handle m → countDiff x.pub x.head ≠ 0 →
      o = entryAt x x.head →
      Runs (.mfs 2 d 0x02D) s fun t => (t.a d).toNat = leNat (Map.getList 0 s.me.pool o 8) ∧
        (∀ i, i < 5 → Z (Map.get 0 t.slot.rv i) = leNat (Map.getList 0 s.me.pool (o + 12 + 4 * i) 4)) ∧
        t.slot.rvh = t.a d ∧ t.me.handle m = { x with head := x.head + 1 } ∧
        (∀ j, j ≠ m → t.me.handle j = s.me.handle j) ∧
        Went s { s.me with handles := t.me.handles } { s.slot with rv := t.slot.rv, rvh := t.slot.rvh } [] [d] s.next s t)

/-! ### Tasks and graph nodes (spec/07) -/

/-- R164 (on the own core), R165: `task` and a local `spawn` queue the child while the run queue has a free entry, and else run it
inline; STAT.INL says which. -/
def Sys2Proof.Part.TaskForms : Prop :=
  ∀ (d n p : Nat) (s : State) (a : DWord) (o : Int), s.next ≠ END → a = s.a n → o = (a.toNat : Int) - s.image.toNat →
    (a.toNat % 2 = 1 → Traps (.task n p) s .align a ∧ Traps (.spawn d n p) s .align a) ∧
    (a.toNat % 2 = 0 → s.me.runq.length < 64 → Runs (.task n p) s fun t => ∃ e st, BitSet s.slot.stat st 2 false ∧
      Went s { s.me with runq := s.me.runq ++ [e] } { s.slot with stat := st } [] [] s.next s t ∧ SameMemory s t ∧
      NewTask e .local p a s) ∧
    (a.toNat % 2 = 0 → 64 ≤ s.me.runq.length → a ≠ END → Runs (.task n p) s fun t => ∃ st, BitSet s.slot.stat st 2 true ∧
      t.a 7 = s.next ∧ Went s s.me { s.slot with stat := st } [] [7] a s t ∧ SameMemory s t) ∧
    (a.toNat % 2 = 0 → (o < 0 ∨ 2 ^ 32 ≤ o) → Traps (.spawn d n p) s .prot a) ∧
    (a.toNat % 2 = 0 → 0 ≤ o → o < 2 ^ 32 → Z (s.g d) % 2 ^ 20 = s.issue.lid →
      (s.me.runq.length < 64 → Runs (.spawn d n p) s fun t => ∃ e st, BitSet s.slot.stat st 2 false ∧ t.g d = 0 ∧
        Went s { s.me with runq := s.me.runq ++ [e] } { s.slot with stat := st } [d] [] s.next s t ∧ SameMemory s t ∧
        NewTask e .spawn p a s) ∧
      (64 ≤ s.me.runq.length → a ≠ END → Runs (.spawn d n p) s fun t => ∃ st, BitSet s.slot.stat st 2 true ∧ t.g d = 6 ∧
        t.a 7 = s.next ∧ Went s s.me { s.slot with stat := st } [d] [7] a s t ∧ SameMemory s t))

/-- R164: a `spawn` on another core sends its request and waits for the reply; the reply's status decides as on the own core: 0 goes on,
and any other runs the child inline and counts at the issuer (R208). That W0 of the reply carries the status is log entry 14
(PRESUMED), and that the request carries the form's priority p is log entry 39 (DESIGN CHOICE). -/
def Sys2Proof.Part.RemoteSpawn : Prop :=
  (∀ (d n p : Nat) (s : State) (a : DWord) (o : Int), a = s.a n → o = (a.toNat : Int) - s.image.toNat → a.toNat % 2 = 0 → 0 ≤ o →
    o < 2 ^ 32 → Z (s.g d) % 2 ^ 20 ≠ s.issue.lid → PortFree s s.issue.lid true →
    Runs (.spawn d n p) s fun t => (∃ x, t.flight = s.flight ++ [x] ∧
        x.flit = flitOf s .system (Z (s.g d) % 2 ^ 20) p (0x100 + p) (w32 o) (s.g 0) (s.g 1) (s.g 2) (s.g 3)) ∧
      (∃ w, t.slot = { s.slot with wait := some w, pc := s.issue.start } ∧ w.instr = .spawn d n p ∧ w.poll = false ∧ w.keep = true) ∧
      t.me.csent = s.me.csent + 1 ∧ SameCores s.issue.lid s t ∧ SameMemory s t) ∧
  ∀ (x : InFlight) (f : Flit) (s : State) (d n p : Nat) (w : Wait), f = x.flit → f.kind = .system → f.cls = 1 → f.ksf / 256 = 1 →
    s.inFlight f = some x → (∀ q, s.fate f.dst x.uid ≠ .spill q) → Clocked s → x.tag / 16 < 4 → (s.slotAt f.dst (x.tag / 16)).wait = some w →
    w.instr = .spawn d n p →
    let k := x.tag / 16; let after := w.start + u64 w.length; let a := Map.get 0 (s.slotAt f.dst k).aregs n
    let answered (t : State) : Prop := Freed s x t.flight ∧
      (t.core f.dst).pts = max (s.core f.dst).pts (s.base + Z f.low) ∧ Map.get 0 (t.slotAt f.dst k).regs d = f.w0 ∧
      (t.slotAt f.dst k).wait = none ∧ SameCores f.dst s t ∧ SameMemory s t
    (f.w0 = 0 → after ≠ END → Runs (.spawnReply f) s fun t => answered t ∧ (t.slotAt f.dst k).pc = after ∧
      BitSet (s.slotAt f.dst k).stat (t.slotAt f.dst k).stat 2 false ∧ (t.core f.dst).crecv = (s.core f.dst).crecv) ∧
    (f.w0 ≠ 0 → a ≠ END → Runs (.spawnReply f) s fun t => answered t ∧ (t.slotAt f.dst k).pc = a ∧
      Map.get 0 (t.slotAt f.dst k).aregs 7 = after ∧ BitSet (s.slotAt f.dst k).stat (t.slotAt f.dst k).stat 2 true ∧
      (t.core f.dst).crecv = (s.core f.dst).crecv + 1)

/-- R164: a spawn request at its core enters the run queue and is answered with 0, and with QFULL where the queue is full. That W0 of the
reply carries the status is log entry 14 (PRESUMED). -/
def Sys2Proof.Part.SpawnRequestDelivery : Prop :=
  ∀ (x : InFlight) (f : Flit) (s : State) (c : Core), f = x.flit → f.kind = .system → f.cls = 0 → f.ksf / 256 = 1 →
    s.inFlight f = some x → c = s.core f.dst → s.fate f.dst x.uid = .here → c.cut.holding = false → Staying c → Clocked s →
    c.pts - s.base < 2 ^ 32 →
    Runs (.spawnRequest f) s fun t => ∃ (y : InFlight) (fs : List InFlight), Freed s x fs ∧ t.flight = fs ++ [y] ∧ y.flit.kind = .system ∧
      y.flit.cls = 1 ∧ y.flit.dst = f.src ∧ y.flit.src = f.dst ∧ y.flit.low = u32 ((t.core f.dst).pts - s.base) ∧ SameCores f.dst s t ∧ SameMemory s t ∧
      if 64 ≤ c.runq.length then y.flit.w0 = 6 ∧ t.core f.dst = c
      else y.flit.w0 = 0 ∧ ∃ e, t.core f.dst = { c with
          crecv := c.crecv + 1, pts := max c.pts (s.base + Z f.low), runq := c.runq ++ [e] } ∧
        e.kind = .spawn ∧ e.level = f.pri ∧ Map.get 0 e.args 0 = f.w1 ∧ Map.get 0 e.args 1 = f.w2 ∧ Map.get 0 e.args 2 = f.w3 ∧
        Map.get 0 e.args 3 = f.w4 ∧ e.start = ((s.launchOf f.dst).map (·.image)).getD 0 + u64 (Z f.w0)

/-- task and spawn make a run-queue entry with g0 to g3, run the task in place when the queue is full, or ask another core and wait for its
answer, which may refuse. That W0 of a reply carries the status is log entry 14 (PRESUMED); that the request carries the form's priority p
is log entry 39 (DESIGN CHOICE). -/
def Obligations.Spawning : Prop :=
  Sys2Proof.Part.TaskForms ∧ Sys2Proof.Part.RemoteSpawn ∧ Sys2Proof.Part.SpawnRequestDelivery

/-- R156, R166: `done`, and a transfer of control to END, free the slot and leave the context's registers; R157: the entry task's end
opens the run queue. -/
def Sys2Proof.Part.TaskEnd : Prop :=
  ∀ (n : Nat) (s : State), s.issue.slot < 4 → (∀ o, s.slot.task = some o → ∀ m k b e, o.origin ≠ .update m k b e) →
    ∀ ended : State → Prop, (ended = fun t => SameModule s t ∧ SameCores s.issue.lid s t ∧ SameSlots s.issue.slot s.me t.me ∧
      t.slot.st = .free ∧ t.slot.task = none ∧ t.slot.wait = none ∧ t.slot.regs = s.slot.regs ∧ t.slot.aregs = s.slot.aregs ∧
      t.slot.stat = s.slot.stat ∧ t.slot.fst = s.slot.fst ∧ t.me = { s.me with slots := t.me.slots, entryOver := t.me.entryOver } ∧
      (∀ o, s.slot.task = some o → o.origin = .entry → t.me.entryOver = true)) →
    Runs .done s ended ∧ (s.a 7 = END → Runs .ret s ended) ∧ (s.a n = END → Runs (.jr n) s ended)

/-- R167: `exit` waits until what the core issued has completed; then its run queue is discarded, its other tasks end, and no core but
this one changes. R175: the core's part of the completion record holds its errors, its code, its counters and itself. -/
def Sys2Proof.Part.CoreExit : Prop :=
  ∀ (s : State), (∀ k, k < 4 → ∀ o, (s.me.slot k).task = some o → ∀ m h b e, o.origin ≠ .update m h b e) → s.issue.slot < 4 →
    s.slot.st = .ready →
    (s.coreSettled s.issue.lid = true → Runs .exit s fun t => t.me.exited = true ∧ t.me.runq = [] ∧
      (∀ k, k < 4 → (s.me.slot k).st ≠ .halted → (t.me.slot k).st = .free) ∧
      (s.me.runq ≠ [] → t.me.derr.getLsbD 0 = true) ∧ t.me.nodes = s.me.nodes ∧ t.me.dtab = s.me.dtab ∧ t.me.cvres = s.me.cvres ∧
      (s.me.blost ≠ 0 ∨ (∃ k, k < 4 ∧ (s.me.slot k).sfail ≠ []) → t.me.derr.getLsbD 2 = true) ∧
      (∀ q la, s.me.queue = some q → (s.queue q).launch = some la → ∃ m, (t.queue q).launch = some { la with coreDone := m } ∧
        Map.get none m s.me.index = some ⟨Z t.me.derr % 2 ^ 4, Z t.me.dcode % 2 ^ 8, Z s.me.cvcnt, s.me.cvres, 1⟩ ∧
        ∀ i, i ≠ s.me.index → Map.get none m i = Map.get none la.coreDone i) ∧
      SameCores s.issue.lid s t ∧ SameMemory s t) ∧
    (s.coreSettled s.issue.lid = false → Waits .exit s)

/-- done and control to END free the slot; exit waits for what the core has under way and then leaves its done record: its errors, its code,
its counters and itself. -/
def Obligations.TaskAndCoreEnd : Prop :=
  Sys2Proof.Part.TaskEnd ∧ Sys2Proof.Part.CoreExit

/-- R168, R169: `waite` and `pri`. -/
def Sys2Proof.Part.EventWait : Prop :=
  ∀ (d n : Nat) (s : State) (m : Nat), s.next ≠ END → m = Z (s.g d) →
    ∀ ev : Nat → Bool, (ev 0 = s.me.inboxes.any fun h => countDiff (s.me.handle h).pub (s.me.handle h).head ≠ 0) →
      (ev 1 = match s.me.bmbx with | some h => countDiff (s.me.handle h).pub (s.me.handle h).head ≠ 0 | none => false) →
      ev 2 = s.me.cut.complete →
    (m = 0 ∨ 8 ≤ m → Traps (.waite d) s .illegal (u64 m)) ∧
    (0 < m → m < 8 → (∃ i, i < 3 ∧ m.testBit i = true ∧ ev i = true) → WritesG (.waite d) s d fun v =>
      ∀ i, i < 32 → v.getLsbD i = (decide (i < 3) && m.testBit i && ev i)) ∧
    (0 < m → m < 8 → (∀ i, i < 3 → m.testBit i = true → ev i = false) → Waits (.waite d) s) ∧
    (n < 4 → Runs (.pri n) s fun t => ∃ st, (∀ i, i < 32 → st.getLsbD i =
        if i = 3 then n.testBit 0 else if i = 4 then n.testBit 1 else s.slot.stat.getLsbD i) ∧
      Went s s.me { s.slot with stat := st } [] [] s.next s t ∧ SameMemory s t)

/-- R170, R171: arming a node; an arming that finds the count at or below 0 fires it at once. -/
def Sys2Proof.Part.NodeArming : Prop :=
  ∀ (d n k : Nat) (s : State) (v : Nat) (x : Node), s.next ≠ END → v = Z (s.g d) → k = v % 32 → x = s.me.node k →
    (v / 2 ^ 5 % 8 ≠ 0 ∨ 2 ^ 18 ≤ v → Traps (.node d n) s .illegal (u64 v)) ∧
    (v / 2 ^ 5 % 8 = 0 → v < 2 ^ 18 → (s.a n).toNat % 2 = 1 → Traps (.node d n) s .align (s.a n)) ∧
    (v / 2 ^ 5 % 8 = 0 → v < 2 ^ 18 → (s.a n).toNat % 2 = 0 →
      (x.arm = true ∨ x.pend = true → WritesG (.node d n) s d fun w => w = 1) ∧
      (x.arm = false → x.pend = false → ∀ cnt : Int, cnt = max (x.cnt + (v / 2 ^ 8 % 2 ^ 8 : Nat)) (-32768) →
        Runs (.node d n) s fun t => t.g d = 0 ∧ SameCores s.issue.lid s t ∧ SameMemory s t ∧ (∀ j, j ≠ k → t.me.node j = s.me.node j) ∧
          (t.me.node k).cnt = cnt ∧ (t.me.node k).start = s.a n ∧ CapturesArgs s (t.me.node k).words ∧
          (t.me.node k).prio = v / 2 ^ 16 % 4 ∧
          if 0 < cnt then (t.me.node k).arm = true ∧ t.me.runq = s.me.runq
          else if 64 ≤ s.me.runq.length then (t.me.node k).arm = false ∧ (t.me.node k).pend = true ∧ t.me.runq = s.me.runq
          else (t.me.node k).arm = false ∧ (t.me.node k).pend = false ∧
            ∃ e, t.me.runq = s.me.runq ++ [e] ∧ NewTask e .local (v / 2 ^ 16 % 4) (s.a n) s))

/-- R170, R172, R191: a signal, local or by flit, lowers a node's count and fires it as armed. -/
def Sys2Proof.Part.NodeSignals : Prop :=
  ∀ (s : State) (d v n c : Nat), s.next ≠ END → v = Z (s.g d) → n = v / 2 ^ 27 → c = v % 2 ^ 20 →
    (v / 2 ^ 20 % 2 ^ 7 ≠ 0 → Traps (.sig d) s .illegal (u64 s.issue.word)) ∧
    (v / 2 ^ 20 % 2 ^ 7 = 0 → c = s.issue.lid → Runs (.sig d) s fun t => Went s (s.me.signal n) s.slot [] [] s.next s t) ∧
    (v / 2 ^ 20 % 2 ^ 7 = 0 → c ≠ s.issue.lid → PortFree s s.issue.lid true →
      Runs (.sig d) s (Sent (flitOf s .system c (statPri s.slot.stat) (0x200 + n) 0 0 0 0 0) 1 s.slot s)) ∧
    (∀ (x : InFlight) (f : Flit), f = x.flit → f.kind = .system → f.cls = 0 → f.ksf / 256 = 2 → s.inFlight f = some x →
      s.fate f.dst x.uid = .here → (s.core f.dst).cut.holding = false → Staying (s.core f.dst) → Clocked s →
      Runs (.sigDelivery f) s (Landed x (Core.signal { s.core f.dst with
        crecv := (s.core f.dst).crecv + 1, pts := max (s.core f.dst).pts (s.base + Z f.low) } (f.ksf % 32)) s)) ∧
    ∀ (e : Core) (x : Node) (j : Nat) (cnt : Int), x = e.node j → cnt = max (x.cnt - 1) (-32768) →
      ((e.signal j).node j).cnt = cnt ∧ (∀ i, i ≠ j → (e.signal j).node i = e.node i) ∧
      (x.arm = false ∨ 0 < cnt → (e.signal j).runq = e.runq ∧ ((e.signal j).node j).arm = x.arm) ∧
      (x.arm = true → cnt ≤ 0 → ((e.signal j).node j).arm = false ∧
        if 64 ≤ e.runq.length then ((e.signal j).node j).pend = true ∧ (e.signal j).runq = e.runq
        else ∃ q, (e.signal j).runq = e.runq ++ [q] ∧ q.start = x.start ∧ q.args = x.words ∧ q.level = x.prio)

/-- waite waits for its event; node arms a node and keeps early signals; a signal lowers a count and fires the node once. -/
def Obligations.EventsAndNodes : Prop :=
  Sys2Proof.Part.EventWait ∧ Sys2Proof.Part.NodeArming ∧ Sys2Proof.Part.NodeSignals

/-- R155, R158: the dispatcher takes the oldest task of the highest level into a free slot (which of several is a free choice, log entry 4)
and gives it the registers of R155 and the level that its entry has now (log entry 38). R199: a service request takes its trap there,
before any instruction. -/
def Sys2Proof.Part.TaskDispatch : Prop :=
  (∀ (sort : QEntry → Bool) (q : List QEntry) (e : QEntry), (∀ x ∈ q, x.level < 4) → pickEntry sort q = some e →
    ∃ ls rs, q = ls ++ e :: rs ∧ sort e = true ∧ (∀ x ∈ q, sort x = true → x.level ≤ e.level) ∧
      ∀ x ∈ ls, sort x = true → x.level < e.level) ∧
  (∀ (l : Nat) (s : State) (c : Core) (e : QEntry) (f : Flit), c = s.core l → c.nextTask = some e → e.kind = .service →
    e.flit = some f → c.freeSlots ≠ [] →
    Runs (.taskDispatch l) s fun t => ∃ k ∈ c.freeSlots, ∃ x, x = { c.slot k with
          st := .ready, task := some ⟨.service, s.serial⟩, pc := x.pc, fst := 0, stat := x.stat, regs := x.regs, aregs := x.aregs,
          wait := none, stepDue := none, loaded := false, half := none } ∧
      Z x.stat = 8 * e.level % 2 ^ 32 ∧ (∀ n, Map.get 0 x.regs n = if n < 4 then 0 else Map.get 0 (c.slot k).regs n) ∧
      Entered x (t.slotAt l k) 0x0F#32 (u64 (Z f.w0 + 2 ^ 32 * (Z f.w1 % 2 ^ 16))) END ∧
      (∀ j, j ≠ k → t.slotAt l j = s.slotAt l j) ∧ SameCores l s t ∧ SameMemory s t) ∧
  ∀ (l : Nat) (s : State) (c : Core) (e : QEntry), c = s.core l → c.nextTask = some e → e.kind ≠ .service → c.freeSlots ≠ [] →
    Runs (.taskDispatch l) s fun t => ∃ k ∈ c.freeSlots, (t.slotAt l k).st = .ready ∧ (t.slotAt l k).pc = e.start ∧
      (∃ o, (t.slotAt l k).task = some ⟨o, s.serial⟩ ∧ o = e.kind.origin) ∧ (t.slotAt l k).fst = 0 ∧
      Z (t.slotAt l k).stat = 8 * e.level % 2 ^ 32 ∧
      (∀ n, Map.get 0 (t.slotAt l k).regs n = if n < 4 then Map.get 0 e.args n else Map.get 0 (c.slot k).regs n) ∧
      (∀ n, Map.get 0 (t.slotAt l k).aregs n = if n = 7 then END else Map.get 0 (c.slot k).aregs n) ∧
      (∀ j, j ≠ k → t.slotAt l j = s.slotAt l j) ∧ SameCores l s t ∧ SameMemory s t

/-- R129, R130, R270: the dispatcher executes the oldest clause or remote pool atomic of the highest level as one action: the entry
leaves the queue and its sender is answered, the context slots are as they were, and an atomic does its operation on the pool. R127, R131:
a clause runs from a context of its own, with SRC in g0; pool, full bits and handles are as its instructions left them, and one that is
stopped is bounced with its status. -/
def Sys2Proof.Part.ClauseExecution : Prop :=
  ∀ (l : Nat) (s : State) (c : Core) (e : QEntry) (f : Flit), c = s.core l → c.open_ = true →
    c.pts - s.base < 2 ^ 32 → pickEntry QEntry.isClause c.runq = some e → e.flit = some f →
    (e.kind = .clause → Runs (.clauseExecute l) s fun t => t.issue = s.issue ∧ (∃ ys : List InFlight, t.flight = s.flight ++ ys ∧
        ∃ y ∈ ys, y.flit.kind = .reply ∧ y.flit.dst = f.src ∧ y.flit.src = l ∧ y.tag = e.tag ∧ y.serial = e.serial) ∧
      t.mem = s.mem ∧
      ∀ (s0 u : State) (r : Option (Nat × Nat × Nat)),
        s0 = { s.setCore l (c.setSlot clauseSlot { Slot.empty with st := .ready, regs := Map.set 0 [] 0 (u32 f.src) }) with
          issue := ⟨l, clauseSlot, 0, 0, 0, false, none⟩ } →
        s0.runClause 10 0 ((wordsOf f.payload).take f.ksf) = (u, r) →
        (t.core l).pool = (u.core l).pool ∧ (t.core l).full = (u.core l).full ∧ (t.core l).handles = (u.core l).handles ∧
        (∀ k, k < 4 → t.slotAt l k = s.slotAt l k) ∧ SameCores l s t ∧
        ((c.age + 1) % 256 ≠ 0 → (∀ n, n < 32 → (c.node n).pend = false) → (t.core l).runq = c.runq.erase e) ∧
        (r = none → t.flight.length = s.flight.length + 1) ∧
        ∀ st cause m, r = some (st, cause, m) → t.flight.length = s.flight.length + 2 ∧ ∃ b ∈ t.flight, b.tag = e.tag ∧
          b.serial = e.serial ∧ b.flit = { f with
            dst := f.src, src := f.dst, kind := .bounce, cls := 2, ksf := st,
            low := u32 (cause * 2 ^ 24 + m * 2 ^ 19 + f.kind.code * 2 ^ 16 + f.ksf) }) ∧
    (e.kind = .atomic → Runs (.remoteAtomicExecute l) s fun t => ∃ (y : InFlight) (op : AtOp) (w : Bool) (o : Nat) (bs : List Byte),
      poolRequest f = (op, w, o, bs) ∧ t.flight = s.flight ++ [y] ∧ y.flit.kind = .reply ∧ y.flit.dst = f.src ∧ y.tag = e.tag ∧
      y.flit.w0 = u32 (leNat (Map.getList 0 c.pool o (if w then 8 else 4))) ∧
      (t.core l).pool = Map.setList 0 c.pool o (atBytes op (if w then 8 else 4) (leNat (Map.getList 0 c.pool o (if w then 8 else 4))) bs) ∧
      (∃ d, PoolAtomicDone op (if w then 8 else 4) o bs c d ∧ (t.core l).pool = d.pool ∧ (t.core l).full = d.full) ∧
      (t.core l).pts = max c.pts (s.base + Z f.low) ∧ (∀ k, t.slotAt l k = s.slotAt l k) ∧ SameCores l s t ∧ SameMemory s t)

/-- R130: a clause gives each form of its subset the meaning it has elsewhere, and a remote atomic that names its own core acts on the
core's pool; R61, R129, R131: it runs its words in order, stops before a form outside the subset with ILLEGAL_CLAUSE and before one that
would trap with CLAUSE_FAULT and the cause. -/
def Sys2Proof.Part.ClauseSubset : Prop :=
  (∀ (i : Instr) (f : State → Out), clauseMeaning i = some f → f = exec i) ∧
  (∀ (d n h z : Nat) (t : Option Nat) (imm : Int),
    (∀ i ∈ [Instr.add d n t, .sub d n t, .mul d n t, .mulh d n t, .mulhz d n t, .and d n t, .or d n t, .xor d n t, .andn d n t,
        .shl d n t, .shr d n t, .sra d n t, .ror d n t, .div d n t, .divz d n t, .rem d n t, .remz d n t, .min d n t, .max d n t,
        .minz d n t, .maxz d n t, .slt d n t, .sltz d n t, .seq d n t, .sne d n t, .clz d n, .ctz d n, .popc d n, .brev d n, .sextB d n,
        .sextH d n, .zextB d n, .zextH d n, .satsB d n, .satsH d n, .satzB d n, .satzH d n, .mov d n, .li d imm, .addi d imm,
        .andi d imm, .ori d imm, .xori d imm, .shli d imm, .shri d imm, .srai d imm, .slti d imm, .ldp z d n imm, .ldpBS z d n imm,
        .stp z d n imm, .ldpq d n imm, .stpq d n imm, .stpf d n imm, .sete d n imm, .tstf d n imm, .hadv d h, .hpub d h, .hfree d h,
        .hcnt d h], (clauseMeaning i).isSome = true) ∧
    ∀ i ∈ [Instr.j imm, .beq d n imm, .ldps d n imm, .hwait d h, .hld d h, .hst d h, .fadd .ne d n t, .msg d h, .done, .exit, .sig d,
        .node d n, .hbind d h, .amadd false d n imm], ∀ s, clauseStep i s = none) ∧
  (∀ (i : Instr) (op : AtOp) (w : Bool) (d n r : Nat) (imm : Int) (s : State) (z : Nat) (o : Int), i.poolAtomic = some (op, w, d) →
    Sys2Proof.Machine.Instr.poolFields i = some (n, r, imm) → z = (if w then 8 else 4) → o = Z (s.g n) + imm → s.issue.slot = clauseSlot → s.next ≠ END →
    (Z (s.g r) % 2 ^ 20 ≠ s.issue.lid → clauseStep i s = none) ∧
    (Z (s.g r) % 2 ^ 20 = s.issue.lid → ∃ f, clauseStep i s = some f ∧ (o % z ≠ 0 → f s = trap .align (w64 o) s) ∧
      (o % z = 0 → o < 0 ∨ 0x6000 < o + z ∨ o < hndEnd s.me.part → f s = trap .poolRange (w64 o) s) ∧
      (o % z = 0 → 0 ≤ o → o + z ≤ 0x6000 → hndEnd s.me.part ≤ o → ∃ t c, f s = .next t ∧
        PoolAtomicDone op z o.toNat (s.atomOperand op w d) s.me c ∧ t.me = { c with slots := t.me.slots } ∧
        (∀ k, k < 4 → t.slotAt s.issue.lid k = s.slotAt s.issue.lid k) ∧ SameCores s.issue.lid s t ∧
        (w = false → Z (t.g d) = leNat (Map.getList 0 s.me.pool o.toNat 4))))) ∧
  ∀ (s : State) (n m : Nat) (ws rest : List Nat) (i : Instr) (e : Reject),
    s.runClause n m [] = (s, none) ∧
    (ws ≠ [] → decodeWords ws = .error e → s.runClause (n + 1) m ws = (s, some (7, 0, m))) ∧
    (ws ≠ [] → decodeWords ws = .ok (i, rest) → i.fits 16 (partH s.part) = false ∨ clauseStep i s = none →
      s.runClause (n + 1) m ws = (s, some (7, 0, m))) ∧
    (ws ≠ [] → decodeWords ws = .ok (i, rest) → i.fits 16 (partH s.part) = true →
      clausePages (ws.take (ws.length - rest.length)) = true → ∀ f t, clauseStep i s = some f → f s = .next t →
      (t.slot.tcause = 0 → s.runClause (n + 1) m ws = t.runClause n (m + 1) rest) ∧
      (t.slot.tcause ≠ 0 → s.runClause (n + 1) m ws = (s, some (8, Z t.slot.tcause, m))))

/-- R121, R199, R361: a service request enters the run queue at level 3; a full run queue drops it, with the status in SVST. -/
def Sys2Proof.Part.ServiceRequests : Prop :=
  ∀ (x : InFlight) (f : Flit) (s : State) (c : Core), f = x.flit → f.kind = .system → f.cls = 0 → f.ksf = 0x300 →
    s.inFlight f = some x → c = s.core f.dst → s.fate f.dst c.uid = .here → Staying c → Clocked s →
    if 64 ≤ c.runq.length then Runs (.serviceRequest f) s fun t => Z (t.dev.svst.setWidth 32) = 6 ∧ Freed s x t.flight ∧
      (∀ l, t.core l = s.core l) ∧ SameMemory s t
    else Runs (.serviceRequest f) s fun t => ∃ e, e.kind = .service ∧ e.level = 3 ∧ e.flit = some f ∧
      t.core f.dst = { c with runq := c.runq ++ [e] } ∧ Freed s x t.flight ∧ SameCores f.dst s t ∧ SameMemory s t

/-- The dispatcher starts the oldest entry of the highest level in a free slot, freely chosen (log entry 4), with its captured registers and
its aged level (log entry 38); a service request takes its trap there; a clause leaves its queue and runs its words in order, and stops
where the clause subset or a trap stops it. -/
def Obligations.Dispatching : Prop :=
  Sys2Proof.Part.TaskDispatch ∧ Sys2Proof.Part.ServiceRequests ∧ Sys2Proof.Part.ClauseExecution ∧ Sys2Proof.Part.ClauseSubset

/-! ### Gaussian, slot, convergence and factor forms (spec/05) -/

/-- R132 to R137: the Gaussian forms, every step rounded to nearest even. -/
def Obligations.GaussianForms : Prop :=
  ∀ (d n : Nat) (s : State), s.next ≠ END → s.issue.slot < 4 → s.accepts 1 = true →
    ∀ ld hd ls hs dm : Word, ld = s.g d → hd = s.g (d + 1) → ls = s.g n → hs = s.g (n + 1) → dm = s.g (n + 2) →
    let add := fAdd .ne; let sub := fSub .ne; let mul := fMul .ne; let div := fDiv .ne
    WritesP (.gcomb d n) s d ((add ld ls).1, (add hd hs).1, (add ld ls).2 ||| (add hd hs).2) ∧
    WritesP (.gsplit d n) s d ((sub ld ls).1, (sub hd hs).1, (sub ld ls).2 ||| (sub hd hs).2) ∧
    (∀ e tl th nl nh : Word × Nat, e = sub 0x3F800000#32 dm → tl = mul e.1 ls → th = mul e.1 hs →
      nl = fMulAdd .ne false false dm ld tl.1 → nh = fMulAdd .ne false false dm hd th.1 →
      WritesP (.gdamp d n) s d (nl.1, nh.1, e.2 ||| tl.2 ||| th.2 ||| nl.2 ||| nh.2)) ∧
    (∀ sm p q lo t u v w ho : Word × Nat, sm = add ls ld → p = mul ls ls → q = div p.1 sm.1 → lo = sub ls q.1 → t = mul ls hs →
      u = sub hd t.1 → v = mul ls u.1 → w = div v.1 sm.1 → ho = add t.1 w.1 →
      WritesP (.glin d n) s d (lo.1, ho.1, sm.2 ||| p.2 ||| q.2 ||| lo.2 ||| t.2 ||| u.2 ||| v.2 ||| w.2 ||| ho.2)) ∧
    WritesP (.gmean d n) s d ((div hs ls).1, (div 0x3F800000#32 ls).1, (div hs ls).2 ||| (div 0x3F800000#32 ls).2) ∧
    WritesP (.ginfo d n) s d ((div 0x3F800000#32 hs).1, (div ls hs).1, (div 0x3F800000#32 hs).2 ||| (div ls hs).2) ∧
    (∀ a b r : Word × Nat, a = div hd ld → b = div hs ls → r = sub a.1 b.1 →
      WritesF (.gresd d n) s d (if (fval ld).isZero ∨ (fval ls).isZero then (0x7F800000#32, 0)
        else (r.1 &&& 0x7FFFFFFF#32, a.2 ||| b.2 ||| r.2)))

/-- R139: the checks of a record, in their order; `b` is B3 of a slot form, and `belief` reads every slot below SCNT. -/
def Sys2Proof.Part.RecordChecks : Prop :=
  ∀ (part : Word) (c : Core) (o : Nat) (b : Option Nat),
    let rd (a n : Nat) : Nat := leNat (Map.getList 0 c.pool a n)
    let sb := rd (o + 0x14) 2; let n := rd (o + 0x16) 2; let fl := rd (o + 0x1C) 4; let i := b.getD 0 % 2 ^ 16
    let reads (k : Nat) : Prop := if b.isSome = true then k = i else k < n
    let outside (a m : Nat) : Prop := a < hndEnd part ∨ 0x6000 < a + m
    let odd (k : Nat) : Prop := rd (sb + 16 * k + 12) 4 / 2 ^ 24 % 2 ^ 7 ≠ 0
    let is (x : Option (Cause × DWord)) : Prop := recordCheck part c o b = x
    let spilt : Prop := 0x6000 < sb + 16 * n ∨ ∃ k, reads k ∧ outside (sb + 16 * k) 16
    (o % 32 ≠ 0 → is (some (.align, u64 o))) ∧
    (o % 32 = 0 → outside o 32 → is (some (.poolRange, u64 o))) ∧
    (o % 32 = 0 → ¬outside o 32 → sb % 16 ≠ 0 → is (some (.align, u64 o))) ∧
    (o % 32 = 0 → ¬outside o 32 → sb % 16 = 0 → spilt → is (some (.poolRange, u64 o))) ∧
    (o % 32 = 0 → ¬outside o 32 → sb % 16 = 0 → ¬spilt →
      (fl % 2 = 0 → is (some (.slot, u64 (2 ^ 32 + o)))) ∧
      (fl % 2 = 1 → 4 ≤ fl → is (some (.slot, u64 (2 * 2 ^ 32 + o)))) ∧
      (fl % 2 = 1 → fl < 4 → b.isSome = true → n ≤ i → is (some (.slot, u64 (3 * 2 ^ 32 + i)))) ∧
      (fl % 2 = 1 → fl < 4 → (b.isSome = true → i < n) →
        (∀ k, reads k → odd k → (∀ j, j < k → reads j → ¬odd j) → is (some (.slot, u64 (4 * 2 ^ 32 + (sb + 16 * k))))) ∧
        ((∀ k, reads k → ¬odd k) → is (if b.getD 0 / 2 ^ 24 % 2 ^ 8 = 0 then none else some (.slot, u64 (5 * 2 ^ 32 + b.getD 0))))))

/-- R139, R140, R141: `slput` checks the record, refuses late and old messages by status, and else delivers the message, moving the
belief by the difference. -/
def Sys2Proof.Part.SlotDelivery : Prop :=
  ∀ (d n o q : Nat) (s : State) (b3 : Nat) (w : Nat → Word), s.next ≠ END → s.issue.slot < 4 → s.accepts 1 = true → o = Z (s.g n) →
    b3 = Z (s.g (d + 3)) → (w = poolWord s.me.pool) → q = leNat (Map.getList 0 s.me.pool (o + 0x14) 2) + 16 * (b3 % 2 ^ 16) →
    (∀ c v, recordCheck s.me.part s.me o (some b3) = some (c, v) → Traps (.slput d n) s c v) ∧
    (recordCheck s.me.part s.me o (some b3) = none → o + 32 ≤ q ∨ q + 16 ≤ o →
      let late (st : Nat) : Prop := Runs (.slput d n) s fun t => t.g (d + 3) = u32 st ∧
        Went s { s.me with sldisc := if s.me.sldisc = 0xFFFFFFFF#32 then s.me.sldisc else s.me.sldisc + 1 } s.slot [d + 3] [] s.next s t ∧
        SameMemory s t
      if (w (q + 12)).getLsbD 31 = true then late 2
      else if Z (w (q + 12)) / 2 ^ 16 % 2 ^ 8 ≠ b3 / 2 ^ 16 % 2 ^ 8 then late 3
      else if Z (s.g (d + 2)) ≤ Z (w (q + 8)) then Runs (.slput d n) s (WentStatus s.me.pool s.me.full (d + 3) 1 0 s)
      else ∀ (m : Word × Word × Nat) (dl dh bl bh : Word × Nat),
        m = (if (w (o + 0x1C)).getLsbD 1 = true ∧ w (q + 8) ≠ 0 then damped (w (o + 0x10)) (s.g d) (s.g (d + 1)) (w q) (w (q + 4))
          else (s.g d, s.g (d + 1), 0)) →
        dl = fSub .ne m.1 (w q) → dh = fSub .ne m.2.1 (w (q + 4)) → bl = fAdd .ne (w (o + 8)) dl.1 → bh = fAdd .ne (w (o + 12)) dh.1 →
        Runs (.slput d n) s fun t => ∃ p f,
          WentStatus p f (d + 3) 0 (m.2.2 ||| dl.2 ||| dh.2 ||| bl.2 ||| bh.2) s t ∧
          poolWord p (o + 8) = bl.1 ∧ poolWord p (o + 12) = bh.1 ∧ poolWord p q = m.1 ∧ poolWord p (q + 4) = m.2.1 ∧
          poolWord p (q + 8) = s.g (d + 2) ∧
          (∀ a, (a < o + 8 ∨ o + 16 ≤ a) → (a < q ∨ q + 12 ≤ a) → Map.get 0 p a = Map.get 0 s.me.pool a) ∧
          ∀ k, Map.get false f k = if q / 4 ≤ k ∧ k < q / 4 + 4 then true else Map.get false s.me.full k)

/-- R139, R142, R143, R144: each form takes the trap of the record's checks; `slget` waits for a version, `slret` retires a slot and takes its contribution out of the belief, `slnew` activates
a retired slot. -/
def Sys2Proof.Part.SlotForms : Prop :=
  ∀ (d n o q : Nat) (s : State) (b3 e : Nat) (w : Nat → Word), s.next ≠ END → s.issue.slot < 4 → s.accepts 1 = true → o = Z (s.g n) →
    b3 = Z (s.g (d + 3)) → e = b3 / 2 ^ 16 % 2 ^ 8 → (w = poolWord s.me.pool) →
    q = leNat (Map.getList 0 s.me.pool (o + 0x14) 2) + 16 * (b3 % 2 ^ 16) →
    (∀ c v, recordCheck s.me.part s.me o (some b3) = some (c, v) →
      Traps (.slget d n) s c v ∧ Traps (.slret d n) s c v ∧ Traps (.slnew d n) s c v) ∧
    (recordCheck s.me.part s.me o (some b3) = none → o + 32 ≤ q ∨ q + 16 ≤ o →
    ∀ (rtd : Bool) (ep : Nat), rtd = (w (q + 12)).getLsbD 31 → ep = Z (w (q + 12)) / 2 ^ 16 % 2 ^ 8 →
    (rtd = true ∨ ep ≠ e ∨ Z (s.g (d + 2)) ≤ Z (w (q + 8)) → Runs (.slget d n) s fun t =>
      Completed [d, d + 1, d + 2, d + 3] [] s.next s t ∧ t.g d = w q ∧ t.g (d + 1) = w (q + 4) ∧ t.g (d + 2) = w (q + 8) ∧
        t.g (d + 3) = if rtd = true then 2 else if ep ≠ e then 3 else 0) ∧
    (rtd = false → ep = e → Z (w (q + 8)) < Z (s.g (d + 2)) → Waits (.slget d n) s) ∧
    (if rtd = true then Runs (.slret d n) s (WentStatus s.me.pool s.me.full (d + 3) 2 0 s)
      else if ep ≠ e then Runs (.slret d n) s (WentStatus s.me.pool s.me.full (d + 3) 3 0 s)
      else ∀ bl bh : Word × Nat, bl = fSub .ne (w (o + 8)) (w q) → bh = fSub .ne (w (o + 12)) (w (q + 4)) →
        Runs (.slret d n) s fun t => ∃ p, WentStatus p s.me.full (d + 3) 0 (bl.2 ||| bh.2) s t ∧ poolWord p (o + 8) = bl.1 ∧
          poolWord p (o + 12) = bh.1 ∧ BitSet (w (q + 12)) (poolWord p (q + 12)) 31 true ∧
          ∀ a, (a < o + 8 ∨ o + 16 ≤ a) → (a < q + 12 ∨ q + 16 ≤ a) → Map.get 0 p a = Map.get 0 s.me.pool a) ∧
    (if rtd = false then Runs (.slnew d n) s (WentStatus s.me.pool s.me.full (d + 3) 4 0 s)
      else if ep = e then Runs (.slnew d n) s (WentStatus s.me.pool s.me.full (d + 3) 3 0 s)
      else Runs (.slnew d n) s fun t => ∃ p, WentStatus p s.me.full (d + 3) 0 0 s t ∧ poolWord p q = 0 ∧ poolWord p (q + 4) = 0 ∧
        poolWord p (q + 8) = 0 ∧ Z (poolWord p (q + 12)) = e * 2 ^ 16 + Z (s.g (d + 2)) % 2 ^ 16 ∧
        ∀ a, (a < q ∨ q + 16 ≤ a) → Map.get 0 p a = Map.get 0 s.me.pool a))

/-- R139, R145: `belief` sums the prior and the live slots in order (of slots apart from the record), and writes its belief and version
alone. -/
def Sys2Proof.Part.BeliefSum : Prop :=
  ∀ (d o : Nat) (s : State) (w : Nat → Word) (q : Nat → Nat), s.next ≠ END → s.issue.slot < 4 → s.accepts 1 = true → o = Z (s.g d) →
    (w = poolWord s.me.pool) → (q = fun i => leNat (Map.getList 0 s.me.pool (o + 0x14) 2) + 16 * i) →
    (∀ c v, recordCheck s.me.part s.me o none = some (c, v) → Traps (.belief d) s c v) ∧
    (recordCheck s.me.part s.me o none = none → Runs (.belief d) s fun t => ∃ p x, Went s { s.me with pool := p } x [d] [] s.next s t ∧
      x = { s.slot with fst := x.fst } ∧ SameMemory s t ∧ t.g d = poolWord p (o + 0x18) ∧
      ∀ a, (a < o + 8 ∨ o + 16 ≤ a) → (a < o + 0x18 ∨ o + 0x1C ≤ a) → Map.get 0 p a = Map.get 0 s.me.pool a) ∧
    (recordCheck s.me.part s.me o none = none →
      (∀ i, i < leNat (Map.getList 0 s.me.pool (o + 0x16) 2) → o + 32 ≤ q i ∨ q i + 16 ≤ o) → ∀ sum : Nat → Word × Word × Nat,
      sum 0 = (w o, w (o + 4), 0) →
      (∀ i, sum (i + 1) = if (w (q i + 12)).getLsbD 31 = true then sum i
        else ((fAdd .ne (sum i).1 (w (q i))).1, (fAdd .ne (sum i).2.1 (w (q i + 4))).1,
          (sum i).2.2 ||| (fAdd .ne (sum i).1 (w (q i))).2 ||| (fAdd .ne (sum i).2.1 (w (q i + 4))).2)) →
      ∀ r, r = sum (leNat (Map.getList 0 s.me.pool (o + 0x16) 2)) →
      Runs (.belief d) s fun t => ∃ p, t.g d = w (o + 0x18) + 1 ∧
        Went s { s.me with pool := p } { s.slot with fst := s.slot.fst ||| u32 (r.2.2 % 32) } [d] [] s.next s t ∧ SameMemory s t ∧
        poolWord p (o + 8) = r.1 ∧ poolWord p (o + 12) = r.2.1 ∧ poolWord p (o + 0x18) = w (o + 0x18) + 1 ∧
        ∀ a, (a < o + 8 ∨ o + 16 ≤ a) → (a < o + 0x18 ∨ o + 0x1C ≤ a) → Map.get 0 p a = Map.get 0 s.me.pool a)

/-- The slot forms take the trap of the record's checks, check version, epoch and state and write their record and status; belief sums the
live slots in order. -/
def Obligations.Slots : Prop :=
  Sys2Proof.Part.RecordChecks ∧ Sys2Proof.Part.SlotDelivery ∧ Sys2Proof.Part.SlotForms ∧ Sys2Proof.Part.BeliefSum

/-- R147, R148, R149, R191: folding a residual, reading the counters, and closing the window. -/
def Sys2Proof.Part.Convergence : Prop :=
  ∀ (d : Nat) (s : State) (x : Word) (c : Core) (v : Nat), s.next ≠ END → s.accepts 1 = true → x = s.g d → c = s.me → v = Z x →
    let went (e : Core) (ds : List Nat) (t : State) : Prop := Went s e s.slot ds [] s.next s t ∧ SameMemory s t
    Runs (.cvupd d) s (went { c with
      cvres := if (fval x).isNan then 0x7FC00000#32 else if (fval c.cvres).isNan then c.cvres
        else if ltVal (fval c.cvres) (fval x) then x else c.cvres,
      cvcnt := if (fval x).isNan ∨ (fval c.cvthr).isNan = false ∧ ltVal (fval c.cvthr) (fval x) then
        u32 (min (Z c.cvcnt + 1) (2 ^ 32 - 1)) else c.cvcnt } []) ∧
    (v / 2 ^ 8 % 2 ^ 23 ≠ 0 → Traps (.cvrd d) s .illegal (u64 v)) ∧
    (v / 2 ^ 8 % 2 ^ 23 = 0 → 5 ≤ v % 2 ^ 8 → Traps (.cvrd d) s .illegal (u64 s.issue.word)) ∧
    (v / 2 ^ 8 % 2 ^ 23 = 0 →
      (v % 2 ^ 8 = 0 → WritesG (.cvrd d) s d fun u => u = c.cvres) ∧ (v % 2 ^ 8 = 1 → WritesG (.cvrd d) s d fun u => u = c.cvcnt) ∧
      (v % 2 ^ 8 = 2 → Runs (.cvrd d) s fun t => t.g d = c.sldisc ∧
        went (if 2 ^ 31 ≤ v then { c with sldisc := 0 } else c) [d] t) ∧
      (v % 2 ^ 8 = 3 → Runs (.cvrd d) s fun t => t.g d = c.blost ∧ went (if 2 ^ 31 ≤ v then { c with blost := 0 } else c) [d] t) ∧
      (v % 2 ^ 8 = 4 → WritesG (.cvrd d) s d fun u => u = c.cvwin)) ∧
    Runs .cvclr s fun t => ∃ qs, Went { s with queues := qs } { c with cvres := 0, cvcnt := 0, cvwin := c.cvwin + 1 } s.slot [] [] s.next s t ∧
      SameMemory s t ∧ ∀ q la, c.queue = some q → (s.queue q).launch = some la →
        (t.queue q).launch = some { la with closed := la.closed ++ [⟨c.index, Z c.cvwin, c.cvres, Z c.cvcnt⟩] }

/-- R150, R264: `ftype` loads its type's entry as two doublewords, each as `ldg.d` does, then checks it and calls its handler. Both may be
loaded in one step; where the second load waits or fails, the first has had no effect but that `half` keeps its bytes and its clock (R59),
and a trap leaves the state from before the loads (R73, the model's reading: log entry 56). -/
def Sys2Proof.Part.FactorDispatch : Prop :=
  ∀ (d n k o : Nat) (s : State) (ea : DWord), s.accepts 1 = true → k = Z (s.g d) → o = Z (s.g n) →
    ea = w64 ((s.a 6).toNat + 16 * k + if s.slot.half = none then 0 else 8) →
    let ends (h : Nat) (bs : List Byte) (s0 v : State) : Prop :=
      let nv := leNat (bs.take 2)
      let sz := leNat ((bs.drop 2).take 2)
      if nv < 1 ∨ 64 < nv ∨ sz % 4 ≠ 0 ∨ sz < 4 ∨ 4096 < sz ∨ h % 2 ≠ 0 ∨ leNat (bs.drop 4) ≠ 0 then
        exec (.ftype d n) s = trap .slot (u64 (6 * 2 ^ 32 + k)) (v.backTo s0)
      else if o % 4 ≠ 0 then exec (.ftype d n) s = trap .align (u64 o) (v.backTo s0)
      else if o < hndEnd s.me.part ∨ 0x6000 < o + sz then exec (.ftype d n) s = trap .poolRange (u64 o) (v.backTo s0)
      else u64 h ≠ END → Runs (.ftype d n) s fun t => Z (t.g d) = nv ∧ t.a 7 = s.next ∧ Went v v.me v.slot [d] [7] (u64 h) v t
    (ea.toNat % 8 ≠ 0 → Traps (.ftype d n) s .align ea) ∧
    (∀ u, ea.toNat % 8 = 0 → (∀ c, s.resolve s.issue.lid ea.toNat .rd = (u, .error c) → exec (.ftype d n) s = trap c ea u) ∧
      ∀ pa, s.resolve s.issue.lid ea.toNat .rd = (u, .ok (.memory pa)) →
        (u.prompt = false → Runs (.ftype d n) s fun t => (∃ q : HomeReq, t.reqs = s.reqs ++ [q] ∧ q.lid = s.issue.lid ∧
            q.slot = s.issue.slot ∧ q.pa = pa ∧ q.op = .load 8 ∧ q.answer = none ∧
            q.clock = max s.me.pts (leNat (((s.slot.half.getD []).drop 8).take 8))) ∧
          ∃ w, t.slot = { s.slot with wait := some w, pc := s.issue.start } ∧ w.instr = .ftype d n) ∧
        (u.prompt = true → u.badIn pa 8 = true → exec (.ftype d n) s = trap .memErr ea u.report)) ∧
    (∀ u pa lo, ea.toNat % 8 = 0 → s.slot.half = some lo → u.prompt = true →
      (s.raise s.issue.lid (leNat ((lo.drop 8).take 8))).resolve s.issue.lid ea.toNat .rd = (u, .ok (.memory pa)) →
      u.badIn pa 8 = false → Fits u (u.me.pts + u.leaseOf s.issue.lid) →
      ∃ bs v, ReadAt u pa 8 bs v ∧ ends (leNat (lo.take 8)) bs s v) ∧
    ∀ u pa, ea.toNat % 8 = 0 → s.slot.half = none → u.prompt = true →
      s.resolve s.issue.lid ea.toNat .rd = (u, .ok (.memory pa)) → u.badIn pa 8 = false → Fits u (u.me.pts + u.leaseOf s.issue.lid) →
      ∃ lo v, ReadAt u pa 8 lo v ∧
        let kept (x : State) : State := x.setSlot { x.slot with half := some (lo ++ leBytes v.me.pts 8) }
        let eb := ea + 8
        (∀ w c, (kept v).resolve s.issue.lid eb.toNat .rd = (w, .error c) → v.me.pts < 2 ^ 64 →
          ∃ x, exec (.ftype d n) s = trap c eb x ∧ x = { kept s with free := x.free, queues := x.queues, dev := x.dev }) ∧
        ∀ w pb, (kept v).resolve s.issue.lid eb.toNat .rd = (w, .ok (.memory pb)) →
          (w.badIn pb 8 = true → ∃ x, exec (.ftype d n) s = trap .memErr eb x ∧
            x = { kept s with free := x.free, queues := x.queues, dev := x.dev }) ∧
          (w.badIn pb 8 = false → v.me.pts < 2 ^ 64 → Fits w (w.me.pts + w.leaseOf s.issue.lid) →
            ∃ bs x, ReadAt w pb 8 bs x ∧ ends (leNat lo) bs (kept s) x)

/-- cvupd, cvrd and cvclr keep the residual and count of the window; ftype loads its table entry and turns to the handler of its factor; what
a trap or a wait keeps of its loads is log entry 56 (DEDUCED). -/
def Obligations.ConvergenceAndFactors : Prop :=
  Sys2Proof.Part.Convergence ∧ Sys2Proof.Part.FactorDispatch

/-! ### Traps (spec/08) -/

/-- R58, R192, R193, R194: a trap with INH = 0 enters S as R193 says and changes nothing else; with INH = 1 it halts the context, with
DBL and CODE in DSTAT. -/
def Sys2Proof.Part.TrapEntry : Prop :=
  ∀ (s : State) (l k : Nat) (c : Word) (v e : DWord), k < 4 →
    (statInh (s.slotAt l k).stat = 0 →
      ∃ y, Entered (s.slotAt l k) y c v e ∧ OnlyContextAt l k y s (s.takeTrap l k c v e)) ∧
    (statInh (s.slotAt l k).stat = 1 → (∃ j, j < partC (s.core l).part ∧ j ≠ k ∧ (s.slotAt l j).st ≠ .halted) →
      ∀ t, t = s.takeTrap l k c v e →
        t.slotAt l k = { s.slotAt l k with
          tcause := 0x15#32 ||| (c <<< 8), tval := v, tepc := e, st := .halted, wait := none, stepDue := none, yask := none,
          loaded := false, half := none } ∧
        (t.core l).derr = (s.core l).derr ||| 2#32 ∧ (t.core l).dcode.toNat = max (s.core l).dcode.toNat 0x15 ∧
        SameSlots k (s.core l) (t.core l) ∧ SameCores l s t ∧ SameModule s t ∧ SameMemory s t)

/-- R197, R199, R191: `trap` and `brk` take their trap at their start, with the code and the length in TVAL; an unassigned word takes
the trap that decode finds. -/
def Sys2Proof.Part.TrapForms : Prop :=
  ∀ (n : Nat) (s : State), s.issue.slot < 4 → statInh s.slot.stat = 0 → n < 2 ^ 36 → s.issue.length < 2 ^ 8 →
    let val : DWord := u64 (n + s.issue.length * 2 ^ 56)
    let entered (c : Word) (v : DWord) (t : State) : Prop := ∃ y, Entered s.slot y c v s.issue.start ∧
      OnlyContextAt s.issue.lid s.issue.slot y s t
    Runs (.trap n) s (entered 0x0F val) ∧ Runs (.brk n) s (entered 0x10 val) ∧
    ∀ c v, Runs (.unassignedWord c v) s (entered (u32 c) (u64 v))

/-- A trap saves cause, value, pc, status and flags, exchanges the bank, enters S and goes to TVEC, changing nothing else; with INH = 1 it
halts the context with DOUBLE; trap, brk and an unassigned word take theirs. -/
def Obligations.TrapTaking : Prop :=
  Sys2Proof.Part.TrapEntry ∧ Sys2Proof.Part.TrapForms

/-- R195: the return from S, its two halts, its trap with INH = 0, and the end of a task whose TEPC is END. -/
def Sys2Proof.Part.TrapReturn : Prop :=
  ∀ (s : State) (x : Slot), x = s.slot → s.issue.slot < 4 → statMode x.stat = 1 →
    (statInh x.stat = 0 → Traps .rett s .rett 0) ∧
    (statInh x.stat = 1 → (∃ j, j < partC s.me.part ∧ j ≠ s.issue.slot ∧ (s.me.slot j).st ≠ .halted) →
      (2 ^ 6 ≤ Z x.tstat → Runs .rett s fun t => t.slot.tcause = 0x0E15#32 ∧ t.slot.tval = u64 (Z x.tstat) ∧
        t.slot.tepc = s.issue.start ∧ t.slot.st = .halted) ∧
      (Z x.tstat < 2 ^ 6 → x.tepc.toNat % 2 = 1 → Runs .rett s fun t => t.slot.tcause = 0x0315#32 ∧ t.slot.tval = x.tepc ∧
        t.slot.tepc = s.issue.start ∧ t.slot.st = .halted)) ∧
    (statInh x.stat = 1 → Z x.tstat < 2 ^ 6 → x.tepc.toNat % 2 = 0 → x.tepc ≠ END → Runs .rett s fun t => ∃ y : Slot,
      y = { x with regs := y.regs, bank := y.bank, fst := x.sfst, stat := x.tstat, pc := x.tepc, wait := none } ∧
      (∀ n, Map.get 0 y.regs n = if n < 4 then Map.get 0 x.bank n else Map.get 0 x.regs n) ∧
      (∀ n, n < 4 → Map.get 0 y.bank n = Map.get 0 x.regs n) ∧ OnlyContextAt s.issue.lid s.issue.slot y s t) ∧
    (statInh x.stat = 1 → Z x.tstat < 2 ^ 6 → x.tepc = END → Runs .rett s fun t => t.slot.st = .free ∧ t.slot.task = none)

/-- R68, R71: in U every page-4 form but `trap` and `brk` traps PRIV with the instruction word, whatever its operands. -/
def Sys2Proof.Part.Privilege : Prop :=
  ∀ (i : Instr) (s : State) (d n : Nat), (∀ g, g < 8 → s.accepts g = true) → statMode s.slot.stat = 0 →
    i ∈ [.rett, .csync, .halt, .tlbinv d n, .migr d, .ctxout d n, .ctxin d n, .fwdset d n, .slice d, .lretr d n, .lstat d n, .lctl d n] →
    Traps i s .priv (u64 s.issue.word)

/-- R194, R197: `halt` halts its context with cause 0, sets HLT and leaves CODE. -/
def Sys2Proof.Part.HaltForm : Prop :=
  ∀ (s : State), s.issue.slot < 4 → statMode s.slot.stat = 1 →
    (∃ j, j < partC s.me.part ∧ j ≠ s.issue.slot ∧ (s.me.slot j).st ≠ .halted) →
    Runs .halt s fun t => t.slot = { s.slot with
        tcause := 0x15#32, tval := 0, tepc := s.issue.start, st := .halted, wait := none, stepDue := none, yask := none,
        loaded := false, half := none } ∧
      t.me.derr = s.me.derr ||| 8#32 ∧ t.me.dcode = s.me.dcode ∧ SameSlots s.issue.slot s.me t.me ∧ SameCores s.issue.lid s t ∧
      SameModule s t ∧ SameMemory s t

/-- rett restores bank, FST, STAT and pc, or traps RETT, or halts the context; halt halts it. -/
def Obligations.TrapReturnAndHalt : Prop :=
  Sys2Proof.Part.TrapReturn ∧ Sys2Proof.Part.HaltForm

/-- R192, R196, R264: a context that may take a notice takes its oldest one at its pc, and abandons its wait, whose request entries stay
taken, unless the wait is one that no notice abandons; a step trap that is due is taken with the completed
instruction's start in TVAL, and comes before a notice. -/
def Sys2Proof.Part.NoticesAndSteps : Prop :=
  ∀ (l k : Nat) (s : State) (x : Slot), k < 4 → x = s.slotAt l k → x.st = .ready → statInh x.stat = 0 →
    (∀ n ns, x.notices = n :: ns → x.stepDue = none → x.wait = none → Runs (.notice l k) s fun t => ∃ y,
      Entered { x with notices := ns } y n.cause n.val x.pc ∧ OnlyContextAt l k y s t) ∧
    (∀ n ns w, x.notices = n :: ns → x.stepDue = none → x.wait = some w →
      (w.keep = true → exec (.notice l k) s = .next s) ∧
      (w.keep = false → Runs (.notice l k) s fun t => ∃ y, Entered { x with notices := ns, entries := y.entries } y n.cause n.val x.pc ∧
        (∀ e, (Map.get none y.entries e).isSome = (Map.get none x.entries e).isSome) ∧ OnlyContextAt l k y s t)) ∧
    (∀ v, x.stepDue = some v → Runs (.stepTrap l k) s fun t => ∃ y, Entered x y 0x10 v x.pc ∧ OnlyContextAt l k y s t) ∧
    (∀ v, x.stepDue = some v → exec (.notice l k) s = .next s)

/-- R198: `csync` empties the team's instruction cache once the context's stores are done; `tlbinv` drops the translation of a page, or
all of them. -/
def Sys2Proof.Part.SynchronizingForms : Prop :=
  ∀ (d n : Nat) (s : State) (v : Nat), s.next ≠ END → statMode s.slot.stat = 1 → v = Z (s.g d) →
    (s.storesDone = true → Runs .csync s fun t => (t.team (s.issue.lid / 8)).icache = [] ∧ (t.team (s.issue.lid / 8)).dist = none ∧
      (∀ j, j ≠ s.issue.lid / 8 → t.team j = s.team j) ∧ Went { s with teams := t.teams } s.me s.slot [] [] s.next s t ∧ SameMemory s t) ∧
    (s.storesDone = false → Waits .csync s) ∧
    (1 < v → Traps (.tlbinv d n) s .illegal (u64 v)) ∧
    (∀ q la, s.me.queue = some q → (s.queue q).launch = some la →
      (v = 1 → s.tlbBusy q (fun _ => true) = false → Runs (.tlbinv d n) s fun t =>
        (∃ lb, (t.queue q).launch = some lb ∧ lb = { la with tlb := [] }) ∧
        Went { s with queues := t.queues } s.me s.slot [] [] s.next s t ∧ SameMemory s t) ∧
      (v = 0 → (∀ hit, s.tlbBusy q hit = false) → ∀ a, a = (s.a n).toNat % 2 ^ 50 → Runs (.tlbinv d n) s fun t =>
        (∃ lb, (t.queue q).launch = some lb ∧ lb = { la with tlb := la.tlb.filter fun h => !(h.va ≤ a && a < h.va + h.size) }) ∧
        Went { s with queues := t.queues } s.me s.slot [] [] s.next s t ∧ SameMemory s t))

/-- A context takes its oldest notice at its pc, a due step trap first; csync and tlbinv empty what they name. -/
def Obligations.NoticesAndSynchronizing : Prop :=
  Sys2Proof.Part.NoticesAndSteps ∧ Sys2Proof.Part.SynchronizingForms

/-! ### Cuts, images and migration (spec/08) -/

/-- R213: `mark` edits the edge list and `cutst` reads whether the last cut has completed. -/
def Sys2Proof.Part.CutForms : Prop :=
  ∀ (d : Nat) (s : State) (v e : Nat), s.next ≠ END → s.accepts 4 = true → v = Z (s.g d) → e = v % 2 ^ 20 →
    let edged (es : List Nat) (r : Word) (t : State) : Prop := t.g d = r ∧
      Went s { s.me with edges := es } s.slot [d] [] s.next s t ∧ SameMemory s t
    (v / 2 ^ 20 % 2 ^ 11 ≠ 0 → Traps (.mark d) s .illegal (u64 v)) ∧
    (v / 2 ^ 20 % 2 ^ 11 = 0 →
      (2 ^ 31 ≤ v → Runs (.mark d) s (edged (s.me.edges.erase e) 0)) ∧
      (v < 2 ^ 31 → e ∈ s.me.edges → Runs (.mark d) s (edged s.me.edges 0)) ∧
      (v < 2 ^ 31 → e ∉ s.me.edges → 64 ≤ s.me.edges.length → Runs (.mark d) s (edged s.me.edges 1)) ∧
      (v < 2 ^ 31 → e ∉ s.me.edges → s.me.edges.length < 64 → Runs (.mark d) s (edged (s.me.edges ++ [e]) 0))) ∧
    WritesG (.cutst d) s d (fun w => w = if s.me.cut.complete = true then 1 else 0)

/-- R200, R201: the bytes of a context block, and of the first 32 KiB of a core image. -/
def Sys2Proof.Part.ImageLayout : Prop :=
  (∀ (x : Slot) (regs : Nat), regs < 4 →
    let rd (r n : Nat) : Nat := leNat (((x.block regs).drop r).take n)
    (x.block regs).length = 256 ∧
    (∀ p ∈ [(0x00, 8, x.pc.toNat), (0x08, 4, Z x.stat), (0x0C, 4, Z x.tcause), (0x10, 8, x.tval.toNat), (0x18, 8, x.tepc.toNat),
        (0x20, 4, Z x.tstat), (0x24, 4, Z x.fst), (0x28, 4, Z x.sfst), (0x30, 8, x.tvec.toNat), (0x88, 8, x.ksrc.toNat),
        (0x90, 8, x.kdst.toNat), (0x98, 8, x.klay.toNat), (0xA0, 8, x.kbase.toNat), (0xCC, 4, Z x.yjob), (0xD0, 8, x.sdh.toNat),
        (0xEC, 4, 0), (0xF0, 8, x.rvh.toNat)], rd p.1 p.2.1 = p.2.2) ∧
    (∀ i, i < 8 → rd (0x38 + 8 * i) 8 = (Map.get 0 x.aregs i).toNat) ∧
    (∀ i, i < 4 → rd (0x78 + 4 * i) 4 = Z (Map.get 0 x.bank i) ∧ rd (0xA8 + 4 * i) 4 = Z (Map.get 0 x.kext i)) ∧
    (∀ i, i < 5 → rd (0xB8 + 4 * i) 4 = Z (Map.get 0 x.sd i) ∧ rd (0xD8 + 4 * i) 4 = Z (Map.get 0 x.rv i)) ∧
    rd 0x2C 4 % 2 ^ 2 = (match x.st with
      | .free => 0
      | .halted => 3
      | .ready => if x.wait.isSome = true ∨ x.loaded = true then 2 else 1) ∧
    rd 0x2C 4 / 2 ^ 2 % 2 ^ 6 = regs ∧
    (x.notices = [] → rd 0x2C 4 / 2 ^ 8 = 0 ∧ rd 0xF8 8 = 0) ∧
    ∀ n ns, x.notices = n :: ns → rd 0x2C 4 / 2 ^ 8 = Z n.cause % 2 ^ 24 ∧ rd 0xF8 8 = n.val.toNat) ∧
  ∀ (c : Core) (l : Nat) (im : DWord) (img : List Byte), partOk c.part = true → c.runq.length ≤ 64 → c.edges.length ≤ 64 →
    l < 2 ^ 20 → img = c.image l im →
    let rd (r n : Nat) : Nat := leNat ((img.drop r).take n)
    img.length = 0x8000 ∧
    (∀ k r, k < partC c.part → r < partG c.part → rd (4 * partG c.part * k + 4 * r) 4 = Z (Map.get 0 (c.slot k).regs r)) ∧
    (∀ h o, h < partH c.part → o = 4 * partC c.part * partG c.part + 16 * h → rd o 2 = (c.handle h).rbase % 2 ^ 16 ∧
      rd (o + 2) 1 = (c.handle h).rlog % 2 ^ 8 ∧
      rd (o + 3) 1 = ((c.handle h).bnd.toNat * 2 ^ 7 + (c.handle h).mbx.toNat * 2 ^ 6 + (c.handle h).resz) % 2 ^ 8 ∧
      rd (o + 4) 4 = Z (c.handle h).head ∧ rd (o + 8) 4 = Z (c.handle h).pub ∧ rd (o + 12) 4 = Z (c.handle h).rsv) ∧
    (∀ o, hndEnd c.part ≤ o → o < 0x6000 → img[o]? = some (Map.get 0 c.pool o)) ∧
    (∀ w, w < 0x1800 → (rd (0x6000 + w / 8) 1).testBit (w % 8) = Map.get false c.full w) ∧
    (∀ p ∈ [(0x00, 8, c.pts), (0x08, 4, l), (0x0C, 4, Z c.cutid), (0x10, 4, Z c.cvres), (0x14, 4, Z c.cvcnt), (0x18, 4, Z c.cvthr),
        (0x1C, 4, Z c.cvwin), (0x20, 4, Z c.sldisc), (0x24, 4, Z c.blost), (0x28, 4, c.bmbx.getD 0xFFFFFFFF),
        (0x2C, 4, Z c.derr % 2 ^ 8 + Z c.dcode % 2 ^ 8 * 2 ^ 8 + c.entryOver.toNat * 2 ^ 16 + c.exited.toNat * 2 ^ 17),
        (0x30, 8, c.csent), (0x38, 8, c.crecv), (0x40, 4, c.age), (0x44, 4, c.edges.length), (0x48, 4, c.runq.length),
        (0x4C, 4, c.index)], rd (0x6300 + p.1) p.2.1 = p.2.2 % 2 ^ (8 * p.2.1)) ∧
    (∀ i, i < 256 → rd (0x6400 + 4 * i) 4 = Z (tabEntry c.dtab i)) ∧
    (∀ n o, n < 32 → o = 0x6800 + 32 * n → rd o 8 = (c.node n).start.toNat ∧
      (∀ i, i < 4 → rd (o + 8 + 4 * i) 4 = Z (Map.get 0 (c.node n).words i)) ∧ (rd (o + 24) 2 : Int) = (c.node n).cnt % 2 ^ 16 ∧
      rd (o + 26) 1 = ((c.node n).arm.toNat + 2 * (c.node n).pend.toNat + 4 * (c.node n).prio) % 2 ^ 8 ∧ rd (o + 27) 5 = 0) ∧
    (∀ i e, c.runq[i]? = some e → ∃ f : Flit, (img.drop (0x6C00 + 32 * i)).take 32 = f.bytes ∧
      (∀ g, e.flit = some g → f = if e.kind = .spawn ∨ e.kind = .service then g else { g with pri := e.level }) ∧
      (e.flit = none → f = {
        dst := l, src := l, kind := .system, pri := e.level, cls := 0, ksf := 0x100 + e.level, low := 0,
        w0 := w32 ((e.start.toNat : Int) - im.toNat), w1 := Map.get 0 e.args 0, w2 := Map.get 0 e.args 1, w3 := Map.get 0 e.args 2,
        w4 := Map.get 0 e.args 3 })) ∧
    (∀ k, k < 4 → (img.drop (0x7400 + 256 * k)).take 256 = (c.slot k).block (partRegs c.part)) ∧
    (∀ i e, c.edges[i]? = some e → rd (0x7800 + 4 * i) 4 = e % 2 ^ 32) ∧ ∀ o, 0x7900 ≤ o → o < 0x8000 → img[o]? = some 0

/-- R209, R210, R212, R213: `snap` starts a cut, or joins the one its number names: the core holds its counted sends, its count of sends
is recorded, its markers go out, and its image, with an empty log, stands at its place of the area; a queue without an area gives 0xFFFF_FFFF, a cut in progress 0. That the image shows the context before gd is written, the old CUTID and
the mark of dropped notices is log entry 23 (DEDUCED). -/
def Sys2Proof.Part.SnapshotStart : Prop :=
  ∀ (d q : Nat) (la : Launch) (s : State) (n : Word) (a : Nat), s.next ≠ END → s.accepts 4 = true → s.issue.slot < 4 →
    s.me.queue = some q → (s.queue q).launch = some la → (n = if s.me.cutid + 1 = 0 then 1 else s.me.cutid + 1) →
    a = la.cuta.toNat + 0x10000 * (s.me.index + 1) → a + 0x10000 ≤ 2 ^ 41 →
    (la.cuta = 0 → WritesG (.snap d) s d fun v => v = 0xFFFFFFFF#32) ∧
    (la.cuta ≠ 0 → s.me.cut.complete = false → WritesG (.snap d) s d fun v => v = 0) ∧
    (la.cuta ≠ 0 → s.me.cut.complete = true → la.cut = none → s.me.mayRecord = true → s.issue.stepping = false →
      (∀ k, k < 4 → (s.me.slot k).stepDue = none) → s.me.pts - s.base < 2 ^ 32 →
      Runs (.snap d) s fun t => t.g d = n ∧ t.me.cutid = n ∧
        t.me.cut = { due := false, holding := true, complete := false, sentAt := s.me.csent, logged := 0, unlogged := 0 } ∧
        (partOk s.me.part = true → s.me.runq.length ≤ 64 → s.me.edges.length ≤ 64 →
          t.bytesAt a 0x8000 = s.me.markDropped.image s.issue.lid la.image ∧ (∀ i, i < 0x20 → t.byte (a + 0x8000 + i) = 0) ∧
          ∀ b, (b < a ∨ a + 0x8020 ≤ b) → (b < la.cuta.toNat ∨ la.cuta.toNat + 8 ≤ b) → t.byte b = s.byte b) ∧
        t.me.pool = s.me.pool ∧ t.me.runq = s.me.runq ∧ t.slot.pc = s.next ∧ SameSlots s.issue.slot s.me t.me ∧ SameCores s.issue.lid s t ∧
        (∃ lb, (t.queue q).launch = some lb ∧ lb.cut = some ⟨n, false, false⟩) ∧
        (∃ ms : List InFlight, t.flight = s.flight ++ ms ∧ ms.map (fun y => (y.flit.kind, y.flit.dst, y.flit.w0)) =
          s.me.edges.map fun e => (FlitKind.marker, e, n)))

/-- R209, R210, R211: a core records a snapshot cut when its start reaches it down the rein tree, or when a marker does, once: a start or a
marker of a cut that it has recorded changes nothing; what it sends then waits until the cut's completion reaches it. A core that still
awaits a reply stops issuing until it can record. -/
def Sys2Proof.Part.CutArrivals : Prop :=
  ∀ (q l k : Nat) (la : Launch) (u : Cut) (s : State) (c : Core), s.indexCore q k = some l → s.placed q = some la → la.cut = some u →
    c = s.core l → (∀ j, j < 4 → (c.slot j).stepDue = none) → imageAt la.cuta.toNat c.index + 0x10000 ≤ 2 ^ 41 →
    Clocked s → c.pts - s.base < 2 ^ 32 →
    let recorded (t : State) : Prop := (t.core l).cutid = u.id ∧
      (t.core l).cut = { due := false, holding := true, complete := false, sentAt := c.csent, logged := 0, unlogged := 0 } ∧
      (t.core l).pool = c.pool ∧ (t.core l).slots = c.slots ∧ SameCores l s t
    (u.complete = true ∨ c.cutid = u.id ∧ c.cut.complete = false → exec (.cutStartArrival q k) s = .next s ∧
      ∀ (x : InFlight) (f : Flit), f = x.flit → f.kind = .marker → f.dst = l → s.inFlight f = some x → Staying c →
        s.fate l x.uid = .here → c.queue = some q → Runs (.markerArrival f) s (Landed x c s)) ∧
    (u.save = false → u.complete = false → c.cutid ≠ u.id → c.swapped = false → c.mayRecord = false →
      Runs (.cutStartArrival q k) s fun t => t = s.setCore l { c with cut := { c.cut with due := true } }) ∧
    (u.save = false → u.complete = false → c.cutid ≠ u.id → c.swapped = false → c.mayRecord = true →
      Runs (.cutStartArrival q k) s recorded ∧
      ∀ (x : InFlight) (f : Flit), f = x.flit → f.kind = .marker → f.dst = l → f.w0 = u.id → s.inFlight f = some x →
        s.fate l x.uid = .here → c.queue = some q → Staying c → Runs (.markerArrival f) s recorded) ∧
    (u.complete = true → c.cut.complete = false → Runs (.cutCompletionArrival q k) s fun t =>
      t = s.setCore l { c with cut := { c.cut with holding := false, complete := true } })

/-- R184, R185, R211, R212, R214: the root completes a cut when every core has recorded and the counts balance; of a snapshot it writes the
header; a save ends with the launch saved and its cores free; an expired slice of a launch with a save area starts a save cut where a rival waits. -/
def Sys2Proof.Part.CutRoot : Prop :=
  ∀ (q : Nat) (la : Launch) (u : Cut) (s : State), s.placed q = some la →
    (s.cutReady q la u = true ↔ u.complete = false ∧ (s.workers q).length = 8 * la.tcnt ∧
      (∀ e ∈ s.workers q, e.2.cutid = u.id ∧ e.2.cut.complete = false) ∧
      ((s.workers q).map (·.2.cut.sentAt)).sum = ((s.workers q).map (·.2.crecv)).sum ∧
      (u.save = true → ∃ e ∈ s.workers q, e.2.exited = false)) ∧
    (∀ e, e ∈ s.workers q ↔ e ∈ s.cores ∧ e.2.queue = some q ∧ e.2.forward = none) ∧
    (la.cut = some u → u.save = true → s.cutReady q la u = true → (∀ x ∈ s.flight, x.uid ≠ la.uid) → Map.wf Core.empty s.cores →
      Runs (.cutComplete q) s fun t => (∃ lb, (t.queue q).launch = some lb ∧ lb.phase = .saved ∧ lb.restore = true ∧ lb.cut = none ∧
        lb.uid = la.uid) ∧ (∀ l, t.core l = if (s.core l).queue = some q then Core.empty else s.core l) ∧
        leNat (t.bytesAt la.sava.toNat 4) = Z u.id ∧
        ∀ a, a < la.sava.toNat ∨ la.sava.toNat + 64 ≤ a → t.byte a = s.byte a) ∧
    (la.cut = some u → u.save = false → la.expired = false → s.cutReady q la u = true → Runs (.cutComplete q) s fun t =>
      (∃ lb, (t.queue q).launch = some lb ∧ lb = { la with cut := some { u with complete := true } }) ∧
      leNat (t.bytesAt la.cuta.toNat 4) = Z u.id ∧
      leNat (t.bytesAt (la.cuta.toNat + 4) 4) = (if (s.workers q).any fun e => e.2.cut.unlogged != 0 then 2 else 1) ∧
      (∀ a, a < la.cuta.toNat ∨ la.cuta.toNat + 64 ≤ a → t.byte a = s.byte a) ∧ ∀ l, t.core l = s.core l) ∧
    (la.slice ≠ 0 → la.sava ≠ 0 → s.rivalWaits q la.prio = true → la.cut = none →
      la.sava.toNat + (0x10000 * (8 * la.tcnt + 1) + 0x200000) ≤ 2 ^ 41 → Runs (.sliceExpiry q) s fun t =>
      (∃ lb n, (t.queue q).launch = some lb ∧ lb.cut = some ⟨n, true, false⟩) ∧ ∀ l, t.core l = s.core l) ∧
    (la.slice = 0 ∨ la.sava = 0 ∨ s.rivalWaits q la.prio = false → exec (.sliceExpiry q) s = .next s)

/-- snap, mark and cutst have their effects; a cut records a core once with its image at its place of the area, travels the tree, and
completes at the root when its counts balance. That the image shows the context before gd is written, the old CUTID and the mark of
dropped notices is log entry 23 (DEDUCED). -/
def Obligations.Cuts : Prop :=
  Sys2Proof.Part.CutForms ∧ Sys2Proof.Part.SnapshotStart ∧ Sys2Proof.Part.CutArrivals ∧ Sys2Proof.Part.CutRoot

/-- R202, R203: `ctxout` stores the image of a context to the lines of its address and frees its slot, and gives 1 for a free slot; `ctxin` loads an image into a free slot, and refuses a
slot that is not free with 1 and an image of R203's list with 2. The own slot, a number above 3, a misaligned address and a page that
refuses the access trap; while the context's requests are outstanding, `ctxout` waits. A line in another module is stored as an ordinary
store is: it waits for an entry and for the packet's room, leaves with an entry, or traps REMOTE where no route leads there (log entry 1). A
slot that the partition does not have answers 1 (DESIGN CHOICE, log entry 42), and bit 0 of an image's pc reads as 0 (DESIGN CHOICE, log
entry 52). -/
def Sys2Proof.Part.ContextImages : Prop :=
  (∀ (d n : Nat) (s : State), s.accepts 4 = true → statMode s.slot.stat = 1 →
    (4 ≤ Z (s.g d) ∨ Z (s.g d) = s.issue.slot → Traps (.ctxout d n) s .illegal (u64 (Z (s.g d))) ∧
      Traps (.ctxin d n) s .illegal (u64 (Z (s.g d)))) ∧
    (Z (s.g d) < 4 → Z (s.g d) ≠ s.issue.slot → (s.a n).toNat % 128 ≠ 0 → Traps (.ctxout d n) s .align (s.a n) ∧
      Traps (.ctxin d n) s .align (s.a n)) ∧
    (Z (s.g d) < 4 → Z (s.g d) ≠ s.issue.slot → (s.a n).toNat % 128 = 0 → ∀ s1 c v,
      (s.planLines .wr (s.a n).toNat (imageLines s.part).length = (s1, .error (c, v)) → Traps (.ctxout d n) s c v) ∧
      (Z (s.g d) < partC s.part → (s.slotAt s.issue.lid (Z (s.g d))).st = .free →
        s.loadLines (s.a n).toNat (imageLines s.part) = (s1, .error (c, v)) → Traps (.ctxin d n) s c v))) ∧
  ∀ (d n k a : Nat) (s : State), s.next ≠ END → s.accepts 4 = true → statMode s.slot.stat = 1 → Z (s.g d) = k → k < 4 → k ≠ s.issue.slot →
    s.issue.slot < 4 → a = (s.a n).toNat → a % 128 = 0 →
    (∀ s1 ps, s.planLines .wr a (imageLines s.part).length = (s1, .ok ps) → k < partC s.part → (s.slotAt s.issue.lid k).st ≠ .free →
      s.slot.half = none → s1.cores = s.cores → s1.issue = s.issue → s1.mayImage s.issue.lid k = true → (∀ j, j < 4 → (s.me.slot j).stepDue = none) →
      (∀ p ∈ ps, ∀ m b, p ≠ .far m b) →
      Runs (.ctxout d n) s fun t => t.g d = 0 ∧ (t.me.slot k).st = .free ∧ (t.me.slot k).task = none ∧
        (t.me.slot k).regs = (s.me.slot k).regs ∧ t.slot.pc = s.next ∧
        ∀ pas : List Nat, ps = pas.map Place.memory → pas.Nodup → (∀ pa ∈ pas, pa % 128 = 0) → s1.bad = [] → s1.mem = s.mem →
          (∀ i j pa, pas[i]? = some pa → 128 * i + j < 256 + 4 * partG s.part → j < 128 →
            some (t.byte (pa + j)) = ((s.slotAt s.issue.lid k).block (partRegs s.part) ++
              (List.range (partG s.part)).flatMap fun r => leBytes (Z (Map.get 0 (s.slotAt s.issue.lid k).regs r)) 4)[128 * i + j]?) ∧
          ∀ a, (∀ pa ∈ pas, a < pa ∨ pa + 128 ≤ a) → t.byte a = s.byte a) ∧
    (∀ s1 m b qs, s.planLines .wr a (imageLines s.part).length = (s1, .ok (.far m b :: qs)) → k < partC s.part →
      (s.slotAt s.issue.lid k).st ≠ .free → s.slot.half = none → s1.cores = s.cores → s1.issue = s.issue →
      s1.mayImage s.issue.lid k = true → (∀ j, j < 4 → (s.me.slot j).stepDue = none) →
      let held (t : State) : Prop := (∃ w, t.slot.wait = some w ∧ w.instr = .ctxout d n ∧ w.keep = true) ∧
        (t.me.slot k).st = (s.me.slot k).st ∧ SameMemory s1 t
      ((∀ e, e < 16 → Map.get none s.slot.entries e ≠ none) → Runs (.ctxout d n) s held) ∧
      ∀ e p, FreeEntry s.slot e → p = s1.request s.issue.lid s.issue.slot e m b s1.deadline
          (.store (((s.slotAt s.issue.lid k).image s.part).take 128)) 0 s.me.pts →
        (s1.repliesFull s.issue.lid = true ∨ s1.outputFull p = true → Runs (.ctxout d n) s held) ∧
        (s1.repliesFull s.issue.lid = false → s1.outputFull p = false →
          (s1.sendPacket p = none → exec (.ctxout d n) s = trap .remote (s.a n) s1) ∧
          ∀ u, s1.sendPacket p = some u → Runs (.ctxout d n) s fun t => held t ∧ t.linkOut = u.linkOut ∧ t.transit = u.transit ∧
            (Map.get none t.slot.entries e).isSome = true)) ∧
    (∀ s1 ps, s.planLines .wr a (imageLines s.part).length = (s1, .ok ps) → k < partC s.part → (s.slotAt s.issue.lid k).st ≠ .free →
      s.slot.half = none → s1.cores = s.cores → s1.issue = s.issue → s1.mayImage s.issue.lid k = false → Runs (.ctxout d n) s fun t =>
        (∃ w, t.slot.wait = some w ∧ w.instr = .ctxout d n) ∧ SameMemory s1 t) ∧
    (∀ s1 ps, s.planLines .wr a (imageLines s.part).length = (s1, .ok ps) → s1.issue = s.issue → s1.cores = s.cores →
      s.slot.half = none → (s.slotAt s.issue.lid k).st = .free → Runs (.ctxout d n) s fun t => t.g d = 1 ∧ Went s1 s.me s.slot [d] [] s.next s t) ∧
    (partC s.part ≤ k ∨ (s.slotAt s.issue.lid k).st ≠ .free → WritesG (.ctxin d n) s d fun v => v = 1) ∧
    (∀ s1 bs, k < partC s.part → (s.slotAt s.issue.lid k).st = .free →
      s.loadLines a (imageLines s.part) = (s1, .ok bs) → s1.issue = s.issue →
      (refusesImage bs s.part = true ↔ leNat ((bs.drop 0x2C).take 4) / 4 % 4 ≠ partRegs s.part ∨ leNat ((bs.drop 0x2C).take 4) % 4 = 0 ∨
        2 ^ 6 ≤ leNat ((bs.drop 8).take 4) ∨ 2 ^ 6 ≤ leNat ((bs.drop 0x20).take 4) ∨ leNat ((bs.drop 0xEC).take 4) ≠ 0) ∧
      (refusesImage bs s.part = true → Runs (.ctxin d n) s fun t => t.g d = 2 ∧ Went s1 s1.me s1.slot [d] [] s.next s1 t) ∧
      (refusesImage bs s.part = false → Runs (.ctxin d n) s fun t => t.g d = 0 ∧
        (t.me.slot k).pc = u64 (leNat (bs.take 8) / 2 * 2) ∧ Z (t.me.slot k).stat = leNat ((bs.drop 8).take 4) ∧
        Z (t.me.slot k).fst = leNat ((bs.drop 0x24).take 4) % 2 ^ 5 ∧ (t.me.slot k).tvec.toNat = leNat ((bs.drop 0x30).take 8) / 2 * 2 ∧
        (t.me.slot k).st = (if leNat ((bs.drop 0x2C).take 4) % 4 = 3 then .halted else .ready) ∧
        (∀ r, r < 8 → (Map.get 0 (t.me.slot k).aregs r).toNat = leNat ((bs.drop (0x38 + 8 * r)).take 8)) ∧
        (∀ r, r < partG s.part → Z (Map.get 0 (t.me.slot k).regs r) = leNat ((bs.drop (256 + 4 * r)).take 4)) ∧
        (∀ j, j ≠ k → j ≠ s.issue.slot → t.me.slot j = s1.me.slot j)))

/-- R204, R205, R207: `migr` moves a core's work to a free core, leaves a forwarding entry and the tile latches, and refuses with its
statuses; its checks are made once, and while it waits it keeps waiting. -/
def Sys2Proof.Part.Migration : Prop :=
  ∀ (d dest : Nat) (s : State) (v : Nat), s.next ≠ END → s.accepts 4 = true → statMode s.slot.stat = 1 → s.issue.slot < 4 →
    v = Z (s.g d) → dest = v % 2 ^ 20 →
    (2 ^ 20 ≤ v → Traps (.migr d) s .illegal (u64 v)) ∧
    (v < 2 ^ 20 → s.issue.since = none → dest = s.issue.lid → WritesG (.migr d) s d fun r => r = 2) ∧
    (v < 2 ^ 20 → s.issue.since = none → dest ≠ s.issue.lid → 8 * s.dev.tcnt ≤ dest → WritesG (.migr d) s d fun r => r = 3) ∧
    (v < 2 ^ 20 → s.issue.since = none → dest ≠ s.issue.lid → dest < 8 * s.dev.tcnt → s.freeFor s.me.uid dest = false →
      WritesG (.migr d) s d fun r => r = 1) ∧
    (v < 2 ^ 20 → dest ≠ s.issue.lid → (s.issue.since = none → dest < 8 * s.dev.tcnt ∧ s.freeFor s.me.uid dest = true) →
      s.mayMove s.issue.lid = false → Waits (.migr d) s) ∧
    (v < 2 ^ 20 → dest ≠ s.issue.lid → (s.issue.since = none → dest < 8 * s.dev.tcnt ∧ s.freeFor s.me.uid dest = true) →
      s.mayMove s.issue.lid = true →
      s.issue.stepping = false → (∀ k, k < 4 → (s.me.slot k).stepDue = none) → Runs (.migr d) s fun t =>
      (t.core s.issue.lid).forward = some dest ∧ (t.core s.issue.lid).latch = s.me.latch ∧ (t.core dest).latch = [] ∧ (t.core dest).pool = s.me.pool ∧ (t.core dest).full = s.me.full ∧
      (t.core dest).handles = s.me.handles ∧ (t.core dest).runq = s.me.runq ∧ (t.core dest).pts = s.me.pts ∧
      (t.core dest).index = s.me.index ∧ (t.core dest).csent = s.me.csent ∧ (t.core dest).crecv = s.me.crecv ∧
      ((t.core dest).slot s.issue.slot).pc = s.next ∧ Map.get 0 ((t.core dest).slot s.issue.slot).regs d = 0 ∧
      (t.team (dest / 8)).guest = some s.me.uid ∧ (∀ l, l ≠ dest → l ≠ s.issue.lid → t.core l = s.core l) ∧ SameMemory s t)

/-- R207: `fwdset` asks a vacated core to change its forwarding entry and waits for the answer. The KSF of its flits (`fwdsetKsf`) and the
status in W0 of the answer are log entry 14 (PRESUMED). -/
def Sys2Proof.Part.ForwardingSet : Prop :=
  (∀ (d n : Nat) (s : State) (v : Nat), s.accepts 4 = true → statMode s.slot.stat = 1 → v = Z (s.g d) →
    (2 ^ 20 ≤ v → Traps (.fwdset d n) s .illegal (u64 s.issue.word)) ∧
    (v < 2 ^ 20 → PortFree s s.issue.lid false → Runs (.fwdset d n) s fun t =>
      (∃ y, t.flight = s.flight ++ [y] ∧ y.flit.kind = .system ∧ y.flit.dst = v ∧ y.flit.w0 = s.g n) ∧
      (∃ w, t.slot = { s.slot with wait := some w, pc := s.issue.start } ∧ w.instr = .fwdset d n) ∧ SameMemory s t)) ∧
  (∀ (x : InFlight) (f : Flit) (s : State) (c : Core), f = x.flit → f.kind = .system → f.cls = 0 → f.ksf = fwdsetKsf →
    s.inFlight f = some x → c = s.core f.dst → Staying c → (∀ q, s.fate f.dst x.uid ≠ .spill q) → Clocked s →
    c.pts - s.base < 2 ^ 32 →
    Runs (.fwdsetRequest f) s fun t => ∃ y fs, Freed s x fs ∧ t.flight = fs ++ [y] ∧ y.flit.dst = f.src ∧ y.flit.cls = 1 ∧
      SameCores f.dst s t ∧ SameMemory s t ∧
      if c.forward.isSome = true ∧ c.uid = x.uid then y.flit.w0 = 0 ∧
        t.core f.dst = (if f.w0 = 0xFFFFFFFF#32 then { Core.empty with latch := c.latch } else { c with forward := some (Z f.w0 % 2 ^ 20) })
      else y.flit.w0 = 1 ∧ t.core f.dst = c) ∧
  ∀ (x : InFlight) (f : Flit) (s : State) (d n : Nat) (w : Wait), f = x.flit → f.kind = .system → f.cls = 1 → f.ksf = fwdsetKsf →
    s.inFlight f = some x → (∀ q, s.fate f.dst x.uid ≠ .spill q) → Clocked s → (s.slotAt f.dst (x.tag / 16)).wait = some w →
    w.instr = .fwdset d n → x.serial = w.since →
    w.start + u64 w.length ≠ END →
    Runs (.fwdsetReply f) s fun t => Map.get 0 (t.slotAt f.dst (x.tag / 16)).regs d = f.w0 ∧
      (t.slotAt f.dst (x.tag / 16)).pc = w.start + u64 w.length ∧ SameCores f.dst s t ∧ SameMemory s t

/-- migr moves a core to a free one and leaves a forwarding entry; fwdset rewrites or clears it. The KSF of the flits of fwdset and the status
in W0 are log entry 14 (PRESUMED). -/
def Obligations.Moving : Prop :=
  Sys2Proof.Part.Migration ∧ Sys2Proof.Part.ForwardingSet

/-- R218: `slice` reads what is left of the slice, and traps on a selector above 1. -/
def Sys2Proof.Part.SliceForm : Prop :=
  ∀ (d : Nat) (s : State) (v sl : Nat), s.next ≠ END → s.accepts 4 = true → statMode s.slot.stat = 1 → v = Z (s.g d) →
    sl = ((s.launchOf s.issue.lid).map (·.slice)).getD 0 →
    (1 < v → Traps (.slice d) s .illegal (u64 v)) ∧
    (v ≤ 1 → sl = 0 → WritesG (.slice d) s d fun w => w = 0xFFFFFFFF#32) ∧
    (v = 0 → sl ≠ 0 → sl < 2 ^ 32 → Runs (.slice d) s fun t => Z (t.g d) ≤ sl ∧
      Went { s with free := s.free + 1 } s.me s.slot [d] [] s.next s t ∧ SameMemory s t) ∧
    (v = 1 → sl ≠ 0 → ∀ q la, s.me.queue = some q → (s.queue q).launch = some la → la.phase = .placed →
      s.rivalWaits q la.prio = false → WritesG (.slice d) s d fun w => w = 0)

/-- The bytes of context and core images are those of R200 and R201; ctxout stores a context image and frees the slot, ctxin loads one, and
slice reads or ends the slice, each after its checks. The answer 1 for a slot that the partition does not have is log entry 42, and bit 0
of an image's pc log entry 52 (both DESIGN CHOICE). -/
def Obligations.Images : Prop :=
  Sys2Proof.Part.ImageLayout ∧ Sys2Proof.Part.ContextImages ∧ Sys2Proof.Part.SliceForm

/-! ### Launches (spec/07, spec/16) -/

/-- R75, R176, R179, R180: a launch record advances the queue's sequence. An invalid partition word refuses it with BADPART (1), a broken
field or a bad handler table with BADREC (2), a range that the module has not with BADRANGE (3), a feature group not accepted with FEATURE
(4), and a launch already in the queue with QBUSY (5), in this order, by a completion record of 32 bytes and a message; a good record waits
in the arbiter with the record's fields. -/
def Sys2Proof.Part.LaunchRecords : Prop :=
  ∀ (q : Nat) (bs : List Byte) (s : State) (n : Nat), q < 64 → bs.length = 64 → s.dev.fwRdy = true → n = Z ((s.queue q).seq + 1) →
    let field (o k : Nat) : Nat := leNat ((bs.drop o).take k)
    let refused (st : Nat) (t : State) : Prop := Z (t.queue q).seq = n ∧ (t.queue q).launch = (s.queue q).launch ∧
      (∃ rec : List Byte, t.hostOut = s.hostOut ++ [.data ((((s.queue q).cpla).toNat + 32 * (n % 256)) % 2 ^ 64) rec, .msix q] ∧
        rec.length = 32 ∧ leNat (rec.take 4) = n ∧ leNat ((rec.drop 4).take 4) = st) ∧ (∀ l, t.core l = s.core l) ∧ SameMemory s t
    (partOk (u32 (field 0x14 4)) = false → Runs (.launchRecord q bs) s (refused 1)) ∧
    (partOk (u32 (field 0x14 4)) = true → (field 0 8 % 128 ≠ 0 ∨ field 0x10 4 % 2 = 1 ∨ field 0x1C 4 = 0 ∨
        field 0x1C 4 ≤ field 0x20 4 ∨ 64 < field 0x30 2 ∨ field 0x33 1 ≠ 0 ∨ field 0x3E 2 ≠ 0 ∨ 8 ≤ field 0x32 1 ∨ 2 ^ 16 < field 0x38 4) →
      Runs (.launchRecord q bs) s (refused 2)) ∧
    (partOk (u32 (field 0x14 4)) = true → field 0 8 % 128 = 0 → field 0x10 4 % 2 = 0 → field 0x20 4 < field 0x1C 4 → field 0x30 2 ≤ 64 →
      field 0x33 1 = 0 → field 0x3E 2 = 0 → field 0x32 1 < 8 → field 0x38 4 ≤ 2 ^ 16 →
      let table := (s.setQueue q { s.queue q with seq := (s.queue q).seq + 1, rst := false }).tableBytes (s.queue q).ptroot.toNat (field 8 8)
        (8 * field 0x30 2)
      let first := field 0x18 4
      let teams := field 0x1C 4
      let noRange : Prop := s.dev.tcnt < teams ∨ first ≠ 0xFFFFFFFF ∧ (s.dev.tcnt < first + teams ∨
        ∃ t ∈ s.dev.fenced, first ≤ t ∧ t < first + teams)
      let noGroup : Prop := (∃ i, (field 0x34 4).testBit i = true ∧ s.dev.accept.getLsbD i = false) ∨
        field 0x24 4 ≠ 0 ∧ (field 0x34 4).testBit 4 = false
      (∀ u, table = (u, none) → Runs (.launchRecord q bs) s (refused 2)) ∧
      ∀ u tb, table = (u, some tb) →
        let handler (i : Nat) : Nat := leNat ((tb.drop (8 * i)).take 8)
        ((∃ i, i < field 0x30 2 ∧ handler i % 2 = 1 ∧ handler i ≠ 2 ^ 64 - 1) → Runs (.launchRecord q bs) s (refused 2)) ∧
        ((∀ i, i < field 0x30 2 → handler i % 2 = 0 ∨ handler i = 2 ^ 64 - 1) →
          (noRange → Runs (.launchRecord q bs) s (refused 3)) ∧ (¬noRange → noGroup → Runs (.launchRecord q bs) s (refused 4)) ∧
          (¬noRange → ¬noGroup → (s.queue q).launch ≠ none → Runs (.launchRecord q bs) s (refused 5)) ∧
          (¬noRange → ¬noGroup → (s.queue q).launch = none → (s.queue q).rst = false → Runs (.launchRecord q bs) s fun t =>
            t.hostOut = s.hostOut ∧ ∃ la, (t.queue q).launch = some la ∧ la.phase = .waiting ∧ la.seq = n ∧
              la.htab = (List.range (field 0x30 2)).map handler))) ∧
    (∀ hs, (s.setQueue q { s.queue q with seq := (s.queue q).seq + 1, rst := false }).recordStatus q bs
        (launchOfRecord bs s.serial n s.stamp (s.queue q).rst []) =
        (s.setQueue q { s.queue q with seq := (s.queue q).seq + 1, rst := false }, .ok hs) →
      Runs (.launchRecord q bs) s fun t => Z (t.queue q).seq = n ∧ t.hostOut = s.hostOut ∧ ∃ la, (t.queue q).launch = some la ∧
        la.phase = .waiting ∧ la.seq = n ∧ la.image.toNat = field 0 8 ∧ la.entry = field 0x10 4 ∧ Z la.part = field 0x14 4 ∧
        la.fteamAsked = field 0x18 4 ∧ la.tcnt = field 0x1C 4 ∧ la.root = field 0x20 4 ∧ la.slice = field 0x24 4 ∧
        la.args.toNat = field 0x28 8 ∧ la.lease = field 0x38 4 ∧ la.setw = field 0x3C 2 ∧ la.htab = hs ∧ la.restore = (s.queue q).rst)

/-- R78, R155, R182, R183, R290: the arbiter places a launch that waits alone into the range it asks for: every core of the range starts
with a zero pool, and the entry task stands in one of its contexts (a free choice, log entry 4) at IMAGE + ENTRY with its registers; every
object slot that holds no group is free. -/
def Sys2Proof.Part.LaunchPlacement : Prop :=
  ∀ (q : Nat) (la : Launch) (s : State), s.placeable false = [(q, la)] → la.fteamAsked ≠ 0xFFFFFFFF →
    s.rangeFree la.fteamAsked la.tcnt = true → 1 ≤ partC la.part →
    Runs .launchPlacement s fun t =>
      (∃ lb, (t.queue q).launch = some lb ∧ lb.phase = .placed ∧ lb.fteam = la.fteamAsked ∧ lb.ptroot = (s.queue q).ptroot ∧
        lb.rvec = (s.queue q).rvec ∧ lb.cuta = (s.queue q).cuta ∧ lb.sava = (s.queue q).sava) ∧
      (∀ i, i < 8 * la.tcnt → ∀ c : Core, c = t.core (8 * la.fteamAsked + i) → c.queue = some q ∧ c.uid = la.uid ∧ c.index = i ∧
        c.part = la.part ∧ c.pool = [] ∧ c.full = [] ∧ c.handles = [] ∧ c.runq = [] ∧ c.nodes = [] ∧ c.csent = 0 ∧ c.crecv = 0 ∧ c.pts = 0 ∧
        c.entryOver = false ∧ c.exited = false ∧ ∃ k, k < partC la.part ∧ (c.slot k).st = .ready ∧ (c.slot k).pc = la.image + u64 la.entry ∧
        Map.get 0 (c.slot k).regs 0 = u32 la.fteamAsked ∧ Map.get 0 (c.slot k).regs 1 = u32 la.tcnt ∧
        Z (Map.get 0 (c.slot k).regs 2) + 2 ^ 32 * Z (Map.get 0 (c.slot k).regs 3) = la.args.toNat ∧
        Map.get 0 (c.slot k).aregs 7 = END ∧ (c.slot k).stat = 0 ∧ (c.slot k).fst = 0 ∧
        (∀ j, j < partC la.part → (c.slot j).tvec.toNat = (s.queue q).rvec.toNat / 2 * 2) ∧ ∀ j, j ≠ k → (c.slot j).task = none) ∧
      ((s.objects.map Prod.fst).Nodup → ∀ n, (∀ g, s.obj n = .group g → t.obj n = .group g) ∧
        ((∀ g, s.obj n ≠ .group g) → t.obj n = .free)) ∧
      (∀ l, l < 8 * la.fteamAsked ∨ 8 * (la.fteamAsked + la.tcnt) ≤ l → t.core l = s.core l) ∧ SameMemory s t

/-- A record is refused with its status or waits; a placed launch starts every core of its range with its registers and an empty pool, in
every partition. -/
def Obligations.Launching : Prop :=
  Sys2Proof.Part.LaunchRecords ∧ Sys2Proof.Part.LaunchPlacement

/-- R182, R215, R217: a saved launch is placed again into its range; nothing of memory changes. Where the attachment no longer accepts a
feature group of it, it ends with status 8. -/
def Sys2Proof.Part.RestorePlacement : Prop :=
  ∀ (q : Nat) (la : Launch) (s : State), s.placeable true = [(q, la)] → la.fteamAsked ≠ 0xFFFFFFFF →
    s.rangeFree la.fteamAsked la.tcnt = true → (s.queue q).sava.toNat + (0x10000 * (8 * la.tcnt + 1) + 0x200000) ≤ 2 ^ 41 →
    (s.featured la = false → Runs .restorePlacement s fun t => (t.queue q).launch = none ∧ SameMemory s t ∧ ∃ rec : List Byte,
      t.hostOut = s.hostOut ++ [.data ((((s.queue q).cpla).toNat + 32 * (la.seq % 256)) % 2 ^ 64) rec, .msix q] ∧
        leNat ((rec.drop 4).take 4) = 8) ∧
    (s.featured la = true → Runs .restorePlacement s fun t =>
      (∃ lb, (t.queue q).launch = some lb ∧ lb.phase = .placed ∧ lb.fteam = la.fteamAsked) ∧ SameMemory s t ∧
      (∀ k, k < 8 * la.tcnt → (∀ j, j < 8 * la.tcnt → imageIndex (s.savedImage (s.queue q).sava.toNat j) = j) →
        (t.core (8 * la.fteamAsked + k)).queue = some q ∧ (t.core (8 * la.fteamAsked + k)).uid = la.uid) ∧
      (∀ l, (∀ k, k < 8 * la.tcnt → l ≠ 8 * la.fteamAsked + imageIndex (s.savedImage (s.queue q).sava.toNat k)) → t.core l = s.core l))

/-- R174, R175, R176, R177: a team reports to its parent once its cores have exited and its children have reported; the root's report ends
the launch with its completion record, after every complete convergence window has gone to the queue's registers. -/
def Sys2Proof.Part.DoneMessages : Prop :=
  ∀ (q t : Nat) (la : Launch) (r : DoneRec) (s : State), s.placed q = some la → t < la.tcnt → la.teamRec t = some r →
    ((t + la.tcnt - la.root) % la.tcnt ≠ 0 → Map.get none la.teamDone ((t + la.tcnt - la.root) % la.tcnt) = none →
      Runs (.doneMessage q t) s fun u => (∃ lb, (u.queue q).launch = some lb ∧
        lb = { la with teamDone := Map.set none la.teamDone ((t + la.tcnt - la.root) % la.tcnt) (some r) }) ∧
        (∀ l, u.core l = s.core l) ∧ SameMemory s u) ∧
    ((t + la.tcnt - la.root) % la.tcnt = 0 → Map.get none la.teamDone 0 = none → la.lost = false →
      Runs (.doneMessage q t) s fun u => (∃ v lb, v = s.takeWindows q la.closed.length ∧ v.placed q = some lb ∧
          lb.window (v.queue q).lcvwin = none ∧ u.queue q = { v.queue q with launch := none }) ∧ (∀ l, (u.core l).queue ≠ some q) ∧
        SameMemory s u ∧ ∃ rec : List Byte,
          u.hostOut = s.hostOut ++ [.data ((((s.queue q).cpla).toNat + 32 * (la.seq % 256)) % 2 ^ 64) rec, .msix q] ∧
          rec = leBytes la.seq 4 ++ leBytes 0 4 ++ leBytes (r.err + r.code * 2 ^ 8) 4 ++ leBytes r.count 4 ++ leBytes r.res.toNat 4 ++
            leBytes r.cores 4 ++ leBytes la.fteam 4 ++ leBytes 0 4)

/-- R177: a complete convergence window goes to the queue's registers, and counts toward the settling run; windows are taken one after
another until none is complete. -/
def Sys2Proof.Part.ConvergenceWindows : Prop :=
  ∀ (q w : Nat) (la : Launch) (qu : Queue) (s : State) (cs : List Closed), s.placed q = some la → qu = s.queue q →
    la.window qu.lcvwin = some w → cs = la.closed.filter (fun c => c.win == w) →
    ∀ cnt run : Nat, cnt = min (cs.map (·.cnt)).sum (2 ^ 32 - 1) → (run = if cnt = 0 then min (qu.run + 1) 0xFFFF else 0) →
    Runs (.convergenceWindow q) s fun t => ∃ x, t = s.setQueue q x ∧ Z x.lcvcnt = cnt ∧ x.lcvwin = u32 w ∧
      x.lcvres = cs.foldl (fun r c => maxRes r c.res) 0 ∧ x.run = run ∧ (x.stl = true ↔ la.setw ≠ 0 ∧ la.setw ≤ run) ∧
      x.launch = some { la with closed := la.closed.filter fun c => c.win != w } ∧
      ∀ n, s.takeWindows q (n + 1) = t.takeWindows q n

/-- A saved launch is placed again; done messages combine up the tree to one completion record; closed windows go to the queue registers. -/
def Obligations.LaunchLife : Prop :=
  Sys2Proof.Part.RestorePlacement ∧ Sys2Proof.Part.DoneMessages ∧ Sys2Proof.Part.ConvergenceWindows

/-- R187: each golden epoch takes the next router, and the oldest flit that it has injected becomes golden (the map from routers to teams is
the identity, log entry 14); R186, R208: nothing else changes. A router has injected the first sixteen of its undelivered flits. -/
def Sys2Proof.Part.GoldenEpochs : Prop :=
  ∀ (s : State) (r : Nat), r = (s.goldenRouter + 1) % 131072 →
    Runs .goldenEpoch s fun t => t = { s with goldenRouter := r, goldenStamp := t.goldenStamp } ∧
      (∀ n, t.goldenStamp = some n → (∃ x ∈ s.flight, x.team = some r ∧ s.injected x = true ∧ x.stamp = n) ∧
        ∀ x ∈ s.flight, x.team = some r → s.injected x = true → n ≤ x.stamp) ∧
      ((∀ x ∈ s.flight, x.team ≠ some r) ↔ t.goldenStamp = none) ∧
      ∀ x, x.team = some r → (s.injected x = true ↔ ∃ y ∈ (s.flight.filter fun z => z.team == some r).take 16, y.stamp = x.stamp)

/-- A flit in flight is delivered, bounced with its status, dropped or held as the rows of R121 say; a bounce is logged at its sender; a
mailbox gives its oldest flit; golden epochs change only which flit is golden, with the map from routers to teams as the identity (log
entry 14). -/
def Obligations.MeshTraffic : Prop :=
  Sys2Proof.Part.FlitFates ∧ Sys2Proof.Part.BounceDelivery ∧ Sys2Proof.Part.FlitTake ∧ Sys2Proof.Part.GoldenEpochs

/-! ### Global memory (spec/11) -/

/-- R258: the walk of the four levels. An entry translates as its level's leaf, leads to the next table, or translates nothing. (A table
past 2 TiB translates nothing, log entry 18.) -/
def Sys2Proof.Part.PageWalk : Prop :=
  ∀ (s : State) (va t : Nat) (e : Nat → Nat → Nat → Nat), (∀ a, s.badAt a = false) →
    (∀ b sh n, e b sh n = leNat (s.bytesAt (b + 8 * (va / 2 ^ sh % 2 ^ n)) 8)) →
    let table (x al : Nat) : Prop := x % 256 = 1 ∧ x < 2 ^ 50 ∧ x / 256 * 256 % al = 0
    let leaf (x sz : Nat) : Prop := x % 4 = 3 ∧ x / 2 ^ 7 % 2 = 0 ∧ x / 2 ^ 5 % 4 ≠ 3 ∧ x < 2 ^ 50 ∧ x / 256 * 256 % sz = 0 ∧
      (x / 2 ^ 5 % 4 = 0 → x / 256 * 256 + sz ≤ 2 ^ 41)
    ∀ e0 e1 e2 e3 : Nat, e0 = e t 39 11 → e1 = e (e0 / 256 * 256) 30 9 → e2 = e (e1 / 256 * 256) 21 9 → e3 = e (e2 / 256 * 256) 16 5 →
    t + 2 ^ 14 ≤ 2 ^ 41 →
    (¬table e0 4096 → s.walk va levels t = .error .xlate) ∧
    (table e0 4096 → e0 + 4096 ≤ 2 ^ 41 →
      (leaf e1 (2 ^ 30) → s.walk va levels t = .ok (e1, 2 ^ 30)) ∧
      (¬leaf e1 (2 ^ 30) → ¬table e1 4096 → s.walk va levels t = .error .xlate) ∧
      (table e1 4096 → e1 + 4096 ≤ 2 ^ 41 →
        (leaf e2 (2 ^ 21) → s.walk va levels t = .ok (e2, 2 ^ 21)) ∧
        (¬leaf e2 (2 ^ 21) → ¬table e2 256 → s.walk va levels t = .error .xlate) ∧
        (table e2 256 → e2 + 256 ≤ 2 ^ 41 →
          (leaf e3 (2 ^ 16) → s.walk va levels t = .ok (e3, 2 ^ 16)) ∧
          (¬leaf e3 (2 ^ 16) → s.walk va levels t = .error .xlate))))

/-- R256, R258, R359: where an address leads, for a launch whose TLBs keep nothing: the rights and the kinds of pages; a fabric-remote
address of the own module is the global address below it. -/
def Sys2Proof.Part.AddressSpaces : Prop :=
  ∀ (s : State) (l q va : Nat) (la : Launch) (acc : Acc), (s.core l).queue = some q → (s.queue q).launch = some la → la.tlb = [] →
    let global (v : Nat) (r : Except Cause Place) : Prop := (s.resolve l v acc).2 = r
    let right (x : Nat) : Bool := x.testBit (match acc with | .rd => 2 | .wr => 3 | .fetch => 4)
    (2 ^ 50 ≤ va → va < 2 ^ 63 → s.resolve l va acc = (s, .error .xlate)) ∧
    (va < 2 ^ 50 → ∀ r, s.walk va levels la.ptroot.toNat = r →
      (∀ c, r = .error c → global va (.error c)) ∧
      ∀ x sz, r = .ok (x, sz) → ∀ a, a = x / 2 ^ 8 % 2 ^ 42 * 256 + va % sz →
        (right x = false → global va (.error .prot)) ∧
        (right x = true → (x / 2 ^ 5 % 4 = 0 → global va (.ok (.memory a))) ∧ (x / 2 ^ 5 % 4 = 1 → global va (.ok (.host a))) ∧
          (x / 2 ^ 5 % 4 = 2 → global va (.ok (.object a))))) ∧
    (2 ^ 63 ≤ va → va < 2 ^ 64 →
      (s.accepts 5 = false → global va (.error .xlate)) ∧
      (s.accepts 5 = true → va / 2 ^ 50 % 2 ^ 13 = s.dev.mnum → s.resolve l va acc = s.resolve l (va % 2 ^ 50) acc) ∧
      (s.accepts 5 = true → va / 2 ^ 50 % 2 ^ 13 ≠ s.dev.mnum → acc ≠ .fetch →
        s.resolve l va acc = (s, .ok (.far (va / 2 ^ 50 % 2 ^ 13) (va % 2 ^ 50))))) ∧
    (s.resolve l va acc).1 = { s with queues := (s.resolve l va acc).1.queues, dev := (s.resolve l va acc).1.dev }

/-- The walk of the page table and the address spaces give a place, or XLATE or PROT, as the rules say. -/
def Obligations.Translation : Prop :=
  Sys2Proof.Part.PageWalk ∧ Sys2Proof.Part.AddressSpaces

/-- R257, R258, R278, R279, R282: the checks of the global forms in their order: ALIGN, then XLATE, PROT and MEMERR of the translation
with the address as TVAL, then MEMERR of the data; `ldgt` reports all but ALIGN in its status register. -/
def Obligations.AccessChecks : Prop :=
  (∀ (i : Instr) (s u : State) (va : DWord) (n : Nat) (op : HomeOp) (c : Cause) (r : Except Cause Place), s.next ≠ END →
    i.access s = some (va, n, op) →
    let failed (k : Nat) (v : State) : Prop :=
      (i.soft = none → exec i s = trap c va v) ∧
      ∀ d m, i.soft = some (d, m) → Runs i s fun t => (∀ j, j < m → t.g (d + j) = 0) ∧ t.g (d + m) = u32 k ∧
        Went v v.me v.slot (List.range' d (m + 1)) [] s.next s t ∧ SameMemory s t
    (va.toNat % n ≠ 0 → Traps i s .align va) ∧
    (va.toNat % n = 0 → i.soft.isSome = true → s.slot.freeEntry = none → Waits i s) ∧
    (va.toNat % n = 0 → (i.soft.isSome = true → s.slot.freeEntry ≠ none) → s.resolve s.issue.lid va.toNat op.acc = (u, r) →
      (r = .error .xlate → c = .xlate → failed 2 u) ∧ (r = .error .prot → c = .prot → failed 3 u) ∧
      (r = .error .memErr → c = .memErr → failed 4 u) ∧ (∀ a, r = .ok (.object a) → c = .prot → failed 3 u) ∧
      (∀ a x y z, r = .ok (.host a) → op = .atomic x y z → exec i s = trap .prot va u) ∧
      ∀ a, r = .ok (.memory a) → u.prompt = true → c = .memErr →
        (∀ m, op = .load m → u.badIn a m = true → failed 4 u.report) ∧
        (∀ b, op = .store b → u.badPart a b.length = true → failed 4 u.report) ∧
        ∀ x m b, op = .atomic x m b → u.badPart a m = true → failed 4 u.report)) ∧
  ∀ (z d n : Nat) (imm : Int) (s u : State) (va : DWord), va = w64 ((s.a n).toNat + imm) →
    (va.toNat % 2 ^ z ≠ 0 → Traps (.stgn z d n imm) s .align va) ∧
    (va.toNat % 2 ^ z = 0 → ∀ c, s.resolve s.issue.lid va.toNat .wr = (u, .error c) → exec (.stgn z d n imm) s = trap c va u) ∧
    (va.toNat % 128 ≠ 0 ∨ Z (s.g d) % 128 ≠ 0 → Traps (.discard d n imm) s .align va)

/-- R261, R264, R268, R269, R278, R279: a load of module memory that completes in its step, where no rebase must come first. -/
def Obligations.GlobalLoads : Prop :=
  ∀ (z d n : Nat) (imm : Int) (s u : State) (va : DWord) (pa : Nat), s.next ≠ END → u.prompt = true →
    va = w64 ((s.a n).toNat + imm) → Fits u (u.me.pts + u.leaseOf s.issue.lid) →
    (z < 3 → Reaches (.ldg z d n imm) s u va pa (2 ^ z) → u.badIn pa (2 ^ z) = false →
      Runs (.ldg z d n imm) s fun t => Loaded u pa (2 ^ z) [d] (fun v => Z (t.g d) = v) s t) ∧
    (Reaches (.ldg 3 d n imm) s u va pa 8 → u.badIn pa 8 = false →
      Runs (.ldg 3 d n imm) s fun t => Loaded u pa 8 [d, d + 1] (fun v => Z (t.g d) + 2 ^ 32 * Z (t.g (d + 1)) = v) s t) ∧
    (z < 2 → Reaches (.ldgBS z d n imm) s u va pa (2 ^ z) → u.badIn pa (2 ^ z) = false →
      Runs (.ldgBS z d n imm) s fun t => Loaded u pa (2 ^ z) [d] (fun v => S (t.g d) = (BitVec.ofNat (8 * 2 ^ z) v).toInt) s t) ∧
    (Reaches (.ldgtW d n imm) s u va pa 4 → u.badIn pa 4 = false →
      Runs (.ldgtW d n imm) s fun t => t.g (d + 1) = 0 ∧ Loaded u pa 4 [d, d + 1] (fun v => Z (t.g d) = v) s t) ∧
    (Reaches (.ldgtD d n imm) s u va pa 8 → u.badIn pa 8 = false →
      Runs (.ldgtD d n imm) s fun t => t.g (d + 2) = 0 ∧
        Loaded u pa 8 [d, d + 1, d + 2] (fun v => Z (t.g d) + 2 ^ 32 * Z (t.g (d + 1)) = v) s t) ∧
    (∀ (pb m w ln : Nat), pb / 128 = ln → (pb + m - 1) / 128 = ln → w = (u.line ln).wts → u.verBytes w pb m = u.bytesAt pb m) ∧
    (∀ (sb ys zs : List SbEntry) (x : SbEntry) (pb b j : Nat) (bs : List Byte), sb = ys ++ x :: zs → x.place = .memory b →
      b ≤ pb + j → pb + j < b + x.data.length → j < bs.length →
      (∀ y ∈ zs, ∀ c, y.place = .memory c → pb + j < c ∨ c + y.data.length ≤ pb + j) →
      (overlay sb (.memory pb) bs)[j]? = x.data[pb + j - b]?) ∧
    ∀ (l ln : Nat) (w : State), w = u.setCore l { u.core l with l1 := [] } → (∀ e ∈ u.teams, e.2.l2 = []) →
      Fits u ((u.core l).pts + u.leaseOf l) →
      (w.readLine l ln).2 = (u.line ln).wts ∧
        ((w.readLine l ln).1.line ln).rts = max (u.line ln).rts (max (u.core l).pts u.base + u.leaseOf l)

/-- R262, R264, R268, R277, R278, R282: stores and atomics of module memory that complete in their step, where no rebase must come
first. An atomic takes its old value from the home, whatever the streaming buffer of its context holds (DEDUCED, log entry 20). -/
def Obligations.StoresAndAtomics : Prop :=
  ∀ (i : Instr) (s u : State) (va : DWord) (pa n : Nat), s.next ≠ END → s.issue.slot < 4 → u.prompt = true → Reaches i s u va pa n →
    u.badPart pa n = false → Fits u (max u.me.pts ((u.line (pa / 128)).rts + 1)) →
    (∀ z d a imm, i = .stg z d a imm → z ≤ 3 → Runs i s
      (StoredAt u pa n (fun j => if j < 4 then byteOf (s.g d) j else byteOf (s.g (d + 1)) (j - 4)) u.slot [] s)) ∧
    ∀ op w d a imm r old fl, (i, op) ∈ [(Instr.amadd w d a imm, AtOp.add), (.amand w d a imm, .and), (.amor w d a imm, .or),
        (.amxor w d a imm, .xor), (.ammin w d a imm, .min), (.ammax w d a imm, .max), (.amminz w d a imm, .minz),
        (.ammaxz w d a imm, .maxz), (.amswp w d a imm, .swp), (.amcas w d a imm, .cas)] ∨
        i = .amfadd d a imm ∧ op = .fadd ∧ w = false →
      r = (if op = .cas ∧ w = true then 4 * d else d) → old = leNat (u.bytesAt pa n) →
      fl = (if op = .fadd then (fAdd .ne (u32 old) (s.g d)).2 else 0) →
      let val (k : Nat) : Nat := if w then Z (s.g k) + 2 ^ 32 * Z (s.g (k + 1)) else Z (s.g k)
      ∀ new, AtomicNew op n old (val r) (val (if w then r + 2 else r + 1)) new → new < 2 ^ (8 * n) →
      Runs i s fun t => StoredAt u pa n (fun j => BitVec.ofNat 8 (new / 256 ^ j)) { u.slot with fst := u.slot.fst ||| u32 (fl % 32) }
          (if w then [r, r + 1] else [r]) s t ∧
        Z (t.g r) = old % 2 ^ 32 ∧ (w = true → Z (t.g (r + 1)) = old / 2 ^ 32)

/-- R268, R269, R273, R277: a streaming store enters the buffer and completes at once, or waits while the buffer is full; an entry drains as
a store with its own clock, or is dropped and kept for a fence where it meets an error. -/
def Sys2Proof.Part.StreamingStores : Prop :=
  (∀ (z d n : Nat) (imm : Int) (s u : State) (va : DWord) (p : Place), s.next ≠ END → va = w64 ((s.a n).toNat + imm) → z ≤ 3 →
    va.toNat % 2 ^ z = 0 → s.resolve s.issue.lid va.toNat .wr = (u, .ok p) → (∀ a, p ≠ .object a) →
    (s.slot.sbuf.length < 8 → Runs (.stgn z d n imm) s fun t => SameMemory s t ∧ ∃ e, e.place = p ∧ e.va = va ∧ e.clock = s.me.pts ∧
      e.entry = none ∧ e.data.length = 2 ^ z ∧
      (∀ j, j < 2 ^ z → e.data.getD j 0 = if j < 4 then byteOf (s.g d) j else byteOf (s.g (d + 1)) (j - 4)) ∧
      Went u u.me { u.slot with sbuf := u.slot.sbuf ++ [e] } [] [] s.next s t) ∧
    (8 ≤ s.slot.sbuf.length → ∃ t, exec (.stgn z d n imm) s = .next t ∧ (∃ w, t.slot.wait = some w ∧ w.instr = .stgn z d n imm) ∧
      t.slot.pc = s.issue.start ∧ t.slot.regs = s.slot.regs ∧ t.slot.sbuf = s.slot.sbuf ∧ SameMemory s t)) ∧
  ∀ (l k i : Nat) (s : State) (x : Slot) (e : SbEntry), x = s.slotAt l k → x.sbuf[i]? = some e → e.entry = none →
    (∀ f ∈ x.sbuf.take i, f.overlaps e = false) →
    (∀ pa, e.place = .memory pa →
      (s.badPart pa e.data.length = false → Fits s (max e.clock ((s.line (pa / 128)).rts + 1)) →
        Runs (.streamingDrain l k i) s fun t => ∃ w, w = max e.clock ((s.line (pa / 128)).rts + 1) ∧
        (∀ a, t.byte a = if pa ≤ a ∧ a < pa + e.data.length then e.data.getD (a - pa) 0 else s.byte a) ∧
        (t.line (pa / 128)).wts = w ∧ (t.line (pa / 128)).rts = w ∧ (t.core l).pts = (s.core l).pts ∧
        (∃ fc, t.slotAt l k = { x with sbuf := x.sbuf.eraseIdx i, fclock := fc } ∧ w ≤ Map.get 0 fc 4 ∧
          ∀ lv, lv ≠ 4 → Map.get 0 fc lv = Map.get 0 x.fclock lv) ∧
        SameCores l s t ∧ OnlySlots (s.core l) (t.core l) ∧ SameSlots k (s.core l) (t.core l)) ∧
      (s.badPart pa e.data.length = true → Runs (.streamingDrain l k i) s fun t =>
        OnlyContextAt l k { x with sbuf := x.sbuf.eraseIdx i, sfail := x.sfail ++ [⟨4, 0x07, e.va⟩] } { s with dev := t.dev } t)) ∧
    (∀ a, e.place = .host a → Runs (.streamingDrain l k i) s fun t => t.hostOut = s.hostOut ++ [.data a e.data] ∧
      OnlyContextAt l k { x with sbuf := x.sbuf.eraseIdx i } { s with hostOut := t.hostOut } t)

/-- R267, R268, R273, R280, R281: fences and clocks. A fence that reports a failure drops the others it covers (log entry 36), and `pref`
changes nothing (log entry 11): both DEDUCED. `renew` raises no clock and changes no byte, of a line of another module either (log entry
50). A timestamp that does not fit rebases first. -/
def Sys2Proof.Part.FencesAndClocks : Prop :=
  (∀ (c : Nat) (s : State), s.next ≠ END →
    (s.fenceBusy c = true → Waits (.fence c) s) ∧
    (s.fenceBusy c = false → (∀ f ∈ s.slot.sfail, c < f.level) → Runs (.fence c) s fun t => ∃ p, s.me.pts ≤ p ∧
      (∀ lv, lv ≤ c → Map.get 0 s.slot.fclock lv ≤ p) ∧ (c < 4 → p = s.me.pts ∨ ∃ x ∈ s.slot.fclock, x.1 ≤ c ∧ x.2 = p) ∧
      (4 ≤ c → ∀ x ∈ s.me.xfers, x.slot = s.issue.slot → x.stored ≤ p) ∧
      Went s { s.me with pts := p } s.slot [] [] s.next s t ∧ SameMemory s t) ∧
    ∀ ys zs f, s.fenceBusy c = false → s.slot.sfail = ys ++ f :: zs → (∀ g ∈ ys, c < g.level) → f.level ≤ c → f.cause ∈ [5, 6, 7, 8] →
      statInh s.slot.stat = 0 → s.issue.slot < 4 → Runs (.fence c) s fun t => ∃ x y, Entered x y (u32 f.cause) f.va s.issue.start ∧
        x = { s.slot with sfail := s.slot.sfail.filter fun g => c < g.level } ∧ OnlyContextAt s.issue.lid s.issue.slot y s t) ∧
  (∀ (n d a : Nat) (imm : Int) (s : State), s.next ≠ END →
    (Runs (.tick n) s fun t => Went s { s.me with pts := s.me.pts + n } s.slot [] [] s.next s t ∧ SameMemory s t) ∧
    (Runs (.clkj d) s fun t => ∃ p, p = max s.me.pts (s.base + Z (s.g d)) ∧ Z (t.g d) = min (p - s.base) (2 ^ 32 - 1) ∧
      Went s { s.me with pts := p } s.slot [d] [] s.next s t ∧ SameMemory s t) ∧
    Runs (.pref a imm) s (Completed [] [] s.next s) ∧
    (Fits s (s.me.pts + s.leaseOf s.issue.lid) → Runs (.renew a imm) s fun t => t.me.pts = s.me.pts ∧ SameMemory s t ∧ SameRegisters [] [] s t ∧ SameCores s.issue.lid s t ∧
      AtPc s.next s t)) ∧
  (∀ (l : Nat) (s : State), (s.core l).queue ≠ none → (s.core l).exited = false → (s.core l).swapped = false →
    Runs (.idleClockAdvance l) s fun t => t = s.setCore l { s.core l with pts := (s.core l).pts + 1 }) ∧
  (∀ (s : State) (t : Nat), (Fits s t → s.roomFor t = s) ∧
    (¬Fits s t → t ≤ (s.roomFor t).base + 2 ^ 31 ∧ s.base ≤ (s.roomFor t).base ∧ (s.roomFor t).mem = s.mem)) ∧
  ∀ (s : State) (m : Nat), m = s.maxOffset →
    (m ≤ 2 ^ 31 → exec .rebase s = .next s) ∧
    (2 ^ 31 < m → Runs .rebase s fun t => ∃ k, t.base = s.base + k * 2 ^ 30 ∧ m < k * 2 ^ 30 + 2 ^ 31 + 1 ∧
      k * 2 ^ 30 + 2 ^ 31 < m + 2 ^ 30 ∧ SameMemory s t ∧ Z t.dev.rbc = min (Z s.dev.rbc + 1) (2 ^ 32 - 1) ∧
      ∀ l, (t.core l).slots = (s.core l).slots ∧ (t.core l).pool = (s.core l).pool ∧
        ((s.core l).queue ≠ none → (t.core l).pts = max (s.core l).pts t.base))

/-- stgn enters the buffer and drains as a store; a fence waits, reports a failure or raises the clock, dropping the other failures it covers
(log entry 36); pref changes nothing (log entry 11); tick, clkj, idle clocks and rebases move clocks. -/
def Obligations.StreamingAndFences : Prop :=
  Sys2Proof.Part.StreamingStores ∧ Sys2Proof.Part.FencesAndClocks

/-- R276, R280: `discard` of a checked range acts on each line; every line then reads as before or as zeros, whole, and keeps no older
version; entries of the context's streaming buffer in the range are dropped. Where the home acts later, it acts on the lines in address
order: each is requested, and one whose predecessors are unanswered waits. -/
def Sys2Proof.Part.Discard : Prop :=
  ∀ (d n : Nat) (imm : Int) (s u : State) (va : DWord) (ls : List Nat), s.next ≠ END → va = w64 ((s.a n).toNat + imm) →
    va.toNat % 128 = 0 → Z (s.g d) % 128 = 0 →
    (Z (s.g d) = 0 → Runs (.discard d n imm) s (Completed [] [] s.next s)) ∧
    (Z (s.g d) ≠ 0 → s.discardPlan va va.toNat (Z (s.g d) / 128) = (u, .ok ls) → u.prompt = true →
      (∀ pa ∈ ls, pa % 128 = 0) →
      Runs (.discard d n imm) s fun t =>
        (∀ pa ∈ ls, (∀ a, pa ≤ a → a < pa + 128 → t.byte a = s.byte a) ∨
          ∀ a, pa ≤ a → a < pa + 128 → t.byte a = 0) ∧
        (∀ a, (∀ pa ∈ ls, a < pa ∨ pa + 128 ≤ a) → t.byte a = s.byte a) ∧
        t.slot.sbuf = s.slot.sbuf.filter (fun e => !e.within ls) ∧ (∀ pa ∈ ls, (u.line (pa / 128)).rts < (t.line (pa / 128)).rts ∧ (t.line (pa / 128)).older = []) ∧
        SameRegisters [] [] s t ∧ AtPc s.next s t ∧ s.me.pts ≤ t.me.pts) ∧
    (Z (s.g d) ≠ 0 → s.discardPlan va va.toNat (Z (s.g d) / 128) = (u, .ok ls) → u.prompt = false →
      Runs (.discard d n imm) s fun t => (∃ qs : List HomeReq, t.reqs = s.reqs ++ qs ∧ qs.map (·.pa) = ls ∧
          ∀ q ∈ qs, q.op = .discard ∧ q.lid = s.issue.lid ∧ q.slot = s.issue.slot ∧ q.answer = none ∧
            ∃ w, t.slot.wait = some w ∧ w.instr = .discard d n imm ∧ w.keep = true ∧ w.since = q.since) ∧ SameMemory s t) ∧
    (∀ (id : Nat) (v : State) (ys zs : List HomeReq) (q x : HomeReq), v.reqOf id = some q → q.op = .discard → v.reqs = ys ++ q :: zs →
      q ∉ ys → x ∈ ys → x.op = .discard → x.lid = q.lid → x.slot = q.slot → x.since = q.since → x.answer = none →
      exec (.homeStore id) v = .next v) ∧
    ∀ c v, Z (s.g d) ≠ 0 → s.discardPlan va va.toNat (Z (s.g d) / 128) = (u, .error (c, v)) →
      exec (.discard d n imm) s = trap c v u ∧ u.mem = s.mem ∧ u.lines = s.lines

/-- R264: an access that its home has not performed yet waits, its request under way; the home performs it in one action and answers; the
answer completes the instruction with the access's registers and clock. Of a load that a notice has abandoned the home makes only the
lease extension. -/
def Sys2Proof.Part.HomeRequests : Prop :=
  (∀ (i : Instr) (s u : State) (va : DWord) (pa n : Nat) (op : HomeOp), Reaches i s u va pa n → i.access s = some (va, n, op) →
    u.prompt = false → i.soft = none → Runs i s fun t => SameMemory s t ∧ SameCores s.issue.lid s t ∧
      (∃ q : HomeReq, t.reqs = s.reqs ++ [q] ∧ q.lid = s.issue.lid ∧ q.slot = s.issue.slot ∧ q.pa = pa ∧ q.op = op ∧ q.clock = s.me.pts ∧
        q.answer = none ∧ q.entry = 16) ∧
      ∃ w, t.slot = { s.slot with wait := some w, pc := s.issue.start } ∧ w.instr = i ∧ w.start = s.issue.start ∧ w.poll = false ∧
        w.sbuf = s.slot.sbuf) ∧
  (∀ (id : Nat) (s : State) (q : HomeReq), s.reqOf id = some q →
    let answered (i : Instr) (st : Nat) (bs : List Byte) : Prop := Runs i s fun t => ∃ c,
      (∃ x ∈ t.reqs, x = { q with answer := some ⟨q.lid, q.slot, q.entry, q.serial, st, bs, c⟩ }) ∧
      (∀ l k, t.slotAt l k = s.slotAt l k) ∧ (q.op.stores = false ∨ st ≠ 0 → SameMemory s t)
    (∀ n, q.op = .load n → Fits s (max (s.core q.lid).pts q.clock + s.leaseOf q.lid) →
      (∃ w, (s.slotAt q.lid q.slot).wait = some w ∧ w.poll = false ∧ w.since = q.since) →
      if s.badIn q.pa n then answered (.homeLoad id) 4 []
      else ∃ w, (w = (s.line (q.pa / 128)).wts ∨ ∃ c ∈ (s.raise q.lid q.clock).staleCopies q.lid (q.pa / 128), c.wts = w) ∧
        answered (.homeLoad id) 0 (s.verBytes w q.pa n)) ∧
    (∀ n, q.op = .load n → (s.slotAt q.lid q.slot).wait = none → answered (.homeLoad id) 0 [] ∧ Runs (.homeLoad id) s fun t =>
      Fits s (q.clock + s.leaseOf q.lid) → s.base ≤ q.clock →
        (t.line (q.pa / 128)).rts = max (s.line (q.pa / 128)).rts (q.clock + s.leaseOf q.lid) ∧ ∀ l, t.core l = s.core l) ∧
    (∀ b, q.op = .store b → if s.badPart q.pa b.length then answered (.homeStore id) 4 []
      else answered (.homeStore id) 0 [] ∧ Runs (.homeStore id) s fun t => ∀ a,
        t.byte a = if q.pa ≤ a ∧ a < q.pa + b.length then b.getD (a - q.pa) 0 else s.byte a) ∧
    ∀ op n b, q.op = .atomic op n b → if s.badPart q.pa n then answered (.homeAtomic id) 4 []
      else answered (.homeAtomic id) 0 (s.bytesAt q.pa n) ∧ Runs (.homeAtomic id) s fun t => ∀ a,
        t.byte a = if q.pa ≤ a ∧ a < q.pa + n then (atBytes op n (leNat (s.bytesAt q.pa n)) b).getD (a - q.pa) 0 else s.byte a) ∧
  ∀ (r : Reply) (s : State) (ys zs : List HomeReq) (q : HomeReq) (w : Wait) (z d n : Nat) (imm : Int), s.reqs = ys ++ q :: zs →
    q.answer = some r → (∀ x ∈ ys, x.answer ≠ some r) → r.entry = 16 → q.op ≠ .discard → r.core = q.lid → r.slot = q.slot →
    (s.slotAt r.core r.slot).wait = some w → w.poll = false → w.since = q.since → w.sbuf = [] → w.start + u64 w.length ≠ END →
    r.slot < 4 →
    let went (t : State) (ds : List Nat) : Prop := t.reqs = s.reqs.erase q ∧ (t.core r.core).pts = max (s.core r.core).pts r.clock ∧
      (t.slotAt r.core r.slot).pc = w.start + u64 w.length ∧ (t.slotAt r.core r.slot).wait = none ∧
      (∀ k, k ∉ ds → Map.get 0 (t.slotAt r.core r.slot).regs k = Map.get 0 (s.slotAt r.core r.slot).regs k) ∧
      SameCores r.core s t ∧ SameMemory s t
    (r.status = 0 →
      (w.instr = .ldg z d n imm → z < 3 → r.data.length = 2 ^ z → Runs (.memoryReply r) s fun t => went t [d] ∧
        Z (Map.get 0 (t.slotAt r.core r.slot).regs d) = leNat r.data) ∧
      (w.instr = .stg z d n imm → Runs (.memoryReply r) s fun t => went t []) ∧
      ∀ op x, w.instr.atomic = some (op, false, x, n, imm) → op ≠ .fadd → r.data.length = 4 → Runs (.memoryReply r) s fun t => went t [x] ∧
        Z (Map.get 0 (t.slotAt r.core r.slot).regs x) = leNat r.data) ∧
    (r.status = 4 → w.instr = .ldg z d n imm ∨ w.instr = .stg z d n imm → statInh (s.slotAt r.core r.slot).stat = 0 →
      Runs (.memoryReply r) s fun t => (t.slotAt r.core r.slot).tcause = 0x07#32 ∧ (t.slotAt r.core r.slot).tepc = w.start ∧
        (t.slotAt r.core r.slot).tval = w64 ((Map.get 0 (s.slotAt r.core r.slot).aregs n).toNat + imm) ∧ SameMemory s t)

/-- R260, R360: host memory. A load waits for the host's completion, which writes its register and changes no clock; an error or a late
completion traps MEMERR; a store is one posted write, for which its `stg` waits until it leaves. -/
def Sys2Proof.Part.HostMemory : Prop :=
  (∀ (z d n : Nat) (imm : Int) (s u : State) (va : DWord) (a : Nat), s.next ≠ END → va = w64 ((s.a n).toNat + imm) →
    va.toNat % 2 ^ z = 0 → z ≤ 3 →
    (s.resolve s.issue.lid va.toNat .rd = (u, .ok (.host a)) → Runs (.ldg z d n imm) s fun t => ∃ h w,
      t.hostLoads = s.hostLoads ++ [h] ∧ h.lid = s.issue.lid ∧ h.slot = s.issue.slot ∧ h.addr = a ∧ h.n = 2 ^ z ∧ h.entry = none ∧
      t.slot.wait = some w ∧ w.instr = .ldg z d n imm ∧ w.poll = false ∧ w.since = h.since ∧ SameMemory s t ∧ t.me.pts = s.me.pts) ∧
    (s.resolve s.issue.lid va.toNat .wr = (u, .ok (.host a)) →
      ∀ b : List Byte, b.length = 2 ^ z →
        (∀ j, j < 2 ^ z → b.getD j 0 = if j < 4 then byteOf (s.g d) j else byteOf (s.g (d + 1)) (j - 4)) →
      (u.prompt = true → Runs (.stg z d n imm) s fun t => t.hostOut = s.hostOut ++ [.data a b] ∧
        Went { u with hostOut := t.hostOut } u.me u.slot [] [] s.next s t ∧ SameMemory s t) ∧
      (u.prompt = false → Runs (.stg z d n imm) s fun t => t.posted = s.posted ++ [⟨s.issue.lid, s.issue.slot, a, b⟩] ∧
        (∃ w, t.slot.wait = some w ∧ w.instr = .stg z d n imm) ∧ t.hostOut = s.hostOut))) ∧
  (∀ (l k : Nat) (s : State) (w : Wait) (d n : Nat) (imm : Int) (ys zs : List HostLoad) (h : HostLoad) (bs : List Byte), k < 4 →
    s.hostLoads = ys ++ h :: zs → (∀ x ∈ ys, x.lid ≠ l ∨ x.slot ≠ k) → h.lid = l → h.slot = k → h.entry = none →
    (s.slotAt l k).wait = some w → w.instr = .ldg 2 d n imm → w.poll = false → w.since = h.since → w.sbuf = [] →
    w.start + u64 w.length ≠ END → bs.length = 4 →
    let failed (i : Instr) : Prop := Runs i s fun t => (t.slotAt l k).tcause = 0x07#32 ∧
      (t.slotAt l k).tepc = w.start ∧ (t.slotAt l k).tval = w64 ((Map.get 0 (s.slotAt l k).aregs n).toNat + imm) ∧
      (t.slotAt l k).pc = (s.slotAt l k).tvec ∧ t.hostLoads = s.hostLoads.erase h ∧ SameCores l s t ∧ SameMemory s t
    (Runs (.hostLoadCompletion l k (some bs)) s fun t => t.hostLoads = s.hostLoads.erase h ∧
      Z (Map.get 0 (t.slotAt l k).regs d) = leNat bs ∧ (t.slotAt l k).pc = w.start + u64 w.length ∧
      (∀ r, r ≠ d → Map.get 0 (t.slotAt l k).regs r = Map.get 0 (s.slotAt l k).regs r) ∧ (t.core l).pts = (s.core l).pts ∧
      SameCores l s t ∧ SameMemory s t) ∧
    (statInh (s.slotAt l k).stat = 0 → failed (.hostReadTimeout l k) ∧ failed (.hostLoadCompletion l k none))) ∧
  ∀ (l k : Nat) (s : State) (w : Wait) (z d n : Nat) (imm : Int) (ys zs : List Posted) (p : Posted), k < 4 →
    s.posted = ys ++ p :: zs → (∀ x ∈ ys, x.lid ≠ l ∨ x.slot ≠ k) → p.lid = l → p.slot = k → (s.slotAt l k).wait = some w →
    w.instr = .stg z d n imm → w.start + u64 w.length ≠ END →
    Runs (.postedWrite l k) s fun t => t.hostOut = s.hostOut ++ [.data p.addr p.data] ∧ t.posted = ys ++ zs ∧
      (t.slotAt l k).pc = w.start + u64 w.length ∧ (t.slotAt l k).wait = none ∧ (t.slotAt l k).regs = (s.slotAt l k).regs ∧
      (t.core l).pts = (s.core l).pts ∧ SameCores l s t ∧ SameMemory s t

/-- An access that is not performed at once waits with its request under way; the home or the host answers, and the answer completes it. -/
def Obligations.HomesAndHost : Prop :=
  Sys2Proof.Part.HomeRequests ∧ Sys2Proof.Part.HostMemory

/-- R270, R271, R282: a remote pool atomic checks its offset at the issuing core and sends its request; the owner queues it and performs it
in one action, which sets the full bits of its words; its reply writes the old value and raises the clock. The layout of the request and
of its reply is log entry 14 (PRESUMED). -/
def Sys2Proof.Part.RemoteAtomics : Prop :=
  (∀ (w : Bool) (d n r : Nat) (imm : Int) (s : State) (i : Instr) (o : Int) (c sz : Nat) (op : AtOp) (code : Nat),
    (i, op, code) ∈ [(Instr.amaddRemote w d n r imm, AtOp.add, 0x0A), (.amandRemote w d n r imm, .and, 0x0B),
      (.amorRemote w d n r imm, .or, 0x0C), (.amxorRemote w d n r imm, .xor, 0x0D), (.amminRemote w d n r imm, .min, 0x0E),
      (.ammaxRemote w d n r imm, .max, 0x0F), (.amminzRemote w d n r imm, .minz, 0x10), (.ammaxzRemote w d n r imm, .maxz, 0x11),
      (.amswpRemote w d n r imm, .swp, 0x12), (.amcasRemote w d n r imm, .cas, 0x13)] ∨
      i = .amfaddRemote d n r imm ∧ op = .fadd ∧ code = 0x14 ∧ w = false →
    o = (Z (s.g n) : Int) + imm → c = Z (s.g r) % 2 ^ 20 → sz = (if w then 8 else 4) →
    let val : DWord := u64 (c * 2 ^ 32 + (o % 2 ^ 32).toNat)
    if o % sz ≠ 0 then Traps i s .align val
    else if o < 0 ∨ 0x6000 < o + sz ∨ o < hndEnd s.me.part then Traps i s .poolRange val
    else
      ((∀ e, e < 16 → Map.get none s.slot.entries e ≠ none) → Waits i s) ∧
      ∀ e, FreeEntry s.slot e →
        (¬PortFree s s.issue.lid true → Waits i s) ∧
        (PortFree s s.issue.lid true → Runs i s fun t => SameCores s.issue.lid s t ∧ SameMemory s t ∧ t.me.csent = s.me.csent + 1 ∧
          (∃ x, t.flight = s.flight ++ [x] ∧ x.tag = s.issue.slot * 16 + e ∧
            x.flit = flitOf s .system c (statPri s.slot.stat) (0x400 + code) x.flit.w0 x.flit.w1 x.flit.w2 x.flit.w3 x.flit.w4 ∧
            (poolRequest x.flit).1 = op ∧ (poolRequest x.flit).2.1 = w ∧ ((poolRequest x.flit).2.2.1 : Int) = o) ∧
          (∃ en, Map.get none t.slot.entries e = some en ∧ en.use = .poolAtomic c o.toNat) ∧
          ∃ x, t.slot.wait = some x ∧ x.instr = i ∧ x.keep = true)) ∧
  (∀ (x : InFlight) (s : State) (c : Core), Arrives x s c .system 0 → x.flit.ksf / 256 = 4 →
    if 64 ≤ c.runq.length then Runs (.remoteAtomicRequest x.flit) s (Bounced x 6 0 0 s)
    else Runs (.remoteAtomicRequest x.flit) s fun t => ∃ e, e.kind = .atomic ∧ e.level = x.flit.pri ∧ e.flit = some x.flit ∧
      e.tag = x.tag ∧ Landed x { c with crecv := c.crecv + 1, runq := c.runq ++ [e] } s t) ∧
  (∀ (l : Nat) (s : State) (c : Core) (e : QEntry) (f : Flit) (op : AtOp) (w : Bool) (o : Nat) (bs : List Byte), c = s.core l →
    c.open_ = true → c.pts - s.base < 2 ^ 32 → pickEntry QEntry.isClause c.runq = some e → e.kind = .atomic → e.flit = some f → poolRequest f = (op, w, o, bs) →
    Runs (.remoteAtomicExecute l) s fun t => ∃ (d : Core) (y : InFlight), PoolAtomicDone op (if w then 8 else 4) o bs c d ∧
      (t.core l).pool = d.pool ∧ (t.core l).full = d.full ∧ (t.core l).pts = max c.pts (s.base + Z f.low) ∧
      t.flight = s.flight ++ [y] ∧ y.flit.kind = .reply ∧ y.flit.dst = f.src ∧ y.flit.low = u32 ((t.core l).pts - s.base) ∧ y.tag = e.tag ∧
      y.serial = e.serial ∧
      y.flit.w0 = u32 (leNat (Map.getList 0 c.pool o (if w then 8 else 4))) ∧
      y.flit.w1 = u32 (leNat (Map.getList 0 c.pool o (if w then 8 else 4)) / 2 ^ 32) ∧ SameCores l s t ∧ SameMemory s t) ∧
  ∀ (x : InFlight) (s : State) (f : Flit) (k e : Nat) (y : Slot) (en : Entry), f = x.flit → s.inFlight f = some x → f.kind = .reply →
    (∀ q, s.fate f.dst x.uid ≠ .spill q) → Clocked s → x.tag = 16 * k + e → e < 16 → k < 4 → y = s.slotAt f.dst k → Map.get none y.entries e = some en → en.serial = x.serial →
    (∀ a o v op d, en.use = .poolAtomic a o → y.wait = some v → v.instr.poolAtomic = some (op, false, d) → op ≠ .fadd →
      v.start + u64 v.length ≠ END → Runs (.remoteAtomicReply f) s fun t => Freed s x t.flight ∧
        Map.get 0 (t.slotAt f.dst k).regs d = f.w0 ∧ (∀ r, r ≠ d → Map.get 0 (t.slotAt f.dst k).regs r = Map.get 0 y.regs r) ∧
        (t.slotAt f.dst k).pc = v.start + u64 v.length ∧ Map.get none (t.slotAt f.dst k).entries e = none ∧
        (t.core f.dst).pts = max (s.core f.dst).pts (s.base + Z f.low) ∧ SameCores f.dst s t ∧ SameMemory s t) ∧
    (∀ a, en.use = .clause a → Runs (.clauseAck f) s fun t => Freed s x t.flight ∧
      Map.get none (t.slotAt f.dst k).entries e = none ∧ (t.core f.dst).pts = max (s.core f.dst).pts (s.base + Z f.low) ∧
      (t.slotAt f.dst k).regs = y.regs ∧ (t.slotAt f.dst k).wait = y.wait ∧ s.base + Z f.low ≤ Map.get 0 (t.slotAt f.dst k).fclock en.level ∧
      SameCores f.dst s t ∧ SameMemory s t)

/-- R272, R279: a request whose deadline passes: a load of another module traps REMOTE with its address, or gives status 1 to `ldgt`; a
pool atomic traps REMOTE with status 0 in TVAL, a clause settles, a streaming store is kept for a fence. The entry of an abandoned load is
freed, but one of this module or of the host, which has no deadline, waits for its reply. -/
def Sys2Proof.Part.RequestDeadlines : Prop :=
  ∀ (l k e : Nat) (s : State) (x : Slot) (en : Entry), k < 4 → e < 16 → x = s.slotAt l k → Map.get none x.entries e = some en →
    let freed : Map (Option Entry) := Map.set none x.entries e none
    (∀ p w z d n imm va, en.use = .access p → x.wait = some w → w.instr = .ldg z d n imm →
      va = w64 ((Map.get 0 x.aregs n).toNat + imm) → 2 ^ 63 ≤ va.toNat → va.toNat / 2 ^ 50 % 2 ^ 13 ≠ s.dev.mnum → statInh x.stat = 0 →
      Runs (.remoteDeadline l k e) s fun t => ∃ y, Entered { x with entries := freed } y 0x08 va w.start ∧ OnlyContextAt l k y s t) ∧
    (∀ p w d n imm va, en.use = .load p → x.wait = some w → w.instr = .ldgtW d n imm →
      va = w64 ((Map.get 0 x.aregs n).toNat + imm) → 2 ^ 63 ≤ va.toNat → va.toNat / 2 ^ 50 % 2 ^ 13 ≠ s.dev.mnum →
      w.start + u64 w.length ≠ END → Runs (.remoteDeadline l k e) s fun t => Map.get 0 (t.slotAt l k).regs d = 0 ∧
        Map.get 0 (t.slotAt l k).regs (d + 1) = 1 ∧ (t.slotAt l k).entries = freed ∧ (t.slotAt l k).pc = w.start + u64 w.length ∧
        SameCores l s t ∧ SameMemory s t) ∧
    (∀ c o w, en.use = .poolAtomic c o → x.wait = some w → statInh x.stat = 0 → Runs (.remoteDeadline l k e) s fun t => ∃ y,
      Entered { x with entries := freed } y 0x08 (u64 (c * 2 ^ 32 + o)) w.start ∧ OnlyContextAt l k y s t) ∧
    (∀ c, en.use = .clause c → Runs (.remoteDeadline l k e) s fun t => ∃ fc, OnlyContextAt l k { x with entries := freed, fclock := fc } s t ∧
      ∀ lv, Map.get 0 fc lv = Map.get 0 x.fclock lv) ∧
    (∀ p va, en.use = .stream p va → Runs (.remoteDeadline l k e) s (OnlyContextAt l k { x with
      entries := freed, sbuf := x.sbuf.filter (fun b => b.entry ≠ some e), sfail := x.sfail ++ [⟨en.level, 0x08, va⟩] } s)) ∧
    (en.use = .abandoned → if 5 ≤ en.level then Runs (.remoteDeadline l k e) s (OnlyContextAt l k { x with entries := freed } s)
      else exec (.remoteDeadline l k e) s = .next s)

/-- A remote pool atomic checks, sends its request and waits; its owner performs it in one action and sets the full bits; the reply completes
it (the layout of the request and its tag are log entry 14). A request entry whose deadline passes is freed and reported as its form says. -/
def Obligations.PoolAtomicsAndDeadlines : Prop :=
  Sys2Proof.Part.RemoteAtomics ∧ Sys2Proof.Part.RequestDeadlines

/-- R277, R354: a corrected bit error is counted and changes no byte; an uncorrectable one in memory leaves its sector in error. -/
def Sys2Proof.Part.BitErrors : Prop :=
  ∀ (p : ErrPlace) (n : Nat) (s : State), p ≠ .link →
    (Runs (.softError p n true) s fun t => Z t.dev.serr = min (Z s.dev.serr + 1) (2 ^ 32 - 1) ∧ t = { s with dev := t.dev }) ∧
    (Runs (.softError .memory n false) s fun t => t = { s with bad := t.bad } ∧
      ∀ k, Map.get false t.bad k = if k = n then true else Map.get false s.bad k)

/-- discard acts on whole lines of its checked range; a corrected error is only counted, an uncorrectable one leaves its sector in error. -/
def Obligations.DiscardAndErrors : Prop :=
  Sys2Proof.Part.Discard ∧ Sys2Proof.Part.BitErrors

/-! ### The yoke (spec/10) -/

/-- R222, R223, R224: `ylease` gives up the lease it holds and waits; the yoke considers the oldest request of the first core, from its
pointer on, that has one, and grants it when its entries are free; `yfree` ends a lease. -/
def Sys2Proof.Part.YokeLeases : Prop :=
  (∀ (n : Nat) (s : State), s.next ≠ END → s.accepts 2 = true →
    (Runs (.ylease n) s fun t => ∃ w, t.slot = { s.slot with lease := none, yask := some n, wait := some w, pc := s.issue.start } ∧
      w.instr = .ylease n ∧ w.poll = false ∧ w.start = s.issue.start ∧ w.length = s.issue.length ∧ SameCores s.issue.lid s t ∧
      SameMemory s t) ∧
    Runs .yfree s fun t => Went s s.me { s.slot with lease := none } [] [] s.next s t ∧ SameMemory s t) ∧
  (∀ (m : Nat) (s : State),
    let asks (l k : Nat) (w : Wait) (n : Nat) : Prop := l / 8 = m ∧ k < 4 ∧ (s.slotAt l k).wait = some w ∧ (s.slotAt l k).yask = some n
    let away (l : Nat) : Nat := (l % 8 + 8 - (s.team m).ygrant % 8) % 8
    (s.nextAsk m = none ↔ ∀ l k w n, ¬asks l k w n) ∧
    ∀ l k w n, s.nextAsk m = some (l, k, w, n) → asks l k w n ∧ (∀ j v i, asks l j v i → w.since ≤ v.since) ∧
      ∀ p j v i, asks p j v i → away l ≤ away p) ∧
  ∀ (m l k n : Nat) (w : Wait) (s : State), s.nextAsk m = some (l, k, w, n) → k < 4 → w.start + u64 w.length ≠ END →
    (s.slotAt l k).wait = some w →
    (16 < s.yokeLoad m + n → exec (.yokeLeaseGrant m) s = .next s) ∧
    (s.yokeLoad m + n ≤ 16 → Runs (.yokeLeaseGrant m) s fun t => (t.slotAt l k).lease = some n ∧ (t.slotAt l k).wait = none ∧
      (t.slotAt l k).yask = none ∧ (t.slotAt l k).pc = w.start + u64 w.length ∧ (t.slotAt l k).regs = (s.slotAt l k).regs ∧
      (t.team m).ygrant = (l % 8 + 1) % 8 ∧ (∀ j, j ≠ k → t.slotAt l j = s.slotAt l j) ∧ SameCores l s t ∧ SameMemory s t)

/-- R225, R233, R237: a command without a lease traps NOLEASE with its word; the first check that fails traps, the rows of a pool A and
then its scale bytes among them; one that passes its checks is accepted with the format context, the decode table and its operand block,
and its id goes to YJOB. -/
def Sys2Proof.Part.YokeCommands : Prop :=
  ∀ (d n : Nat) (s : State) (c o v k hb : Nat), s.next ≠ END → s.accepts 2 = true → c = Z (s.g d) % 2 ^ 16 → v = Z (s.g d) →
    o = Z (s.g n) → k = v / 2 ^ 16 % 2 ^ 8 →
    let word : DWord := u64 s.issue.word
    let acc (x : Nat) : Prop := accBase s.me.part ≤ x ∧ x + 1024 ≤ accBase s.me.part + partAcc s.me.part
    let scr (x w : Nat) : Prop := hndEnd s.me.part ≤ x ∧ x + w ≤ 0x6000
    let fa := Z s.me.yfmt % 2 ^ 5
    let fo := Z s.me.yfmt / 2 ^ 10 % 2 ^ 5
    let ymmas : List (Instr × Bool × Bool) := [(.ymma d n, false, false), (.ymmaRa d n, true, false), (.ymmaRb d n, false, true),
      (.ymmaRr d n, true, true)]
    let blk := Map.getList 0 s.me.pool o 32
    let bw (i : Nat) : Nat := leNat (Map.getList 0 s.me.pool (o + 4 * i) 4)
    let stride := if bw 1 = 0 then 16 * k * poolHalves fa / 2 else bw 1
    let al := max (poolHalves fa / 2) 1
    let rowA (i : Nat) : Prop := (bw 0 + i * stride) % al = 0 ∧ scr (bw 0 + i * stride) (16 * k * poolHalves fa / 2)
    let rowS (i : Nat) : Prop := scr (bw 2 + i * bw 3) ((k + 1) / 2)
    (s.slot.lease = none → Traps (.yzero d) s .noLease word ∧ Traps (.yst d n) s .noLease word ∧ Traps (.yres d) s .noLease word ∧
      ∀ p ∈ ymmas, Traps p.1 s .noLease word) ∧
    (∀ m, s.slot.lease = some m →
      (v % 256 ≠ 0 → Traps (.yzero d) s .align (u64 v)) ∧ (v % 256 = 0 → ¬acc v → Traps (.yzero d) s .poolRange (u64 v)) ∧
      (v % 256 = 0 → acc v → Runs (.yzero d) s (JobAccepted (.zero v) [] m s)) ∧
      (o % 256 ≠ 0 → Traps (.yst d n) s .align (u64 o)) ∧ (o % 256 = 0 → ¬acc o → Traps (.yst d n) s .poolRange (u64 o)) ∧
      (o % 256 = 0 → acc o → v % 4 ≠ 0 → Traps (.yst d n) s .align (u64 v)) ∧
      (o % 256 = 0 → acc o → v % 4 = 0 → hb = 128 * poolHalves fo →
        (¬scr v hb → Traps (.yst d n) s .poolRange (u64 v)) ∧ (scr v hb → Runs (.yst d n) s (JobAccepted (.store o v) [] m s))) ∧
      ∀ p ∈ ymmas, (2 ^ 24 ≤ v ∨ k = 0 ∨ p.2.2 = false ∧ 2 < k → Traps p.1 s .illegal (u64 v)) ∧
        (v < 2 ^ 24 → 0 < k → (p.2.2 = false → k ≤ 2) →
          (c % 256 ≠ 0 → Traps p.1 s .align (u64 c)) ∧ (c % 256 = 0 → ¬acc c → Traps p.1 s .poolRange (u64 c)) ∧
          (c % 256 = 0 → acc c → o % 32 ≠ 0 → Traps p.1 s .align (u64 o)) ∧
          (c % 256 = 0 → acc c → o % 32 = 0 → ¬scr o 32 → Traps p.1 s .poolRange (u64 o)) ∧
          (c % 256 = 0 → acc c → o % 32 = 0 → scr o 32 → p.2.1 = false →
            (∀ i, i < 16 → (∀ h, h < i → rowA h) →
              ((bw 0 + i * stride) % al ≠ 0 → Traps p.1 s .align (u64 (bw 0 + i * stride))) ∧
              ((bw 0 + i * stride) % al = 0 → ¬rowA i → Traps p.1 s .poolRange (u64 (bw 0 + i * stride)))) ∧
            (s.me.yfmt.getLsbD 15 = true → (∀ i, i < 16 → rowA i) → ∀ i, i < 16 → (∀ h, h < i → rowS h) → ¬rowS i →
              Traps p.1 s .poolRange (u64 (bw 2 + i * bw 3)))) ∧
          (c % 256 = 0 → acc c → o % 32 = 0 → scr o 32 → (p.2.1 = false → ∀ i, i < 16 → rowA i) →
            (p.2.1 = false → s.me.yfmt.getLsbD 15 = true → ∀ i, i < 16 → rowS i) →
            Runs p.1 s (JobAccepted (.mma p.2.1 p.2.2 k c) blk m s))))

/-- ylease waits for its grant; an accepted command spends a lease, enters the records with its operand block and gives its id. -/
def Obligations.YokeCommandForms : Prop :=
  Sys2Proof.Part.YokeLeases ∧ Sys2Proof.Part.YokeCommands

/-- R227, R232, R238: the format context, the latch and the forms that ask for a job's state; an unknown id counts as complete. Word
16k + j of a latch tile as B(k, j) is log entry 21, and the issuer of a resumed job, whose streaming buffer its loads see, log entry 22
(both DEDUCED). -/
def Obligations.YokeForms : Prop :=
  ∀ (d n t : Nat) (s : State) (v id o r f : Nat), s.next ≠ END → s.accepts 2 = true → v = Z (s.g d) → id = v % 256 → o = v →
    r = Z (s.g n) → f = Z s.me.yfmt / 2 ^ 5 % 2 ^ 5 →
    let row (i : Nat) : Prop := (o + i * r) % max (poolHalves f / 2) 1 = 0 ∧ hndEnd s.me.part ≤ o + i * r ∧
      o + i * r + 8 * poolHalves f ≤ 0x6000
    (if 2 ^ 17 ≤ v ∨ 0x0A < v % 32 ∨ 0x0A < v / 2 ^ 5 % 32 ∨ 0x0A < v / 2 ^ 10 % 32 then Traps (.yfmt d) s .illegal (u64 v)
      else Runs (.yfmt d) s fun t => t.g d = s.me.yfmt ∧ Went s { s.me with yfmt := s.g d } s.slot [d] [] s.next s t ∧ SameMemory s t) ∧
    (∀ k, k < 16 → (∀ i, i < k → row i) → ((o + k * r) % max (poolHalves f / 2) 1 ≠ 0 → Traps (.yldb d n t) s .align (u64 (o + k * r))) ∧
      ((o + k * r) % max (poolHalves f / 2) 1 = 0 → ¬row k → Traps (.yldb d n t) s .poolRange (u64 (o + k * r)))) ∧
    ((∀ i, i < 16 → row i) →
      ((∃ j ∈ s.me.jobs, j.state = .queued ∧ ∃ ra k c, j.kind = .mma ra false k c) → Waits (.yldb d n t) s) ∧
      ((∀ j ∈ s.me.jobs, j.state = .queued → ∀ ra k c, j.kind ≠ .mma ra false k c) → Runs (.yldb d n t) s fun u => ∃ la,
        Went s { s.me with latch := la } s.slot [] [] s.next s u ∧ SameMemory s u ∧
        (∀ i k, i < 16 → k < 16 → Map.get 0 la (256 * t + 16 * i + k) =
          exactB32 (toF19 s.me.dtab f (s.me.elem f (2 * (o + i * r) + k * poolHalves f)))) ∧
        ∀ a, (a < 256 * t ∨ 256 * t + 256 ≤ a) → Map.get 0 la a = Map.get 0 s.me.latch a)) ∧
    (s.me.jobOf id = none → Runs (.ywait d) s (Completed [] [] s.next s) ∧ WritesG (.ypoll d) s d (fun w => w = 0) ∧
      WritesG (.yprog d) s d (fun w => w = 0x400#32)) ∧
    (∀ j st, s.me.jobOf id = some j → st = (match j.state with | .complete => 0 | .queued => 1 | .stopped => 2) →
      (j.state = .queued → Waits (.ywait d) s) ∧ (j.state ≠ .queued → Runs (.ywait d) s (Completed [] [] s.next s)) ∧
      WritesG (.ypoll d) s d (fun w => w = u32 st) ∧ WritesG (.yprog d) s d (fun w => w = u32 (j.progress + 256 * st))) ∧
    (∀ m, s.slot.lease = some m → 2 ^ 9 ≤ v → Traps (.yres d) s .illegal (u64 v)) ∧
    (∀ m, s.slot.lease = some m → v < 2 ^ 9 →
      ((∀ j, s.me.jobOf id = some j → j.state ≠ .stopped) → WritesG (.yres d) s d fun w => w = 1) ∧
      ∀ j, s.me.jobOf id = some j → j.state = .stopped → Runs (.yres d) s fun t => t.g d = 0 ∧ ∃ js, Went s { s.me with jobs := js }
          { s.slot with lease := if m ≤ 1 then none else some (m - 1), yjob := u32 j.id } [d] [] s.next s t ∧
        js = s.me.jobs.map fun x => if x = j then
          (if 256 ≤ v then { j with state := .complete }
            else { j with state := .queued, clock := s.me.pts, sbuf := (s.me.slot j.slot).sbuf, dtab := s.me.dtab, recs := none }) else x)

/-- R232: `yrot` waits for the team's other cores, and then each core's latch goes to the next core, the last one's to the first; every
waiting `yrot` ends. -/
def Sys2Proof.Part.LatchRotation : Prop :=
  ∀ (s : State) (m : Nat), s.next ≠ END → s.accepts 2 = true → m = s.issue.lid / 8 → s.issue.since = none →
    let peer (p : Nat) : Prop := p ≠ s.issue.lid ∧ p / 8 = m ∧ (s.core p).queue ≠ none ∧ (s.core p).exited = false ∧
      (s.core p).forward = none ∧ (s.core p).swapped = false
    let asks (p k : Nat) : Prop := ∃ w, ((s.core p).slot k).wait = some w ∧ w.instr = .yrot
    ((∃ p, peer p ∧ ∀ k, k < 4 → ¬asks p k) ∨ (∃ k, k < 4 ∧ k ≠ s.issue.slot ∧ asks s.issue.lid k) → Waits .yrot s) ∧
    ((∀ p, peer p → ∃ k, k < 4 ∧ asks p k) → (∀ k, k < 4 → k ≠ s.issue.slot → ¬asks s.issue.lid k) →
      (∀ p, p / 8 = m → ∀ j ∈ (s.core p).jobs, j.state = .queued → ∀ ra k c, j.kind ≠ .mma ra false k c) →
      Runs .yrot s fun t => (∀ i, i < 8 → (t.core (8 * m + i)).latch = (s.core (8 * m + (i + 7) % 8)).latch) ∧
        AtPc s.next s t ∧ SameRegisters [] [] s t ∧ (∀ l, l / 8 ≠ m → t.core l = s.core l) ∧ SameMemory s t ∧
        ∀ p k w, peer p → (s.core p).rotator none = some (k, w) → w.start + u64 w.length ≠ END → k < 4 →
          (t.slotAt p k).wait = none ∧ (t.slotAt p k).pc = w.start + u64 w.length ∧ (t.slotAt p k).regs = (s.slotAt p k).regs)

/-- R41, R226, R229, R231, R233 to R237: the units of the yoke, which serves the cores of a team in turn and of each the oldest command
that has not completed. A k-step adds the scaled exact sum of sixteen products, rounded, to each accumulator word, with every full bit
set, and completes its job after its last; `yzero` and `yst` are one unit each, and the flags go to the issuing task alone; a failing read
stops the job with its notice. Remote elements and scale bytes are read at the addresses of R231. The latch index is log entry 21 and the
order of reads log entry 22 (both DEDUCED). -/
def Sys2Proof.Part.YokeUnits : Prop :=
  (∀ (acc : Word) (row col : List FVal) (sa sb : Nat), row.length = 16 → col.length = 16 →
    let at_ (xs : List FVal) (m : Nat) : FVal := xs.getD m (.nan false)
    let adds (r : Word × Nat) : Prop := kElement acc row col sa sb = ((fAdd .ne acc r.1).1, r.2 ||| (fAdd .ne acc r.1).2)
    let isNum : Prop := ∀ m, m < 16 → (at_ row m).isNan = false ∧ (at_ col m).isNan = false
    let zeroInf : Prop := ∃ m, m < 16 ∧ ((at_ row m).isZero = true ∧ (at_ col m).isInf = true ∨
      (at_ row m).isInf = true ∧ (at_ col m).isZero = true)
    let hasInf (n : Bool) : Prop := ∃ m, m < 16 ∧ ((at_ row m).isInf = true ∨ (at_ col m).isInf = true) ∧
      n = ((at_ row m).neg != (at_ col m).neg)
    (∀ x y : Nat → ℝ, (∀ m, m < 16 → (at_ row m).Is (x m) ∧ (at_ col m).Is (y m)) →
      let allNegZero : Prop := ∀ m, m < 16 → x m * y m = 0 ∧ (at_ row m).neg ≠ (at_ col m).neg
      (sa < 255 → sb < 255 → ∃ r, adds r ∧
        RoundedWord .ne ((∑ m ∈ Finset.range 16, x m * y m) * 2 ^ ((sa : Int) + sb - 254)) r ∧
        (∑ m ∈ Finset.range 16, x m * y m = 0 → (r.2 = 0 ∧ (r.1 = 0x80000000#32 ↔ allNegZero) ∧ (r.1 = 0 ↔ ¬allNegZero)))) ∧
      (sa = 255 ∨ sb = 255 → adds (0x7FC00000#32, 0))) ∧
    (isNum → zeroInf ∨ hasInf false ∧ hasInf true → adds (0x7FC00000#32, 16)) ∧
    (isNum → ¬zeroInf → sa < 255 → sb < 255 → ∀ n, hasInf n → ¬hasInf (!n) → adds (if n then 0xFF800000#32 else 0x7F800000#32, 0)) ∧
    (¬isNum → ¬zeroInf → ¬(hasInf false ∧ hasInf true) →
      (∀ m, m < 16 → (at_ row m).isSig = false ∧ (at_ col m).isSig = false) → adds (0x7FC00000#32, 0))) ∧
  (∀ (r : LayoutRec) (base : Nat) (x0 x1 x2 x3 st0 st1 st2 st3 : Int) (a b w : Nat), r.str = [st0, st1, st2, st3] →
    r.elem base [x0, x1, x2, x3] = (a, b, w) →
    let row : Int := base + x1 * st1 + x2 * st2 + x3 * st3
    w = fmtBits r.fmt ∧ a < 2 ^ 64 ∧ r.elem base [x0, x1] = r.elem base [x0, x1, 0, 0] ∧
    (w < 8 → b < 8 ∧ (8 * a + b : Int) = (8 * row + w * x0) % 2 ^ 67) ∧ (8 ≤ w → b = 0 ∧ (a : Int) = (row + x0 * st0) % 2 ^ 64)) ∧
  (∀ (c : Core) (j : YJob), c.readyJob = some j ↔
    ∃ as bs, c.jobs = as ++ j :: bs ∧ (∀ x ∈ as, x.state = .complete) ∧ j.state = .queued) ∧
  (∀ (l : Nat) (s : State) (j : YJob), s.turnJob l = some j ↔ (s.core l).readyJob = some j ∧
    let far (p : Nat) : Nat := (p % 8 + 8 - (s.team (l / 8)).yserved % 8) % 8
    ∀ p, p / 8 = l / 8 → far p < far l → (s.core p).readyJob = none) ∧
  ∀ (l : Nat) (s : State) (j : YJob) (c0 : Core), c0 = s.core l → s.turnJob l = some j →
    let next (t : State) : Prop := (t.team (l / 8)).yserved = (l % 8 + 1) % 8
    let gets (fl : Word) : Word := (s.slotAt l j.slot).fst |||
      (if (s.slotAt l j.slot).task.map (·.serial) = some j.serial then u32 (Z fl % 32) else 0)
    let outside (c n : Nat) (t : State) : Prop := (∀ a, (a < c ∨ c + n ≤ a) → Map.get 0 (t.core l).pool a = Map.get 0 c0.pool a) ∧
      SameCores l s t ∧ SameMemory s t
    let complete (p : Nat) (t : State) : Prop := ∃ x ∈ (t.core l).jobs, x.id = j.id ∧ x.state = .complete ∧ x.progress = p ∧ x.kind = j.kind
    (∀ c, j.kind = .zero c → c % 4 = 0 → Runs (.yzeroJob l) s fun t => outside c 1024 t ∧ complete 1 t ∧ next t ∧
      (∀ a, c ≤ a → a < c + 1024 → Map.get 0 (t.core l).pool a = 0) ∧
      ∀ w, Map.get false (t.core l).full w = if c / 4 ≤ w ∧ w < c / 4 + 256 then true else Map.get false c0.full w) ∧
    (∀ c o f, j.kind = .store c o → f = Z j.fmt / 2 ^ 10 % 2 ^ 5 → f ≤ 0x0A → o % 4 = 0 → Runs (.ystJob l) s fun t =>
      outside o (128 * poolHalves f) t ∧ complete 1 t ∧ next t ∧
      (t.slotAt l j.slot).fst = gets (u32 ((List.range 256).foldl
        (fun fl e => fl ||| (encodeElem j.dtab f (poolWord c0.pool (c + 4 * e))).2) 0)) ∧
      ∀ e, e < 256 →
        (t.core l).elem f (2 * o + e * poolHalves f) = (encodeElem j.dtab f (poolWord c0.pool (c + 4 * e))).1 % 2 ^ fmtBits f ∧
        Map.get false (t.core l).full ((2 * o + e * poolHalves f) / 2 / 4) = true) ∧
    (∀ ra rb n c u x, j.kind = .mma ra rb n c → c % 4 = 0 → Fits s (j.clock + s.leaseOf l) →
      s.kOperands l none j ra rb n = (u, .ok x) → Runs (.kstep l) s fun t => outside c 1024 t ∧ next t ∧
      (∀ i k, i < 16 → k < 16 → poolWord (t.core l).pool (c + 4 * (16 * i + k)) = (kElement (poolWord c0.pool (c + 4 * (16 * i + k)))
        (x.a.getD i []) (x.b.map fun r => r.getD k (.nan false)) (x.sa.getD i 127) (x.sb.getD k 127)).1) ∧
      (∀ w, Map.get false (t.core l).full w = if c / 4 ≤ w ∧ w < c / 4 + 256 then true else Map.get false c0.full w) ∧
      (t.core l).pts = max c0.pts x.wts ∧ ∃ fl, fl = j.flags ||| u32 ((List.range 256).foldl (fun g e => g |||
        (kElement (poolWord c0.pool (c + 4 * e)) (x.a.getD (e / 16) []) (x.b.map fun r => r.getD (e % 16) (.nan false))
          (x.sa.getD (e / 16) 127) (x.sb.getD (e % 16) 127)).2) 0) ∧
      (n ≤ j.progress + 1 → complete (j.progress + 1) t ∧ (t.slotAt l j.slot).fst = gets fl) ∧
      (j.progress + 1 < n → (∃ y ∈ (t.core l).jobs, y.id = j.id ∧ y.state = .queued ∧ y.progress = j.progress + 1 ∧ y.flags = fl ∧
        y.recs = some x.recs) ∧ ∀ k, t.slotAt l k = s.slotAt l k)) ∧
    (∀ ra rb n c far u cause v, j.kind = .mma ra rb n c → Fits s (j.clock + s.leaseOf l) →
      s.kOperands l far j ra rb n = (u, .error (cause, v)) →
      Runs (.yokeJobStop l far) s fun t => next t ∧
        (∃ x ∈ (t.core l).jobs, x.id = j.id ∧ x.state = .stopped ∧ x.progress = j.progress ∧ x.flags = 0) ∧
        (t.slotAt l j.slot).fst = gets j.flags ∧
        (t.slotAt l j.slot).notices = (s.slotAt l j.slot).notices ++ [⟨u32 (0x0A + j.id * 2 ^ 8 + cause.code * 2 ^ 16), v⟩] ∧
        (t.core l).pool = c0.pool ∧ (t.core l).full = c0.full ∧ SameCores l s t ∧ SameMemory s t) ∧
    (∀ ra rb n c u x, j.kind = .mma ra rb n c → Fits s (j.clock + s.leaseOf l) → s.kOperands l none j ra rb n = (u, .ok x) →
      let rec_ (side : Nat) : LayoutRec := (layoutRec (x.recs.getD side [])).1
      let base (side : Nat) : Nat := leNat ((j.block.drop (16 * side)).take 8)
      let recAt (side : Nat) : Nat := leNat ((j.block.drop (16 * side + 8)).take 8)
      let reads (side : Nat) (cs : List Int) (f : Nat) (y : FVal) : Prop := ∃ v w code k,
        v.engineElem l (j.reader none) (rec_ side) (base side) cs = (w, .ok (code, k)) ∧ SameMemory s v ∧ k ≤ x.wts ∧
          y = toF19 j.dtab f code
      let scale (side i y : Nat) : Prop := ∃ v w b k, v.engineRead l (j.reader none)
        (w64 (base side + (rec_ side).soff + i * (rec_ side).sstr + 16 * j.progress / 32)).toNat 1 = (w, .ok (b, k)) ∧ SameMemory s v ∧
          k ≤ x.wts ∧ y = leNat b
      let named (side f : Nat) : Prop := j.recs = none → ∃ v w, v.engineRec l (j.reader none) (recAt side) =
        (w, .ok (x.recs.getD side [])) ∧ SameMemory s v ∧ (layoutRec (x.recs.getD side [])).2 = true ∧ 2 ≤ (rec_ side).rank ∧
          (rec_ side).fmt = f
      (∀ rs, j.recs = some rs → x.recs = rs) ∧
      (ra = true → named 0 (Z j.fmt % 2 ^ 5) ∧ ∀ i : Nat, i < 16 →
        (∀ k : Nat, k < 16 → reads 0 [((16 * j.progress + k : Nat) : Int), (i : Int)] (Z j.fmt % 2 ^ 5)
          ((x.a.getD i []).getD k (.nan false))) ∧
        (j.fmt.getLsbD 15 = true → scale 0 i (x.sa.getD i 0))) ∧
      (rb = true → named 1 (Z j.fmt / 2 ^ 5 % 2 ^ 5) ∧ ∀ i : Nat, i < 16 →
        (∀ k : Nat, k < 16 → reads 1 [(i : Int), ((16 * j.progress + k : Nat) : Int)] (Z j.fmt / 2 ^ 5 % 2 ^ 5)
          ((x.b.getD k []).getD i (.nan false))) ∧
        (j.fmt.getLsbD 16 = true → scale 1 i (x.sb.getD i 0))) ∧
      (ra = false → j.fmt.getLsbD 15 = true → ∀ i, i < 16 →
        x.sa.getD i 0 = (Map.get 0 c0.pool (blockWord j.block 2 + i * blockWord j.block 3 + 16 * j.progress / 32)).toNat)) ∧
    ∀ n c fa u x i k, j.kind = .mma false false n c → fa = Z j.fmt % 2 ^ 5 → j.recs = none → s.kOperands l none j false false n = (u, .ok x) →
      i < 16 → k < 16 → j.fmt.getLsbD 15 = false →
      (x.a.getD i []).getD k (.nan false) = toF19 j.dtab fa (c0.elem fa (2 * (blockWord j.block 0 + i * rowStride j.block fa n) +
        (16 * j.progress + k) * poolHalves fa)) ∧
      (x.b.getD k []).getD i (.nan false) = fval (Map.get 0 c0.latch (256 * j.progress + 16 * k + i)) ∧
      x.sa.getD i 0 = 127 ∧ x.sb.getD k 0 = 127

/-- yrot rotates the latches of a team once all eight cores have issued it; a job's units write exactly their tile, or stop the job with its
cause. The latch index is log entry 21 and the order of failing reads log entry 22 (both DEDUCED). -/
def Obligations.YokeWork : Prop :=
  Sys2Proof.Part.LatchRotation ∧ Sys2Proof.Part.YokeUnits

/-! ### The tug and transaction barriers (spec/10) -/

/-- R240, R241: `kset` writes the transfer registers from the pool, and `kgo`, or a read of KGO, enters a transfer in the queue with its
announcement, or answers 0 while the team's queue is full. -/
def Sys2Proof.Part.TugForms : Prop :=
  ∀ (d n : Nat) (s : State) (x : Slot) (c : Core) (o : Nat), s.next ≠ END → s.accepts 3 = true → x = s.slot → c = s.me → o = Z (s.g n) →
    let q (a : Nat) : DWord := u64 (leNat (Map.getList 0 c.pool a 8))
    let full := 32 ≤ s.tugLoad (s.issue.lid / 8)
    let pe : DWord := if x.klay.toNat % 4 = 1 then x.ksrc else x.kdst
    let fresh : Xfer := ⟨c.nextXfer, .queued, x.ksrc, x.kdst, x.klay, x.kbase, Map.getList 0 x.kext 0 4, c.dtab, [], 0, 0, s.issue.slot,
      c.pts, 0, [], x.sbuf, [], none⟩
    let entered (p : Map Byte) (ds as : List Nat) (t : State) : Prop := (∃ xs, Went s { c with
        pool := p, nextXfer := if 255 ≤ c.nextXfer then 1 else c.nextXfer + 1, xfers := xs } x ds as s.next s t ∧
      (∃ ys, xs = ys ++ [fresh] ∧ ys.filter (fun y => y.active) = c.xfers.filter fun y => y.active)) ∧ SameMemory s t
    PoolForm 8 n 0 (.kset n) s (fun _ => (0x6000 < o + 48 → Traps (.kset n) s .poolRange (u64 o)) ∧ (o + 48 ≤ 0x6000 → Runs (.kset n) s fun t => SameMemory s t ∧ ∃ e,
      (∀ i, i < 4 → Map.get 0 e i = poolWord c.pool (o + 32 + 4 * i)) ∧
      Went s c { x with ksrc := q o, kdst := q (o + 8), klay := q (o + 16), kbase := q (o + 24), kext := e } [] [] s.next s t)) ∧
    (full → (x.klay.toNat % 4 = 3 ∨ pe.getLsbD 16 = false) → WritesG (.kgo d) s d (fun v => v = 0) ∧ WritesA (.mfs 2 d 0x048) s d 0) ∧
    (¬full → (x.klay.toNat % 4 = 3 ∨ pe.getLsbD 16 = false) →
      (Runs (.kgo d) s fun t => t.g d = u32 c.nextXfer ∧ entered c.pool [d] [] t) ∧
      Runs (.mfs 0 d 0x048) s fun t => t.g d = u32 c.nextXfer ∧ entered c.pool [d] [] t) ∧
    ∀ b, b = 16 * (pe.toNat / 2 ^ 17 % 2 ^ 11) → x.klay.toNat % 4 ≠ 3 → pe.getLsbD 16 = true →
      (b < hndEnd c.part ∨ 0x6000 < b + 16 → Traps (.kgo d) s .poolRange (u64 b)) ∧
      (hndEnd c.part ≤ b → b + 16 ≤ 0x6000 → full → WritesG (.kgo d) s d fun v => v = 0) ∧
      (hndEnd c.part ≤ b → b + 16 ≤ 0x6000 → ¬full → Runs (.kgo d) s fun t => t.g d = u32 c.nextXfer ∧ ∃ p, entered p [d] [] t ∧
        (∀ a, (a < b ∨ b + 4 ≤ a) → Map.get 0 p a = Map.get 0 c.pool a) ∧ ∀ i, i < 32 → (poolWord p b).getLsbD i =
          if 8 ≤ i ∧ i < 16 then (Z (poolWord c.pool b) / 2 ^ 8 + 1).testBit (i - 8) else (poolWord c.pool b).getLsbD i)

/-- R240, R244, R245: waiting for a transfer and asking for its state; `kwait` observes a completed one's stores with the clock. -/
def Sys2Proof.Part.TugWaits : Prop :=
  ∀ (d : Nat) (s : State) (id : Nat), s.next ≠ END → s.accepts 3 = true → id = Z (s.g d) % 256 →
    let raised (x : Xfer) : Core := { s.me with pts := max s.me.pts x.stored }
    (s.me.xferOf id = none → Runs (.kwait d) s (Completed [] [] s.next s) ∧ WritesG (.kpoll d) s d fun v => v = 0) ∧
    ∀ x, s.me.xferOf id = some x →
      (x.state = .queued ∨ x.state = .sized → Waits (.kwait d) s ∧ WritesG (.kpoll d) s d fun v => v = 1) ∧
      (x.state = .complete → (Runs (.kwait d) s fun t => Went s (raised x) s.slot [] [] s.next s t ∧ SameMemory s t) ∧
        WritesG (.kpoll d) s d fun v => v = 0) ∧
      (x.state = .stopped → (Runs (.kwait d) s fun t => Went s (raised x) s.slot [] [] s.next s t ∧ SameMemory s t) ∧
        WritesG (.kpoll d) s d fun v => v = 2)

/-- R246, R247: transaction barriers. GEN is bits [3:0] and PEND bits [15:8] of the first word, ARR, SEC and COUNT the others; a
generation completes when ARR, PEND and SEC are 0. -/
def Sys2Proof.Part.TransactionBarriers : Prop :=
  ∀ (d n : Nat) (s : State) (o : Nat) (w : Nat → Word), s.next ≠ END → s.accepts 3 = true → o = Z (s.g n) → w = poolWord s.me.pool →
    let gen := Z (w o) % 16
    let pend := Z (w o) / 2 ^ 8 % 2 ^ 8
    let left (p : Map Byte) : Prop := ∀ a, (a < o ∨ o + 16 ≤ a) → Map.get 0 p a = Map.get 0 s.me.pool a
    let quad (p : Map Byte) (a b c e : Word) : Prop := poolWord p o = a ∧ poolWord p (o + 4) = b ∧ poolWord p (o + 8) = c ∧
      poolWord p (o + 12) = e
    PoolForm 16 n 0 (.tbinit d n) s (fun _ => if s.g d = 0 then Traps (.tbinit d n) s .illegal (u64 s.issue.word)
      else Runs (.tbinit d n) s fun t => ∃ p, WentPool p s.me.full [] s t ∧ left p ∧ quad p 0 (s.g d) 0 (s.g d)) ∧
    PoolForm 16 n 0 (.tbarr d n) s (fun _ => if s.g d = 0 then Traps (.tbarr d n) s .illegal (u64 s.issue.word)
      else if Z (w (o + 4)) < Z (s.g d) then WritesG (.tbarr d n) s d fun v => v = 0xFFFFFFFF#32
      else Runs (.tbarr d n) s fun t => t.g d = u32 gen ∧ ∃ p, WentPool p s.me.full [d] s t ∧ left p ∧
        if w (o + 4) = s.g d ∧ pend = 0 ∧ w (o + 8) = 0 then
          quad p (u32 (Z (w o) / 16 * 16 + (gen + 1) % 16)) (w (o + 12)) (w (o + 8)) (w (o + 12))
        else quad p (w o) (w (o + 4) - s.g d) (w (o + 8)) (w (o + 12))) ∧
    PoolForm 16 n 0 (.tbwait d n) s (fun _ => if 16 ≤ Z (s.g d) then Traps (.tbwait d n) s .illegal (u64 s.issue.word)
      else if gen = Z (s.g d) ∨ 8 < (gen + 16 - Z (s.g d)) % 16 then Waits (.tbwait d n) s
      else Runs (.tbwait d n) s fun t => t.g d = u32 gen ∧ ∃ p, s.me.pts ≤ p ∧
        (∀ x ∈ s.me.xfers, x.barrier = some o → x.stored ≤ p) ∧ Went s { s.me with pts := p } s.slot [d] [] s.next s t ∧ SameMemory s t)

/-- kset and kgo start a transfer, kwait and kpoll report it; tbinit, tbarr and tbwait act on the barrier words. -/
def Obligations.TugCommandForms : Prop :=
  Sys2Proof.Part.TugForms ∧ Sys2Proof.Part.TugWaits ∧ Sys2Proof.Part.TransactionBarriers

/-- R242, R243: the elements of a block. Element e has its coordinates with c0 fastest; inside the tensor a load brings the element of
memory, converted, and outside it what OOB names; a store changes the bits of the element's bytes in memory, converted, or nothing. -/
def Sys2Proof.Part.TugElements : Prop :=
  ∀ (l : Nat) (s : State) (x : Xfer) (r : LayoutRec) (e : Nat) (cs : List Int) (a b w : Nat) (va : DWord), cs = x.coord r e →
    r.elem x.base.toNat cs = (a, b, w) → va = u64 a →
    let ld := s.loadElem l x r none e
    let st := s.storeElem l x r e
    let cut (g c : Nat) : Nat := if g = 3 then c / 2 ^ 13 * 2 ^ 13 else c
    (∀ t0 t1 t2 t3 c0 c1 c2 c3 : Nat, r.tile = [t0, t1, t2, t3] → c0 < t0 → c1 < t1 → c2 < t2 → c3 < t3 →
      e = c0 + t0 * (c1 + t1 * (c2 + t2 * c3)) → ∀ d c : Nat, [c0, c1, c2, c3][d]? = some c →
      cs.getD d 0 = if r.rank ≤ d then 0
        else (BitVec.ofNat 16 ((if x.op = 1 then x.dst else x.src).toNat / 2 ^ (16 * d))).toInt + (c : Int)) ∧
    (x.inside r cs = true ↔ ∀ d, d < r.rank → 0 ≤ cs.getD d 0 ∧ cs.getD d 0 < Z (x.ext.getD d 0)) ∧
    (∀ c, convertElem x.dtab r.fmt r.pfmt c = if r.fmt = r.pfmt then cut r.pfmt c
      else (encodeElem x.dtab r.pfmt (exactB32 (decodeElem x.dtab r.fmt c))).1) ∧
    (x.inside r cs = false → (r.oob = 0 → ld = (s, .ok (0, 0))) ∧ (r.oob = 1 → ld = (s, .ok (cut r.pfmt r.fill, 0))) ∧
      (r.oob = 2 → ld = (s, .error (.illegal, va)) ∧ st = (s, .error (.illegal, va))) ∧ (r.oob ≠ 2 → st = (s, .ok [])) ∧
      (r.oob = 3 → ((∃ d, d < r.rank ∧ x.ext.getD d 0 = 0) → ld = (s, .error (.illegal, va))) ∧
        ((∀ d, d < r.rank → x.ext.getD d 0 ≠ 0) → ∀ ys : List Int, ys.length = cs.length →
          (∀ d, d < cs.length → ys.getD d 0 = if d < r.rank then min (max (cs.getD d 0) 0) (Z (x.ext.getD d 0) - 1) else cs.getD d 0) →
          ∀ v y, s.engineElem l (x.reader none) r x.base.toNat ys = (v, y) →
            ld = (v, y.map fun p => (convertElem x.dtab r.fmt r.pfmt p.1, p.2))))) ∧
    (x.inside r cs = true → 8 ≤ w → (a % (w / 8) ≠ 0 → ld = (s, .error (.align, va)) ∧ st = (s, .error (.align, va))) ∧
      (a % (w / 8) = 0 → ∀ u,
        (∀ cause, s.resolve l a .rd = (u, .error cause) → ld = (u, .error (cause, va))) ∧
        (∀ pa, s.resolve l a .rd = (u, .ok (.memory pa)) →
          (u.badIn pa (w / 8) = true → ld = (u.report, .error (.memErr, va))) ∧
          (u.badIn pa (w / 8) = false → ∃ v k, ld = (v, .ok (convertElem x.dtab r.fmt r.pfmt
              (leNat (overlay x.sbuf (.memory pa) (v.verBytes k pa (w / 8)))), k)) ∧ SameMemory u v ∧
            (Fits u (x.clock + u.leaseOf l) → k = (u.line (pa / 128)).wts ∨
              ∃ h ∈ (u.line (pa / 128)).older, h.wts = k ∧ x.clock ≤ h.rts))) ∧
        (∀ cause, s.resolve l a .wr = (u, .error cause) → st = (u, .error (cause, va))))) ∧
    ∀ v ps, st = (v, .ok ps) → x.inside r cs = true →
      SameMemory s v ∧ ps.length = (b + w + 7) / 8 ∧ ∀ k p, ps[k]? = some p → p.elem = e ∧ p.va = (a + k) % 2 ^ 64 ∧
        ∀ i, i < 8 → (p.mask.testBit i = decide (b ≤ 8 * k + i ∧ 8 * k + i < b + w)) ∧
          p.val.testBit i = (p.mask.testBit i && (convertElem x.dtab r.pfmt r.fmt
            ((s.core l).elem r.pfmt (2 * x.poff + e * poolHalves r.pfmt))).testBit (8 * k + i - b))

/-- R242, R243, R244, R248: the tug sizes a transfer, lands its sectors one by one, and stops it at its first failing element with a notice;
each of these accounts for it on its barrier. The sectors of a load hold what its elements bring, with their full bits and the clock; a
store makes the changes of its elements, each line as one store. That a sector changes the lines it touches at once, with every element of
theirs, and that the stores to other modules go one acknowledged after another, is log entry 15 (DEDUCED); what another module holds and
answers is log entry 1. -/
def Sys2Proof.Part.TugTransfers : Prop :=
  ∀ (l id : Nat) (s : State) (x : Xfer) (c : Core), s.activeXfer l id = some x → c = s.core l →
    let withX (y : Xfer) (xs : List Xfer) : Prop := xs = c.xfers.map fun z => if z = x then y else z
    let es := x.sectorElems x.rec_ x.landed
    let last := es.foldl (fun n e => max n (e + 1)) 0
    let f := x.rec_.pfmt
    let at_ (e : Nat) : Nat := 2 * x.poff + e * poolHalves f
    let made (p : Patch) : Prop := ∃ e ∈ x.lines, e.1 = p.line ∧ p.elem < e.2
    let stored (ps : List Patch) (n : Nat) : List (Place × Nat) := x.lines ++ (patchLines ps).map fun pl => (pl, n)
    let roomy : Prop := ∀ ln, Fits s (max x.clock ((s.line ln).rts + 1))
    let stopped (y : Xfer) (cause : Cause) (v : DWord) (t : State) : Prop :=
      withX { y with state := .stopped, fars := [], asked := none } (t.core l).xfers ∧ SameCores l s t ∧
      (t.slotAt l x.slot).notices = (s.slotAt l x.slot).notices ++ [⟨u32 (0x0B + x.id * 2 ^ 8 + cause.code * 2 ^ 16), v⟩]
    let withdrawn (p q : Map Byte) : Prop := x.Accounted (fun k => k) (fun n => n - (x.sectors - x.landed)) p q
    let stopsAt (n : Nat) (cause : Cause) (v : DWord) (t : State) : Prop := ∃ u all m e ps w, s.changes l x n = (u, all, m, e) ∧
      (∀ p, p ∈ ps ↔ p ∈ all ∧ p.elem < n ∧ ¬made p ∧ p.isFar = false) ∧
      stopped { x with stored := max x.stored w, lines := stored ps n } cause v t ∧ withdrawn c.pool (t.core l).pool ∧
      (t.core l).full = c.full ∧ ∀ a, Changed ps (.memory a) (s.byte a) (t.byte a)
    let lands (u : State) (w : Nat) (ls : List (Place × Nat)) (t : State) : Prop :=
      withX { x with
        landed := x.landed + 1, stored := max x.stored w, lines := ls,
        state := if x.landed + 1 = x.sectors then .complete else .sized } (t.core l).xfers ∧
      x.Accounted (fun k => k) (fun n => n - 1) (u.core l).pool (t.core l).pool ∧ SameCores l s t ∧
      (∀ j, t.slotAt l j = s.slotAt l j) ∧ t.mem = u.mem
    let brings (far : Option FarFail) (u : State) (e : Nat) : Prop := ∃ v v' code k, v.loadElem l x x.rec_ far e = (v', .ok (code, k)) ∧
      SameMemory s v ∧ (u.core l).elem f (at_ e) = code % 2 ^ fmtBits f ∧ Map.get false (u.core l).full (at_ e / 2 / 4) = true ∧
      k ≤ (u.core l).pts
    let keeps (ds : List Nat) (u : State) : Prop := ∀ a, (∀ e ∈ ds, 2 * a + 2 ≤ at_ e ∨ at_ e + poolHalves f ≤ 2 * a) →
      Map.get 0 (u.core l).pool a = Map.get 0 c.pool a
    (∀ u bs n, x.state = .queued → Fits s (x.clock + s.leaseOf l) → s.sizeXfer l x none = (u, .ok (bs, n)) → Runs (.tugSize l id) s fun t =>
      withX { x with state := .sized, record := bs, sectors := n } (t.core l).xfers ∧
      x.Accounted (fun k => k - 1) (fun k => k + n) c.pool (t.core l).pool ∧
      (x.op < 2 → ∀ h, h = (layoutRec bs).1.poolBytes → 0 < h →
        n = ((List.range (x.poff + h)).filter fun a => x.poff ≤ a ∧ (a % 32 = 0 ∨ a = x.poff)).length) ∧
      t.core l = { c with xfers := (t.core l).xfers, pool := (t.core l).pool } ∧ SameCores l s t ∧ SameMemory s t) ∧
    (x.state = .queued → Fits s (x.clock + s.leaseOf l) → ∀ far u cause v, s.sizeXfer l x far = (u, .error (cause, v)) →
      Runs (.tugStop l id far) s fun t => stopped x cause v t ∧ x.Accounted (fun k => k - 1) (fun n => n) c.pool (t.core l).pool ∧
        SameMemory s t) ∧
    (x.state = .sized → x.op = 0 → x.asked = none → x.fars = [] → Fits s (x.clock + s.leaseOf l) → fmtOk f = true →
      2 * x.poff % poolHalves f = 0 →
      (∀ u w ls, s.nextSector l x none = (u, w, ls, none) → (∀ e ∈ es, brings none u e) ∧ keeps es u ∧
        c.pts ≤ (u.core l).pts ∧ Runs (.tugSectorLand l id) s fun t => lands u w ls t ∧ SameMemory s t ∧
          (t.core l).full = (u.core l).full ∧ (t.core l).pts = (u.core l).pts) ∧
      ∀ far u w ls cause v, s.nextSector l x far = (u, w, ls, some (cause, v)) →
        (∃ e ∈ es, (∃ y y', y.loadElem l x x.rec_ far e = (y', .error (cause, v)) ∧ SameMemory s y) ∧
          (∀ d ∈ es, d < e → brings far u d) ∧ keeps (es.filter fun d => d < e) u) ∧
        Runs (.tugStop l id far) s fun t => stopped { x with stored := max x.stored w, lines := ls } cause v t ∧ SameMemory s t ∧
          withdrawn (u.core l).pool (t.core l).pool ∧ (t.core l).full = (u.core l).full ∧ (t.core l).pts = (u.core l).pts) ∧
    (x.state = .sized → x.op = 2 → Fits s (x.clock + s.leaseOf l) →
      (∀ u bs w, s.tableImage l x none = (u, .ok (bs, w)) → Runs (.tugTableLoad l id) s fun t => SameMemory s t ∧ SameCores l s t ∧
        (t.core l).pts = max c.pts w ∧ x.Accounted (fun k => k) (fun n => n - 1) c.pool (t.core l).pool ∧
        ∀ k, k < 256 → tabEntry (t.core l).dtab k = u32 (leNat ((bs.drop (4 * k)).take 4)) &&& 0xFFFFE000#32) ∧
      ∀ far u cause v, s.tableImage l x far = (u, .error (cause, v)) → Runs (.tugStop l id far) s fun t => stopped x cause v t ∧
        withdrawn c.pool (t.core l).pool ∧ (t.core l).dtab = c.dtab ∧ SameMemory s t) ∧
    (∀ k u all n fail, k ≤ x.rec_.count → s.changes l x k = (u, all, n, fail) → n ≤ x.rec_.count ∧ (fail = none → n = x.rec_.count) ∧
      (∀ p ∈ all, p.elem < n) ∧
      (∀ e, e < n → ∃ v v' qs, v.storeElem l x x.rec_ e = (v', .ok qs) ∧ SameMemory s v ∧ v.core l = c ∧
        ∀ q, (q ∈ qs → q ∈ all) ∧ (q ∈ all → q.elem = e → q ∈ qs)) ∧
      ∀ cause va, fail = some (cause, va) → cause ≠ .memErr → ∃ v v', v.storeElem l x x.rec_ n = (v', .error (cause, va)) ∧ SameMemory s v) ∧
    (∀ u all n fail, s.changes l x last = (u, all, n, fail) → ∃ ps,
      (n < last → s.sectorChanges l x = (u, ps, n, fail) ∧ ∀ p, p ∈ ps ↔ p ∈ all ∧ p.elem < n ∧ ¬made p) ∧
      (last ≤ n → s.sectorChanges l x = (u, ps, n, none) ∧
        ∀ p, p ∈ ps ↔ p ∈ all ∧ ¬made p ∧ ∃ q ∈ all, q.elem ∈ es ∧ q.line = p.line)) ∧
    (x.state = .sized → x.op = 1 → x.asked = none → x.fars = [] → ∀ u ps n fail, s.sectorChanges l x = (u, ps, n, fail) →
      ((∃ p ∈ ps, p.isFar = true) → (∀ far, exec (.tugStop l id far) s = .next s) ∧ Runs (.tugSectorLand l id) s fun t =>
        withX { x with fars := ps.filter Patch.isFar, lines := stored (ps.filter Patch.isFar) n } (t.core l).xfers ∧
          SameCores l s t ∧ SameMemory s t) ∧
      (roomy → (∀ p ∈ ps, p.isFar = false) → fail = none → ∃ v w, s.nextSector l x none = (v, w, stored ps n, none) ∧
        Runs (.tugSectorLand l id) s fun t => lands v w (stored ps n) t ∧ (t.core l).full = c.full ∧
        (∀ a, Changed ps (.memory a) (s.byte a) (t.byte a)) ∧
        (∀ p ∈ ps, ∀ a, p.place = .memory a → (t.line (a / 128)).wts = max x.clock ((s.line (a / 128)).rts + 1) ∧
          (t.line (a / 128)).wts ≤ w) ∧
        ∀ ln, (∀ p ∈ ps, p.line ≠ .memory (128 * ln)) → t.line ln = s.line ln) ∧
      (roomy → (∀ p ∈ ps, p.isFar = false) → ∀ cause v, fail = some (cause, v) → ∀ far, Runs (.tugStop l id far) s fun t =>
        (∃ w, stopped { x with stored := max x.stored w, lines := stored ps n } cause v t) ∧ withdrawn c.pool (t.core l).pool ∧
          (t.core l).full = c.full ∧ ∀ a, Changed ps (.memory a) (s.byte a) (t.byte a))) ∧
    (x.state = .sized → x.op = 1 → ∀ q, x.asked = some q → exec (.tugSectorLand l id) s = .next s ∧
      (roomy → ∀ far : FarFail, Runs (.tugStop l id (some far)) s fun t => stopsAt q.2.2 (causeOfCode far.code) (u64 q.2.1) t) ∧
      ∀ r : Reply, (x.awaits r = true ↔ r.slot = x.slot ∧ r.entry = 0 ∧ q.1 % 2 ^ 32 = r.serial % 2 ^ 32) ∧
        (r.core = l → (∀ h ∈ s.reqs, h.answer ≠ some r) → c.xfers.find? (·.awaits r) = some x →
          (r.status = 0 → Runs (.memoryReply r) s fun t =>
            withX { x with stored := max x.stored r.clock, asked := none } (t.core l).xfers ∧ SameCores l s t ∧ SameMemory s t) ∧
          (roomy → r.status ≠ 0 → Runs (.memoryReply r) s fun t => stopsAt q.2.2 (causeOf r.status) (u64 q.2.1) t))) ∧
    (∀ m a p ps, x.state = .sized → x.op = 1 → x.asked = none → x.fars = p :: ps → p.place = .far m a → (∀ q ∈ x.fars, q.mask < 256) →
      let touched (j : Nat) : Prop := j / 128 = a / 128 ∧ ∃ q ∈ x.fars, q.place = .far m j
      ∃ b n, touched b ∧ 0 < n ∧ touched (b + n - 1) ∧ (∀ j, touched j → b ≤ j ∧ j < b + n) ∧
        (s.repliesFull l = true ∨ s.outputFull (s.farStore l x m b (List.replicate n 0)) = true →
          exec (.tugSectorLand l id) s = .next s) ∧
        (s.repliesFull l = false → s.outputFull (s.farStore l x m b (List.replicate n 0)) = false → ∃ data : List Byte, data.length = n ∧
          (∀ j, j < n → ∃ y, Changed x.fars (.far m (b + j)) y (data.getD j 0)) ∧
          let v : State := { s with free := s.free + 1 }
          let pk := v.farStore l x m b data
          (v.sendPacket pk = none → roomy → Runs (.tugSectorLand l id) s fun t => stopsAt p.elem .remote (u64 p.va) t) ∧
          ∀ u, v.sendPacket pk = some u → Runs (.tugSectorLand l id) s fun t => t.linkOut = u.linkOut ∧ t.serial = u.serial + 1 ∧
            ∃ y, withX y (t.core l).xfers ∧ y.asked = some (u.serial, p.va, p.elem) ∧
              ∀ q, q ∈ y.fars ↔ q ∈ x.fars ∧ q.line ≠ p.line)) ∧
    (∀ (y : Core) (f h code : Nat), fmtOk f = true → h % poolHalves f = 0 → (y.setElem f h code).elem f h = code % 2 ^ fmtBits f ∧
      (∀ h', h' % poolHalves f = 0 → h' ≠ h → (y.setElem f h code).elem f h' = y.elem f h') ∧
      ∀ w, Map.get false (y.setElem f h code).full w = if w = h / 2 / 4 then true else Map.get false y.full w)

/-- A transfer is sized, reads and writes its elements by the layout, lands its sectors in the pool or in memory with the barrier counted down
and completed, loads a table, or stops with its cause. That a sector of a store changes the lines it touches at once and that far stores
go one acknowledged after another is log entry 15 (DEDUCED); what another module holds and answers is log entry 1. -/
def Obligations.TugTransfers : Prop :=
  Sys2Proof.Part.TugElements ∧ Sys2Proof.Part.TugTransfers

/-! ### Objects, barriers, groups and collectives (spec/13) -/

/-- R290, R291: obj(va, k): ALIGN, then translation and RD, then PROT for a page that is no object page and XLATE past the last slot. -/
def Sys2Proof.Part.ObjectOperands : Prop :=
  ∀ (d n : Nat) (s u : State) (va : DWord) (r : Except Cause Place) (i : Instr), va = s.a n →
    i ∈ [.bjoin d n, .binit d n, .bqry d n, .gform d n] → s.accepts 5 = true →
    (va.toNat % 64 ≠ 0 → Traps i s .align va) ∧
    (va.toNat % 64 = 0 → s.resolve s.issue.lid va.toNat .rd = (u, r) →
      (∀ c, r = .error c → exec i s = trap c va u) ∧
      (∀ a, r = .ok (.memory a) ∨ r = .ok (.host a) → exec i s = trap .prot va u) ∧
      (∀ a, r = .ok (.object a) → 2 ^ 26 ≤ a → exec i s = trap .xlate va u) ∧
      ∀ a, r = .ok (.object a) → a < 2 ^ 26 → s.objRef va = (u, .here (a / 64)))

/-- R292, R297, R298, R299: the barrier forms on an object of this module. BGONE for a wait on a slot that holds no barrier is log entry 27
(DESIGN CHOICE), and FEATURE before the check of an arrival's reserved bits log entry 26 (DEDUCED). -/
def Sys2Proof.Part.Barriers : Prop :=
  ∀ (d n k v : Nat) (s u : State) (va : DWord), s.next ≠ END → va = s.a n → s.objRef va = (u, .here k) → v = Z (s.g d) →
    let slot (o : Obj) (t : State) : Prop := t.obj k = o ∧ ∀ j, j ≠ k → t.obj j = s.obj j
    let went (ds : List Nat) (p : Nat) (t : State) : Prop :=
      Went { u with objects := t.objects } { u.me with pts := max u.me.pts p } u.slot ds [] s.next s t ∧ SameMemory s t
    let both (x y : Word) (p : Nat) (i : Instr) : Prop := Runs i s fun t => t.g d = x ∧ t.g (d + 1) = y ∧ slot (u.obj k) t ∧ went [d, d + 1] p t
    ((∀ b, u.obj k ≠ .barrier b) →
      (2 ^ 31 ≤ v → exec (.bjoin d n) s = barrierTrap 1 va u) ∧ (v < 2 ^ 31 → both 0 2 0 (.bjoin d n))) ∧
    (u.obj k = .free → both 0 0xFFFFFFFF 0 (.bqry d n)) ∧
    (∀ g, u.obj k = .group g → both (u32 g.epoch) (u32 (2 ^ 31 + g.live.length)) 0 (.bqry d n) ∧
      exec (.binit d n) s = barrierTrap 1 va u) ∧
    (∀ b, u.obj k = .barrier b → 5 ≤ b.scope → u.accepts 5 = false →
      exec (.bjoin d n) s = trap .feature va u ∧ exec (.bqry d n) s = trap .feature va u) ∧
    (∀ b, u.obj k = .barrier b → (5 ≤ b.scope → u.accepts 5 = true) →
      both (u32 b.phase) (u32 (b.count - b.arr)) 0 (.bqry d n) ∧
      (2 ^ 31 < v → exec (.bjoin d n) s = trap .illegal (u64 v) u) ∧
      (v = 2 ^ 31 → u.inScope b u.dev.mnum s.issue.lid = false → exec (.bjoin d n) s = barrierTrap 2 va u) ∧
      (v = 2 ^ 31 → u.inScope b u.dev.mnum s.issue.lid = true → Runs (.bjoin d n) s fun t => t.g d = u32 b.phase ∧ t.g (d + 1) = 0 ∧
        went [d, d + 1] 0 t ∧ slot (.barrier (if b.arr + 1 = b.count
          then { b with phase := (b.phase + 1) % 2 ^ 31, arr := 0, pclk := max b.aclk s.me.pts, aclk := 0 }
          else { b with arr := b.arr + 1, aclk := max b.aclk s.me.pts })) t) ∧
      (v < 2 ^ 31 → b.phase = v → exec (.bjoin d n) s = block (.bjoin d n) u) ∧
      (v < 2 ^ 31 → b.phase ≠ v → both (u32 b.phase)
        (if 1 ≤ (b.rphase + 2 ^ 31 - v) % 2 ^ 31 ∧ (b.rphase + 2 ^ 31 - v) % 2 ^ 31 ≤ 2 ^ 30 then 1 else 0) b.pclk (.bjoin d n))) ∧
    ((∀ g, u.obj k ≠ .group g) →
      (v = 0xFFFFFFFF → Runs (.binit d n) s fun t => t.g d = 0 ∧ slot .free t ∧ went [d] 0 t) ∧
      (v ≠ 0xFFFFFFFF → (2 ^ 27 ≤ v ∨ v / 2 ^ 20 % 16 ≠ 0 ∨ v % 2 ^ 20 = 0 ∨ v / 2 ^ 24 % 8 = 7) →
        exec (.binit d n) s = trap .illegal (u64 v) u) ∧
      (v < 2 ^ 27 → v / 2 ^ 20 % 16 = 0 → v % 2 ^ 20 ≠ 0 → v / 2 ^ 24 % 8 ≠ 7 →
        (5 ≤ v / 2 ^ 24 % 8 → u.accepts 5 = false → exec (.binit d n) s = trap .feature va u) ∧
        ((5 ≤ v / 2 ^ 24 % 8 → u.accepts 5 = true) → ∀ p c, (u.obj k = .free → p = 0 ∧ c = 0) →
          (∀ b, u.obj k = .barrier b → p = (b.phase + 1) % 2 ^ 31 ∧ c = b.pclk) →
          Runs (.binit d n) s fun t => t.g d = u32 p ∧ went [d] 0 t ∧
            slot (.barrier ⟨v % 2 ^ 20, 0, p, p, v / 2 ^ 24 % 8, (u.dev.mnum, s.issue.lid), c, 0⟩) t)))

/-- R104, R297, R299: who waits for a phase that is over goes on. The waits of a core are tried again the oldest first, and those for a phase
the oldest first whatever their core, before anything else happens; a `bjoin` whose phase is over completes with PCLK; the hitch answers the
waiters of other modules, the oldest first, with the phase, OK or BRESET (BGONE where the barrier is gone, log entry 27) and PCLK, and
changes nothing of the module but what it sends. The words of its answer are log entry 19 (PRESUMED). -/
def Sys2Proof.Part.BarrierWaiters : Prop :=
  (∀ (c : Core), c.waiters.Pairwise (fun a b => a.2.since ≤ b.2.since) ∧ ∀ k w, (k, w) ∈ c.waiters ↔
    k < 4 ∧ (c.slot k).wait = some w ∧ w.poll = true ∧ (c.slot k).st = .ready ∧ c.stops k = false) ∧
  (∀ (s : State),
    let goes (l k : Nat) (w : Wait) : Bool := !stillWaits l k w (exec w.instr { s with issue := w.issue l k })
    s.joiners.Pairwise (fun a b => a.2.2.since ≤ b.2.2.since) ∧
    (∀ l k w, (l, k, w) ∈ s.joiners ↔ (∃ c, (l, c) ∈ s.cores ∧ c.runs = true ∧ (k, w) ∈ c.waiters) ∧ ∃ d n, w.instr = .bjoin d n) ∧
    ∀ ys l k w zs, s.joiners = ys ++ (l, k, w) :: zs → (∀ y ∈ ys, goes y.1 y.2.1 y.2.2 = false) → goes l k w = true →
      (∀ e ∈ s.cores, e.2.runs = true → ∀ v ∈ e.2.waiters, onRing v.2.instr = true → goes e.1 v.1 v.2 = false) →
      step s = exec w.instr { s with issue := w.issue l k }) ∧
  (∀ (l k d n o : Nat) (s u : State) (w : Wait) (ws : List (Nat × Wait)) (b : Barrier), (s.core l).runs = true →
    (s.core l).allHalted = false → (∀ j, j < 4 → (s.slotAt l j).stepDue = none ∧ (s.slotAt l j).takesNotice = false) →
    (s.core l).waiters = (k, w) :: ws → w.instr = .bjoin d n → w.start + u64 w.length ≠ END → Z (Map.get 0 (s.slotAt l k).regs d) < 2 ^ 31 →
    (s.resume l k w).objRef (Map.get 0 (s.slotAt l k).aregs n) = (u, .here o) → u.obj o = .barrier b → (5 ≤ b.scope → u.accepts 5 = true) →
    b.phase ≠ Z (Map.get 0 (s.slotAt l k).regs d) →
    ∃ t, s.issueOn exec l = some (.next t) ∧ (t.slotAt l k).wait = none ∧ (t.slotAt l k).pc = w.start + u64 w.length ∧
      Map.get 0 (t.slotAt l k).regs d = u32 b.phase ∧ (t.core l).pts = max (s.core l).pts b.pclk) ∧
  ∀ (m k p c : Nat) (s : State), m = s.dev.mnum → s.phaseOf k = (p, c) →
    (Runs (.barrierCompletion m k p c) s fun t => t.farWaits = s.farWaits.filter (fun w => !(w.1 == k && s.farReady w)) ∧
      t.cores = s.cores ∧ t.objects = s.objects ∧ SameMemory s t) ∧
    (∀ w ∈ s.farWaits, w.1 = k → ∀ v, barOpOf w.2 = .join v → (s.farReady w = true ↔ ∀ b, s.obj k = .barrier b → b.phase ≠ Z v)) ∧
    ∀ w v, s.farWaits.filter (fun w => w.1 == k && s.farReady w) = [w] → barOpOf w.2 = .join v → v.getLsbD 31 = false →
      let u : State := { s with farWaits := s.farWaits.filter fun w => !(w.1 == k && s.farReady w) }
      let sends (x y : Word) (q : Nat) : Prop :=
        exec (.barrierCompletion m k p c) s = .next (u.answer (Packet.reply w.2 7 0 q (leBytes 3 4 ++ leBytes (Z x) 4 ++ leBytes (Z y) 4)))
      (∀ b, s.obj k = .barrier b → sends (u32 b.phase)
        (if 1 ≤ (b.rphase + 2 ^ 31 - Z v) % 2 ^ 31 ∧ (b.rphase + 2 ^ 31 - Z v) % 2 ^ 31 ≤ 2 ^ 30 then 1 else 0) b.pclk) ∧
      ((∀ b, s.obj k ≠ .barrier b) → sends 0 2 0)

/-- bjoin, binit and bqry check their object and act on the barrier; the last arrival completes the phase, and every waiter, here or at
another module, goes on. BGONE for a wait on a slot without a barrier is log entry 27 (DESIGN CHOICE), FEATURE before the check of an
arrival log entry 26 (DEDUCED), and the words of the far reply log entry 19 (PRESUMED). -/
def Obligations.BarrierForms : Prop :=
  Sys2Proof.Part.ObjectOperands ∧ Sys2Proof.Part.Barriers ∧ Sys2Proof.Part.BarrierWaiters

/-- R295, R306, R320: a re-formation at its leader and at its members: E is 1 + the highest epoch of an answer, and COMMIT carries and
applies the decisions about collectives and shards. That D after COMMIT the leader passes over silent acknowledgements and answers the
FORMs, that the rank asked after a silent leader is the next live one in ascending order, and that a COMMIT counts only from the leader
whose PREPARE was taken last, is log entry 29 (DEDUCED). -/
def Sys2Proof.Part.Reformation : Prop :=
  ∀ (n : Nat) (s : State) (g : Group), s.groupAt n = some g →
    let away (ds : List Nat) : List Nat := g.live.filter fun r => r ∉ ds
    let silent (ld : Lead) (r : Nat) : Prop := r ∈ ld.asked ∧ r ∉ ld.drop ∧ ∀ a ∈ ld.answers, a.rank ≠ r
    (∀ src drop, g.lead = none → (drop = [] ∨ ∃ r ∈ drop, r ∈ g.live) → away drop ≠ [] → Runs (.form n src drop) s
      (Hitched n { g with lead := some ⟨drop, away drop, [], [src], none, []⟩ } ((away drop).map fun r => (g.modOf r, .prepare n g.rank)) s)) ∧
    (∀ src drop, g.lead = none → drop ≠ [] → (∀ r ∈ drop, r ∉ g.live) →
      Runs (.form n src drop) s (Hitched n g [(src % 2 ^ 13, .formAnswer n src g.epoch g.live)] s)) ∧
    (∀ src drop ld, g.lead = some ld → ld.committed = none → (∃ r, silent ld r ∧ r ∉ drop) → Runs (.form n src drop) s
      (Hitched n { g with lead := some { ld with
        drop := ld.drop ++ drop.filter (fun r => r ∉ ld.drop), forms := ld.forms ++ [src] } } [] s)) ∧
    (∀ leader, Runs (.prepare n leader) s fun t => ∃ a : PrepAnswer, a.obj = n ∧ a.rank = g.rank ∧ a.epoch = g.epoch ∧
      (∀ h ∈ s.holds, h.obj = n → h.epoch = g.epoch → ∃ c ∈ a.colls, c.seq = h.seq ∧ c.held = h.result.map (·.1)) ∧
      (∀ h ∈ s.shards, h.obj = n → (h.role = 1 → ⟨h.model, h.shard, 1, s.dev.mnum⟩ ∈ a.shards) ∧
        ∀ q, h.role = 2 → h.opening = false → h.partner = some q → ⟨h.model, h.shard, 2, q⟩ ∈ a.shards) ∧
      Hitched n { g with forming := true, prepared := some leader, overdue := false } [(g.modOf leader, .prepareAnswer a)] s t) ∧
    (∀ a ld, g.lead = some ld → ld.committed = none → a.obj = n → silent ld a.rank →
      ((∃ r, silent ld r ∧ r ≠ a.rank) → Runs (.prepareAnswer a) s
        (Hitched n { g with lead := some { ld with answers := ld.answers ++ [a] } } [] s)) ∧
      ((∀ r, silent ld r → r = a.rank) → ld.acks = [] → Runs (.prepareAnswer a) s fun t => ∃ e live cs hs,
        (∀ b ∈ ld.answers ++ [a], b.epoch < e) ∧ (∃ b ∈ ld.answers ++ [a], e = b.epoch + 1) ∧
        CommitDecides g (ld.answers ++ [a]) live cs hs ∧
        (live = ld.asked.filter fun r => r ∉ ld.drop ∧ (ld.answers ++ [a]).any (fun b => b.rank == r) = true) ∧
        Hitched n { g with lead := some { ld with answers := ld.answers ++ [a], committed := some (e, live) } }
          (live.map fun r => (g.modOf r, .commit n ⟨e, g.rank⟩ live cs hs)) s t)) ∧
    (∀ e live cs hs leader, g.prepared = some leader → g.epoch < e →
      let commits (P : State → Prop) : Prop := Runs (.commit n ⟨e, leader⟩ live cs hs) s P
      (commits fun t => t.groupAt n = some { g with
          epoch := e, live := live, forming := false, prepared := none, overdue := false, held := [] } ∧
        (∀ j, j ≠ n → t.obj j = s.obj j) ∧ (∀ h ∈ t.holds, h.obj ≠ n) ∧ (∀ r ∈ t.roots, r.obj ≠ n) ∧
        ((∀ h ∈ s.holds, h.obj ≠ n) → (∀ h ∈ s.shards, h.obj ≠ n) →
          ToldAll [(g.modOf leader, .commitAck n g.rank)] { s with agenda := s.agenda ++ g.held.map fun x => .happen (x.after e) } t)) ∧
      (∀ h i l c st, s.holds.filter (fun x => x.obj == n && x.epoch == g.epoch && !x.ended) = [h] → (∀ x ∈ s.shards, x.obj ≠ n) →
        h.issuer = some i → l = s.whereIs i.lid 64 → c = s.core l → c.uid = i.uid →
        st = ((cs.find? fun x => x.seq == h.seq).map fun x => x.status).getD 4 → st % 256 ≠ 0 →
        commits fun t => SameMemory s t ∧ ∀ x ∈ c.colls, x.id = i.id → x.obj = n → x.seq = h.seq → x.epoch = g.epoch →
          { x with ended := some (u32 st, 0) } ∈ (t.core l).colls) ∧
      ∀ h, s.shards.filter (fun x => x.obj == n) = [h] → s.shardOf h.model h.shard = some h → (∀ x ∈ s.holds, x.obj ≠ n) →
        let subs := h.subs.filter fun m => m ∈ g.modsOf live
        let gone : Prop := ∃ q, h.partner = some q ∧ q ∉ g.modsOf live
        let named := (hs.find? fun x => x.model == h.model && x.shard == h.shard).map fun x => x.module_
        let record (r : CloseRec) (t : State) : Prop :=
          ∀ m ∈ subs, ∃ c, Told m (.closeRecordArrival h.model h.shard e { r with clock := c }) s t
        let again (y : Shard) (t : State) : Prop := ∀ b, b < h.nblk → h.appl.testBit b = true → h.blen % 32 = 0 → h.master.va % 32 = 0 →
          (∀ a ∈ h.master.pages, a % 2 ^ 16 = 0) → Multicast y b e s t
        (h.role = 0 → commits fun t => OnlyShard { h with subs := subs, primary := if h.opening then h.primary else named } s t) ∧
        (h.role = 1 → ¬gone → commits fun t => OnlyShard { h with subs := subs } s t) ∧
        (h.role = 1 → gone → h.passing = none → commits fun t =>
          let y : Shard := { h with subs := subs, partner := none, mack := h.mack ||| h.appl }
          OnlyShard y s t ∧ again y t) ∧
        (h.role = 2 → ¬(gone ∧ named = some s.dev.mnum) → commits fun t => OnlyShard { h with subs := subs } s t) ∧
        (h.role = 2 → gone → named = some s.dev.mnum → commits fun t => ∃ r : CloseRec, r.num = h.cnum + 1 ∧ r.status = 0x12 ∧
          r.step = h.step ∧ r.missing = 2 ^ h.nblk - 1 - ((2 ^ h.nblk - 1) &&& h.appl) ∧
          let y : Shard := { h with
            subs := subs, role := 1, partner := none, recv := h.appl, mack := h.appl, closing := none, passing := none, closers := [],
            passers := [], cnum := h.cnum + 1, latest := some r }
          OnlyShard y s t ∧ record r t ∧ (∀ q, h.latest = some q → record q t) ∧ again y t)) ∧
    (∀ e ld live cs hs, e ≤ g.epoch ∨ g.prepared ≠ some ld → exec (.commit n ⟨e, ld⟩ live cs hs) s = .next s) ∧
    (∀ r ld e live, g.lead = some ld → ld.committed = some (e, live) →
      ((∃ k ∈ live, k ∉ ld.acks ∧ k ≠ r) → Runs (.commitAck n r) s
        (Hitched n { g with lead := some { ld with acks := ld.acks ++ [r] } } [] s)) ∧
      ((∀ k ∈ live, k ∈ ld.acks ∨ k = r) → Runs (.commitAck n r) s
        (Hitched n { g with lead := none } (ld.forms.map fun f => (f % 2 ^ 13, .formAnswer n f e live)) s)) ∧
      Runs (.reformationDeadline n) s
        (Hitched n { g with lead := none } (ld.forms.map fun f => (f % 2 ^ 13, .formAnswer n f e live)) s)) ∧
    (∀ ld live, g.lead = some ld → ld.committed = none → ld.acks = [] →
      live = ld.asked.filter (fun r => r ∉ ld.drop ∧ ld.answers.any (fun b => b.rank == r) = true) → live ≠ [] →
      Runs (.reformationDeadline n) s fun t => ∃ e drop cs hs, (∀ b ∈ ld.answers, b.epoch < e) ∧ (∃ b ∈ ld.answers, e = b.epoch + 1) ∧
        CommitDecides g ld.answers live cs hs ∧
        Hitched n { g with lead := some { ld with drop := drop, committed := some (e, live) } }
          (live.map fun r => (g.modOf r, .commit n ⟨e, g.rank⟩ live cs hs)) s t) ∧
    (∀ a as r, g.lead = none → g.asks = a :: as → g.live.find? (fun r => a.leader < r) = some r →
      Runs (.reformationDeadline n) s fun t => ∃ drop : List Nat, (∀ k, k ∈ drop ↔ k ∈ a.drop ∨ k = a.leader) ∧
        Hitched n { g with asks := as ++ [⟨s.serial, a.asker, drop, r⟩] } [(g.modOf r, .form n (s.dev.mnum + 2 ^ 13 * s.serial) drop)] s t) ∧
    (g.overdue = true → exec (.commitTimeout n) s = .next s) ∧
    ∀ r k, g.prepared = some r → g.overdue = false → g.live.find? (fun k => k ≠ r) = some k → Runs (.commitTimeout n) s
      (Hitched n { g with overdue := true, asks := g.asks ++ [⟨s.serial, .hitch, [r], k⟩] }
        [(g.modOf k, .form n (s.dev.mnum + 2 ^ 13 * s.serial) [r])] s)

/-- R296: `gform` traps on a slot that holds no group, on a group its module has left and on a bad set; else it sends FORM to the leader
and waits; the answer gives E, or 0 where the module is no longer live. -/
def Sys2Proof.Part.GroupForm : Prop :=
  ∀ (d n k v : Nat) (s u : State) (va : DWord), s.accepts 5 = true → va = s.a n → s.objRef va = (u, .here k) → v = Z (s.g d) →
    (u.groupAt k = none → exec (.gform d n) s = barrierTrap 3 va u) ∧
    (∀ g, u.groupAt k = some g →
      (g.rank ∉ g.live → exec (.gform d n) s = barrierTrap 4 va u) ∧
      (g.rank ∈ g.live → (2 ^ 31 ≤ v ∧ (2 ^ 13 ≤ v - 2 ^ 31 ∨ g.nmem ≤ v - 2 ^ 31) ∨ v < 2 ^ 31 ∧ ∃ r, g.nmem ≤ r ∧ v.testBit r = true) →
        exec (.gform d n) s = trap .illegal (if 2 ^ 31 ≤ v ∧ 2 ^ 13 ≤ v - 2 ^ 31 then u64 v else u64 s.issue.word) u) ∧
      (g.rank ∈ g.live → ∀ drop, (2 ^ 31 ≤ v ∧ v - 2 ^ 31 < 2 ^ 13 ∧ v - 2 ^ 31 < g.nmem ∧ drop = [v - 2 ^ 31] ∨
          v < 2 ^ 31 ∧ (∀ r, v.testBit r = true → r < g.nmem) ∧ drop = (List.range 31).filter fun r => v.testBit r) →
        Runs (.gform d n) s fun t => (∃ a : Ask, a.asker = .context s.issue.lid s.issue.slot (s.issue.since.getD s.stamp) ∧ a.drop = drop ∧
            t.groupAt k = some { g with asks := g.asks ++ [a] } ∧
            ToldAll [(g.modOf g.leader, .form k (s.dev.mnum + 2 ^ 13 * a.id) drop)] s t) ∧
          (∃ w, t.slot = { s.slot with wait := some w, pc := s.issue.start } ∧ w.instr = .gform d n ∧ w.poll = false ∧
            w.since = s.issue.since.getD s.stamp) ∧ SameCores s.issue.lid s t ∧ SameMemory s t)) ∧
    ∀ (g : Group) (ys zs : List Ask) (a : Ask) (l j e : Nat) (live : List Nat) (w : Wait), u.groupAt k = some g → g.asks = ys ++ a :: zs →
      (∀ b ∈ ys, b.id ≠ a.id) → (∀ b ∈ zs, b.asker ≠ a.asker ∨ b.id ≤ a.id) → (∀ b ∈ ys, b.asker ≠ a.asker ∨ b.id ≤ a.id) →
      a.asker = .context l j w.since → (g.rank ∈ live ∨ ∀ h ∈ u.holds, h.obj = k → h.ended = true) → (u.slotAt l j).wait = some w →
      w.instr = .gform d n → w.poll = false →
      w.start + u64 w.length ≠ END →
      Runs (.formAnswer k (u.dev.mnum + 2 ^ 13 * a.id) e live) u fun t =>
        Map.get 0 (t.slotAt l j).regs d = (if ∃ r ∈ live, g.modOf r = u.dev.mnum then u32 e else 0) ∧
        (t.slotAt l j).pc = w.start + u64 w.length ∧ (t.slotAt l j).wait = none ∧
        (∀ r, r ≠ d → Map.get 0 (t.slotAt l j).regs r = Map.get 0 (u.slotAt l j).regs r) ∧
        t.groupAt k = some { g with asks := g.asks.erase a } ∧ SameCores l u t ∧ SameMemory u t

/-- A FORM reaches the leader, PREPARE and COMMIT run by their steps with the decisions about collectives and shards, and gform returns the
new epoch, or 0 where its module is no longer live. The course of the hand-over between leaders is log entry 29 (DEDUCED). -/
def Obligations.GroupReformation : Prop :=
  Sys2Proof.Part.Reformation ∧ Sys2Proof.Part.GroupForm

/-- R291, R301, R303, R305, R308: `coll` checks its descriptor and its group, contributes, takes a request entry and gives the
collective's id; the group of another module is asked for first (log entries 19 and 27); a trap or a wait keeps nothing of its loads (log
entry 56); `cwait` gives the status word once it has ended, its clock joined. That BRANK is judged after the group has been found and SRC at
every rank of a broadcast is log entry 28 (DEDUCED). -/
def Sys2Proof.Part.CollectiveForms : Prop :=
  (∀ (bs : List Byte) (op : Nat), bs.length = 64 →
    let rd (o n : Nat) : Nat := leNat ((bs.drop o).take n)
    (collDesc bs op).1 = ⟨u64 (rd 0 8), u64 (rd 8 8), u64 (rd 0x10 8), rd 0x18 4, rd 0x1C 4, rd 0x20 2, rd 0x22 1⟩ ∧
    ((collDesc bs op).2 = false ↔ (∀ b ∈ bs.drop 0x23, b = 0) ∧
      (rd 0x22 1 = 0x00 ∨ rd 0x22 1 = 0x02 ∨ rd 0x22 1 = 0x14 ∨ rd 0x22 1 = 0x15) ∧ 1 ≤ rd 0x18 4 ∧ rd 0x18 4 ≤ 2 ^ 20 ∧
      (3 ≤ op → rd 0x22 1 ≠ 0x00 ∧ rd 0x22 1 ≠ 0x02))) ∧
  (∀ (d n imm m a e : Nat) (s u v x y : State) (va : DWord) (bs : List Byte) (p : Packet), s.accepts 5 = true → va = s.a n → imm < 2 ^ 6 →
    imm / 8 ≤ 5 → imm % 8 ≤ 3 → va.toNat % 64 = 0 → s.loadNow va 64 = (u, .ok bs) → (collDesc bs (imm / 8)).2 = false →
    u.objRef (collDesc bs (imm / 8)).1.group = (v, .far m a) → v.farGroup (collDesc bs (imm / 8)).1.group = none →
    FreeEntry s.slot e → x = (v.backTo s).setSlot { s.slot with half := some (leBytes (collDesc bs (imm / 8)).1.group.toNat 8) } →
    p = { dmod := m, smod := v.dev.mnum, pk := 3, core := s.issue.lid, slot := s.issue.slot, entry := e, serial := s.serial,
          clock := s.me.pts, addr := a, budget := (v.backTo s).deadline, status := 0, data := leBytes 4 4 ++ leBytes 0 4 } →
    x.repliesFull s.issue.lid = false → x.outputFull p = false → x.sendPacket p = some y → y.cores = x.cores → y.issue = x.issue → y.serial = x.serial →
    Runs (.coll d n imm) s fun t => t.linkOut = y.linkOut ∧ t.transit = y.transit ∧ SameCores s.issue.lid s t ∧ SameRegisters [] [] s t ∧
      (∃ w, t.slot.wait = some w ∧ w.instr = .coll d n imm ∧ w.poll = false) ∧
      ∃ en, Map.get none t.slot.entries e = some en ∧ en.use = .object ∧ en.serial = s.serial) ∧
  (∀ (d n imm op kind k e : Nat) (s u v w x y : State) (va : DWord) (bs : List Byte) (ds : CollDesc) (g : Group) (src dst : List Nat)
      (data : List Byte) (reason : Nat), s.next ≠ END → s.accepts 5 = true → va = s.a n → kind = imm % 8 → op = imm / 8 →
    (2 ^ 6 ≤ imm → imm < 2 ^ 10 → Traps (.coll d n imm) s .illegal (u64 s.issue.word)) ∧
    (imm < 2 ^ 6 → 5 < op ∨ 3 < kind → Traps (.coll d n imm) s .illegal (u64 s.issue.word)) ∧
    (imm < 2 ^ 6 → op ≤ 5 → kind ≤ 3 → va.toNat % 64 ≠ 0 → Traps (.coll d n imm) s .align va) ∧
    (imm < 2 ^ 6 → op ≤ 5 → kind ≤ 3 → va.toNat % 64 = 0 → s.loadNow va 64 = (u, .ok bs) →
      ((collDesc bs op).2 = true → exec (.coll d n imm) s = barrierTrap 7 va (u.backTo s)) ∧
      (collDesc bs op = (ds, false) → (u.objRef ds.group = (v, .here k) ∧ reason = 3 ∨
          (∃ m a, u.objRef ds.group = (v, .far m a)) ∧ v.farGroup ds.group = some k ∧ reason = 4) →
        (v.groupAt k = none → exec (.coll d n imm) s = barrierTrap reason ds.group (v.backTo s)) ∧
        (v.groupAt k = some g →
          (kind = 3 → g.nmem ≤ ds.brank → exec (.coll d n imm) s = barrierTrap 7 va (v.backTo s)) ∧
          ((kind = 3 → ds.brank < g.nmem) → g.rank ∉ g.live → exec (.coll d n imm) s = barrierTrap 4 ds.group (v.backTo s)) ∧
          ((kind = 3 → ds.brank < g.nmem) → g.rank ∈ g.live →
            (∀ q, g.lastSeq = some q → ds.seq ≤ q → exec (.coll d n imm) s = barrierTrap 5 va (v.backTo s)) ∧
            ((∀ q, g.lastSeq = some q → q < ds.seq) → ∀ cause tv,
              let srcs := v.elemPlaces .rd ds.src.toNat (collSize ds.fmt) (collCounts kind g.live.length ds.count).1
              let dsts := w.elemPlaces .wr ds.dst.toNat (collSize ds.fmt) (collCounts kind g.live.length ds.count).2
              let data_ := x.readElems (collSize ds.fmt) ds.src.toNat (if kind = 3 ∧ ds.brank ≠ g.rank then [] else src)
              (srcs = (w, .error (cause, tv)) → exec (.coll d n imm) s = trap cause tv (w.backTo s)) ∧
              (srcs = (w, .ok src) → dsts = (x, .error (cause, tv)) → exec (.coll d n imm) s = trap cause tv (x.backTo s)) ∧
              (srcs = (w, .ok src) → dsts = (x, .ok dst) →
                (x.slot.freeEntry = none ∨ g.forming = true → exec (.coll d n imm) s = block (.coll d n imm) (x.backTo s)) ∧
                (x.slot.freeEntry ≠ none → g.forming = false → data_ = (y, .error tv) →
                  exec (.coll d n imm) s = trap .memErr tv (y.backTo s)))) ∧
            ((∀ q, g.lastSeq = some q → q < ds.seq) →
              v.elemPlaces .rd ds.src.toNat (collSize ds.fmt) (collCounts kind g.live.length ds.count).1 = (w, .ok src) →
              w.elemPlaces .wr ds.dst.toNat (collSize ds.fmt) (collCounts kind g.live.length ds.count).2 = (x, .ok dst) →
              FreeEntry s.slot e → g.forming = false →
              x.readElems (collSize ds.fmt) ds.src.toNat (if kind = 3 ∧ ds.brank ≠ g.rank then [] else src) = (y, .ok data) →
              y.holdOf k g.epoch ds.seq = none →
              HasRead s x → HasRead s y → y.objects = s.objects → y.dev.mnum = s.dev.mnum → y.agenda = s.agenda → y.outbox = s.outbox →
              Runs (.coll d n imm) s fun t =>
                t.g d = u32 s.me.nextColl ∧ t.me.nextColl = (if 255 ≤ s.me.nextColl then 1 else s.me.nextColl + 1) ∧
                (∃ c ∈ t.me.colls, c = ⟨s.me.nextColl, k, g.epoch, ds.seq, none⟩) ∧
                (∃ en, Map.get none t.slot.entries e = some en ∧ en.use = .coll s.me.nextColl) ∧
                t.groupAt k = some { g with lastSeq := some ds.seq } ∧
                (∃ h ∈ t.holds, h.obj = k ∧ h.epoch = g.epoch ∧ h.seq = ds.seq ∧ h.dst = dst ∧ h.issuer.isSome = true ∧ h.ended = false) ∧
                ToldAll [(g.modOf g.leader, .collContribution ⟨k, g.rank, g.epoch, ds.seq, kind, op, ds.fmt, ds.count, ds.brank, data⟩)] s t ∧
                SameRegisters [d] [] s t ∧ AtPc s.next s t ∧ SameCores s.issue.lid s t ∧ t.mem = y.mem)))))) ∧
  ∀ (d v : Nat) (s : State) (r : CollRec) (ys zs : List CollRec), s.next ≠ END → s.accepts 5 = true → v = Z (s.g d) →
    (v / 2 ^ 8 % 2 ^ 23 ≠ 0 → Traps (.cwait d) s .illegal (u64 s.issue.word)) ∧
    (v / 2 ^ 8 % 2 ^ 23 = 0 →
      ((∀ c ∈ s.me.colls, c.id ≠ v % 2 ^ 8) → WritesG (.cwait d) s d fun w => w = 0xFFFFFFFF#32) ∧
      (s.me.colls = ys ++ r :: zs → zs.length < 64 → (∀ c ∈ zs, c.id ≠ v % 2 ^ 8) → r.id = v % 2 ^ 8 →
        (∀ w t, r.ended = some (w, t) → Runs (.cwait d) s fun u => u.g d = w ∧
          Went s { s.me with pts := max s.me.pts t } s.slot [d] [] s.next s u ∧ SameMemory s u) ∧
        (r.ended = none → 2 ^ 31 ≤ v → WritesG (.cwait d) s d fun w => w = 0xFFFFFFFE#32) ∧
        (r.ended = none → v < 2 ^ 31 → Waits (.cwait d) s)))

/-- R301, R302: what the members receive: a fold in rank order, all parts in rank order, or the named rank's data. -/
def Sys2Proof.Part.CollectiveData : Prop :=
  ∀ (cs : List Contribution) (free : List Byte) (p count size : Nat) (c : Contribution), cs ≠ [] → cs.head? = some c → c.count = count →
    size = collSize c.fmt →
    let elem (bs : List Byte) (i : Nat) : Nat := leNat ((bs.drop (size * i)).take size)
    (c.kind ≤ 1 → (∀ x ∈ cs, x.data.length = size * (if c.kind = 1 then cs.length * count else count)) → (c.kind = 1 → p < cs.length) →
      ∀ i, i < count →
      let at_ (x : Contribution) : Nat := elem x.data (if c.kind = 1 then p * count + i else i)
      let got := elem (collData cs free p) i
      let fold {α : Type} (f : α → α → α) (v : Nat → α) : α := (cs.drop 1).foldl (fun r x => f r (v (at_ x))) (v (at_ c))
      (c.fmt = 0x14 ∨ c.fmt = 0x15 →
        (c.op = 0 → got = (cs.map at_).sum % 2 ^ 32) ∧
        (c.op = 3 → ∀ b, b < 32 → got.testBit b = (cs.map at_).all fun v => v.testBit b) ∧
        (c.op = 4 → ∀ b, b < 32 → got.testBit b = (cs.map at_).any fun v => v.testBit b) ∧
        (c.op = 5 → ∀ b, b < 32 → got.testBit b = fold Bool.xor fun v => v.testBit b)) ∧
      (c.fmt = 0x15 → (c.op = 1 → got = fold max fun v => v) ∧ (c.op = 2 → got = fold min fun v => v)) ∧
      (c.fmt = 0x14 → (c.op = 1 → S (u32 got) = fold max fun v => S (u32 v)) ∧ (c.op = 2 → S (u32 got) = fold min fun v => S (u32 v))) ∧
      (c.fmt = 0x00 → (c.op = 0 → u32 got = fold (fun r x => (fAdd .ne r x).1) u32) ∧
        (c.op = 1 → u32 got = fold (fun r x => (fMinMax true r x).1) u32) ∧
        (c.op = 2 → u32 got = fold (fun r x => (fMinMax false r x).1) u32)) ∧
      (c.fmt = 0x02 → 2 ≤ cs.length →
        let wide (v : Nat) : Word := exactB32 (bf16.val v)
        (c.op = 0 → got = (narrow bf16 .ne (fold (fun r x => (fAdd .ne r x).1) wide)).1) ∧
        (c.op = 1 → got = (narrow bf16 .ne (fold (fun r x => (fMinMax true r x).1) wide)).1) ∧
        (c.op = 2 → got = (narrow bf16 .ne (fold (fun r x => (fMinMax false r x).1) wide)).1)) ∧
      (cs.length = 1 → got = at_ c)) ∧
    (c.kind = 2 → collData cs free p = (cs.map (·.data)).flatten) ∧
    (c.kind = 3 → ∀ ys x zs, cs = ys ++ x :: zs → (∀ y ∈ ys, y.rank ≠ c.brank) → x.rank = c.brank → collData cs free p = x.data)

/-- coll checks its descriptor and sends its contribution, cwait reports a collective, and the combined data is that of the rules. That BRANK
is judged after the group is found, and SRC at every rank of a broadcast, is log entry 28 (DEDUCED); what a trap or a wait keeps is log
entry 56; a GROUP of another module is log entries 19 and 27. -/
def Obligations.CollectiveForms : Prop :=
  Sys2Proof.Part.CollectiveForms ∧ Sys2Proof.Part.CollectiveData

/-- R294, R304, R305: a collective at its root: contributions, the agreement, the deadlines and the acknowledgements; the members silent
after RESULT count as lost (log entry 28, DEDUCED). -/
def Sys2Proof.Part.CollectiveRoots : Prop :=
  ∀ (n seq : Nat) (s : State) (g : Group), s.groupAt n = some g →
    let atRoot (r : Root) (t : State) : Prop := t.rootOf n g.epoch seq = some r ∧
      t = { s with roots := t.roots, agenda := t.agenda, outbox := t.outbox }
    let fresh : Root := ⟨n, g.epoch, seq, [], .collecting⟩
    let results (st : Nat) : List (Nat × Event) := g.live.map fun k => (g.modOf k, .collResult n g.epoch seq st [])
    (∀ c : Contribution, c.obj = n → c.seq = seq →
      (g.forming = true → Runs (.collContribution c) s (Hitched n { g with held := g.held ++ [.collContribution c] } [] s)) ∧
      (g.forming = false → c.epoch ≠ g.epoch → Runs (.collContribution c) s fun t =>
        ToldAll [(g.modOf c.rank, .collResult n c.epoch seq 4 [])] s t ∧ t = { s with agenda := t.agenda, outbox := t.outbox }) ∧
      (g.forming = false → c.epoch = g.epoch → ∀ r, r = (s.rootOf n g.epoch seq).getD fresh → r.st = .collecting →
        (∀ x ∈ r.got, x.rank ≠ c.rank) →
        ((∃ k ∈ g.live, k ≠ c.rank ∧ ∀ x ∈ r.got, x.rank ≠ k) → Runs (.collContribution c) s fun t =>
          atRoot { r with got := r.got ++ [c] } t ∧ ToldAll [] s t) ∧
        ((∀ k ∈ g.live, k = c.rank ∨ ∃ x ∈ r.got, x.rank = k) → ∀ cs, cs = g.live.filterMap (fun k => (r.got ++ [c]).find? fun x => x.rank == k) →
          (agree cs = false → Runs (.collContribution c) s fun t =>
            atRoot { r with got := r.got ++ [c], st := .sent (1 + 2 * 2 ^ 8) [] [] } t ∧ ToldAll (results (1 + 2 * 2 ^ 8)) s t) ∧
          (agree cs = true → (∀ x ∈ cs.head?, x.kind = 3 → ∃ y ∈ cs, y.rank = x.brank) → Runs (.collContribution c) s fun t =>
            atRoot { r with got := r.got ++ [c], st := .sent 0 [] [] } t ∧
            ToldAll ((List.range g.live.length).map fun p => (g.modOf (g.live.getD p 0), .collResult n g.epoch seq 0 (collData cs [] p))) s t)))) ∧
    (∀ e k, e ≠ g.epoch →
      let stray (i : Instr) : Prop := Runs i s fun t => Z t.dev.stray = min (Z s.dev.stray + 1) (2 ^ 32 - 1) ∧ t = { s with dev := t.dev }
      stray (.collQueryAnswer n ⟨e, seq⟩ k) ∧ stray (.resultAck n ⟨e, seq⟩ k) ∧ stray (.collRelease n e seq) ∧
        ∀ data, stray (.collResult n e seq 4 data)) ∧
    (s.rootOf n g.epoch seq = none → g.leader ≠ g.rank → Runs (.collQueryAnswer n ⟨g.epoch, seq⟩ g.rank) s fun t =>
      ToldAll [(g.modOf g.leader, .collQueryAnswer n ⟨g.epoch, seq⟩ g.rank)] s t ∧ t = { s with agenda := t.agenda, outbox := t.outbox }) ∧
    (∀ r, s.rootOf n g.epoch seq = some r → r.obj = n → r.epoch = g.epoch → r.seq = seq → g.forming = false →
      (r.st = .collecting → ∀ miss, miss = g.live.filter (fun k => !r.got.any fun x => x.rank == k) → Runs (.collDeadline n seq) s fun t =>
        atRoot { r with st := .querying miss [] } t ∧ ToldAll (miss.map fun k => (g.modOf k, .collQueryAnswer n ⟨g.epoch, seq⟩ k)) s t) ∧
      (∀ miss ans silent, r.st = .querying miss ans → silent = miss.filter (fun k => k ∉ ans) → silent ≠ [] →
        Runs (.collDeadline n seq) s fun t => ∃ k ∈ silent, (∀ j ∈ silent, k ≤ j) ∧
          atRoot { r with st := .sent (2 + 2 ^ 16 * k) silent [] } t ∧ ToldAll (results (2 + 2 ^ 16 * k)) s t) ∧
      (∀ miss ans k, r.st = .querying miss ans → k ∈ miss → k ∉ ans →
        ((∃ j ∈ miss, j ≠ k ∧ j ∉ ans) → Runs (.collQueryAnswer n ⟨g.epoch, seq⟩ k) s fun t =>
          atRoot { r with st := .querying miss (ans ++ [k]) } t ∧ ToldAll [] s t) ∧
        ((∀ j ∈ miss, j = k ∨ j ∈ ans) → Runs (.collQueryAnswer n ⟨g.epoch, seq⟩ k) s fun t => ∃ j ∈ miss, (∀ i ∈ miss, j ≤ i) ∧
          atRoot { r with st := .sent (1 + 2 ^ 8 + 2 ^ 16 * j) [] [] } t ∧ ToldAll (results (1 + 2 ^ 8 + 2 ^ 16 * j)) s t)) ∧
      (∀ st acks k, r.st = .sent st [] acks → k ∉ acks →
        ((∃ j ∈ g.live, j ≠ k ∧ j ∉ acks) → Runs (.resultAck n ⟨g.epoch, seq⟩ k) s fun t =>
          atRoot { r with st := .sent st [] (acks ++ [k]) } t ∧ ToldAll [] s t) ∧
        ((∀ j ∈ g.live, j = k ∨ j ∈ acks) → Runs (.resultAck n ⟨g.epoch, seq⟩ k) s fun t =>
          atRoot { r with st := .released } t ∧ ToldAll (g.live.map fun k => (g.modOf k, .collRelease n g.epoch seq)) s t)) ∧
      (∀ st lost acks k, r.st = .sent st lost acks → lost ≠ [] → (∀ j ∈ g.live, j ∈ lost ∨ j = k ∨ j ∈ acks) →
        Runs (.resultAck n ⟨g.epoch, seq⟩ k) s fun t => t.rootOf n g.epoch seq = some { r with st := .released } ∧ ∃ a : Ask,
          a.asker = .hitch ∧ a.drop = lost ∧ t.groupAt n = some { g with asks := g.asks ++ [a] }) ∧
      (∀ st acks, r.st = .sent st [] acks → (∃ k ∈ g.live, k ∉ acks) → Runs (.collDeadline n seq) s fun t =>
        t.rootOf n g.epoch seq = some { r with st := .released } ∧ (∃ a : Ask, a.asker = .hitch ∧
          t.groupAt n = some { g with asks := g.asks ++ [a] } ∧ (∀ k ∈ g.live, k ∉ acks → k ∈ a.drop))))

/-- R294, R304, R307: a collective at its member: RESULT is taken and acknowledged, RELEASE ends it, and 4D without an end starts a
re-formation. That a RESULT that meets STATE 1 is held and that status 4 ends it at once is log entry 28 (DEDUCED). -/
def Sys2Proof.Part.CollectiveMembers : Prop :=
  ∀ (n epoch seq st : Nat) (data : List Byte) (s : State) (g : Group), s.groupAt n = some g →
    (st ≠ 4 → g.forming = true → Runs (.collResult n epoch seq st data) s
      (Hitched n { g with held := g.held ++ [.collResult n epoch seq st data] } [] s)) ∧
    (st ≠ 4 → g.forming = false → epoch ≠ g.epoch → Runs (.collResult n epoch seq st data) s fun t =>
      Z t.dev.stray = min (Z s.dev.stray + 1) (2 ^ 32 - 1) ∧ t = { s with dev := t.dev }) ∧
    (st ≠ 4 → g.forming = false → epoch = g.epoch → Runs (.collResult n epoch seq st data) s fun t =>
      ToldAll [(g.modOf g.leader, .resultAck n ⟨epoch, seq⟩ g.rank)] s t ∧ (∀ k j, t.slotAt k j = s.slotAt k j) ∧ SameMemory s t ∧
      ((∀ h, s.holdOf n epoch seq = some h → h.ended = false) → ∃ h ∈ t.holds, h.obj = n ∧ h.epoch = epoch ∧ h.seq = seq ∧
        h.result = some (st, data))) ∧
    (epoch = g.epoch → ∀ (h : Hold) (i : Issuer) (l : Nat) (c : Core) (en : Entry), s.holdOf n epoch seq = some h →
      h.result = some (st, data) → h.ended = false → h.issuer = some i → l = s.whereIs i.lid 64 → c = s.core l → c.uid = i.uid →
      Map.get none (s.slotAt l i.slot).entries i.entry = some en → en.serial = i.serial → h.obj = n → h.epoch = epoch → h.seq = seq →
      st % 256 ≠ 0 → Runs (.collRelease n epoch seq) s fun t =>
        Map.get none (t.slotAt l i.slot).entries i.entry = none ∧ SameCores l s t ∧ SameMemory s t ∧
        (∀ x ∈ c.colls, x.id = i.id → x.obj = n → x.seq = seq → x.epoch = epoch →
          { x with ended := some (u32 st, 0) } ∈ (t.core l).colls) ∧
        ∃ x ∈ t.holds, x = { h with ended := true, clock := 0 }) ∧
    (epoch = g.epoch → ∀ (h : Hold) (i : Issuer) (l : Nat) (c : Core) (en : Entry), s.holdOf n epoch seq = some h →
      h.result = some (st, data) → h.ended = false → h.issuer = some i → l = s.whereIs i.lid 64 → c = s.core l → c.uid = i.uid →
      Map.get none (s.slotAt l i.slot).entries i.entry = some en → en.serial = i.serial → h.obj = n → h.epoch = epoch → h.seq = seq →
      st % 256 = 0 → data.length = h.size * h.dst.length → h.dst.Pairwise (fun a b => a + h.size ≤ b ∨ b + h.size ≤ a) →
      (∀ a ∈ h.dst, s.badPart a h.size = false) → (∀ ln, Fits s (max c.pts ((s.line ln).rts + h.dst.length))) →
      Runs (.collRelease n epoch seq) s fun t => Map.get none (t.slotAt l i.slot).entries i.entry = none ∧ SameCores l s t ∧
        (t.core l).pts = c.pts ∧
        (∀ k a j, h.dst[k]? = some a → j < h.size → t.byte (a + j) = data.getD (h.size * k + j) 0) ∧
        (∀ b, (∀ a ∈ h.dst, b < a ∨ a + h.size ≤ b) → t.byte b = s.byte b) ∧
        ∃ w, (∀ a ∈ h.dst, c.pts ≤ w ∧ (t.line (a / 128)).wts ≤ w) ∧
          ∀ x ∈ c.colls, x.id = i.id → x.obj = n → x.seq = seq → x.epoch = epoch → { x with ended := some (u32 st, w) } ∈ (t.core l).colls) ∧
    (st = 4 → epoch = g.epoch → ∀ (h : Hold), s.holdOf n epoch seq = some h → h.ended = false → h.issuer.isSome = true →
      Runs (.collResult n epoch seq st data) s fun t => SameMemory s t ∧ ∃ x ∈ t.holds, x = { h with result := some (4, []), ended := true, clock := 0 }) ∧
    (∀ (a : Nat) (bs : List Byte) (p size : Nat) (u : State), bs.length = size → u.badPart a size = false →
      ∀ b, (u.writeElems size p [a] bs).1.byte b = if a ≤ b ∧ b < a + size then bs.getD (b - a) 0 else u.byte b) ∧
    (g.forming = false → (∃ h ∈ s.holds, h.obj = n ∧ h.seq = seq ∧ h.issuer.isSome = true ∧ h.ended = false) →
      Runs (.collHoldTimeout n seq) s fun t => ∃ a : Ask, a.asker = .hitch ∧ a.drop = [] ∧
        Hitched n { g with asks := g.asks ++ [a] } [(g.modOf g.leader, .form n (s.dev.mnum + 2 ^ 13 * a.id) [])] s t)

/-- The root combines the contributions and sends RESULT, then RELEASE when all have acknowledged; a member holds and releases its result.
That a RESULT that meets STATE 1 is held, and that status 4 ends a collective at its member at once, is log entry 28 (DEDUCED). -/
def Obligations.CollectiveTraffic : Prop :=
  Sys2Proof.Part.CollectiveRoots ∧ Sys2Proof.Part.CollectiveMembers

/-! ### Parameter nodes (spec/12, spec/13) -/

/-- R283, R294, R313, R314: a push at the primary: its step decides; a new block's gradient is written to the stage, the block is marked
received, and its update call is queued, directly in the owner's run queue (log entry 30, DEDUCED); the answer carries the status. -/
def Sys2Proof.Part.Pushes : Prop :=
  ∀ (p : PnFrom) (blk step : Nat) (data : List Byte) (s : State) (h : Shard) (g : Group), s.shardOf p.model p.shard = some h →
    s.groupAt h.obj = some g → (∀ a ∈ h.stage.pages, a % 2 ^ 16 = 0) →
    let answered (st : Nat) : Prop := Runs (.pnPushRequest p blk step data) s fun t =>
      ToldAll [(p.smod, .pnPushAnswer { p with clock := t.hitchClock } st)] s t ∧ t.shards = s.shards ∧ t.cores = s.cores ∧ SameMemory s t
    (g.forming = true → Runs (.pnPushRequest p blk step data) s
      (Hitched h.obj { g with held := g.held ++ [.pnPushRequest p blk step data] } [] s)) ∧
    (g.forming = false → p.epoch ≠ g.epoch → answered 4) ∧
    (g.forming = false → p.epoch = g.epoch → h.role = 1 → blk < h.nblk →
      (step < h.step → answered 3) ∧ (h.step < step → answered 2) ∧
      (step = h.step → h.recv.testBit blk = true → answered 1) ∧
      (step = h.step → h.recv.testBit blk = false → h.passesComplete = false → ∀ o, o = s.whereIs h.owner 64 → (s.core o).uid = h.uid →
        (s.core o).exited = false → (s.core o).swapped = false → (s.core o).runq.length < 64 → h.calls = [] →
        p.model = h.model → p.shard = h.shard → h.stage.Apart (h.blen * blk) h.blen → data.length = h.blen → Calm s p.clock →
        Runs (.pnPushRequest p blk step data) s fun t =>
          (∃ r, (∀ b, r.testBit b = (h.recv.testBit b || b == blk)) ∧ OnlyShard { h with recv := r } s t) ∧
          ToldAll [(p.smod, .pnPushAnswer { p with clock := t.hitchClock } 0)] s t ∧ SameCores o s t ∧
          (∃ e, (t.core o).runq = (s.core o).runq ++ [e] ∧ e.kind = .update h.model h.shard blk h.step ∧ e.level = 1 ∧
            Map.get 0 e.args 0 = u32 blk ∧ Map.get 0 e.args 1 = u32 h.step ∧
            (Z (Map.get 0 e.args 2) + 2 ^ 32 * Z (Map.get 0 e.args 3)) = (h.stage.va + h.blen * blk) % 2 ^ 64) ∧
          RegionWritten h.stage (h.blen * blk) data s t ∧ max s.hitchClock p.clock ≤ t.hitchClock ∧ t.hitchClock ≤ (t.core o).pts))

/-- R283, R313, R315, R316: applied blocks, their streams to the mirror and their multicasts, and the update calls sent again. What the end
of an update task and an acknowledgement of the mirror do while STATE is 1 is log entry 30 (DEDUCED). -/
def Sys2Proof.Part.Updates : Prop :=
  ∀ (m k blk step epoch : Nat) (s : State) (h : Shard), s.shardOf m k = some h → h.model = m → h.shard = k →
    h.blen % 32 = 0 → h.master.va % 32 = 0 → h.moment.va % 32 = 0 → (∀ a ∈ h.master.pages ++ h.moment.pages, a % 2 ^ 16 = 0) →
    (∀ g, s.groupAt h.obj = some g → g.forming = true →
      Runs (.updateTaskEnd m k blk step) s (Hitched h.obj { g with held := g.held ++ [.updateTaskEnd m k blk step] } [] s) ∧
      (epoch = s.shardEpoch h → Runs (.mirrorAck m k blk step epoch) s
        (Hitched h.obj { g with held := g.held ++ [.mirrorAck m k blk step epoch] } [] s))) ∧
    (h.role = 1 → h.step = step → h.recv.testBit blk = true → h.appl.testBit blk = false → s.shardForming h = false → Calm s 0 →
      (h.partner = none → Runs (.updateTaskEnd m k blk step) s fun t => ∃ x : Shard, OnlyShard x s t ∧
        (∀ b, x.appl.testBit b = (h.appl.testBit b || b == blk)) ∧ (∀ b, x.mack.testBit b = (h.mack.testBit b || b == blk)) ∧
        Map.get 0 x.last blk = step ∧ x.recv = h.recv ∧ x.step = step ∧ t.cores = s.cores ∧ SameMemory s t ∧
        Multicast h blk (s.shardEpoch h) s t) ∧
      (∀ q, h.partner = some q → Runs (.updateTaskEnd m k blk step) s fun t => ∃ (x : Shard) (a b : List Byte) (c : Nat), OnlyShard x s t ∧
        (∀ b, x.appl.testBit b = (h.appl.testBit b || b == blk)) ∧ Map.get 0 x.last blk = step ∧ x.mack = h.mack ∧ t.cores = s.cores ∧
        SameMemory s t ∧ BlockBytes s h h.master blk a ∧ BlockBytes s h h.moment blk b ∧ max s.hitchClock (s.core (s.whereIs h.owner 64)).pts ≤ c ∧
        ToldAll [(q, .mirrorStream m k blk step (s.shardEpoch h) a b c)] s t)) ∧
    (epoch = s.shardEpoch h →
      (∀ q a b c, h.role = 2 → blk < h.nblk → h.partner = some q → a.length = h.blen → b.length = h.blen → Calm s c →
        h.master.Apart (h.blen * blk) h.blen → h.moment.Apart (h.blen * blk) h.blen →
        (∀ i j, i < h.blen → j < h.blen → h.master.at (h.blen * blk + i) ≠ h.moment.at (h.blen * blk + j)) →
        Runs (.mirrorStream m k blk step epoch a b c) s fun t => ∃ x : Shard,
          OnlyShard x s t ∧ (∀ b, x.appl.testBit b = (h.appl.testBit b || b == blk)) ∧ Map.get 0 x.last blk = step ∧ x.recv = h.recv ∧
          ToldAll [(q, .mirrorAck m k blk step epoch)] s t ∧ t.cores = s.cores ∧
          (∃ u, RegionWritten h.master (h.blen * blk) a s u ∧ RegionWritten h.moment (h.blen * blk) b u t)) ∧
      (h.role = 1 → h.step = step → h.appl.testBit blk = true → h.mack.testBit blk = false → s.shardForming h = false → Calm s 0 →
        Runs (.mirrorAck m k blk step epoch) s fun t => ∃ x : Shard, OnlyShard x s t ∧
          (∀ b, x.mack.testBit b = (h.mack.testBit b || b == blk)) ∧ x.appl = h.appl ∧ t.cores = s.cores ∧ SameMemory s t ∧
          Multicast h blk epoch s t) ∧
      (∀ tag ws c, h.role = 0 → h.opening = false → blk < h.nblk → ws.length = freshWidth h.blen h.ffmt → Calm s c →
        h.master.Apart ((freshWidth h.blen h.ffmt + 16) * blk) (freshWidth h.blen h.ffmt + 16) →
        Runs (.freshMulticast m k blk tag epoch ws c) s fun t => t.shards = s.shards ∧ t.cores = s.cores ∧
          RegionWritten h.master ((freshWidth h.blen h.ffmt + 16) * blk) (ws ++ leBytes tag 4 ++ List.replicate 12 0) s t ∧
          max s.hitchClock c ≤ t.hitchClock ∧
          ∃ w, w = max (max s.hitchClock c) (s.pastLeases h.master ((freshWidth h.blen h.ffmt + 16) * blk) (freshWidth h.blen h.ffmt + 16)) ∧
            ∀ j, j < freshWidth h.blen h.ffmt + 16 → (t.line (h.master.at ((freshWidth h.blen h.ffmt + 16) * blk + j) / 128)).wts = w)) ∧
    (epoch ≠ s.shardEpoch h →
      let stray (i : Instr) : Prop := Runs i s fun t => Z t.dev.stray = min (Z s.dev.stray + 1) (2 ^ 32 - 1) ∧ t = { s with dev := t.dev }
      (∀ a b c, stray (.mirrorStream m k blk step epoch a b c)) ∧ stray (.mirrorAck m k blk step epoch) ∧
      (∀ tag ws c, stray (.freshMulticast m k blk tag epoch ws c)) ∧ (∀ r, stray (.passedClose m k epoch r)) ∧
      (∀ r, stray (.closeRecordArrival m k epoch r)) ∧ ∀ num, stray (.closeAck m k num epoch)) ∧
    (blk ∈ h.calls → s.shardForming h = false → ∀ o, o = s.whereIs h.owner 64 → (s.core o).uid = h.uid → (s.core o).exited = false → (s.core o).swapped = false →
      (s.core o).runq.length < 64 → Runs (.updateCallResend m k blk) s fun t =>
        OnlyShard { h with calls := h.calls.filter fun b => b ≠ blk } s t ∧ SameCores o s t ∧ SameMemory s t ∧
        ∃ e, (t.core o).runq = (s.core o).runq ++ [e] ∧ e.kind = .update m k blk h.step ∧ e.level = 1)

/-- R283, R313, R317, R318, R319: closes at the primary, the mirror and the subscribers. What follows a passed INCOMPLETE record is log
entry 30 (DEDUCED). -/
def Sys2Proof.Part.Closes : Prop :=
  ∀ (m k : Nat) (s : State) (h : Shard) (g : Group), s.shardOf m k = some h → h.model = m → h.shard = k → s.groupAt h.obj = some g →
    let settled (b : Nat) : Prop := h.recv.testBit b = true ∧ h.appl.testBit b = true ∧ h.mack.testBit b = true
    let left : Nat := 2 ^ h.nblk - 1 - ((2 ^ h.nblk - 1) &&& h.recv)
    (∀ (p : PnFrom) (step : Nat) (force : Bool), p.model = m → p.shard = k → g.forming = false →
      let answered (st : Nat) : Prop := Runs (.pnCloseRequest p step force) s fun t =>
        ToldAll [(p.smod, .closeAnswer { p with clock := t.hitchClock } st 0)] s t ∧ t.shards = s.shards ∧ t.cores = s.cores
      (p.epoch ≠ g.epoch → answered 4) ∧
      (p.epoch = g.epoch → h.role = 1 → (step < h.step → answered 3) ∧
        (h.step < step → Runs (.pnCloseRequest p step force) s fun t =>
          OnlyShard { h with later := h.later ++ [(p, step, force)] } s t ∧ ToldAll [] s t) ∧
        (step = h.step → Runs (.pnCloseRequest p step force) s fun t =>
          OnlyShard { h with closing := some (h.closing.getD false || force), closers := h.closers ++ [p] } s t ∧ ToldAll [] s t))) ∧
    (h.role = 1 → h.passing = none → g.forming = false → ∀ f, h.closing = some f →
      (¬(∀ b, b < h.nblk → settled b ∨ f = true ∧ h.recv.testBit b = false) → exec (.closeSettled m k) s = .next s) ∧
      ((∀ b, b < h.nblk → settled b ∨ f = true ∧ h.recv.testBit b = false) →
        (∀ q, h.partner = some q → Runs (.closeSettled m k) s fun t => ∃ r : CloseRec, r.num = h.cnum + 1 ∧ r.status = 0x10 ∧ r.step = h.step ∧
          r.missing = left ∧ OnlyShard { h with passing := some r } s t ∧ ToldAll [(q, .passedClose m k g.epoch r)] s t) ∧
        (h.partner = none → h.pushes = [] → Runs (.closeSettled m k) s fun t => ∃ x : Shard, OnlyShard x s t ∧ x.step = (h.step + 1) % 2 ^ 32 ∧ x.recv = 0 ∧
          x.appl = 0 ∧ x.mack = 0 ∧ x.closers = (h.later.filter fun e => e.2.1 == (h.step + 1) % 2 ^ 32).map (·.1) ∧
          (x.closing = none ↔ x.closers = []) ∧ x.cnum = h.cnum + 1 ∧ t.cores = s.cores ∧
          ∃ r, x.latest = some r ∧ r.num = h.cnum + 1 ∧ r.status = 0x10 ∧ r.step = h.step ∧ r.missing = left ∧
            ToldAll (h.closers.map (fun p => (p.smod, .closeAnswer { p with epoch := g.epoch, clock := s.hitchClock } 0x10 left)) ++
              h.subs.map fun q => (q, .closeRecordArrival m k g.epoch { r with clock := s.hitchClock })) s t))) ∧
    (h.role = 1 → h.passing = none → g.forming = false → h.closing = some false → left ≠ 0 →
      Runs (.closeDeadline m k) s fun t => ∃ r : CloseRec, r.num = h.cnum + 1 ∧ r.status = 0x11 ∧ r.step = h.step ∧ r.missing = left ∧
        (h.partner = none →
          OnlyShard { h with
            closing := none, passing := none, closers := [], passers := [], cnum := h.cnum + 1, latest := some r } s t ∧
          ToldAll (h.closers.map (fun p => (p.smod, .closeAnswer { p with epoch := g.epoch, clock := s.hitchClock } 0x11 left)) ++
            h.subs.map fun q => (q, .closeRecordArrival m k g.epoch { r with clock := s.hitchClock })) s t) ∧
        ∀ q, h.partner = some q → OnlyShard { h with closing := none, closers := [], passers := h.closers, passing := some r } s t ∧
          ToldAll [(q, .passedClose m k g.epoch r)] s t) ∧
    (∀ r q, h.role = 2 → h.partner = some q → Runs (.passedClose m k g.epoch r) s fun t =>
      ToldAll [(q, .closeAck m k r.num g.epoch)] s t ∧
      (r.status = 0x10 → r.step = h.step →
        OnlyShard { h with cnum := r.num, latest := some r, step := (h.step + 1) % 2 ^ 32, appl := 0 } s t) ∧
      (r.status ≠ 0x10 → OnlyShard { h with cnum := r.num, latest := some r } s t)) ∧
    (∀ r, h.role = 1 → h.passing = some r → r.status = 0x11 → Runs (.closeAck m k r.num g.epoch) s fun t =>
      OnlyShard { h with passing := none, passers := [], cnum := r.num, latest := some r } s t ∧
      ToldAll (h.passers.map (fun p => (p.smod, .closeAnswer { p with epoch := g.epoch, clock := s.hitchClock } 0x11 r.missing)) ++
        h.subs.map fun q => (q, .closeRecordArrival m k g.epoch { r with clock := s.hitchClock })) s t) ∧
    (∀ r, h.role = 1 → h.passing = some r → r.status = 0x10 → h.pushes = [] → Runs (.closeAck m k r.num g.epoch) s fun t => ∃ x : Shard,
      OnlyShard x s t ∧ x.step = (h.step + 1) % 2 ^ 32 ∧ x.recv = 0 ∧ x.appl = 0 ∧ x.mack = 0 ∧ x.cnum = r.num ∧ x.latest = some r ∧
      x.passing = none ∧ ToldAll (h.closers.map (fun p => (p.smod, .closeAnswer { p with epoch := g.epoch, clock := s.hitchClock } 0x10 r.missing)) ++
        h.subs.map fun q => (q, .closeRecordArrival m k g.epoch { r with clock := s.hitchClock })) s t) ∧
    (∀ r, h.role = 0 → h.opening = false → h.cnum < r.num → Runs (.closeRecordArrival m k g.epoch r) s fun t => ∃ c,
      OnlyShard { h with
        cnum := r.num, latest := some { r with clock := c }, step := if r.status = 0x10 then (r.step + 1) % 2 ^ 32 else h.step } s t ∧
      r.clock ≤ c)

/-- A primary answers pushes and closes by their rules, writes STAGE, MASTER, MOMENT and FRESH, runs its update tasks, and passes what it did
to its mirror and subscribers. That the update call enters the owner's run queue directly, what follows a passed INCOMPLETE record, and
what is held while STATE is 1, is log entry 30 (DEDUCED). -/
def Obligations.Shards : Prop :=
  Sys2Proof.Part.Pushes ∧ Sys2Proof.Part.Updates ∧ Sys2Proof.Part.Closes

/-- R310, R312, R317, R318, R319: the forms on an open shard. A record that names no shard open here traps BARRIER; an answer completes
the form that waits for it; a trap or a wait that is tried again keeps nothing of its loads (log entry 56). -/
def Sys2Proof.Part.NodeForms : Prop :=
  ∀ (d n : Nat) (s u : State) (va : DWord) (bs : List Byte), s.next ≠ END → s.accepts 6 = true → va = s.a n →
    HasRead s u →
    (∀ (h : Shard), s.loadSpan va.toNat 8 = (u, .ok bs) →
      let named : Prop := u.shardOf (leNat (bs.take 2)) (leNat ((bs.drop 2).take 2)) = some h
      (u.shardOf (leNat (bs.take 2)) (leNat ((bs.drop 2).take 2)) = none →
        exec (.pnpull d n) s = barrierTrap 6 va (u.backTo s) ∧ exec (.pnclose d n) s = barrierTrap 6 va (u.backTo s) ∧
          exec (.pnstat d n) s = barrierTrap 6 va (u.backTo s)) ∧
      (named → h.opening = false → h.va = va.toNat → h.uid = s.me.uid →
        (Z (s.g d) < 2 ^ 31 ∨ Z (s.g d) - 2 ^ 31 < h.step → Runs (.pnstat d n) s fun t => t.g d = u32 h.step ∧
          Went u u.me u.slot [d] [] s.next s t) ∧
        (2 ^ 31 ≤ Z (s.g d) → h.step ≤ Z (s.g d) - 2 ^ 31 → exec (.pnstat d n) s = block (.pnstat d n) (u.backTo s)) ∧
        (h.role ≠ 0 → exec (.pnpull d n) s = barrierTrap 6 va (u.backTo s)) ∧
        (h.role = 0 →
          (h.latest = none ∨ h.cnum ≤ Z (s.g d) → exec (.pnpull d n) s = block (.pnpull d n) (u.backTo s)) ∧
          (∀ r, h.latest = some r → Z (s.g d) < h.cnum → Runs (.pnpull d n) s fun t => t.g d = u32 h.cnum ∧
            t.g (d + 1) = u32 (r.status + r.step % 2 ^ 24 * 2 ^ 8) ∧ t.g (d + 2) = u32 r.missing ∧
            Went u { u.me with pts := max u.me.pts r.clock } u.slot [d, d + 1, d + 2] [] s.next s t)) ∧
        (∀ m e, m = (if h.role = 0 then h.primary else if h.role = 1 then some u.dev.mnum else h.partner) →
          (m = none → Runs (.pnclose d n) s fun t => t.g d = 5 ∧ t.g (d + 1) = 0 ∧ Went u u.me u.slot [d, d + 1] [] s.next s t) ∧
          (m ≠ none → u.shardForming h = true ∨ s.slot.freeEntry = none → exec (.pnclose d n) s = block (.pnclose d n) (u.backTo s)) ∧
          (∀ q, m = some q → FreeEntry s.slot e → u.shardForming h = false → Runs (.pnclose d n) s fun t =>
            ToldAll [(q, .pnCloseRequest ⟨u.dev.mnum, s.issue.lid, s.issue.slot, e, u.serial, h.model, h.shard, u.shardEpoch h, u.me.pts⟩
              (Z (s.g d) % 2 ^ 31) (decide (2 ^ 31 ≤ Z (s.g d))))] u t ∧ (∃ w, t.slot.wait = some w ∧ w.instr = .pnclose d n) ∧
            (∃ en, Map.get none t.slot.entries e = some en ∧ en.use = .node))))) ∧
    (s.loadSpan va.toNat 4 = (u, .ok bs) →
      (∀ h, u.shardOf (leNat (bs.take 2)) (leNat ((bs.drop 2).take 2)) = some h → h.role ≠ 0 ∨ h.opening = true →
        exec (.pnpush d n) s = barrierTrap 6 va (u.backTo s)) ∧
      (u.shardOf (leNat (bs.take 2)) (leNat ((bs.drop 2).take 2)) = none → exec (.pnpush d n) s = barrierTrap 6 va (u.backTo s))) ∧
    (∀ (h : Shard) (v : State) (data : List Byte) (q e : Nat), s.loadSpan va.toNat 4 = (u, .ok bs) →
      u.shardOf (leNat (bs.take 2)) (leNat ((bs.drop 2).take 2)) = some h → h.role = 0 → h.opening = false →
      (va.toNat % 32 ≠ 0 ∨ (∃ b ∈ bs.drop 0x10, b ≠ 0) → exec (.pnpush d n) s = barrierTrap 7 va (u.backTo s)) ∧
      (va.toNat % 32 = 0 →
      let blk := leNat ((bs.drop 4).take 4)
      (leNat ((bs.drop 0xC).take 4) ≠ h.blen ∨ h.nblk ≤ blk → exec (.pnpush d n) s = barrierTrap 7 va (u.backTo s)) ∧
      (leNat ((bs.drop 0xC).take 4) = h.blen → blk < h.nblk → (∀ b ∈ bs.drop 0x10, b = 0) →
        (h.primary = none → Runs (.pnpush d n) s fun t => t.g d = 5 ∧ Went u u.me u.slot [d] [] s.next s t) ∧
        (h.primary = some q → s.slot.freeEntry = none ∨ u.shardForming h = true →
          exec (.pnpush d n) s = block (.pnpush d n) (u.backTo s)) ∧
        (∀ cause tv, h.primary = some q → FreeEntry s.slot e → u.shardForming h = false →
          u.loadSpan ((va.toNat + 32) % 2 ^ 64) (h.blen / 8) = (v, .error (cause, tv)) → exec (.pnpush d n) s = trap cause tv (v.backTo s)) ∧
        (h.primary = some q → FreeEntry s.slot e → u.shardForming h = false →
          u.loadSpan ((va.toNat + 32) % 2 ^ 64) (h.blen / 8) = (v, .ok data) → HasRead s v →
          Runs (.pnpush d n) s fun t => (∃ p : PnFrom, p.slot = s.issue.slot ∧ p.entry = e ∧ p.model = h.model ∧ p.shard = h.shard ∧
            ToldAll [(q, .pnPushRequest p blk (leNat ((bs.drop 8).take 4)) data)] v t) ∧
            (∃ w, t.slot.wait = some w ∧ w.instr = .pnpush d n) ∧ SameCores s.issue.lid s t)))) ∧
    ∀ (p : PnFrom) (st miss : Nat) (w : Wait) (en : Entry) (l k : Nat), l = p.core → k = p.slot → s.answerStray p = false → p.entry < 16 →
      Map.get none (s.slotAt l k).entries p.entry = some en → en.serial = p.serial → en.use = .node → (s.slotAt l k).wait = some w →
      w.start + u64 w.length ≠ END →
      let went (t : State) : Prop := (t.slotAt l k).pc = w.start + u64 w.length ∧ (t.slotAt l k).wait = none ∧
        Map.get none (t.slotAt l k).entries p.entry = none ∧ (t.core l).pts = max (s.core l).pts p.clock ∧ SameCores l s t ∧ SameMemory s t
      (w.instr = .pnpush d n → Runs (.pnPushAnswer p st) s fun t => went t ∧ Map.get 0 (t.slotAt l k).regs d = u32 st) ∧
      (w.instr = .pnclose d n → Runs (.closeAnswer p st miss) s fun t => went t ∧ Map.get 0 (t.slotAt l k).regs d = u32 st ∧
        Map.get 0 (t.slotAt l k).regs (d + 1) = u32 miss)

/-- R294, R309, R311: opening a shard: the checks of its record, a shard that is open already, a mirror at once, the others once an answer
or the deadline comes; and the request at another member. The layout of an open's messages is log entry 30 (DEDUCED), the question for a
group of another module and reason 4 where this module holds none there log entry 27 (DESIGN CHOICE), the MOMENT and STAGE of a
subscriber's record log entry 55, and what a trap or a wait keeps of its loads log entry 56. -/
def Sys2Proof.Part.ShardOpens : Prop :=
  (∀ (s : State) (va : Nat) (bs : List Byte), bs.length = 64 →
    let rd (o n : Nat) : Nat := leNat ((bs.drop o).take n)
    s.recordOk va bs = true ↔ va % 64 = 0 ∧ (∀ b ∈ bs.drop 0x34, b = 0) ∧ 1 ≤ rd 4 2 ∧ rd 4 2 ≤ 32 ∧ rd 6 2 % 32 = 0 ∧ 32 ≤ rd 6 2 ∧
      rd 6 2 ≤ 4096 ∧ rd 0x2B 1 ≤ 2 ∧ rd 0x2A 1 ≤ 0x0A ∧ 1 ≤ rd 0x2C 4 ∧
      (rd 0x2B 1 ≠ 0 → rd 0x10 8 % 32 = 0 ∧ rd 0x18 8 % 32 = 0 ∧ rd 0x20 8 % 32 = 0 ∧
        ∃ la a, s.launchOf s.issue.lid = some la ∧ la.htab[rd 0x28 2]? = some a ∧ a ≠ 2 ^ 64 - 1)) ∧
  (∀ (d n k reason : Nat) (s u v w : State) (va grp : DWord) (bs : List Byte) (rs : Region × Region × Region) (g : Group), s.next ≠ END →
    s.accepts 6 = true → va = s.a n → s.loadSpan va.toNat 8 = (u, .ok bs) → grp = u64 (leNat ((bs.drop 8).take 8)) →
    (u.recordOk va.toNat bs = false → exec (.pnopen d n) s = barrierTrap 7 va (u.backTo s)) ∧
    (u.recordOk va.toNat bs = true → u.recordRegions bs = (v, none) → exec (.pnopen d n) s = barrierTrap 7 va (v.backTo s)) ∧
    (∀ m a, u.recordOk va.toNat bs = true → u.recordRegions bs = (v, some rs) → v.objRef grp = (w, .far m a) → w.farGroup grp = none →
      exec (.pnopen d n) s = groupRequest (.pnopen d n) grp m a (w.backTo s)) ∧
    (u.recordOk va.toNat bs = true → u.recordRegions bs = (v, some rs) → (v.objRef grp = (w, .here k) ∧ reason = 3 ∨
        (∃ m a, v.objRef grp = (w, .far m a)) ∧ w.farGroup grp = some k ∧ reason = 4) → HasRead s w →
      (w.groupAt k = none → exec (.pnopen d n) s = barrierTrap reason grp (w.backTo s)) ∧
      (w.groupAt k = some g → g.rank ∉ g.live → exec (.pnopen d n) s = barrierTrap 4 grp (w.backTo s)) ∧
      (w.groupAt k = some g → g.rank ∈ g.live →
        let key : Option Shard := w.shardOf (leNat (bs.take 2)) (leNat ((bs.drop 2).take 2))
        let role := leNat ((bs.drop 0x2B).take 1)
        let ticket (first : Bool) : Nat × Nat × Nat × Bool := (s.issue.lid, s.issue.slot, s.issue.since.getD w.stamp, first)
        let waits (t : State) : Prop := ∃ x, t.slot.wait = some x ∧ x.instr = .pnopen d n ∧ x.poll = false ∧
          x.since = s.issue.since.getD w.stamp
        (∀ h, key = some h → (h.va ≠ va.toNat ∨ h.uid ≠ s.me.uid → Runs (.pnopen d n) s fun t => t.g d = 3 ∧
            Went w w.me w.slot [d] [] s.next s t) ∧
          (h.va = va.toNat → h.uid = s.me.uid → h.opening = false → Runs (.pnopen d n) s fun t => t.g d = 1 ∧
            Went w w.me w.slot [d] [] s.next s t) ∧
          (h.va = va.toNat → h.uid = s.me.uid → h.opening = true → Runs (.pnopen d n) s fun t => waits t ∧
            ((leNat (bs.take 2), leNat ((bs.drop 2).take 2)) = (h.model, h.shard) →
              OnlyShard { h with openers := h.openers ++ [ticket false] } w t))) ∧
        (w.tablesFull k = true ↔ 4096 ≤ (w.shards.filter fun x => x.role ≠ 0 ∧ x.obj % 4 = k % 4).length) ∧
        (key = none → role ≠ 0 → w.tablesFull k = true → Runs (.pnopen d n) s fun t => t.g d = 4 ∧ Went w w.me w.slot [d] [] s.next s t) ∧
        (key = none → (role ≠ 0 → w.tablesFull k = false) → g.forming = true → exec (.pnopen d n) s = block (.pnopen d n) (w.backTo s)) ∧
        (key = none → (role ≠ 0 → w.tablesFull k = false) → g.forming = false → role ≤ 2 → Runs (.pnopen d n) s fun t =>
          (role = 2 → t.g d = 0 ∧ AtPc s.next s t) ∧ (role ≠ 2 → waits t) ∧ ∃ h : Shard, OnlyShard h w t ∧ h.model = leNat (bs.take 2) ∧
            h.shard = leNat ((bs.drop 2).take 2) ∧ h.role = role ∧ h.opening = decide (role ≠ 2) ∧ h.nblk = leNat ((bs.drop 4).take 2) ∧
            h.blen = leNat ((bs.drop 6).take 2) ∧ h.step = leNat ((bs.drop 0x30).take 4) ∧ h.obj = k ∧ h.owner = s.issue.lid ∧
            h.uid = s.me.uid ∧ h.va = va.toNat ∧ h.dtab = s.me.dtab ∧ h.recv = 0 ∧ h.appl = 0 ∧ h.mack = 0 ∧ h.partner = none ∧
            h.openers = (if role = 2 then [] else [ticket true]) ∧
            ToldAll (if role = 2 then [] else ((g.modsOf g.live).filter fun m => m ≠ w.dev.mnum).map fun m =>
              (m, .pnOpenRequest w.dev.mnum h.model h.shard role g.epoch (if role = 1 ∧ 8 ≤ h.ffmt then h.dtab else []))) w t)))) ∧
  ∀ (m k : Nat) (s : State) (h : Shard) (l j d n : Nat) (w : Wait), s.shardOf m k = some h → h.model = m → h.shard = k →
    let stray (i : Instr) : Prop := Runs i s fun t => Z t.dev.stray = min (Z s.dev.stray + 1) (2 ^ 32 - 1) ∧ t = { s with dev := t.dev }
    (∀ r : OpenReply, (r.epoch ≠ s.shardEpoch h → stray (.pnOpenAnswer m k (some r))) ∧
      (r.epoch = s.shardEpoch h → r.node = none → exec (.pnOpenAnswer m k (some r)) s = .next s)) ∧
    (h.opening = true → (s.slotAt l j).wait = some w → w.instr = .pnopen d n → w.poll = false → w.start + u64 w.length ≠ END →
      let woken (v : Word) (t : State) : Prop := Map.get 0 (t.slotAt l j).regs d = v ∧ (t.slotAt l j).pc = w.start + u64 w.length ∧
        (t.slotAt l j).wait = none ∧ SameCores l s t ∧ SameMemory s t
      ∀ first, h.openers = [(l, j, w.since, first)] →
      (∀ q, Runs (.pnOpenAnswer m k (some ⟨s.shardEpoch h, some q⟩)) s fun t => woken (if first = true then 0 else 1) t ∧
        OnlyShard (if h.role = 0 then { h with opening := false, openers := [], primary := some q }
          else { h with opening := false, openers := [], partner := some q }) s t ∧
        ToldAll (if h.role = 0 then [] else h.subs.map fun x => (q, .pnOpenRequest x m k 3 (s.shardEpoch h) [])) s t) ∧
      Runs (.pnOpenAnswer m k none) s fun t => woken (if first = true ∨ h.role = 0 then 2 else 1) t ∧
        (h.role = 0 → t.shardOf m k = none) ∧ (h.role ≠ 0 → OnlyShard { h with opening := false, openers := [] } s t)) ∧
    ∀ g q dtab, s.groupAt h.obj = some g →
      (g.forming = true → ∀ e role, Runs (.pnOpenRequest q m k role e dtab) s
        (Hitched h.obj { g with held := g.held ++ [.pnOpenRequest q m k role e dtab] } [] s)) ∧
      (g.forming = false →
        (h.role = 1 → Runs (.pnOpenRequest q m k 0 g.epoch dtab) s fun t =>
          OnlyShard { h with subs := unite h.subs [q] } s t ∧ t.cores = s.cores ∧
          ToldAll ((q, .pnOpenAnswer m k (some ⟨g.epoch, some s.dev.mnum⟩)) ::
            h.partner.toList.map fun p => (p, .pnOpenRequest q m k 3 g.epoch [])) s t) ∧
        (h.role = 2 → h.partner = none → Runs (.pnOpenRequest q m k 1 g.epoch dtab) s fun t =>
          OnlyShard { h with partner := some q, dtab := if 8 ≤ h.ffmt then dtab else h.dtab } s t ∧ t.cores = s.cores ∧
          ToldAll [(q, .pnOpenAnswer m k (some ⟨g.epoch, some s.dev.mnum⟩))] s t) ∧
        (h.role = 2 → Runs (.pnOpenRequest q m k 3 g.epoch dtab) s fun t => OnlyShard { h with subs := unite h.subs [q] } s t ∧ ToldAll [] s t) ∧
        ∀ e role, e ≠ g.epoch → (role = 3 → stray (.pnOpenRequest q m k role e dtab)) ∧
          (role ≠ 3 → Runs (.pnOpenRequest q m k role e dtab) s fun t => ToldAll [(q, .pnOpenAnswer m k (some ⟨e, none⟩))] s t ∧
            t.shards = s.shards ∧ t.cores = s.cores))

/-- pnopen, pnpush, pnpull, pnclose and pnstat check their records, send their requests and complete with their answers. The layout of their
messages is log entry 30, a GROUP of another module log entry 27, a subscriber's MOMENT and STAGE log entry 55, and what a trap or a wait
keeps log entry 56. -/
def Obligations.NodeFormsAndOpens : Prop :=
  Sys2Proof.Part.NodeForms ∧ Sys2Proof.Part.ShardOpens

/-! ### Links and the fabric (spec/14, spec/15) -/

/-- R321 to R323, R346, R348, R349: the link forms. A bad selector traps; `lstat` reads an item and clears one that is RC; `lctl` gives
the item's value from before its write; `lretr` hands back a lane, or answers BUSY or RESERVE. -/
def Obligations.LinkForms : Prop :=
  ∀ (d n : Nat) (s : State), s.next ≠ END → s.accepts 7 = true → statMode s.slot.stat = 1 →
    ((¬∃ i e l r, Selects n s i e l r) → Traps (.lstat d n) s .illegal (u64 (Z (s.g n))) ∧
      Traps (.lctl d n) s .illegal (u64 (Z (s.g n))) ∧ Traps (.lretr d n) s .illegal (u64 (Z (s.g n)))) ∧
    ∀ (i e : Nat) (l : LinkId) (r : Dir) (k : Link) (x : LinkDir), Selects n s i e l r → k = s.link l → x = k.dir r →
      let reads (v : Nat) (y : Link) : Prop :=
        (Runs (.lstat d n) s fun t => t.g d = u32 v ∧ ∃ u, LinkBecame l y s u ∧ Went u s.me s.slot [d] [] s.next s t ∧ SameMemory s t) ∧
        Runs (.lctl d n) s fun t => t.g d = u32 v
      let writes (P : State → Prop) : Prop :=
        Runs (.lctl d n) s fun t => ∃ u, P u ∧ Went u s.me s.slot [d] [] s.next s t ∧ SameMemory s t
      let retrains (v : Word) (P : State → Prop) : Prop :=
        Runs (.lretr d n) s fun t => t.g d = v ∧ ∃ u, P u ∧ Went u s.me s.slot [d] [] s.next s t ∧ SameMemory s t
      (i = 0 → reads (if r = .rx then Map.get 0 x.cnt e else 0) k) ∧
      (i = 1 → reads (if r = .rx then Map.get 0xFFFFFFFF x.thr e else 0xFFFFFFFF) k) ∧
      (i = 2 → reads (x.act * 2 ^ 8 + x.wst) k) ∧ (i = 3 → reads x.hseq k) ∧ (i = 4 → reads x.rseq k) ∧
      (i = 5 → reads (if x.lmap = 0 then 0
        else x.lmap * 2 ^ 16 + x.spd * 2 ^ 12 + ((List.range 16).filter fun j => x.lmap.testBit j).length) k) ∧
      (i = 6 → reads (Z k.psw) k) ∧ (i = 7 → reads x.minw k) ∧ (i = 8 → reads (Z k.peer) k) ∧
      (i = 9 → reads (if r = .tx then x.rtry else 0) (k.setDir r { x with rtry := 0 })) ∧
      (i = 10 → reads (if r = .rx then x.nakc else 0) (k.setDir r { x with nakc := 0 })) ∧
      (i = 11 → reads (if r = .rx then Map.get 0 x.uncr e else 0) (k.setDir r { x with uncr := Map.set 0 x.uncr e 0 })) ∧
      (i = 12 → reads x.evt k) ∧ (i = 13 → reads x.lout k) ∧ (i = 14 → reads k.adm.toNat k) ∧ (i = 15 → reads k.round k) ∧
      (i ∈ [0, 2, 3, 4, 5, 6, 8, 9, 10, 11, 13, 15] ∨ i = 1 ∧ r = .tx → writes fun u => u = s) ∧
      (i = 1 → r = .rx → writes (LinkBecame l { k with rx := { k.rx with
        thr := Map.set 0xFFFFFFFF k.rx.thr e (Z (s.g d)), cnt := Map.set 0 k.rx.cnt e 0 } } s)) ∧
      (i = 7 → writes (Rerouted l (k.setDir r { x with minw := max 2 (min (if l.glb then 8 else 16) (Z (s.g d) % 32)) }) s)) ∧
      (i = 12 → writes fun u => ∃ ev, LinkBecame l (k.setDir r { x with evt := ev }) s u ∧
        ∀ j, j < 32 → ev.testBit j = (x.evt.testBit j && !(s.g d).getLsbD j)) ∧
      (i = 14 → (s.g d).getLsbD 1 = false → writes (Rerouted l { k with adm := (s.g d).getLsbD 0 } s)) ∧
      (i = 14 → (s.g d).getLsbD 1 = true → writes fun u => ∃ v, Rerouted l { k with adm := (s.g d).getLsbD 0 } s v ∧ WentDown l v u) ∧
      (i ≠ 0 → Traps (.lretr d n) s .illegal (u64 (Z (s.g n)))) ∧
      (i = 0 → x.wst ≠ 0 → WritesG (.lretr d n) s d fun v => v = 1) ∧
      (i = 0 → x.wst = 0 → x.act < x.minw + 1 → WritesG (.lretr d n) s d fun v => v = 2) ∧
      (i = 0 → x.wst = 0 → x.minw + 1 ≤ x.act → r = .rx → retrains 0 fun u => u.linkOut = s.linkOut ++ [(l, ctlFlit 6 0 e)] ∧
        LinkBecame l { k with rx := { k.rx with wst := 1 } } s { u with linkOut := s.linkOut }) ∧
      (i = 0 → x.wst = 0 → x.minw + 1 ≤ x.act → r = .tx → retrains 0 (HandedBack l e s))

/-- R325, R331, R333, R334, R337, R338, R346, R324 step 2: a flit at the receiver of a link that is up. A flit that fails its CRC or finds no
buffer entry is NAK'd once, a gap or a repeat is discarded, and the flit expected is accepted; with its last flit a packet is whole. A store's
size, which no field gives, is the free choice of log entry 19 among those that fill its flits. A notice of a hand-back is kept until its
flit is accepted. -/
def Sys2Proof.Part.FlitReception : Prop :=
  ∀ (l : LinkId) (f : FabFlit) (s : State) (k : Link), k = s.link l → k.up = true → k.training = none → 1 ≤ k.expect → k.expect < 2 ^ 32 →
    let good : Prop := f.crc = f.crcOf ∧ f.body.length = 56 ∧ (f.ch < 5 ∨ f.ch = 15) ∧
      (f.lk = 0 ∨ f.lk = 1 ∧ (f.seq = k.expect → ∃ e ∈ k.notes, e.1 = f.seq) ∨ f.lk = 2)
    let room : Prop := f.ch = 15 ∨ k.hasRoom f.ch = true
    let next : Nat := if k.expect + 1 < 2 ^ 32 then k.expect + 1 else 1
    let held (t : State) : Nat := Map.get 0 (t.link l).held f.ch
    let accepted (P : State → Prop) : Prop := Runs (.linkFlitReceive l f) s fun t =>
      (∀ c, t.core c = s.core c) ∧ SameMemory s t ∧ (t.link l).expect = next ∧ (t.link l).waiting = false ∧ (t.link l).retry = k.retry ∧
      (if 64 ≤ k.debt + 1 then (t.link l).debt = 0 ∧ t.linkOut = s.linkOut ++ [(l, ctlFlit 3 f.seq 0)]
        else (t.link l).debt = k.debt + 1 ∧ t.linkOut = s.linkOut) ∧ P t
    (f.crc ≠ f.crcOf ∨ 10 ≤ f.lk ∨ 5 ≤ f.ch ∧ f.ch ≠ 15 ∨ f.lk = 1 ∧ f.seq = k.expect ∧ (∀ e ∈ k.notes, e.1 ≠ f.seq) →
      Runs (.linkFlitReceive l f) s (Nakked l s)) ∧
    (good → f.seq ≠ k.expect → exec (.linkFlitReceive l f) s = .next s) ∧
    (good → f.seq = k.expect → ¬room → Runs (.linkFlitReceive l f) s (Nakked l s)) ∧
    (∀ (g : FabFlit) (gs : List FabFlit), good → f.seq = k.expect → f.lk = 0 → f.ch < 5 → k.hasRoom f.ch = true →
      Map.get [] k.asm f.ch ++ [f] = g :: gs →
      let n : Nat := leNat (g.body.take 8) / 2 ^ 27 % 2 ^ 7
      (gs.length ≠ n → accepted fun t => t.agenda = s.agenda ∧ t.transit = s.transit ∧ Map.get [] (t.link l).asm f.ch = g :: gs ∧
        held t = Map.get 0 k.held f.ch + 1) ∧
      (gs.length = n → accepted fun t => Map.get [] (t.link l).asm f.ch = [] ∧
        ∃ c, c < (if n = 0 then 24 else 56) ∧ ∀ p, p = readPacket (56 * (n + 1) - 32 - c) ((g :: gs).flatMap fun x => x.body) →
        (p.dmod ≠ s.dev.mnum → p.pk < 9 → t.agenda = s.agenda ∧ held t = Map.get 0 k.held f.ch + 1 ∧
          t.transit = s.transit ++ [⟨p, (g :: gs).map fun x => x.body, some l, f.ch, n + 1⟩]) ∧
        (p.dmod = s.dev.mnum ∨ 9 ≤ p.pk → t.transit = s.transit ∧ held t = Map.get 0 k.held f.ch + 1 - (n + 1)) ∧
        (p.dmod = s.dev.mnum → p.pk < 4 → t.agenda = s.agenda ++ [.happen (.fabricTargetRequest p)]) ∧
        (p.dmod = s.dev.mnum → 4 ≤ p.pk → p.pk ≤ 7 →
          t.agenda = s.agenda ++ [.happen (.memoryReply ⟨p.core, p.slot, p.entry, p.serial, p.status, p.data, p.clock⟩)]) ∧
        (9 ≤ p.pk → t.agenda = s.agenda))) ∧
    (f.crc = f.crcOf → f.body.length = 56 → f.ch < 5 ∨ f.ch = 15 → f.lk = 8 →
      ((∃ e ∈ k.notes, e.1 = f.seq) ∨ f.seq < k.expect ∧ k.expect ≤ f.seq + 2 ^ 31 → Runs (.linkFlitReceive l f) s (LinkBecame l k s)) ∧
      ((∀ e ∈ k.notes, e.1 ≠ f.seq) → k.expect ≤ f.seq → f.seq + 1 < k.expect + 2 ^ 31 → Runs (.linkFlitReceive l f) s
        (LinkBecame l { k with notes := k.notes ++ [(f.seq, leNat (f.body.take 8))] } s))) ∧
    (∀ lane, good → f.seq = k.expect → f.lk = 1 → f.ch = 15 → k.notes.find? (fun e => e.1 == f.seq) = some (f.seq, lane) → accepted fun t =>
      (t.link l).notes = k.notes.filter (fun e => e.1 != f.seq) ∧
      (t.link l).rx = { k.rx with hseq := f.seq, act := k.rx.act - 1, wst := 1, lout := lane, evt := (t.link l).rx.evt } ∧
      t.agenda = s.agenda ∧ t.transit = s.transit) ∧
    (good → f.seq = k.expect → f.lk = 2 → f.ch = 15 → accepted fun t =>
      (t.link l).rx = { k.rx with rseq := f.seq, act := k.rx.act + 1, wst := 0, lout := 0x1F, evt := (t.link l).rx.evt } ∧
      t.agenda = s.agenda ∧ t.transit = s.transit) ∧
    (good → f.seq = k.expect → f.lk = 0 → f.ch = 15 → accepted fun t => t.agenda = s.agenda ∧ t.transit = s.transit)

/-- R324, R334, R336, R337, R339, R344, R346: acknowledgement and replay at the transmitter, what it sends next, and the ways a link goes
down. An acknowledgement repeats the notice of every hand-back whose flit is still unacknowledged. Where steps are not prompt a
transmission is one flit (log entry 3). -/
def Sys2Proof.Part.FlitReplay : Prop :=
  ∀ (l : LinkId) (n : Nat) (s : State) (k : Link), k = s.link l →
    ((if l.glb then l.num ≤ 287 else l.num ≤ 30) → Runs (.ctrlRetrain l) s (WentDown l s)) ∧
    (k.up = true → k.retry ≠ [] → Runs (.linkAckTimeout l) s (WentDown l s)) ∧
    (k.up = true → 0 < k.debt → 1 < k.expect → k.expect < 2 ^ 32 → Runs (.ackTimer l) s fun t =>
      LinkBecame l { k with debt := 0 } s { t with linkOut := s.linkOut } ∧ t.linkOut = s.linkOut ++ [(l, ctlFlit 3 (k.expect - 1) 0)]) ∧
    ((∀ e ∈ k.retry, e.1.seq ≠ n) → exec (.linkAck l n) s = .next s ∧ exec (.linkNak l n) s = .next s) ∧
    ∀ (ys zs : List (FabFlit × Nat)) (e : FabFlit × Nat), k.up = true → k.retry = ys ++ e :: zs → e.1.seq = n →
      (∀ x ∈ ys, x.1.seq ≠ n) →
      let left : List (Nat × Nat) := k.handed.filter fun h => !(ys ++ [e]).any fun x => x.1.seq == h.1
      let notice : List (LinkId × FabFlit) := left.map fun h => (l, ctlFlit 8 h.1 h.2)
      let sent (P : List FabFlit → Link → Prop) : Prop := Runs (.linkAck l n) s fun t => ∃ fs : List FabFlit,
        t.linkOut = s.linkOut ++ notice ++ fs.map (fun f => (l, f)) ∧ (t.link l).retry = zs ++ fs.map (fun f => (f, 1)) ∧ P fs (t.link l)
      let one (c m : Nat) (b : List Byte) (y : Link) : Prop := sent fun fs z => ∃ f, fs = [f] ∧ f.ch = c ∧ f.lk = m ∧ f.body = b ∧
        f.seq = k.nextSeq ∧ f.crc = f.crcOf ∧
        z = { y with nextSeq := if k.nextSeq + 1 < 2 ^ 32 then k.nextSeq + 1 else 1, retry := zs ++ [(f, 1)], handed := left, mark := k.mark.drop 1 }
      (sent fun _ _ => True) ∧
      (k.txq = [] → k.begun = none → k.mark = [] → Runs (.linkAck l n) s fun t =>
        LinkBecame l { k with retry := zs, handed := left } s { t with linkOut := s.linkOut } ∧ t.linkOut = s.linkOut ++ notice) ∧
      (s.prompt = false → l.retryCap ≤ zs.length → sent fun fs _ => fs = []) ∧
      (s.prompt = false → zs.length < l.retryCap →
        (∀ c b bs, k.begun = some (c, b :: bs) →
          one c (k.mark.headD 0) b { k with begun := if bs = [] then none else some (c, bs) }) ∧
        (∀ c b bs xs ws, k.begun = none → c < 5 → k.txq = xs ++ (c, b :: bs) :: ws → (∀ x ∈ xs, x.1 ≠ c) →
          (∃ i, i < 5 ∧ c = (k.rot + i) % 5 ∧ ∀ j, j < i → ∀ x ∈ k.txq, x.1 ≠ (k.rot + j) % 5) →
          one c (k.mark.headD 0) b { k with txq := xs ++ ws, begun := if bs = [] then none else some (c, bs), rot := c + 1 }) ∧
        (∀ m ms, k.begun = none → k.txq = [] → k.mark = m :: ms → one 15 m (List.replicate 56 0) k)) ∧
      ((∀ x ∈ e :: zs, x.2 + 1 < 32) → Runs (.linkNak l n) s fun t =>
        LinkBecame l { k with
          retry := ys ++ (e :: zs).map (fun x => (x.1, x.2 + 1)),
          tx := { k.tx with rtry := min (k.tx.rtry + (zs.length + 1)) (2 ^ 32 - 1) } } s { t with linkOut := s.linkOut } ∧
        t.linkOut = s.linkOut ++ (e :: zs).map (fun x => (l, x.1))) ∧
      ((∃ x ∈ e :: zs, 32 ≤ x.2 + 1) → Runs (.linkNak l n) s fun t => (t.link l).up = false ∧ (t.link l).retry = [] ∧
        (t.link l).training = some ⟨1, 2 ^ (if l.glb then 8 else 16) - 1, 0, 0⟩ ∧ (t.link l).tx.wst = 2 ∧ (t.link l).rx.wst = 2 ∧
        OnlyLink l s t)

/-- R333, R345, R349, R373: one round of training. Each end sends its word; equal words succeed; the third round, a map of fewer than two
lanes or a reserved value fails, leaving the word heard last; otherwise the intersection goes to the next round. A training flit whose CRC
holds is the partner's word. That the word lies in the SEQ field of the flit and that every lane of this end passes when one arrives is log
entry 19 (PRESUMED), and that PEER keeps every bit of what came log entry 51 (DESIGN CHOICE). -/
def Sys2Proof.Part.LinkTraining : Prop :=
  ∀ (l : LinkId) (passed partner peer : Word) (s : State) (k : Link) (g : Training), k = s.link l → k.training = some g →
    let lanes (m : Nat) : Nat := ((List.range 16).filter fun j => m.testBit j).length
    let own : Nat := g.lmap &&& Z passed
    let word : Nat := own * 2 ^ 16 + g.spd * 2 ^ 12 + lanes own
    let theirs : Nat := Z partner / 2 ^ 16 % 2 ^ 16
    let bad : Prop := Z partner / 2 ^ 5 % 2 ^ 7 ≠ 0 ∨ Z partner % 2 ^ 5 ≠ lanes theirs ∨
      (if l.glb then 1 else 2) < Z partner / 2 ^ 12 % 2 ^ 4 ∨ 2 ^ (if l.glb then 8 else 16) - 1 < theirs
    let sent (t : State) : Prop := t.linkOut.take (s.linkOut.length + 1) = s.linkOut ++ [(l, mkFlit word 0 9
      (leBytes (s.dev.mnum * 2 ^ 16 + (if l.glb then 2 ^ 15 else 0) + l.num) 4 ++ List.replicate 52 0))]
    let failed (t : State) : Prop := OnlyLink l s t ∧ sent t ∧ (t.link l).up = false ∧ (t.link l).training = none ∧ (t.link l).round = 0 ∧
      (t.link l).psw = (if partner = 0 then g.heard else partner) ∧ (t.link l).peer = k.peer ∧
      ∀ r, ((t.link l).dir r).act = 0 ∧ ((t.link l).dir r).wst = 2 ∧ ((t.link l).dir r).lmap = 0 ∧ ((t.link l).dir r).minw = 2 ∧
        ((t.link l).dir r).lout = 0x1F
    (∀ f : FabFlit, f.lk = 9 → f.body.length = 56 → f.ch < 5 ∨ f.ch = 15 →
      (f.crc = f.crcOf → exec (.linkFlitReceive l f) s =
        exec (.trainingRound l (u32 (2 ^ (if l.glb then 8 else 16) - 1)) (u32 f.seq) (u32 (leNat (f.body.take 4)))) s) ∧
      (f.crc ≠ f.crcOf → k.up = false → exec (.linkFlitReceive l f) s = .next s)) ∧
    (bad → Runs (.trainingRound l passed partner peer) s failed) ∧
    (¬bad → lanes (own &&& theirs) < 2 → Runs (.trainingRound l passed partner peer) s failed) ∧
    (¬bad → 2 ≤ lanes (own &&& theirs) → word ≠ Z partner → 3 ≤ g.round → Runs (.trainingRound l passed partner peer) s failed) ∧
    (¬bad → 2 ≤ lanes (own &&& theirs) → word ≠ Z partner → g.round < 3 → Runs (.trainingRound l passed partner peer) s fun t =>
      sent t ∧ LinkBecame l { k with
        psw := partner,
        training := some ⟨g.round + 1, own &&& theirs, max g.spd (Z partner / 2 ^ 12 % 2 ^ 4), if partner = 0 then g.heard else partner⟩ } s
        { t with linkOut := s.linkOut }) ∧
    (¬bad → 2 ≤ lanes (own &&& theirs) → word = Z partner → Runs (.trainingRound l passed partner peer) s fun t =>
      OnlyLink l s t ∧ sent t ∧ (t.link l).up = true ∧ (t.link l).training = none ∧ (t.link l).round = g.round ∧ (t.link l).psw = partner ∧
      (t.link l).peer = peer ∧ (t.link l).adm = false ∧ (t.link l).expect = 1 ∧ (k.txq = [] → (t.link l).nextSeq = 1) ∧
      ∀ r, ((t.link l).dir r).act = lanes own ∧ ((t.link l).dir r).wst = 0 ∧ ((t.link l).dir r).lmap = own ∧
        ((t.link l).dir r).spd = g.spd ∧ ((t.link l).dir r).minw = 2 ∧ ((t.link l).dir r).hseq = 0 ∧ ((t.link l).dir r).rseq = 0)

/-- R324, R346, R347: a hand-back request at the transmitter, its refusal at the requesting side, the return of a lane, and its failure. -/
def Sys2Proof.Part.LaneHandBack : Prop :=
  ∀ (l : LinkId) (lane : Nat) (s : State) (k : Link), k = s.link l → k.up = true →
    (lane < (if l.glb then 8 else 16) →
      (k.tx.wst ≠ 0 ∨ k.tx.act < k.tx.minw + 1 → exec (.handbackRequest l lane) s =
        .next { s with linkOut := s.linkOut ++ [(l, ctlFlit 7 0 lane)] }) ∧
      (k.tx.wst = 0 → k.tx.minw + 1 ≤ k.tx.act → Runs (.handbackRequest l lane) s (HandedBack l lane s))) ∧
    (k.rx.wst = 1 → Runs (.handbackRefused l lane) s (LinkBecame l { k with rx := { k.rx with
      evt := k.rx.evt ||| 2 ^ 29, wst := if k.rx.lout ≠ 0x1F ∨ k.notes ≠ [] then 1 else 0 } } s)) ∧
    (k.tx.wst ≠ 1 ∨ k.mark ≠ [] → exec (.laneReturn l .tx) s = .next s) ∧
    (k.tx.wst = 1 → k.tx.lout ≠ 0x1F → k.mark = [] → Runs (.laneReturn l .tx) s fun t => OnlyLink l s t ∧
      (t.link l).tx = { k.tx with rseq := k.nextSeq, act := k.tx.act + 1, wst := 0, lout := 0x1F, evt := (t.link l).tx.evt } ∧
      (t.link l).rx = { k.rx with evt := (t.link l).rx.evt } ∧
      ∃ fs : List FabFlit, t.linkOut = s.linkOut ++ fs.map (fun f => (l, f)) ∧
        (∀ f, fs.head? = some f → f.seq = k.nextSeq ∧ f.lk = 2) ∧
        (k.retry.length < l.retryCap → k.txq = [] → k.begun = none → ∃ f, fs = [f] ∧ f.ch = 15)) ∧
    ∀ (r : Dir) (x : LinkDir), x = k.dir r → x.wst = 1 → x.lout ≠ 0x1F → Runs (.laneFail l r) s fun t => ∃ m,
      (∀ j, m.testBit j = (x.lmap.testBit j && j != x.lout)) ∧
      Rerouted l (k.setDir r { x with lmap := m, wst := 0, lout := 0x1F }) s t

/-- A round of training succeeds, fails or goes on as R345 says; a hand-back, its refusal, a return and a failure change the items of R324.
The place of the link state word in a training flit, and that every lane passes when one arrives, is log entry 19 (PRESUMED); what PEER
keeps is log entry 51 (DESIGN CHOICE). -/
def Obligations.LinkLanes : Prop :=
  Sys2Proof.Part.LinkTraining ∧ Sys2Proof.Part.LaneHandBack

/-- R335, R342, R343: what a hitch keeps of a reach word and of a routing notice, and the route it takes: for a request that starts here the
first class of candidates that is not empty, in ascending order of position and link number, and of it the one of the hash; at an
intermediate module the direct link, or a global link of its own. -/
def Sys2Proof.Part.Routing : Prop :=
  (∀ (p : Nat) (l : LinkId) (w : Word) (s : State), Runs (.reachWord p l w) s fun t => t = { s with reach := t.reach, outbox := t.outbox } ∧
    (∀ k, Map.get 0 t.reach k = if k = p * 2 ^ 10 + l.key then w else Map.get 0 s.reach k) ∧
    (p = s.dev.mnum % 32 →
      ∀ q, q < 32 → q ≠ s.dev.mnum % 32 → (s.dev.mnum / 32 * 32 + q, Event.reachWord p l w) ∈ t.outbox) ∧
    (p ≠ s.dev.mnum % 32 → t.outbox = s.outbox)) ∧
  (∀ (p peer : Nat) (l : LinkId) (on : Bool) (s : State),
    (p = s.dev.mnum % 32 → Runs (.routingNotice p l on peer) s (Rerouted l { s.link l with farOut := !on } s)) ∧
    (p ≠ s.dev.mnum % 32 → Runs (.routingNotice p l on peer) s fun t => (∀ c, t.core c = s.core c) ∧ SameMemory s t ∧
      ∀ r, r ∈ t.routes ↔ r ∈ s.routes ∧ ¬(r.pos = p ∧ r.link = l) ∨ on = true ∧ r = ⟨p, l, peer⟩)) ∧
  ∀ (m : Nat) (s : State),
    let here : Nat := s.dev.mnum
    let to_ (p q : Nat) : LinkId := ⟨false, (q + 31 - p) % 32⟩
    let on (l : LinkId) : Bool := (s.link l).inRouting
    (m / 32 = here / 32 → on (to_ (here % 32) (m % 32)) = true → s.route m none = some (to_ (here % 32) (m % 32), 0) ∧
      ∀ c, s.route m (some c) = some (to_ (here % 32) (m % 32), 2)) ∧
    (∀ cs : List Nat, m / 32 = here / 32 → on (to_ (here % 32) (m % 32)) = false →
      cs = (List.range 32).filter (fun c => c ≠ here % 32 && c ≠ m % 32 && on (to_ (here % 32) c) &&
        s.routes.any fun r => r.pos = c && r.link == to_ c (m % 32)) →
      (cs = [] → s.route m none = none) ∧ (∀ c, s.route m (some c) = none) ∧
      ∀ c, cs[(here + m) % cs.length]? = some c → s.route m none = some (to_ (here % 32) c, 0)) ∧
    (m / 32 ≠ here / 32 →
      let lands (q : Nat) (l : LinkId) (peer : Nat) : Bool := peer = m || (Map.get 0 s.reach (q * 2 ^ 10 + l.key)).getLsbD (m % 32)
      let ours (n : Nat) : Bool :=
        on ⟨true, n⟩ && (s.link ⟨true, n⟩).peerMod / 32 = m / 32 && lands (here % 32) ⟨true, n⟩ (s.link ⟨true, n⟩).peerMod
      let theirs (r : Route) : Bool := r.link.glb && r.peer / 32 = m / 32 && r.pos ≠ here % 32 && on (to_ (here % 32) r.pos) && lands r.pos r.link r.peer
      let first (P : Route → Bool) (rs : List Route) : Prop := rs.Perm (s.routes.filter fun r => theirs r && P r) ∧
        rs.Pairwise fun a b => a.pos < b.pos ∨ a.pos = b.pos ∧ a.link.num < b.link.num
      (∀ (gs : List Nat) (n : Nat), gs = (List.range 288).filter (fun n => ours n && (s.link ⟨true, n⟩).peerMod = m) →
        gs[(here + m) % gs.length]? = some n → ∀ o, s.route m o = some (⟨true, n⟩, 1)) ∧
      (∀ (gs : List Nat) (n : Nat), gs = (List.range 288).filter ours → (∀ x ∈ gs, (s.link ⟨true, x⟩).peerMod ≠ m) →
        gs[(here + m) % gs.length]? = some n → ∀ o, s.route m o = some (⟨true, n⟩, 1)) ∧
      ((∀ n, n < 288 → ours n = false) →
        (∀ c, s.route m (some c) = none) ∧
        (∀ (rs : List Route) (r : Route), first (fun r => r.peer = m) rs → rs[(here + m) % rs.length]? = some r →
          s.route m none = some (to_ (here % 32) r.pos, 0)) ∧
        (∀ (rs : List Route) (r : Route), (∀ r ∈ s.routes, theirs r = true → r.peer ≠ m) → first (fun _ => true) rs →
          rs[(here + m) % rs.length]? = some r → s.route m none = some (to_ (here % 32) r.pos, 0)) ∧
        ((∀ r ∈ s.routes, theirs r = false) → s.route m none = none)))

/-- R325, R334, R335, R338, R341, R343, R344: a packet on its way to another module is passed on exactly as it came, but that a request loses
the time held from its budget, and is discarded with none left; it waits for a route and for room at its output. A request that starts here
and finds no candidate fails at once. -/
def Sys2Proof.Part.PacketForwarding : Prop :=
  (∀ (x : Transit) (held : Nat) (s : State), s.transit.find? (fun t => t.pkt == x.pkt) = some x →
    let out : Nat := x.pkt.budget - held
    (x.pkt.pk < 4 → out = 0 → Runs (.packetForward x.pkt held) s fun t =>
      t = { s with links := t.links, transit := s.transit.erase x } ∧
      (∀ l, x.link = some l → Map.get 0 (t.link l).held x.ch = Map.get 0 (s.link l).held x.ch - x.flits) ∧
      ∀ m, (t.link m).retry = (s.link m).retry ∧ (t.link m).txq = (s.link m).txq) ∧
    (4 ≤ x.pkt.pk ∨ out ≠ 0 →
      (s.route x.pkt.dmod x.came = none → exec (.packetForward x.pkt held) s = .next s) ∧
      ∀ (l : LinkId) (ch c : Nat) (b : List Byte) (bs : List (List Byte)), s.route x.pkt.dmod x.came = some (l, ch) →
        c = (if x.pkt.pk < 4 then ch else if x.pkt.pk = 8 then 4 else 3) → x.raw = b :: bs →
        (4096 < ((s.link l).txq ++ (s.link l).begun.toList).foldl (fun n e => n + if e.1 = c then e.2.length else 0) 0 + x.raw.length →
          exec (.packetForward x.pkt held) s = .next s) ∧
        (s.prompt = true → (s.link l).up = true → l.num < 512 → (∀ l', x.link = some l' → l'.num < 512) → (s.link l).txq = [] →
          (s.link l).begun = none → (s.link l).mark = [] → x.raw.length ≤ 4096 →
          let sent : List (List Byte) := if x.pkt.pk < 4 then (b.take 24 ++ leBytes out 4 ++ b.drop 28) :: bs else x.raw
          let n : Nat := l.retryCap - (s.link l).retry.length
          Runs (.packetForward x.pkt held) s fun t =>
            t = { s with links := t.links, transit := s.transit.erase x, linkOut := t.linkOut } ∧ ∃ fs : List FabFlit,
              t.linkOut = s.linkOut ++ fs.map (fun f => (l, f)) ∧ fs.map (fun f => f.body) = sent.take n ∧
              (∀ f ∈ fs, f.ch = c ∧ f.lk = 0 ∧ f.crc = f.crcOf) ∧ (t.link l).retry = (s.link l).retry ++ fs.map (fun f => (f, 1)) ∧
              (n = 0 → (t.link l).txq = [(c, sent)]) ∧
              (n ≠ 0 → (t.link l).txq = [] ∧ (t.link l).begun = if sent.drop n = [] then none else some (c, sent.drop n))))) ∧
  ∀ (i : Instr) (s u : State) (va : DWord) (m a n e : Nat) (op : HomeOp), i.access s = some (va, n, op) → i.soft = none → va.toNat % n = 0 →
    s.resolve s.issue.lid va.toNat op.acc = (u, .ok (.far m a)) → Map.get none u.me.far (farKey m a) = none → u.slot.freeEntry = some e →
    u.repliesFull u.issue.lid = false → u.route m none = none → exec i s = trap .remote va u

/-- R282, R331, R332, R341: a load, renewal, store or atomic of another module at its target. It is translated through the export table and
performed at the line's home, and its reply carries the outcome; where no budget is left it is discarded. The layout of an atomic's operands is
log entry 19. -/
def Sys2Proof.Part.FabricRequests : Prop :=
  (∀ (p : Packet) (s : State), p.budget = 0 → exec (.fabricTargetRequest p) s = .next s) ∧
  ∀ (p : Packet) (s : State), p.pk < 3 → p.dmod = s.dev.mnum → p.budget ≠ 0 → s.rebaseDue p.clock = false →
    let replies (st clock : Nat) (data : List Byte) (P : State → Prop) : Prop := Runs (.fabricTargetRequest p) s fun t =>
      ∃ u, (∀ c, u.core c = s.core c) ∧ P u ∧ t = u.answer { p with
        dmod := p.smod, smod := p.dmod, pk := p.pk + 4, clock := clock, addr := 0, budget := 0, status := st, data := data }
    let place := s.export p.addr (if p.pk = 0 then .rd else .wr)
    (place = .error .xlate → replies 2 0 [] fun u => u = s) ∧ (place = .error .prot → replies 3 0 [] fun u => u = s) ∧
    (place = .error .memErr → replies 4 0 [] fun u => u = s.report) ∧
    (∀ a, place = .ok (.host a) ∨ place = .ok (.object a) → replies 3 0 [] fun u => u = s) ∧
    ∀ pa, place = .ok (.memory pa) →
      let stored (n : Nat) (b : Nat → Byte) (u : State) : Prop :=
        (u.line (pa / 128)).wts = max p.clock ((s.line (pa / 128)).rts + 1) ∧
        (u.line (pa / 128)).rts = max p.clock ((s.line (pa / 128)).rts + 1) ∧
        ∀ a, u.byte a = if pa ≤ a ∧ a < pa + n then b (a - pa) else s.byte a
      (p.pk = 0 → s.badAt pa = true → replies 4 0 [] fun u => u = s.report) ∧
      (p.pk = 0 → s.badAt pa = false → Fits s (p.clock + leNat (p.data.take 4)) →
        let w := (s.line (pa / 128)).wts
        replies 0 w (if leNat ((p.data.drop 8).take 8) = w then [] else s.bytesAt (pa / 128 * 128) 128)
          fun u => SameMemory s u ∧ (u.line (pa / 128)).wts = w ∧
            (u.line (pa / 128)).rts = max (s.line (pa / 128)).rts (max p.clock s.base + leNat (p.data.take 4))) ∧
      (p.pk = 1 → s.badPart pa p.data.length = true → replies 4 0 [] fun u => u = s.report) ∧
      (p.pk = 1 → s.badPart pa p.data.length = false →
        replies 0 (max p.clock ((s.line (pa / 128)).rts + 1)) [] (stored p.data.length fun j => p.data.getD j 0)) ∧
      ∀ op n operand, p.pk = 2 → n = 4 ∨ n = 8 ∧ op ≠ .fadd → p.data = leBytes (op.primary + 256 * n) 8 ++ operand →
        (s.badPart pa n = true → replies 4 0 [] fun u => u = s.report) ∧
        (s.badPart pa n = false → ∃ new, AtomicNew op n (leNat (s.bytesAt pa n)) (leNat (operand.take n)) (leNat (operand.drop n)) new ∧
          replies 0 (max p.clock ((s.line (pa / 128)).rts + 1)) (s.bytesAt pa n) (stored n fun j => BitVec.ofNat 8 (new / 256 ^ j)))

/-- R290, R291, R292, R296, R297, R299: a request of another module to an object here (log entry 19 for what it carries): it is translated
through the export table, performed on the slot as the module's own forms are, and answered; a wait for the phase under way is answered when
that phase is over. -/
def Sys2Proof.Part.ObjectRequests : Prop :=
  ∀ (p : Packet) (s u : State) (k pa : Nat) (v : Word) (place : Except Cause Place), p.pk = 3 → p.dmod = s.dev.mnum → p.budget ≠ 0 →
    s.rebaseDue p.clock = false → u = { s with hitchClock := max s.hitchClock p.clock } → place = s.export p.addr .rd →
    v = u32 (leNat ((p.data.drop 4).take 4)) → k = pa / 64 →
    let replies (st clock : Nat) (data : List Byte) (w : State) : Prop := exec (.fabricTargetRequest p) s = .next (w.answer { p with
      dmod := p.smod, smod := p.dmod, pk := 7, clock := clock, addr := 0, budget := 0, status := st, data := data })
    let values (x y : Word) : List Byte := leBytes 3 4 ++ leBytes (Z x) 4 ++ leBytes (Z y) 4
    let value (x : Word) : List Byte := leBytes 1 4 ++ leBytes (Z x) 4 ++ leBytes 0 4
    let barrier (reason : Nat) : Prop := replies (0x13 + 256 * reason) 0 [] u
    let asks (code : Nat) : Prop := leNat (p.data.take 4) = code
    (place = .error .xlate → replies 2 0 [] u) ∧ (place = .error .prot → replies 3 0 [] u) ∧
    (place = .error .memErr → replies 4 0 [] u.report) ∧
    (∀ a, place = .ok (.memory a) ∨ place = .ok (.host a) → replies 3 0 [] u) ∧
    (place = .ok (.object pa) → 2 ^ 26 ≤ pa → replies 2 0 [] u) ∧
    (place = .ok (.object pa) → pa < 2 ^ 26 →
      (asks 4 → (∀ g, s.obj k = .group g → replies 0 0 (value (u32 k)) u) ∧ ((∀ g, s.obj k ≠ .group g) → barrier 3)) ∧
      (asks 3 → ((∀ g, s.obj k ≠ .group g) → barrier 3) ∧
        ∀ g, s.obj k = .group g →
          ((∀ r ∈ g.live, g.modOf r ≠ p.smod) → barrier 4) ∧
          ((∃ r ∈ g.live, g.modOf r = p.smod) →
            (2 ^ 31 ≤ Z v ∧ (2 ^ 13 ≤ Z v - 2 ^ 31 ∨ g.nmem ≤ Z v - 2 ^ 31) ∨ Z v < 2 ^ 31 ∧ (∃ r, g.nmem ≤ r ∧ (Z v).testBit r = true) →
              replies 1 0 [] u) ∧
            ∀ drop, (2 ^ 31 ≤ Z v ∧ Z v - 2 ^ 31 < 2 ^ 13 ∧ Z v - 2 ^ 31 < g.nmem ∧ drop = [Z v - 2 ^ 31] ∨
                Z v < 2 ^ 31 ∧ (∀ r, (Z v).testBit r = true → r < g.nmem) ∧ drop = (List.range 31).filter fun r => (Z v).testBit r) →
              Runs (.fabricTargetRequest p) s fun t => SameMemory s t ∧ (∀ c, t.core c = s.core c) ∧
                ∃ a : Ask, a.asker = .far p ∧ a.drop = drop ∧ t.groupAt k = some { g with asks := g.asks ++ [a] } ∧
                  ToldAll [(g.modOf g.leader, .form k (s.dev.mnum + 2 ^ 13 * a.id) drop)] s t)) ∧
      (asks 0 →
        ((∀ b, s.obj k ≠ .barrier b) → (2 ^ 31 ≤ Z v → barrier 1) ∧ (Z v < 2 ^ 31 → replies 0 0 (values 0 2) u)) ∧
        ∀ b, s.obj k = .barrier b →
          (2 ^ 31 < Z v → replies 1 0 [] u) ∧
          (Z v = 2 ^ 31 → s.inScope b p.smod p.core = false → barrier 2) ∧
          (Z v = 2 ^ 31 → s.inScope b p.smod p.core = true → ∃ w : State, w = { u with objects := w.objects } ∧
            replies 0 0 (values (u32 b.phase) 0) w ∧ (∀ j, j ≠ k → w.obj j = s.obj j) ∧
            w.obj k = .barrier (if b.arr + 1 = b.count
              then { b with phase := (b.phase + 1) % 2 ^ 31, arr := 0, pclk := max b.aclk p.clock, aclk := 0 }
              else { b with arr := b.arr + 1, aclk := max b.aclk p.clock })) ∧
          (Z v < 2 ^ 31 → b.phase = Z v → exec (.fabricTargetRequest p) s = .next { u with farWaits := s.farWaits ++ [(k, p)] }) ∧
          (Z v < 2 ^ 31 → b.phase ≠ Z v → replies 0 b.pclk (values (u32 b.phase)
            (if 1 ≤ (b.rphase + 2 ^ 31 - Z v) % 2 ^ 31 ∧ (b.rphase + 2 ^ 31 - Z v) % 2 ^ 31 ≤ 2 ^ 30 then 1 else 0)) u)) ∧
      (asks 1 →
        (∀ g, s.obj k = .group g → barrier 1) ∧
        ((∀ g, s.obj k ≠ .group g) →
          let becomes (o : Obj) (x : Word) : Prop := ∃ w : State, w = { u with objects := w.objects } ∧ replies 0 0 (value x) w ∧
            w.obj k = o ∧ ∀ j, j ≠ k → w.obj j = s.obj j
          (Z v = 0xFFFFFFFF → becomes .free 0) ∧
          (Z v ≠ 0xFFFFFFFF → (2 ^ 27 ≤ Z v ∨ Z v / 2 ^ 20 % 16 ≠ 0 ∨ Z v % 2 ^ 20 = 0 ∨ Z v / 2 ^ 24 % 8 = 7) → replies 1 0 [] u) ∧
          (Z v < 2 ^ 27 → Z v / 2 ^ 20 % 16 = 0 → Z v % 2 ^ 20 ≠ 0 → Z v / 2 ^ 24 % 8 ≠ 7 → p.smod ≠ s.dev.mnum →
            ∀ q c, (s.obj k = .free → q = 0 ∧ c = 0) → (∀ b, s.obj k = .barrier b → q = (b.phase + 1) % 2 ^ 31 ∧ c = b.pclk) →
            becomes (.barrier ⟨Z v % 2 ^ 20, 0, q, q, Z v / 2 ^ 24 % 8, (p.smod, p.core), c, 0⟩) (u32 q)))) ∧
      (asks 2 → (s.obj k = .free → replies 0 0 (values 0 0xFFFFFFFF) u) ∧
        (∀ b, s.obj k = .barrier b → replies 0 0 (values (u32 b.phase) (u32 (b.count - b.arr))) u) ∧
        ∀ g, s.obj k = .group g → replies 0 0 (values (u32 g.epoch) (u32 (2 ^ 31 + g.live.length))) u))

/-- R271, R290, R291, R292, R331: the reply of an object of another module. The form that waits for it completes with the registers that it
gives and its clock, or takes the trap that its status names; a form whose record named a GROUP there goes on with the slot it gives. What the
reply carries is log entry 19. -/
def Sys2Proof.Part.ObjectReplies : Prop :=
  ∀ (r : Reply) (s u : State) (w : Wait) (en : Entry) (x : Slot), x = s.slotAt r.core r.slot → (∀ q ∈ s.reqs, q.answer ≠ some r) →
    (∀ y ∈ (s.core r.core).xfers, y.awaits r = false) → r.entry < 16 → r.slot < 4 → Map.get none x.entries r.entry = some en →
    en.serial = r.serial → en.use = .object → x.wait = some w →
    u = { s.setSlotAt r.core r.slot (x.release r.entry) with issue := w.issue r.core r.slot } →
    (∀ d n, w.instr ∈ [.bjoin d n, .binit d n, .bqry d n, .gform d n] →
      (∀ f a b, r.status = 0 → f < 4 → a < 2 ^ 32 → b < 2 ^ 32 → r.data = leBytes f 4 ++ leBytes a 4 ++ leBytes b 4 →
        w.start + u64 w.length ≠ END → Runs (.memoryReply r) s fun t =>
          (∀ k, Map.get 0 (t.slotAt r.core r.slot).regs k =
            if k = d + 1 ∧ 2 ≤ f then u32 b else if k = d ∧ f % 2 = 1 then u32 a else Map.get 0 x.regs k) ∧
          (t.slotAt r.core r.slot).pc = w.start + u64 w.length ∧ (t.slotAt r.core r.slot).wait = none ∧
          Map.get none (t.slotAt r.core r.slot).entries r.entry = none ∧ (t.core r.core).pts = max (s.core r.core).pts r.clock ∧
          SameCores r.core s t ∧ SameMemory s t) ∧
      (w.instr ∈ [.bjoin d n, .binit d n, .bqry d n] → r.status = 1 →
        exec (.memoryReply r) s = trap .illegal (u64 (Z (Map.get 0 x.regs d))) u) ∧
      (∀ e ∈ [(2, Cause.xlate), (3, .prot), (4, .memErr), (5, .remote)], r.status = e.1 →
        exec (.memoryReply r) s = trap e.2 (Map.get 0 x.aregs n) u) ∧
      ∀ k, r.status = 0x13 + 256 * k → 0 < k → exec (.memoryReply r) s = barrierTrap k (Map.get 0 x.aregs n) u) ∧
    ∀ d n a va k m, w.instr = .coll d n a ∨ w.instr = .pnopen d n → x.half = some (leBytes va 8) → va < 2 ^ 64 →
      (r.status = 0 → k < 2 ^ 20 → r.data = leBytes 1 4 ++ leBytes k 4 ++ leBytes 0 4 → Runs (.memoryReply r) s fun t =>
        (t.slotAt r.core r.slot).half = some (leBytes va 8 ++ leBytes k 4) ∧ (t.slotAt r.core r.slot).pc = w.start ∧
        (t.core r.core).pts = max (s.core r.core).pts r.clock ∧ ∃ y, (t.slotAt r.core r.slot).wait = some y ∧ y.instr = w.instr ∧
          y.start = w.start ∧ y.since = w.since ∧ y.poll = true) ∧
      (r.status = 0x13 + 256 * m → 0 < m → exec (.memoryReply r) s = barrierTrap m (u64 va) u)

/-- A packet takes the route of R343 and is passed on as it came but for the budget; a request is performed at its target, on memory or on an
object, and its reply carries the outcome, which completes the form that waits. What object requests and atomics carry is log entry 19
(PRESUMED); gform performed at the target, BGONE for a slot without a barrier, and a form that goes on with the slot given, are log entry
27 (DESIGN CHOICE). -/
def Obligations.Fabric : Prop :=
  Sys2Proof.Part.Routing ∧ Sys2Proof.Part.PacketForwarding ∧ Sys2Proof.Part.FabricRequests ∧ Sys2Proof.Part.ObjectRequests ∧
  Sys2Proof.Part.ObjectReplies

/-- R334: the layout of packets. What the flits of a packet carry is read back as the packet, at every length that its kind has; of a store,
one of the sizes that fill its flits. -/
def Sys2Proof.Part.PacketLayout : Prop :=
  ∀ (p : Packet) (n : Nat), p.dmod < 2 ^ 13 → p.smod < 2 ^ 13 → p.core < 2 ^ 20 → p.slot < 4 → p.entry < 16 → p.serial < 2 ^ 32 →
    p.clock < 2 ^ 64 → (p.pk < 4 → p.addr < 2 ^ 50 ∧ p.budget < 2 ^ 32 ∧ p.status = 0) →
    (4 ≤ p.pk → p.addr = 0 ∧ p.budget = 0 ∧ p.status < 2 ^ 32) →
    (p.pk = 0 ∧ p.data.length = 16 ∨ p.pk = 1 ∧ p.data.length = n ∧ n + p.addr % 128 ≤ 128 ∨ (p.pk = 2 ∨ p.pk = 6 ∨ p.pk = 7) ∧ p.data.length = 24 ∨
      p.pk = 3 ∧ p.data.length = 8 ∨ p.pk = 4 ∧ (p.data.length = 0 ∨ p.data.length = 128) ∨ p.pk = 5 ∧ p.data.length = 0) →
    (∀ b ∈ p.payloads, b.length = 56) ∧ p.payloads.length = nflOf (p.payloads.headD []) + 1 ∧ readPacket n p.payloads.flatten = p ∧
      (p.pk = 1 → 0 < n → ∃ c, c < (if p.payloads.length ≤ 1 then 24 else 56) ∧ n = 56 * p.payloads.length - 32 - c)

/-- The receiver accepts the flit it expects, refuses a bad one with one NAK and discards gaps and repeats; the transmitter sends again from
the number a NAK names; a packet is read back from its flits. The size of a store is the free choice of log entry 19 (PRESUMED), and that
a step sends one flit where steps are not prompt log entry 3. -/
def Obligations.LinkTraffic : Prop :=
  Sys2Proof.Part.FlitReception ∧ Sys2Proof.Part.FlitReplay ∧ Sys2Proof.Part.PacketLayout

/-! ### Host, groom and service (spec/16) -/

/-- R352 to R355, R364, R368: a read of the device window. It takes a register's own width, or half of a 64-bit register; it clears an RC
field; every other access reads all ones, as do the offsets that hold no register. A write-only register reads as a free value (log
entry 4). -/
def Sys2Proof.Part.WindowReads : Prop :=
  ∀ (s : State) (d : Device), d = s.dev → d.power = true →
    let reads (off size v : Nat) (y : Device) : Prop :=
      exec (.readClear off size) s = .next { s with hostOut := s.hostOut ++ [.read off v], dev := y }
    let plain : List (Nat × Nat) := [(0x00, d.mnum), (0x04, d.tcnt), (0x08, d.fenced.length), (0x30, Z d.rbc), (0x48, d.mevt.toNat),
      (0x50, d.svcd), (0x54, Z d.svcw0), (0x58, d.svcw1), (0x5C, if d.svcReq = none then 0 else 1), (0x60, d.gslot), (0xC8, Z d.fwlen),
      (0xD0, (if d.fwRdy then 2 ^ 31 else 0) + d.fwWhy % 256 * 2 ^ 8 + d.fwState % 16), (0xE4, d.rpReason * 2 ^ 4 + d.rpState),
      (0x100, Map.get 6250 d.pcap 0), (0x104, Map.get 6250 d.pcap 1), (0x108, Map.get 6250 d.pcap 2), (0x10C, Map.get 6250 d.pcap 3),
      (0x110, Map.get 0 d.pwr 0), (0x114, Map.get 0 d.pwr 1), (0x118, Map.get 0 d.pwr 2), (0x11C, Map.get 0 d.pwr 3)]
    let clearing : List (Nat × Nat × Device) := [(0x34, Z d.stray, { d with stray := 0 }), (0x38, Z d.serr, { d with serr := 0 }),
      (0x3C, Z d.uerr, { d with uerr := 0 }), (0x64, d.svst.toNat, { d with svst := 0 }), (0x68, d.gist.toNat, { d with gist := 0 }),
      (0x120, d.tampCnt * 2 ^ 16 + d.tampLvl, { d with tampCnt := 0 })]
    (∀ e ∈ plain, reads e.1 4 e.2 d ∧ reads e.1 1 (2 ^ 8 - 1) d ∧ reads e.1 2 (2 ^ 16 - 1) d ∧ reads e.1 8 (2 ^ 64 - 1) d) ∧
    (∀ e ∈ clearing, reads e.1 4 e.2.1 e.2.2 ∧ reads e.1 8 (2 ^ 64 - 1) d) ∧
    reads 0x10 16 0xFF d ∧ reads 0x20 16 d.accept.toNat d ∧
    (∀ e ∈ [(0x40, d.xroot), (0xC0, d.fwa)], reads e.1 8 e.2.toNat d ∧ reads e.1 4 (e.2.toNat % 2 ^ 32) d ∧
      reads (e.1 + 4) 4 (e.2.toNat / 2 ^ 32) d) ∧
    (∀ off size, 0 < size → 0x1000 ≤ off ∧ off < 0x10000 ∨ 0x50000 ≤ off ∧ off < 0xF0000 → reads off size (2 ^ (8 * size) - 1) d) ∧
    (∀ off size, 0 < size → off % size ≠ 0 → (∀ e ∈ clearing, off ≠ e.1) → (∀ q, q < 64 → off ≠ 0x10074 + 0x1000 * q) →
      reads off size (2 ^ (8 * size) - 1) d) ∧
    (∀ e ∈ [(0x80, 64), (0xCC, 4), (0xE0, 4)], ∃ v, exec (.readClear e.1 e.2) s =
      .next { s with hostOut := s.hostOut ++ [.read e.1 v], free := s.free + 1 }) ∧
    ∀ (q b : Nat) (x : Queue), q < 64 → b = 0x10000 + 0x1000 * q → x = s.queue q →
      let has (p : Phase) : Nat := if ∃ la, x.launch = some la ∧ la.phase = p then 1 else 0
      (∀ e ∈ [(0x40, x.cpla), (0x48, x.ptroot), (0x50, x.rvec), (0x58, x.cuta), (0x60, x.sava)], reads (b + e.1) 8 e.2.toNat d ∧
        reads (b + e.1) 4 (e.2.toNat % 2 ^ 32) d ∧ reads (b + e.1 + 4) 4 (e.2.toNat / 2 ^ 32) d) ∧
      (∀ e ∈ [(0x68, x.dln), (0x6C, Z x.seq), (0x70, x.rst.toNat), (0x80, Z x.lcvres), (0x84, Z x.lcvcnt), (0x88, Z x.lcvwin),
          (0x8C, x.stl.toNat * 2 ^ 31 + x.run)], reads (b + e.1) 4 e.2 d) ∧
      exec (.readClear (b + 0x74) 4) s = .next { s.setQueue q { x with splost := 0, badw := 0 } with hostOut := s.hostOut ++
        [.read (b + 0x74) (x.splost % 2 ^ 16 * 2 ^ 16 + x.badw % 2 ^ 8 * 2 ^ 8 + has .saved * 2 + has .placed)] }

/-- R353 to R355, R359, R370, R372: a write of the device window. A register takes what its row says, a read-only one nothing; ACCEPT
and MNUM are taken only while no queue has LIVE or SAVED set; a firmware in recovery takes only the firmware registers (R365). A write of
64 bytes at LREC is a launch record, and every other write there is discarded and counted. The width of the registers of fewer than 32 bits
and the bits that DLN takes are log entry 32 (DEDUCED). -/
def Sys2Proof.Part.WindowWrites : Prop :=
  ∀ (s : State) (d : Device) (v : Nat), d = s.dev → d.power = true →
    let idle : Prop := ∀ e ∈ s.queues, ∀ la, e.2.launch = some la → la.phase = .waiting
    let writes (off size : Nat) (y : Device) : Prop := exec (.registerWrite off size v) s = .next { s with dev := y }
    (∀ x : DWord, x = u64 v →
      writes 0xC0 8 { d with fwa := x } ∧ writes 0xC0 4 { d with fwa := u64 (d.fwa.toNat / 2 ^ 32 * 2 ^ 32 + v % 2 ^ 32) } ∧
      writes 0xC4 4 { d with fwa := u64 (v % 2 ^ 32 * 2 ^ 32 + d.fwa.toNat % 2 ^ 32) } ∧ writes 0xC8 4 { d with fwlen := u32 v }) ∧
    (d.stored = none → ∀ off size, off < 0xC0 ∨ 0xD4 ≤ off ∧ off ≠ 0xE0 → exec (.registerWrite off size v) s = .next s) ∧
    (d.stored ≠ none →
      (∀ x : DWord, x.toNat = v % 2 ^ 64 / 2 ^ 14 * 2 ^ 14 → writes 0x40 8 { d with xroot := x }) ∧
      (∀ x : DWord, x.toNat = (d.xroot.toNat / 2 ^ 32 * 2 ^ 32 + v % 2 ^ 32) / 2 ^ 14 * 2 ^ 14 → writes 0x40 4 { d with xroot := x }) ∧
      (∀ x : DWord, x.toNat = (v % 2 ^ 32 * 2 ^ 32 + d.xroot.toNat % 2 ^ 32) / 2 ^ 14 * 2 ^ 14 → writes 0x44 4 { d with xroot := x }) ∧
      (∀ x : Byte, (∀ i, i < 8 → x.getLsbD i = (d.mevt.getLsbD i && !v.testBit i)) → writes 0x48 4 { d with mevt := x }) ∧
      writes 0x50 4 { d with svcd := v % 2 ^ 20 } ∧ writes 0x54 4 { d with svcw0 := u32 v } ∧
      writes 0x58 4 { d with svcw1 := v % 2 ^ 16 } ∧ writes 0x60 4 { d with gslot := v % 2 ^ 20 } ∧
      (∀ off ∈ [0x00, 0x04, 0x08, 0x30, 0x34, 0x38, 0x3C, 0x64, 0x68, 0xD0, 0xE4, 0x110, 0x114, 0x118, 0x11C, 0x120], writes off 4 d) ∧
      (∀ off size, 0 < size → off % size ≠ 0 → (off < 0x10000 ∨ 0x50000 ≤ off ∨ 64 ≤ off % 0x1000) → writes off size d) ∧
      (idle → Runs (.accept v) s fun t => t = { s with dev := { d with accept := t.dev.accept } } ∧
        ∀ i, i < 128 → t.dev.accept.getLsbD i = (i = 0 || (decide (i < 8) && v.testBit i))) ∧
      (¬idle → exec (.accept v) s = .next s) ∧
      (∀ q, q < 4 → Runs (.pcap q v) s fun t => t = { s with dev := { d with pcap := t.dev.pcap } } ∧
        ∀ j, Map.get 6250 t.dev.pcap j = if j = q then max 1500 (v % 2 ^ 16) else Map.get 6250 d.pcap j) ∧
      ∀ (q b : Nat) (x : Queue), q < 64 → b = 0x10000 + 0x1000 * q → x = s.queue q →
        let queue (off size : Nat) (y : Queue) : Prop := exec (.registerWrite (b + off) size v) s = .next (s.setQueue q y)
        (∀ w : DWord, w.toNat = v % 2 ^ 64 / 2 ^ 5 * 2 ^ 5 → queue 0x40 8 { x with cpla := w }) ∧
        (∀ w : DWord, w.toNat = v % 2 ^ 64 / 2 ^ 14 * 2 ^ 14 → queue 0x48 8 { x with ptroot := w }) ∧
        queue 0x50 8 { x with rvec := u64 v } ∧
        (∀ w : DWord, w.toNat = v % 2 ^ 64 / 2 ^ 16 * 2 ^ 16 → queue 0x58 8 { x with cuta := w } ∧ queue 0x60 8 { x with sava := w }) ∧
        (queue 0x68 4 (if 1 ≤ v % 2 ^ 20 ∧ v % 2 ^ 20 ≤ 1000000 then { x with dln := v % 2 ^ 20 } else x)) ∧
        queue 0x70 4 { x with rst := v.testBit 0 } ∧
        (∀ off size, off < 64 → 0 < size → off ≠ 0 ∨ size ≠ 64 → queue off size { x with badw := min (x.badw + 1) 255 }) ∧
        exec (.registerWrite b 64 v) s = exec (.launchRecord q (leBytes v 64)) s ∧
        ∀ off ∈ [0x6C, 0x74, 0x80, 0x84, 0x88, 0x8C], queue off 4 x) ∧
    (d.stored ≠ none → idle → exec (.mnumWrite v) s = .next { s with dev := { d with mnum := v % 2 ^ 13 } }) ∧
    (d.stored = none ∨ ¬idle → exec (.mnumWrite v) s = .next s)

/-- R199, R361, R364: a write to SVCGO injects the service request, or holds it until RDY; a second one while BUSY is discarded. That the
flit is made and, with RDY, injected in the step of the write is log entry 32 (DEDUCED). -/
def Sys2Proof.Part.ServiceInjection : Prop :=
  ∀ (s : State) (d : Device), d = s.dev → d.power = true → d.stored ≠ none →
    let sent (f : Flit) : Prop := f.dst = d.svcd ∧ f.src = d.svcd ∧ f.kind = .system ∧ f.pri = 3 ∧ f.cls = 0 ∧ f.ksf = 0x0300 ∧ f.low = 0 ∧
      f.w0 = d.svcw0 ∧ f.w1 = u32 d.svcw1 ∧ f.w2 = 0 ∧ f.w3 = 0 ∧ f.w4 = 0
    (d.svcReq ≠ none → exec .svcgo s = .next s) ∧
    (d.svcReq = none → d.fwRdy = false → Runs .svcgo s fun t => ∃ f, sent f ∧ t = { s with dev := { d with svcReq := some f } }) ∧
    (d.svcReq = none → d.fwRdy = true → Runs .svcgo s fun t => ∃ x, sent x.flit ∧ x.team = none ∧
      t = { s with flight := s.flight ++ [x], stamp := s.stamp + 1 })

/-- R293, R362: a write to GIMG. A good image of a group fills the slot, KIND 0 frees it, and an image that breaks R293 or meets a busy
group is discarded with its reason. Which KINDs the host writes, that STATE is 0 in a good image, and which EPOCHs are taken is log entry
31 (DEDUCED); that an image waits for RDY log entry 32. -/
def Sys2Proof.Part.GroupImages : Prop :=
  ∀ (bs : List Byte) (s : State) (d : Device), d = s.dev → d.power = true → d.stored ≠ none → bs.length = 64 →
    let field (o k : Nat) : Nat := leNat ((bs.drop o).take k)
    let n : Nat := field 8 2
    let a : Nat := field 0x10 8
    let discarded (why : Nat) : Prop := Runs (.gimg bs) s fun t => t = { s with dev := t.dev, hostOut := t.hostOut } ∧
      t.dev = { d with gist := BitVec.ofNat 8 why, mevt := d.mevt ||| 0x80#8 } ∧
      t.hostOut = s.hostOut ++ if d.mevt.getLsbD 7 then [] else [.msix 64]
    let sound : Prop := field 1 1 = 0 ∧ field 2 2 < n ∧ field 4 4 ≠ 0 ∧ 1 ≤ n ∧ n ≤ 8192 ∧ field 0x0A 2 = 0 ∧ 1 ≤ field 0x0C 4 ∧
      field 0x0C 4 ≤ 1000000 ∧ ∀ i, 0x18 ≤ i → i < 64 → bs[i]? = some 0
    (d.fwRdy = false → exec (.gimg bs) s = .next { s with dev := { d with images := d.images ++ [(d.gslot, bs)] } }) ∧
    (d.fwRdy = true →
      (s.groupBusy d.gslot = true → discarded 2) ∧
      (s.groupBusy d.gslot = false →
        (field 0 1 = 0 → Runs (.gimg bs) s fun t => t = { s with objects := t.objects } ∧ t.obj d.gslot = .free ∧
          ∀ j, j ≠ d.gslot → t.obj j = s.obj j) ∧
        (field 0 1 ≠ 0 → field 0 1 ≠ 2 → discarded 1) ∧
        (field 0 1 = 2 → ¬sound → discarded 1) ∧
        (field 0 1 = 2 → sound → 2 ^ 41 < a + 4 * n → discarded 1) ∧
        (field 0 1 = 2 → sound → a + 4 * n ≤ 2 ^ 41 → s.badIn a (4 * n) = true → Runs (.gimg bs) s fun t => t = { s with dev := t.dev, hostOut := t.hostOut } ∧
          t.dev = { d with gist := 1, mevt := d.mevt ||| 0x80#8, uerr := t.dev.uerr } ∧ Z t.dev.uerr = min (Z d.uerr + 1) (2 ^ 32 - 1)) ∧
        ∀ ms : List Nat, field 0 1 = 2 → sound → a + 4 * n ≤ 2 ^ 41 → s.badIn a (4 * n) = false →
          ms = (List.range n).map (fun r => leNat (s.bytesAt (a + 4 * r) 4)) →
          ((∃ m ∈ ms, 2 ^ 13 ≤ m) → discarded 1) ∧
          ((∀ m ∈ ms, m < 2 ^ 13) → Runs (.gimg bs) s fun t => t = { s with objects := t.objects } ∧
            (∀ j, j ≠ d.gslot → t.obj j = s.obj j) ∧ ∃ g, t.obj d.gslot = .group g ∧ g.rank = field 2 2 ∧ g.epoch = field 4 4 ∧
              g.nmem = n ∧ g.gdl = field 0x0C 4 ∧ g.mods = ms ∧ g.live = List.range n ∧ g.forming = false)))

/-- Every register of the window is read and written by its row; SVCGO and GIMG have their effects. KINDs, STATE and EPOCH of a GIMG write are
log entry 31, and the bits and widths of the narrow registers log entry 32 (both DEDUCED). -/
def Obligations.DeviceWindow : Prop :=
  Sys2Proof.Part.WindowReads ∧ Sys2Proof.Part.WindowWrites ∧ Sys2Proof.Part.ServiceInjection ∧ Sys2Proof.Part.GroupImages

/-- R339, R345, R363 to R365: the states of a staged image, the start of the firmware, which trains the links before it sets RDY, and what its
service means to launch records. The bytes that a staging takes are as many as FWLEN named, or those that the messages of R372 carried.
STAGE in state 5 is log entry 33, and the reason of bytes at 0x0C that are not zero log entry 16. -/
def Sys2Proof.Part.Firmware : Prop :=
  ∀ (s : State) (d : Device), d = s.dev → d.power = true →
    let to_ (i : Instr) (st why : Nat) (y : Device) : Prop := Runs i s fun t => t = { s with dev := t.dev, hostOut := t.hostOut } ∧
      t.dev = { y with fwState := st, fwWhy := why, mevt := d.mevt ||| 4#8 }
    let len (bs : List Byte) : Nat := leNat ((bs.drop 8).take 4)
    let svn (bs : List Byte) : Nat := leNat ((bs.drop 4).take 4)
    let formed (bs : List Byte) : Prop := leNat (bs.take 4) = 0x4D524F47 ∧ len bs ≤ 8 * 2 ^ 20 - 4096 ∧ 0x40 + len bs + 96 ≤ bs.length ∧
      ∀ i, 0x0C ≤ i → i < 0x40 → bs[i]? = some 0
    (d.fwState ∈ [0, 2, 3, 5] → to_ .stage 1 0 { d with staged := none, stageLen := Z d.fwlen }) ∧ (d.fwState ∈ [1, 4] → exec .stage s = .next s) ∧
    (∀ m : FwImage, m.outOfBand = false → m.bytes.length ≠ d.stageLen → exec (.stageDone (some m)) s = .next s) ∧
    (d.fwState = 1 → to_ (.stageDone none) 3 5 d ∧ ∀ (m : FwImage) (bs : List Byte), bs = m.bytes → m.outOfBand = true ∨ bs.length = d.stageLen →
      (¬formed bs → to_ (.stageDone (some m)) 3 1 d) ∧
      (formed bs → Config.ecdsaVerifies bs = false → to_ (.stageDone (some m)) 3 2 d) ∧
      (formed bs → Config.ecdsaVerifies bs = true → Config.lmsVerifies bs = false → to_ (.stageDone (some m)) 3 3 d) ∧
      (formed bs → Config.ecdsaVerifies bs = true → Config.lmsVerifies bs = true → svn bs < d.fuseMin → to_ (.stageDone (some m)) 3 4 d) ∧
      (formed bs → Config.ecdsaVerifies bs = true → Config.lmsVerifies bs = true → d.fuseMin ≤ svn bs →
        to_ (.stageDone (some m)) 2 0 { d with staged := some (svn bs), stagedHash := Config.imageHash bs })) ∧
    (d.fwState = 2 → to_ .activate 4 0 d) ∧ (d.fwState ≠ 2 → exec .activate s = .next s) ∧
    (d.fwState ∈ [2, 3] → to_ .fwDiscard 0 0 { d with staged := none }) ∧ (d.fwState ∉ [2, 3] → exec .fwDiscard s = .next s) ∧
    (d.fwState = 4 → d.rpState = 1 → d.fwRdy = true → exec .activation s = .next s) ∧
    (d.fwState = 4 → d.staged ≠ none → exec .firmwareBoot s = .next s) ∧
    (∀ n, d.fwState = 4 → d.rpState ≠ 1 ∨ d.fwRdy = false → d.staged = some n → to_ .activation 4 d.fwWhy { d with
      stored := some n, storedHash := d.stagedHash, staged := none, fuseMin := max d.fuseMin n, fwRdy := false }) ∧
    (d.fwRdy = false → d.stored ≠ none → d.staged = none → d.linksBegun = false → Runs .firmwareBoot s fun t =>
      t.dev = { d with linksBegun := true, mevt := t.dev.mevt } ∧ t.cores = s.cores ∧ SameMemory s t ∧
      ∀ l : LinkId, (if l.glb then l.num ≤ 287 else l.num ≤ 30) →
        ((s.link l).up = true → t.link l = s.link l) ∧
        ((s.link l).up = false → (t.link l).up = false ∧ (t.link l).training = some ⟨1, 2 ^ (if l.glb then 8 else 16) - 1, 0, 0⟩)) ∧
    (d.fwRdy = false → d.stored ≠ none → d.staged = none → d.linksBegun = true → (∃ e ∈ s.links, e.2.training ≠ none) →
      exec .firmwareBoot s = .next s) ∧
    (d.fwRdy = false → d.stored ≠ none → d.staged = none → d.svcReq = none → d.images = [] → d.queries = [] → d.rpState ≠ 1 →
      d.linksBegun = true → (∀ e ∈ s.links, e.2.training = none) →
      to_ .firmwareBoot (if d.fwState = 4 then 0 else d.fwState) d.fwWhy { d with fwRdy := true, attKeys := d.idKey }) ∧
    (d.fwState = 4 → Runs .activationPowerFail s fun t => t.dev.stored = none ∧ t.dev.fwState = 5 ∧ t.dev.fwRdy = false ∧ t.mem = [] ∧
      t.cores = [] ∧ t.queues = []) ∧
    ∀ (q : Nat) (bs : List Byte), q < 64 → d.fwRdy = false ∨ bs.length ≠ 64 → exec (.launchRecord q bs) s =
      .next (s.setQueue q { s.queue q with badw := min ((s.queue q).badw + 1) 255 })

/-- R366, R368, R369: repair commands, with the reasons of their refusals, and the answers of the groom. -/
def Sys2Proof.Part.RepairCommands : Prop :=
  ∀ (s : State) (d : Device) (a : Nat), d = s.dev → d.power = true → d.stored ≠ none → d.fwRdy = true →
    let ends (i : Instr) (st why : Nat) (y : Device) : Prop := Runs i s fun t => t = { s with dev := t.dev, hostOut := t.hostOut } ∧
      t.dev = { y with rpState := st, rpReason := why, mevt := d.mevt ||| 8#8 }
    let gated : Prop := Config.quarterOf a % 4 ∈ d.gated
    (d.rpState = 1 → ∀ i ∈ [Instr.repairFence a, .unfence a, .recal a, .gate a, .ungate a], exec i s = .next s) ∧
    (d.rpState ≠ 1 →
      (d.tcnt ≤ a → ends (.repairFence a) 3 1 d) ∧ (a < d.tcnt → s.occupied a = true → ends (.repairFence a) 3 2 d) ∧
      (a < d.tcnt → s.occupied a = false → ends (.repairFence a) 2 0 { d with
        fenced := if a ∈ d.fenced then d.fenced else d.fenced ++ [a] }) ∧
      (a ∉ d.fenced ∨ gated → ends (.unfence a) 3 3 d) ∧
      (a ∈ d.fenced → ¬gated → ends (.unfence a) 2 0 { d with fenced := d.fenced.erase a }) ∧
      (127 < a → ends (.recal a) 3 1 d) ∧ (a ≤ 127 → ends (.recal a) 1 0 { d with repair := some (3, a) }) ∧
      (3 < a → ends (.gate a) 3 1 d) ∧
      (a ≤ 3 → (∃ t, t < d.tcnt ∧ Config.quarterOf t % 4 = a ∧ t ∉ d.fenced) → ends (.gate a) 3 4 d) ∧
      (a ≤ 3 → (∀ t, t < d.tcnt → Config.quarterOf t % 4 = a → t ∈ d.fenced) → ends (.gate a) 1 0 { d with repair := some (4, a) }) ∧
      (a ∉ d.gated → ends (.ungate a) 3 3 d) ∧ (a ∈ d.gated → ends (.ungate a) 1 0 { d with repair := some (5, a) }) ∧
      ∀ v, v / 2 ^ 28 % 16 = 0 ∨ 5 < v / 2 ^ 28 % 16 → ends (.registerWrite 0xE0 4 v) 3 1 d) ∧
    (d.rpState = 1 → (d.repair = some (3, a) → ends .repairCommandDone 2 0 { d with repair := none }) ∧
      (d.repair = some (4, a) → ends .repairCommandDone 2 0 { d with
        repair := none, gated := if a ∈ d.gated then d.gated else d.gated ++ [a] }) ∧
      (d.repair = some (5, a) → ends .repairCommandDone 2 0 { d with repair := none, gated := d.gated.erase a })) ∧
    ∀ (bs : List Byte) (n : Nat), d.stored = some n → exec (.spdmRequest bs) s = .next { s with
      hostOut := s.hostOut ++ [.spdm (Config.spdmAnswer bs
        ⟨Config.romHash, d.storedHash, n, Config.shippedFused ++ d.fused, d.tcnt, d.accept.toNat⟩ d.attKeys s.free)], free := s.free + 1 }

/-- R358, R367, R370, R371: tamper levels, throttling and the thermal trip. A launch that the groom ends gets the record HALTED. The counting
of levels 2 and 3 is log entry 33, the fields of HALTED and the launches that a trip ends log entry 25 (both DEDUCED). -/
def Sys2Proof.Part.GroomActions : Prop :=
  ∀ (s : State) (d : Device), d = s.dev → d.power = true →
    let noted (l : Nat) (y : Device) (t : State) : Prop :=
      t.dev = { y with tampCnt := min (d.tampCnt + 1) 0xFFFF, tampLvl := max d.tampLvl l, mevt := d.mevt ||| 2#8 }
    let erased (t : State) : Prop := (∀ l, (t.core l).pool = []) ∧ SameMemory s t ∧
      (∀ q la, (t.queue q).launch = some la → la.phase ≠ .placed) ∧
      (∀ q la, (s.queues.map Prod.fst).Nodup → (s.queue q).launch = some la → la.phase ≠ .placed → (t.queue q).launch = some la)
    let clock (q n : Nat) (b : Byte) (y : Device) (t : State) : Prop := t = { s with dev := t.dev, hostOut := t.hostOut } ∧
      t.dev = { y with level := t.dev.level, mevt := d.mevt ||| b } ∧
      ∀ j, Map.get 0 t.dev.level j = if j = q then n else Map.get 0 d.level j
    Runs .tamperLevel1 s (fun t => noted 1 d t ∧ t = { s with dev := t.dev, hostOut := t.hostOut }) ∧
    Runs .tamperLevel2 s (fun t => noted 2 { d with attKeys := false } t ∧ erased t) ∧
    Runs .tamperLevel3 s (fun t => noted 3 { d with attKeys := false, idKey := false } t ∧ erased t) ∧
    (∀ q w, q < 4 →
      let y : Device := { d with pwr := Map.set 0 d.pwr q (w % 2 ^ 16) }
      (Map.get 6250 d.pcap q < w % 2 ^ 16 → Runs (.powerThrottle q w) s (clock q (min (Map.get 0 d.level q + 1) 56) 0x20#8 y)) ∧
      (w % 2 ^ 16 ≤ Map.get 6250 d.pcap q → Runs (.powerThrottle q w) s (clock q (Map.get 0 d.level q - 1) 0#8 y)) ∧
      Runs (.thermalThrottle q) s (clock q 56 0x10#8 d)) ∧
    Runs .thermalTrip s fun t => t.dev = { d with computeOff := true } ∧ SameMemory s t ∧ (∀ q, (t.queue q).launch = none) ∧
      ∀ q x la, s.queues = [(q, x)] → x.launch = some la →
        t.hostOut = s.hostOut ++ [.data ((x.cpla.toNat + 32 * (la.seq % 256)) % 2 ^ 64)
          (leBytes la.seq 4 ++ leBytes 0x0A 4 ++
            leBytes ((if la.lost then la.sofar.err ||| 4 else la.sofar.err) + la.sofar.code * 2 ^ 8) 4 ++ leBytes la.sofar.count 4 ++
            leBytes la.sofar.res.toNat 4 ++ leBytes la.sofar.cores 4 ++ leBytes la.fteam 4 ++ leBytes 0 4), .msix q]

/-- Firmware images, the start of the firmware, repair commands, tamper levels, throttling and the thermal trip change exactly what their
rules say. WHY 1 for bytes at 0x0C is log entry 16, STAGE in state 5 and the counting of tamper levels 2 and 3 log entry 33, and the
record HALTED and the launches a trip ends log entry 25. -/
def Obligations.Groom : Prop :=
  Sys2Proof.Part.Firmware ∧ Sys2Proof.Part.RepairCommands ∧ Sys2Proof.Part.GroomActions

/-- R2, R288, R359, R363, R366, R367, R368, R372: the resets. A module reset starts every register over but what the fuses and the groom's store
hold, with the fenced teams fused; a module that has lost power keeps its memory until it is reset; an attachment reset ends every launch without a record. What survives a reset beyond that is the
model's reading (log entry 34, DEDUCED). -/
def Sys2Proof.Part.Resets : Prop :=
  ∀ (s : State) (d : Device), d = s.dev →
    let anew (u t : State) (y : Device) : Prop := t = { u with
      agenda := s.agenda, stamp := s.stamp, free := s.free, serial := s.serial, prompt := s.prompt, hostOut := s.hostOut,
      linkOut := s.linkOut, outbox := s.outbox, dev := t.dev } ∧
      t.dev = { Device.reset with
        mnum := d.mnum, tcnt := y.tcnt, fenced := y.fenced, fused := y.fused, stored := y.stored, storedHash := d.storedHash,
        fuseMin := d.fuseMin, idKey := d.idKey, attKeys := false, tampLvl := y.tampLvl, fwState := y.fwState, power := y.power }
    Runs .moduleReset s (fun t => anew State.reset t { d with
      tcnt := d.tcnt - d.fenced.length, fenced := [], fused := d.fused ++ d.fenced, power := true, tampLvl := if d.power then d.tampLvl else 0,
      fwState := if d.stored = none then 5 else 0 }) ∧
    Runs .modulePowerLoss s (fun t => anew { State.reset with mem := s.mem, lines := s.lines, bad := s.bad } t { d with
      power := false, tampLvl := 0, stored := if d.fwState = 4 then none else d.stored, fwState := 0 }) ∧
    (d.power = true → Runs .attachmentReset s fun t => (∀ q, (t.queue q).launch = none) ∧ t.dev = { d with accept := 1 } ∧
      t.hostOut = s.hostOut ∧ SameMemory s t)

/-! ### The machine (spec/02, spec/03, spec/16) -/

/-- R56, R359: a form of a group that ACCEPT does not hold traps FEATURE with its instruction word, whatever its operands. -/
def Sys2Proof.Part.FeatureGate : Prop :=
  ∀ (n d a x imm : Nat) (s : State),
    let gated (k : Nat) (is : List Instr) : Prop := s.accepts k = false → ∀ i ∈ is, Traps i s .feature (u64 s.issue.word)
    gated 1 [.gcomb d a, .gsplit d a, .gdamp d a, .glin d a, .gmean d a, .ginfo d a, .gresd d a, .slget d a, .slput d a, .slret d a,
      .slnew d a, .belief d, .cvupd d, .cvrd d, .cvclr, .ftype d a] ∧
    gated 2 [.ylease n, .yfree, .yrot, .yzero d, .yfmt d, .yldb d a x, .ymma d a, .ymmaRa d a, .ymmaRb d a, .ymmaRr d a, .yst d a,
      .ywait d, .ypoll d, .yprog d, .yres d] ∧
    gated 3 [.kset a, .kgo d, .kwait d, .kpoll d, .tbinit d a, .tbarr d a, .tbwait d a] ∧
    gated 4 [.snap d, .mark d, .cutst d, .migr d, .ctxout d a, .ctxin d a, .fwdset d a, .slice d] ∧
    gated 5 [.coll d a imm, .cwait d, .gform d a] ∧
    gated 6 [.pnopen d a, .pnpush d a, .pnpull d a, .pnclose d a, .pnstat d a] ∧
    gated 7 [.lretr d a, .lstat d a, .lctl d a]

/-- In U every page-4 form but trap and brk traps PRIV; a form of a group that ACCEPT does not hold traps FEATURE. -/
def Obligations.DecodeGates : Prop :=
  Sys2Proof.Part.Privilege ∧ Sys2Proof.Part.FeatureGate

/-- R2, R177, R268, R354, R355, R359, R370, R373: what the module holds after reset. -/
def Sys2Proof.Part.ResetValues : Prop :=
  let s := State.reset
  let d := s.dev
  125000 ≤ d.tcnt ∧ d.fenced = [] ∧ d.accept = 1 ∧ d.rbc = 0 ∧ d.stray = 0 ∧ d.serr = 0 ∧ d.uerr = 0 ∧ d.xroot = 0 ∧ d.mevt = 0 ∧
    d.svcd = 0 ∧ d.svcw0 = 0 ∧ d.svcw1 = 0 ∧ d.svcReq = none ∧ d.gslot = 0 ∧ d.svst = 0 ∧ d.gist = 0 ∧ d.fwa = 0 ∧ d.fwlen = 0 ∧
    d.fwRdy = false ∧ d.rpState = 0 ∧ d.rpReason = 0 ∧ (∀ q, Map.get 6250 d.pcap q = 6250) ∧ d.tampCnt = 0 ∧ d.tampLvl = 0 ∧
    (∀ q, (s.queue q).launch = none ∧ (s.queue q).cpla = 0 ∧ (s.queue q).ptroot = 0 ∧ (s.queue q).rvec = 0 ∧ (s.queue q).cuta = 0 ∧
      (s.queue q).sava = 0 ∧ (s.queue q).dln = 1000 ∧ (s.queue q).seq = 0 ∧ (s.queue q).rst = false ∧ (s.queue q).splost = 0 ∧
      (s.queue q).badw = 0) ∧
    (∀ l, (s.core l).queue = none) ∧ s.flight = [] ∧
    ∀ l k r, k = s.link l → k.up = false ∧ k.peer = 0xFFFFFFFF ∧ k.psw = 0 ∧ k.round = 0 ∧ (k.dir r).act = 0 ∧ (k.dir r).wst = 2 ∧
      (k.dir r).lmap = 0 ∧ (k.dir r).minw = 2 ∧ (k.dir r).lout = 0x1F ∧ (k.dir r).evt = 0

/-- The reset state holds the values that the spec gives; a module reset, a power loss and an attachment reset leave what their rules say;
what a reset keeps beyond that is the model's reading (log entry 34, DEDUCED). -/
def Obligations.Resets : Prop :=
  Sys2Proof.Part.ResetValues ∧ Sys2Proof.Part.Resets

/-- The memory of the reset state has its canonical form. -/
def Obligations.ResetMemoryInv : Prop := State.reset.MemoryInv

/-- Every step keeps the canonical form of module memory, in every state that has it. -/
def Obligations.StepKeepsMemoryInv : Prop := ∀ s t : State, s.MemoryInv → step s = .next t → t.MemoryInv

/-- R49 to R57: every well-formed instruction is read back from its bytes, whatever follows them. -/
def Obligations.EncodeDecode : Prop :=
  ∀ (i : Instr) (rest : List Byte), i.WellFormed → decode (bytesOf (encode i) ++ rest) = .ok (i, rest)

/-- R50 to R57: what decoding accepts is well-formed, of at most four prefixes and an instruction word. -/
def Obligations.DecodedForms : Prop :=
  ∀ (ws rest : List Nat) (i : Instr), (∀ w ∈ ws, w < 65536) → decodeWords ws = .ok (i, rest) →
    i.WellFormed ∧ ∃ n, n ≤ 5 ∧ 0 < n ∧ rest = ws.drop n ∧ n ≤ ws.length

/-- R56, R57, R63 to R67, R163, R197, R250, R282, R299: words that the spec writes out, in its opcode map, its examples and its tables of
forms, are read as the instructions they stand for, and those that it calls illegal are refused. -/
def Obligations.DecodeWords : Prop :=
  (∀ e ∈ ([([0xF004, 0x4E00], .li 8 0x100), ([0xF00D, 0xF180, 0xF000, 0x4D80], .li 6 0x35800000), ([0xF01A, 0x7D5B], .bge 5 6 26),
      ([0xF011, 0x3100], .mfs 0 4 0x11), ([0x7005], .j 5), ([0xF802, 0x2C10], .gcomb 0 4), ([0xF802, 0x0B01], .callm 12 1),
      ([0xF803, 0xF004, 0x0D46], .stg 2 5 1 4), ([0xF485, 0xF402, 0x050C], .add 20 3 (some 37)), ([0x1B2F], .sne 12 11 none),
      ([0xF802, 0x1909], .spawn 4 2 1), ([0xF804, 0x1D96], .lctl 6 5), ([0xF804, 0x0C00], .rett), ([0xF801, 0x8048], .qadd .ne 1 2 none),
      ([0xF803, 0xF407, 0xF008, 0x4916], .amswpRemote false 4 5 7 8), ([0xF803, 0x7D85], .binit 6 1)] : List (List Nat × Instr)),
    decodeWords e.1 = .ok (e.2, [])) ∧
  (∀ ws ∈ [[0xF004, 0xF803, 0x0D46], [0xF000, 0x0400], [0x7D5B]], ∀ r, decodeWords ws ≠ .ok r)

/-- R49, R56, R58, R196: the first core of the turn, none of whose contexts waits or owes a trap, where nothing else is to happen, issues the instruction at the pc of
the context whose turn it is; the step is that instruction's meaning, or the trap that its decode finds. The fetch gives the
instruction that the bytes at the pc encode, where the launch's partition has its registers. -/
def Obligations.StepRunsDecoded : Prop :=
  (∀ (s s1 u : State) (l k : Nat) (ls : List Nat) (c : Core), s.agenda = [] → s.awake exec = none → s.pending = none →
    s.unsent = none → s.coreTurns = l :: ls → c = s.core l →
    c.runs = true → k < 4 → c.rot = k → (∀ j, j < 4 → (c.slot j).stepDue = none ∧ (c.slot j).takesNotice = false ∧ (c.slot j).wait = none) →
    c.cut.due = false → k < partC c.part → (c.slot k).st = .ready → (c.slot k).pc ≠ END →
    s1 = { s with turn := l + 1 }.setCore l { c with rot := (k + 1) % 4 } →
    (∀ f, s1.fetch l (c.slot k).pc = (u, .ok f) → step s = exec f.instr (u.issuing l k f.word f.length)) ∧
    ∀ e v, s1.fetch l (c.slot k).pc = (u, .error (e, v)) → step s = exec (.unassignedWord e v) (u.issuing l k 0 0)) ∧
  ∀ (s u : State) (l pa : Nat) (pc : DWord) (i : Instr), i.WellFormed → i.fits (partG (u.core l).part) (partH (u.core l).part) = true →
    (u.team (l / 8)).icache = [] → (u.team (l / 8)).dist = none → (∀ n, (u.line n).older = []) →
    s.resolve l pc.toNat .fetch = (u, .ok (.memory pa)) →
    (∀ j, j < (encode i).length → u.resolve l (pc + u64 (2 * j)).toNat .fetch = (u, .ok (.memory (pa + 2 * j)))) →
    (∀ j, j < (encode i).length → u.badIn (pa + 2 * j) 2 = false) → u.bytesAt pa (2 * (encode i).length) = bytesOf (encode i) →
    ∃ t, (s.fetch l pc).1 = { u with teams := t } ∧
      (s.fetch l pc).2 = .ok ⟨i, (encode i).getLastD 0, 2 * (encode i).length⟩
end

