-- ==== Sys2Proof/Laws/State.lean ====
section
/-! SUPPORT. Lemmas on tables, and on each field of the state after each elementary update. -/

namespace Sys2Proof.Machine

/-! ### Tables -/

section
variable {α : Type}

@[simp] theorem Map.get_nil (d : α) (k : Nat) : Map.get d ([] : Map α) k = d := rfl

theorem Map.get_cons (d : α) (e : Nat × α) (m : Map α) (k : Nat) :
    Map.get d (e :: m) k = if e.1 = k then e.2 else Map.get d m k := rfl

theorem Map.get_put (d : α) (m : Map α) (k j : Nat) (v : α) :
    Map.get d (Map.put m k v) j = if j = k then v else Map.get d m j := by
  induction m with
  | nil => simp [Map.put, Map.get, eq_comm]
  | cons e m ih =>
    unfold Map.put
    split
    · simp [Map.get, eq_comm]
    · split
      · rename_i h; subst h
        by_cases h2 : j = e.1
        · simp [Map.get, h2]
        · simp [Map.get, h2, Ne.symm h2]
      · simp only [Map.get, ih]
        split <;> split <;> first | rfl | omega

theorem Map.get_del (d : α) (m : Map α) (k j : Nat) :
    Map.get d (Map.del m k) j = if j = k then d else Map.get d m j := by
  induction m with
  | nil => simp [Map.del]
  | cons e m ih =>
    simp only [Map.del, List.filter_cons, bne_iff_ne, ne_eq, ite_not] at ih ⊢
    split <;> rename_i h
    · rw [ih]; simp only [Map.get, h]
      by_cases hj : j = k
      · simp [hj]
      · simp [hj, Ne.symm hj]
    · simp only [Map.get, ih]; split <;> split <;> first | rfl | omega

variable [DecidableEq α]

/-- Reading a table after one write. -/
theorem Map.get_set (d : α) (m : Map α) (k j : Nat) (v : α) :
    Map.get d (Map.set d m k v) j = if j = k then v else Map.get d m j := by
  unfold Map.set
  split
  · rename_i h; rw [Map.get_del, h]
  · exact Map.get_put d m k j v

@[simp] theorem Map.get_set_self (d : α) (m : Map α) (k : Nat) (v : α) : Map.get d (Map.set d m k v) k = v := by
  simp [Map.get_set]

theorem Map.get_set_ne (d : α) (m : Map α) {k j : Nat} (v : α) (h : j ≠ k) :
    Map.get d (Map.set d m k v) j = Map.get d m j := by
  simp [Map.get_set, h]

/-- Reading a table after consecutive writes. -/
theorem Map.get_setList (d : α) (vs : List α) (m : Map α) (k j : Nat) :
    Map.get d (Map.setList d m k vs) j = if k ≤ j ∧ j < k + vs.length then vs.getD (j - k) d else Map.get d m j := by
  induction vs generalizing m k with
  | nil => simp only [Map.setList, List.length_nil]; split <;> first | omega | rfl
  | cons v vs ih =>
    simp only [Map.setList, ih, Map.get_set, List.length_cons]
    by_cases h : j = k
    · subst h; rw [if_neg (by omega), if_pos rfl, if_pos (by omega)]; simp
    · by_cases h2 : k + 1 ≤ j ∧ j < k + 1 + vs.length
      · rw [if_pos h2, if_pos (by omega), show j - k = (j - (k + 1)) + 1 by omega]; simp
      · rw [if_neg h2, if_neg h, if_neg (by omega)]

omit [DecidableEq α] in
@[simp] theorem Map.length_getList (d : α) (m : Map α) (k n : Nat) : (Map.getList d m k n).length = n := by
  induction n generalizing k with
  | zero => rfl
  | succ n ih => simp [Map.getList, ih]

omit [DecidableEq α] in
theorem Map.getList_congr (d : α) {m m' : Map α} {k : Nat} (n : Nat)
    (h : ∀ j, k ≤ j → j < k + n → Map.get d m j = Map.get d m' j) : Map.getList d m k n = Map.getList d m' k n := by
  induction n generalizing k with
  | zero => rfl
  | succ n ih =>
    simp only [Map.getList]
    rw [h k (by omega) (by omega), ih (fun j _ _ => h j (by omega) (by omega))]

/-- Reading back what consecutive writes wrote. -/
theorem Map.getList_setList (d : α) (vs : List α) (m : Map α) (k : Nat) :
    Map.getList d (Map.setList d m k vs) k vs.length = vs := by
  induction vs generalizing m k with
  | nil => rfl
  | cons v vs ih =>
    simp only [List.length_cons, Map.getList, Map.setList]
    rw [ih, Map.get_setList, if_neg (by omega), Map.get_set_self]

/-- Reading elsewhere than consecutive writes wrote. -/
theorem Map.getList_setList_ne (d : α) (vs : List α) (m : Map α) (k j n : Nat) (h : j + n ≤ k ∨ k + vs.length ≤ j) :
    Map.getList d (Map.setList d m k vs) j n = Map.getList d m j n :=
  Map.getList_congr d n fun i _ _ => by rw [Map.get_setList, if_neg (by omega)]

/-! ### The canonical form -/

omit [DecidableEq α] in
theorem Map.mem_put {m : Map α} {k : Nat} {v : α} {e : Nat × α} (h : e ∈ Map.put m k v) : e = (k, v) ∨ e ∈ m := by
  induction m with
  | nil => simpa [Map.put] using h
  | cons x m ih =>
    unfold Map.put at h
    split at h
    · simpa using h
    · split at h
      · rcases List.mem_cons.mp h with h | h
        · exact .inl h
        · exact .inr (List.mem_cons_of_mem _ h)
      · rcases List.mem_cons.mp h with h | h
        · exact .inr (h ▸ List.mem_cons_self)
        · exact (ih h).imp id (List.mem_cons_of_mem _)

omit [DecidableEq α] in
theorem Map.put_sorted {m : Map α} (k : Nat) (v : α) (h : List.Pairwise (fun a b => a.1 < b.1) m) :
    List.Pairwise (fun a b => a.1 < b.1) (Map.put m k v) := by
  induction m with
  | nil => simp [Map.put]
  | cons x m ih =>
    have hx := List.pairwise_cons.mp h
    unfold Map.put
    split
    · rename_i hk
      refine List.pairwise_cons.mpr ⟨fun e he => ?_, h⟩
      rcases List.mem_cons.mp he with rfl | he
      · exact hk
      · exact Nat.lt_trans hk (hx.1 e he)
    · split
      · rename_i hk
        exact List.pairwise_cons.mpr ⟨fun e he => hk ▸ hx.1 e he, hx.2⟩
      · refine List.pairwise_cons.mpr ⟨fun e he => ?_, ih hx.2⟩
        rcases Map.mem_put he with rfl | he
        · show x.1 < k; omega
        · exact hx.1 e he

/-- A write keeps the canonical form. -/
theorem Map.set_wf {d : α} {m : Map α} (k : Nat) (v : α) (h : Map.wf d m) : Map.wf d (Map.set d m k v) := by
  unfold Map.set
  split
  · exact ⟨List.Pairwise.sublist List.filter_sublist h.1, fun e he => h.2 e (List.mem_filter.mp he |>.1)⟩
  · rename_i hv
    refine ⟨Map.put_sorted k v h.1, fun e he => ?_⟩
    rcases Map.mem_put he with rfl | he
    · exact hv
    · exact h.2 e he

/-- Consecutive writes keep the canonical form. -/
theorem Map.setList_wf {d : α} (vs : List α) {m : Map α} (k : Nat) (h : Map.wf d m) : Map.wf d (Map.setList d m k vs) := by
  induction vs generalizing m k with
  | nil => exact h
  | cons v vs ih => exact ih (k + 1) (Map.set_wf k v h)

end

/-! ### Elementary updates, each by what it leaves -/

section
variable (s : State) (l : Nat) (c : Core)

@[simp] theorem State.setCore_issue : (s.setCore l c).issue = s.issue := rfl
@[simp] theorem State.setCore_agenda : (s.setCore l c).agenda = s.agenda := rfl
@[simp] theorem State.setCore_turn : (s.setCore l c).turn = s.turn := rfl
@[simp] theorem State.setCore_stamp : (s.setCore l c).stamp = s.stamp := rfl
@[simp] theorem State.setCore_free : (s.setCore l c).free = s.free := rfl
@[simp] theorem State.setCore_prompt : (s.setCore l c).prompt = s.prompt := rfl
@[simp] theorem State.setCore_serial : (s.setCore l c).serial = s.serial := rfl
@[simp] theorem State.setCore_teams : (s.setCore l c).teams = s.teams := rfl
@[simp] theorem State.setCore_queues : (s.setCore l c).queues = s.queues := rfl
@[simp] theorem State.setCore_mem : (s.setCore l c).mem = s.mem := rfl
@[simp] theorem State.setCore_lines : (s.setCore l c).lines = s.lines := rfl
@[simp] theorem State.setCore_bad : (s.setCore l c).bad = s.bad := rfl
@[simp] theorem State.setCore_base : (s.setCore l c).base = s.base := rfl
@[simp] theorem State.setCore_reqs : (s.setCore l c).reqs = s.reqs := rfl
@[simp] theorem State.setCore_posted : (s.setCore l c).posted = s.posted := rfl
@[simp] theorem State.setCore_hostLoads : (s.setCore l c).hostLoads = s.hostLoads := rfl
@[simp] theorem State.setCore_flight : (s.setCore l c).flight = s.flight := rfl
@[simp] theorem State.setCore_goldenRouter : (s.setCore l c).goldenRouter = s.goldenRouter := rfl
@[simp] theorem State.setCore_goldenStamp : (s.setCore l c).goldenStamp = s.goldenStamp := rfl
@[simp] theorem State.setCore_dev : (s.setCore l c).dev = s.dev := rfl
@[simp] theorem State.setCore_hostOut : (s.setCore l c).hostOut = s.hostOut := rfl
@[simp] theorem State.setCore_links : (s.setCore l c).links = s.links := rfl
@[simp] theorem State.setCore_transit : (s.setCore l c).transit = s.transit := rfl
@[simp] theorem State.setCore_linkOut : (s.setCore l c).linkOut = s.linkOut := rfl
@[simp] theorem State.setCore_routes : (s.setCore l c).routes = s.routes := rfl
@[simp] theorem State.setCore_reach : (s.setCore l c).reach = s.reach := rfl
@[simp] theorem State.setCore_objects : (s.setCore l c).objects = s.objects := rfl
@[simp] theorem State.setCore_farWaits : (s.setCore l c).farWaits = s.farWaits := rfl
@[simp] theorem State.setCore_holds : (s.setCore l c).holds = s.holds := rfl
@[simp] theorem State.setCore_roots : (s.setCore l c).roots = s.roots := rfl
@[simp] theorem State.setCore_shards : (s.setCore l c).shards = s.shards := rfl
@[simp] theorem State.setCore_away : (s.setCore l c).away = s.away := rfl
@[simp] theorem State.setCore_hitchClock : (s.setCore l c).hitchClock = s.hitchClock := rfl
@[simp] theorem State.setCore_outbox : (s.setCore l c).outbox = s.outbox := rfl

end

section
variable (s : State) (q : Nat) (x : Queue)

@[simp] theorem State.setQueue_issue : (s.setQueue q x).issue = s.issue := rfl
@[simp] theorem State.setQueue_agenda : (s.setQueue q x).agenda = s.agenda := rfl
@[simp] theorem State.setQueue_turn : (s.setQueue q x).turn = s.turn := rfl
@[simp] theorem State.setQueue_stamp : (s.setQueue q x).stamp = s.stamp := rfl
@[simp] theorem State.setQueue_free : (s.setQueue q x).free = s.free := rfl
@[simp] theorem State.setQueue_prompt : (s.setQueue q x).prompt = s.prompt := rfl
@[simp] theorem State.setQueue_serial : (s.setQueue q x).serial = s.serial := rfl
@[simp] theorem State.setQueue_cores : (s.setQueue q x).cores = s.cores := rfl
@[simp] theorem State.setQueue_teams : (s.setQueue q x).teams = s.teams := rfl
@[simp] theorem State.setQueue_mem : (s.setQueue q x).mem = s.mem := rfl
@[simp] theorem State.setQueue_lines : (s.setQueue q x).lines = s.lines := rfl
@[simp] theorem State.setQueue_bad : (s.setQueue q x).bad = s.bad := rfl
@[simp] theorem State.setQueue_base : (s.setQueue q x).base = s.base := rfl
@[simp] theorem State.setQueue_reqs : (s.setQueue q x).reqs = s.reqs := rfl
@[simp] theorem State.setQueue_posted : (s.setQueue q x).posted = s.posted := rfl
@[simp] theorem State.setQueue_hostLoads : (s.setQueue q x).hostLoads = s.hostLoads := rfl
@[simp] theorem State.setQueue_flight : (s.setQueue q x).flight = s.flight := rfl
@[simp] theorem State.setQueue_goldenRouter : (s.setQueue q x).goldenRouter = s.goldenRouter := rfl
@[simp] theorem State.setQueue_goldenStamp : (s.setQueue q x).goldenStamp = s.goldenStamp := rfl
@[simp] theorem State.setQueue_dev : (s.setQueue q x).dev = s.dev := rfl
@[simp] theorem State.setQueue_hostOut : (s.setQueue q x).hostOut = s.hostOut := rfl
@[simp] theorem State.setQueue_links : (s.setQueue q x).links = s.links := rfl
@[simp] theorem State.setQueue_transit : (s.setQueue q x).transit = s.transit := rfl
@[simp] theorem State.setQueue_linkOut : (s.setQueue q x).linkOut = s.linkOut := rfl
@[simp] theorem State.setQueue_routes : (s.setQueue q x).routes = s.routes := rfl
@[simp] theorem State.setQueue_reach : (s.setQueue q x).reach = s.reach := rfl
@[simp] theorem State.setQueue_objects : (s.setQueue q x).objects = s.objects := rfl
@[simp] theorem State.setQueue_farWaits : (s.setQueue q x).farWaits = s.farWaits := rfl
@[simp] theorem State.setQueue_holds : (s.setQueue q x).holds = s.holds := rfl
@[simp] theorem State.setQueue_roots : (s.setQueue q x).roots = s.roots := rfl
@[simp] theorem State.setQueue_shards : (s.setQueue q x).shards = s.shards := rfl
@[simp] theorem State.setQueue_away : (s.setQueue q x).away = s.away := rfl
@[simp] theorem State.setQueue_hitchClock : (s.setQueue q x).hitchClock = s.hitchClock := rfl
@[simp] theorem State.setQueue_outbox : (s.setQueue q x).outbox = s.outbox := rfl

end

section
variable (s : State) (t : Nat) (x : Team)

@[simp] theorem State.setTeam_issue : (s.setTeam t x).issue = s.issue := rfl
@[simp] theorem State.setTeam_agenda : (s.setTeam t x).agenda = s.agenda := rfl
@[simp] theorem State.setTeam_turn : (s.setTeam t x).turn = s.turn := rfl
@[simp] theorem State.setTeam_stamp : (s.setTeam t x).stamp = s.stamp := rfl
@[simp] theorem State.setTeam_free : (s.setTeam t x).free = s.free := rfl
@[simp] theorem State.setTeam_prompt : (s.setTeam t x).prompt = s.prompt := rfl
@[simp] theorem State.setTeam_serial : (s.setTeam t x).serial = s.serial := rfl
@[simp] theorem State.setTeam_cores : (s.setTeam t x).cores = s.cores := rfl
@[simp] theorem State.setTeam_queues : (s.setTeam t x).queues = s.queues := rfl
@[simp] theorem State.setTeam_mem : (s.setTeam t x).mem = s.mem := rfl
@[simp] theorem State.setTeam_lines : (s.setTeam t x).lines = s.lines := rfl
@[simp] theorem State.setTeam_bad : (s.setTeam t x).bad = s.bad := rfl
@[simp] theorem State.setTeam_base : (s.setTeam t x).base = s.base := rfl
@[simp] theorem State.setTeam_reqs : (s.setTeam t x).reqs = s.reqs := rfl
@[simp] theorem State.setTeam_posted : (s.setTeam t x).posted = s.posted := rfl
@[simp] theorem State.setTeam_hostLoads : (s.setTeam t x).hostLoads = s.hostLoads := rfl
@[simp] theorem State.setTeam_flight : (s.setTeam t x).flight = s.flight := rfl
@[simp] theorem State.setTeam_goldenRouter : (s.setTeam t x).goldenRouter = s.goldenRouter := rfl
@[simp] theorem State.setTeam_goldenStamp : (s.setTeam t x).goldenStamp = s.goldenStamp := rfl
@[simp] theorem State.setTeam_dev : (s.setTeam t x).dev = s.dev := rfl
@[simp] theorem State.setTeam_hostOut : (s.setTeam t x).hostOut = s.hostOut := rfl
@[simp] theorem State.setTeam_links : (s.setTeam t x).links = s.links := rfl
@[simp] theorem State.setTeam_transit : (s.setTeam t x).transit = s.transit := rfl
@[simp] theorem State.setTeam_linkOut : (s.setTeam t x).linkOut = s.linkOut := rfl
@[simp] theorem State.setTeam_routes : (s.setTeam t x).routes = s.routes := rfl
@[simp] theorem State.setTeam_reach : (s.setTeam t x).reach = s.reach := rfl
@[simp] theorem State.setTeam_objects : (s.setTeam t x).objects = s.objects := rfl
@[simp] theorem State.setTeam_farWaits : (s.setTeam t x).farWaits = s.farWaits := rfl
@[simp] theorem State.setTeam_holds : (s.setTeam t x).holds = s.holds := rfl
@[simp] theorem State.setTeam_roots : (s.setTeam t x).roots = s.roots := rfl
@[simp] theorem State.setTeam_shards : (s.setTeam t x).shards = s.shards := rfl
@[simp] theorem State.setTeam_away : (s.setTeam t x).away = s.away := rfl
@[simp] theorem State.setTeam_hitchClock : (s.setTeam t x).hitchClock = s.hitchClock := rfl
@[simp] theorem State.setTeam_outbox : (s.setTeam t x).outbox = s.outbox := rfl

end

section
variable (s : State) (pa : Nat) (bs : List Byte)

@[simp] theorem State.putBytes_issue : (s.putBytes pa bs).issue = s.issue := rfl
@[simp] theorem State.putBytes_agenda : (s.putBytes pa bs).agenda = s.agenda := rfl
@[simp] theorem State.putBytes_turn : (s.putBytes pa bs).turn = s.turn := rfl
@[simp] theorem State.putBytes_stamp : (s.putBytes pa bs).stamp = s.stamp := rfl
@[simp] theorem State.putBytes_free : (s.putBytes pa bs).free = s.free := rfl
@[simp] theorem State.putBytes_prompt : (s.putBytes pa bs).prompt = s.prompt := rfl
@[simp] theorem State.putBytes_serial : (s.putBytes pa bs).serial = s.serial := rfl
@[simp] theorem State.putBytes_cores : (s.putBytes pa bs).cores = s.cores := rfl
@[simp] theorem State.putBytes_teams : (s.putBytes pa bs).teams = s.teams := rfl
@[simp] theorem State.putBytes_queues : (s.putBytes pa bs).queues = s.queues := rfl
@[simp] theorem State.putBytes_lines : (s.putBytes pa bs).lines = s.lines := rfl
@[simp] theorem State.putBytes_bad : (s.putBytes pa bs).bad = s.bad := rfl
@[simp] theorem State.putBytes_base : (s.putBytes pa bs).base = s.base := rfl
@[simp] theorem State.putBytes_reqs : (s.putBytes pa bs).reqs = s.reqs := rfl
@[simp] theorem State.putBytes_posted : (s.putBytes pa bs).posted = s.posted := rfl
@[simp] theorem State.putBytes_hostLoads : (s.putBytes pa bs).hostLoads = s.hostLoads := rfl
@[simp] theorem State.putBytes_flight : (s.putBytes pa bs).flight = s.flight := rfl
@[simp] theorem State.putBytes_goldenRouter : (s.putBytes pa bs).goldenRouter = s.goldenRouter := rfl
@[simp] theorem State.putBytes_goldenStamp : (s.putBytes pa bs).goldenStamp = s.goldenStamp := rfl
@[simp] theorem State.putBytes_dev : (s.putBytes pa bs).dev = s.dev := rfl
@[simp] theorem State.putBytes_hostOut : (s.putBytes pa bs).hostOut = s.hostOut := rfl
@[simp] theorem State.putBytes_links : (s.putBytes pa bs).links = s.links := rfl
@[simp] theorem State.putBytes_transit : (s.putBytes pa bs).transit = s.transit := rfl
@[simp] theorem State.putBytes_linkOut : (s.putBytes pa bs).linkOut = s.linkOut := rfl
@[simp] theorem State.putBytes_routes : (s.putBytes pa bs).routes = s.routes := rfl
@[simp] theorem State.putBytes_reach : (s.putBytes pa bs).reach = s.reach := rfl
@[simp] theorem State.putBytes_objects : (s.putBytes pa bs).objects = s.objects := rfl
@[simp] theorem State.putBytes_farWaits : (s.putBytes pa bs).farWaits = s.farWaits := rfl
@[simp] theorem State.putBytes_holds : (s.putBytes pa bs).holds = s.holds := rfl
@[simp] theorem State.putBytes_roots : (s.putBytes pa bs).roots = s.roots := rfl
@[simp] theorem State.putBytes_shards : (s.putBytes pa bs).shards = s.shards := rfl
@[simp] theorem State.putBytes_away : (s.putBytes pa bs).away = s.away := rfl
@[simp] theorem State.putBytes_hitchClock : (s.putBytes pa bs).hitchClock = s.hitchClock := rfl
@[simp] theorem State.putBytes_outbox : (s.putBytes pa bs).outbox = s.outbox := rfl

end

section
variable (c : Core) (k : Nat) (x : Slot)

@[simp] theorem Core.setSlot_queue : (c.setSlot k x).queue = c.queue := rfl
@[simp] theorem Core.setSlot_uid : (c.setSlot k x).uid = c.uid := rfl
@[simp] theorem Core.setSlot_index : (c.setSlot k x).index = c.index := rfl
@[simp] theorem Core.setSlot_exited : (c.setSlot k x).exited = c.exited := rfl
@[simp] theorem Core.setSlot_swapped : (c.setSlot k x).swapped = c.swapped := rfl
@[simp] theorem Core.setSlot_forward : (c.setSlot k x).forward = c.forward := rfl
@[simp] theorem Core.setSlot_pts : (c.setSlot k x).pts = c.pts := rfl
@[simp] theorem Core.setSlot_part : (c.setSlot k x).part = c.part := rfl
@[simp] theorem Core.setSlot_cutid : (c.setSlot k x).cutid = c.cutid := rfl
@[simp] theorem Core.setSlot_pool : (c.setSlot k x).pool = c.pool := rfl
@[simp] theorem Core.setSlot_full : (c.setSlot k x).full = c.full := rfl
@[simp] theorem Core.setSlot_handles : (c.setSlot k x).handles = c.handles := rfl
@[simp] theorem Core.setSlot_cvres : (c.setSlot k x).cvres = c.cvres := rfl
@[simp] theorem Core.setSlot_cvcnt : (c.setSlot k x).cvcnt = c.cvcnt := rfl
@[simp] theorem Core.setSlot_cvthr : (c.setSlot k x).cvthr = c.cvthr := rfl
@[simp] theorem Core.setSlot_cvwin : (c.setSlot k x).cvwin = c.cvwin := rfl
@[simp] theorem Core.setSlot_sldisc : (c.setSlot k x).sldisc = c.sldisc := rfl
@[simp] theorem Core.setSlot_blost : (c.setSlot k x).blost = c.blost := rfl
@[simp] theorem Core.setSlot_bmbx : (c.setSlot k x).bmbx = c.bmbx := rfl
@[simp] theorem Core.setSlot_derr : (c.setSlot k x).derr = c.derr := rfl
@[simp] theorem Core.setSlot_dcode : (c.setSlot k x).dcode = c.dcode := rfl
@[simp] theorem Core.setSlot_entryOver : (c.setSlot k x).entryOver = c.entryOver := rfl
@[simp] theorem Core.setSlot_csent : (c.setSlot k x).csent = c.csent := rfl
@[simp] theorem Core.setSlot_crecv : (c.setSlot k x).crecv = c.crecv := rfl
@[simp] theorem Core.setSlot_age : (c.setSlot k x).age = c.age := rfl
@[simp] theorem Core.setSlot_edges : (c.setSlot k x).edges = c.edges := rfl
@[simp] theorem Core.setSlot_runq : (c.setSlot k x).runq = c.runq := rfl
@[simp] theorem Core.setSlot_nodes : (c.setSlot k x).nodes = c.nodes := rfl
@[simp] theorem Core.setSlot_dtab : (c.setSlot k x).dtab = c.dtab := rfl
@[simp] theorem Core.setSlot_rot : (c.setSlot k x).rot = c.rot := rfl
@[simp] theorem Core.setSlot_cut : (c.setSlot k x).cut = c.cut := rfl
@[simp] theorem Core.setSlot_l1 : (c.setSlot k x).l1 = c.l1 := rfl
@[simp] theorem Core.setSlot_far : (c.setSlot k x).far = c.far := rfl
@[simp] theorem Core.setSlot_yfmt : (c.setSlot k x).yfmt = c.yfmt := rfl
@[simp] theorem Core.setSlot_nextJob : (c.setSlot k x).nextJob = c.nextJob := rfl
@[simp] theorem Core.setSlot_jobs : (c.setSlot k x).jobs = c.jobs := rfl
@[simp] theorem Core.setSlot_latch : (c.setSlot k x).latch = c.latch := rfl
@[simp] theorem Core.setSlot_nextXfer : (c.setSlot k x).nextXfer = c.nextXfer := rfl
@[simp] theorem Core.setSlot_xfers : (c.setSlot k x).xfers = c.xfers := rfl
@[simp] theorem Core.setSlot_nextColl : (c.setSlot k x).nextColl = c.nextColl := rfl
@[simp] theorem Core.setSlot_colls : (c.setSlot k x).colls = c.colls := rfl

end

section
variable (x : Slot) (n : Nat) (v : Word) (w : DWord)

@[simp] theorem Slot.wr_st : (x.wr n v).st = x.st := rfl
@[simp] theorem Slot.wr_task : (x.wr n v).task = x.task := rfl
@[simp] theorem Slot.wr_aregs : (x.wr n v).aregs = x.aregs := rfl
@[simp] theorem Slot.wr_pc : (x.wr n v).pc = x.pc := rfl
@[simp] theorem Slot.wr_stat : (x.wr n v).stat = x.stat := rfl
@[simp] theorem Slot.wr_tcause : (x.wr n v).tcause = x.tcause := rfl
@[simp] theorem Slot.wr_tval : (x.wr n v).tval = x.tval := rfl
@[simp] theorem Slot.wr_tepc : (x.wr n v).tepc = x.tepc := rfl
@[simp] theorem Slot.wr_tstat : (x.wr n v).tstat = x.tstat := rfl
@[simp] theorem Slot.wr_tvec : (x.wr n v).tvec = x.tvec := rfl
@[simp] theorem Slot.wr_fst : (x.wr n v).fst = x.fst := rfl
@[simp] theorem Slot.wr_sfst : (x.wr n v).sfst = x.sfst := rfl
@[simp] theorem Slot.wr_bank : (x.wr n v).bank = x.bank := rfl
@[simp] theorem Slot.wr_sd : (x.wr n v).sd = x.sd := rfl
@[simp] theorem Slot.wr_sdh : (x.wr n v).sdh = x.sdh := rfl
@[simp] theorem Slot.wr_rv : (x.wr n v).rv = x.rv := rfl
@[simp] theorem Slot.wr_rvh : (x.wr n v).rvh = x.rvh := rfl
@[simp] theorem Slot.wr_yjob : (x.wr n v).yjob = x.yjob := rfl
@[simp] theorem Slot.wr_ksrc : (x.wr n v).ksrc = x.ksrc := rfl
@[simp] theorem Slot.wr_kdst : (x.wr n v).kdst = x.kdst := rfl
@[simp] theorem Slot.wr_klay : (x.wr n v).klay = x.klay := rfl
@[simp] theorem Slot.wr_kbase : (x.wr n v).kbase = x.kbase := rfl
@[simp] theorem Slot.wr_kext : (x.wr n v).kext = x.kext := rfl
@[simp] theorem Slot.wr_wait : (x.wr n v).wait = x.wait := rfl
@[simp] theorem Slot.wr_notices : (x.wr n v).notices = x.notices := rfl
@[simp] theorem Slot.wr_stepDue : (x.wr n v).stepDue = x.stepDue := rfl
@[simp] theorem Slot.wr_lease : (x.wr n v).lease = x.lease := rfl
@[simp] theorem Slot.wr_yask : (x.wr n v).yask = x.yask := rfl
@[simp] theorem Slot.wr_sbuf : (x.wr n v).sbuf = x.sbuf := rfl
@[simp] theorem Slot.wr_sfail : (x.wr n v).sfail = x.sfail := rfl
@[simp] theorem Slot.wr_fclock : (x.wr n v).fclock = x.fclock := rfl
@[simp] theorem Slot.wr_entries : (x.wr n v).entries = x.entries := rfl
@[simp] theorem Slot.wr_loaded : (x.wr n v).loaded = x.loaded := rfl
@[simp] theorem Slot.wr_half : (x.wr n v).half = x.half := rfl
@[simp] theorem Slot.wra_st : (x.wra n w).st = x.st := rfl
@[simp] theorem Slot.wra_task : (x.wra n w).task = x.task := rfl
@[simp] theorem Slot.wra_regs : (x.wra n w).regs = x.regs := rfl
@[simp] theorem Slot.wra_pc : (x.wra n w).pc = x.pc := rfl
@[simp] theorem Slot.wra_stat : (x.wra n w).stat = x.stat := rfl
@[simp] theorem Slot.wra_tcause : (x.wra n w).tcause = x.tcause := rfl
@[simp] theorem Slot.wra_tval : (x.wra n w).tval = x.tval := rfl
@[simp] theorem Slot.wra_tepc : (x.wra n w).tepc = x.tepc := rfl
@[simp] theorem Slot.wra_tstat : (x.wra n w).tstat = x.tstat := rfl
@[simp] theorem Slot.wra_tvec : (x.wra n w).tvec = x.tvec := rfl
@[simp] theorem Slot.wra_fst : (x.wra n w).fst = x.fst := rfl
@[simp] theorem Slot.wra_sfst : (x.wra n w).sfst = x.sfst := rfl
@[simp] theorem Slot.wra_bank : (x.wra n w).bank = x.bank := rfl
@[simp] theorem Slot.wra_sd : (x.wra n w).sd = x.sd := rfl
@[simp] theorem Slot.wra_sdh : (x.wra n w).sdh = x.sdh := rfl
@[simp] theorem Slot.wra_rv : (x.wra n w).rv = x.rv := rfl
@[simp] theorem Slot.wra_rvh : (x.wra n w).rvh = x.rvh := rfl
@[simp] theorem Slot.wra_yjob : (x.wra n w).yjob = x.yjob := rfl
@[simp] theorem Slot.wra_ksrc : (x.wra n w).ksrc = x.ksrc := rfl
@[simp] theorem Slot.wra_kdst : (x.wra n w).kdst = x.kdst := rfl
@[simp] theorem Slot.wra_klay : (x.wra n w).klay = x.klay := rfl
@[simp] theorem Slot.wra_kbase : (x.wra n w).kbase = x.kbase := rfl
@[simp] theorem Slot.wra_kext : (x.wra n w).kext = x.kext := rfl
@[simp] theorem Slot.wra_wait : (x.wra n w).wait = x.wait := rfl
@[simp] theorem Slot.wra_notices : (x.wra n w).notices = x.notices := rfl
@[simp] theorem Slot.wra_stepDue : (x.wra n w).stepDue = x.stepDue := rfl
@[simp] theorem Slot.wra_lease : (x.wra n w).lease = x.lease := rfl
@[simp] theorem Slot.wra_yask : (x.wra n w).yask = x.yask := rfl
@[simp] theorem Slot.wra_sbuf : (x.wra n w).sbuf = x.sbuf := rfl
@[simp] theorem Slot.wra_sfail : (x.wra n w).sfail = x.sfail := rfl
@[simp] theorem Slot.wra_fclock : (x.wra n w).fclock = x.fclock := rfl
@[simp] theorem Slot.wra_entries : (x.wra n w).entries = x.entries := rfl
@[simp] theorem Slot.wra_loaded : (x.wra n w).loaded = x.loaded := rfl
@[simp] theorem Slot.wra_half : (x.wra n w).half = x.half := rfl

end

/-! ### Accessors after updates -/

theorem State.core_setCore (s : State) (l j : Nat) (c : Core) : (s.setCore l c).core j = if j = l then c else s.core j :=
  Map.get_set Core.empty s.cores l j c

@[simp] theorem State.core_setCore_self (s : State) (l : Nat) (c : Core) : (s.setCore l c).core l = c := by
  simp [State.core_setCore]

theorem State.core_setCore_ne (s : State) {l j : Nat} (c : Core) (h : j ≠ l) : (s.setCore l c).core j = s.core j := by
  simp [State.core_setCore, h]

theorem Core.slot_setSlot (c : Core) (k j : Nat) (x : Slot) : (c.setSlot k x).slot j = if j = k then x else c.slot j :=
  Map.get_set Slot.empty c.slots k j x

@[simp] theorem Core.slot_setSlot_self (c : Core) (k : Nat) (x : Slot) : (c.setSlot k x).slot k = x := by
  simp [Core.slot_setSlot]

theorem Core.slot_setSlot_ne (c : Core) {k j : Nat} (x : Slot) (h : j ≠ k) : (c.setSlot k x).slot j = c.slot j := by
  simp [Core.slot_setSlot, h]

theorem State.queue_setQueue (s : State) (q j : Nat) (x : Queue) : (s.setQueue q x).queue j = if j = q then x else s.queue j :=
  Map.get_set Queue.empty s.queues q j x

@[simp] theorem State.queue_setQueue_self (s : State) (q : Nat) (x : Queue) : (s.setQueue q x).queue q = x := by
  simp [State.queue_setQueue]

theorem State.team_setTeam (s : State) (t j : Nat) (x : Team) : (s.setTeam t x).team j = if j = t then x else s.team j :=
  Map.get_set Team.empty s.teams t j x

@[simp] theorem State.team_setTeam_self (s : State) (t : Nat) (x : Team) : (s.setTeam t x).team t = x := by
  simp [State.team_setTeam]

@[simp] theorem State.core_setQueue (s : State) (q l : Nat) (x : Queue) : (s.setQueue q x).core l = s.core l := rfl
@[simp] theorem State.core_setTeam (s : State) (t l : Nat) (x : Team) : (s.setTeam t x).core l = s.core l := rfl
@[simp] theorem State.core_putBytes (s : State) (a l : Nat) (bs : List Byte) : (s.putBytes a bs).core l = s.core l := rfl
@[simp] theorem State.queue_setCore (s : State) (l q : Nat) (c : Core) : (s.setCore l c).queue q = s.queue q := rfl
@[simp] theorem State.team_setCore (s : State) (l t : Nat) (c : Core) : (s.setCore l c).team t = s.team t := rfl

@[simp] theorem State.me_setMe (s : State) (c : Core) : (s.setMe c).me = c := by
  simp [State.me, State.setMe]

@[simp] theorem State.issue_setMe (s : State) (c : Core) : (s.setMe c).issue = s.issue := rfl

@[simp] theorem State.slot_setSlot (s : State) (x : Slot) : (s.setSlot x).slot = x := by
  simp [State.slot, State.setSlot]

@[simp] theorem State.issue_setSlot (s : State) (x : Slot) : (s.setSlot x).issue = s.issue := rfl

@[simp] theorem State.me_setSlot (s : State) (x : Slot) : (s.setSlot x).me = s.me.setSlot s.issue.slot x := by
  simp [State.setSlot]

@[simp] theorem State.issue_wr (s : State) (n : Nat) (v : Word) : (s.wr n v).issue = s.issue := rfl
@[simp] theorem State.issue_wra (s : State) (n : Nat) (v : DWord) : (s.wra n v).issue = s.issue := rfl

@[simp] theorem State.slot_wr (s : State) (n : Nat) (v : Word) : (s.wr n v).slot = s.slot.wr n v := by
  simp [State.wr]

@[simp] theorem State.slot_wra (s : State) (n : Nat) (v : DWord) : (s.wra n v).slot = s.slot.wra n v := by
  simp [State.wra]

/-- Reading a general register after one write. -/
theorem State.g_wr (s : State) (n j : Nat) (v : Word) : (s.wr n v).g j = if j = n then v else s.g j := by
  simp [State.g, Slot.wr, Map.get_set]

/-- Reading an address register after one write. -/
theorem State.a_wra (s : State) (n j : Nat) (v : DWord) : (s.wra n v).a j = if j = n then v else s.a j := by
  simp [State.a, Slot.wra, Map.get_set]

@[simp] theorem State.g_wra (s : State) (n j : Nat) (v : DWord) : (s.wra n v).g j = s.g j := by simp [State.g]

@[simp] theorem State.a_wr (s : State) (n j : Nat) (v : Word) : (s.wr n v).a j = s.a j := by simp [State.a]

/-! ### Writing twice -/

end Sys2Proof.Machine
end

