-- ==== Sys2Proof/Laws/Ops.lean ====
section
/-! SUPPORT. What the shared operations can do. -/

namespace Sys2Proof.Machine

/-! ### Frames -/

theorem SameModule.refl (s : State) : SameModule s s := rfl

theorem SameModule.trans {s t u : State} (h : SameModule s t) (h' : SameModule t u) : SameModule s u := by
  unfold SameModule at *
  rw [h', h]

theorem SameModule.issue {s t : State} (h : SameModule s t) : t.issue = s.issue := by rw [h]

theorem sameModule_setCore (s : State) (l : Nat) (c : Core) : SameModule s (s.setCore l c) := rfl

theorem SameModule.memory {s t : State} (h : SameModule s t) : SameMemory s t := fun a => by rw [h]; rfl

theorem OnlySlots.trans {c d e : Core} (h : OnlySlots c d) (h' : OnlySlots d e) : OnlySlots c e := by
  unfold OnlySlots at *
  rw [h', h]

theorem onlySlots_setSlot (c : Core) (k : Nat) (x : Slot) : OnlySlots c (c.setSlot k x) := rfl

theorem sameSlots_setSlot (c : Core) (k : Nat) (x : Slot) : SameSlots k c (c.setSlot k x) :=
  fun _ hj => Core.slot_setSlot_ne c x hj

theorem OnlyRegisters.trans {x y z : Slot} (h : OnlyRegisters x y) (h' : OnlyRegisters y z) : OnlyRegisters x z := by
  unfold OnlyRegisters at *
  rw [h', h]

/-! ### Completing -/

/-- An instruction that goes on at an address other than END completes in its context. -/
theorem State.finish_eq (s : State) {pc : DWord} (h : pc ≠ END) : s.finish pc = s.setSlot { s.slot with
    pc := pc, wait := none, half := none, stepDue := if s.issue.stepping then some s.issue.start else none } := by
  simp [State.finish, h]

@[simp] theorem State.slot_finish (s : State) {pc : DWord} (h : pc ≠ END) : (s.finish pc).slot = { s.slot with
    pc := pc, wait := none, half := none, stepDue := if s.issue.stepping then some s.issue.start else none } := by
  rw [s.finish_eq h, State.slot_setSlot]

theorem State.me_finish (s : State) {pc : DWord} (h : pc ≠ END) : OnlySlots s.me (s.finish pc).me := by
  rw [s.finish_eq h, State.me_setSlot]; exact onlySlots_setSlot _ _ _

/-- A change `s'` of the executing core and its context, and then the completion. -/
theorem went_finish {m : State} {c : Core} {x : Slot} {ds as : List Nat} {s s' : State} {pc : DWord} (h : pc ≠ END)
    (hi : m.issue = s.issue) (hm : SameModule m s') (hk : SameCores s.issue.lid s s') (hc : OnlySlots c s'.me)
    (hs : SameSlots s.issue.slot s.me s'.me) (hx : OnlyRegisters x s'.slot) (hg : SameRegisters ds as s s') :
    Went m c x ds as pc s (s'.finish pc) := by
  have hj : s'.issue = s.issue := hm.issue.trans hi
  refine ⟨?_, fun k hk' => ?_, ?_, fun j hj' => ?_, ?_, ⟨fun n hn => ?_, fun n hn => ?_⟩, ?_⟩
  · rw [s'.finish_eq h]; exact hm.trans rfl
  · rw [s'.finish_eq h, ← hk k hk']; exact State.core_setCore_ne s' _ (by rw [hj]; exact hk')
  · exact hc.trans (State.me_finish s' h)
  · rw [s'.finish_eq h, State.me_setSlot, Core.slot_setSlot_ne _ _ (by rw [hj]; exact hj'), hs j hj']
  · rw [State.slot_finish s' h]; unfold OnlyRegisters at *; rw [hx]
  · rw [← hg.1 n hn]; simp [State.g, h]
  · rw [← hg.2 n hn]; simp [State.a, h]
  · simp [AtPc, h, hj]

theorem SameRegisters.refl (s : State) : SameRegisters [] [] s s := ⟨fun _ _ => rfl, fun _ _ => rfl⟩

theorem SameCores.setMe (s : State) (c : Core) : SameCores s.issue.lid s (s.setMe c) :=
  fun _ hk => State.core_setCore_ne s c hk

/-- A core with other things changed than its contexts. -/
theorem sameSlots_of_slots {c e : Core} (h : e.slots = c.slots) (k : Nat) : SameSlots k c e :=
  fun j _ => by unfold Core.slot; rw [h]

/-- The completion after a change of the executing core that leaves its contexts. -/
theorem went_setMe (s : State) (c : Core) {pc : DWord} (h : pc ≠ END) (hc : c.slots = s.me.slots) :
    Went s c s.slot [] [] pc s ((s.setMe c).finish pc) := by
  have hx : (s.setMe c).slot = s.slot := by simp [State.slot, Core.slot, hc]
  refine went_finish h rfl rfl (SameCores.setMe s c) ?_ ?_ ?_ ⟨fun n _ => ?_, fun n _ => ?_⟩
  · rw [State.me_setMe]; rfl
  · rw [State.me_setMe]; exact sameSlots_of_slots hc _
  · rw [hx]; rfl
  · simp [State.g, hx]
  · simp [State.a, hx]

/-- The same with a general register written besides. -/
theorem went_setMe_wr (s : State) (c : Core) (d : Nat) (v : Word) {pc : DWord} (h : pc ≠ END) (hc : c.slots = s.me.slots) :
    (((s.setMe c).wr d v).finish pc).g d = v ∧ Went s c s.slot [d] [] pc s (((s.setMe c).wr d v).finish pc) := by
  have hx : (s.setMe c).slot = s.slot := by simp [State.slot, Core.slot, hc]
  refine ⟨by simp [State.g, h, Slot.wr], went_finish h rfl (show _ = _ from rfl) ?_ ?_ ?_ ?_ ⟨fun n hn => ?_, fun n _ => ?_⟩⟩
  · intro k hk
    rw [← SameCores.setMe s c k hk]; exact State.core_setCore_ne _ _ hk
  · simp only [State.wr, State.me_setSlot, State.me_setMe]; exact onlySlots_setSlot _ _ _
  · intro j hj
    simp only [State.wr, State.me_setSlot, State.issue_setMe, State.me_setMe]
    rw [Core.slot_setSlot_ne _ _ hj]; unfold Core.slot; rw [hc]
  · rw [State.slot_wr, hx]; rfl
  · rw [State.g_wr, if_neg (by simpa using hn)]; simp [State.g, hx]
  · simp [State.a, hx]

/-- `finish` at an address other than END writes no register. -/
theorem completed_finish (s : State) {pc : DWord} (h : pc ≠ END) : Completed [] [] pc s (s.finish pc) :=
  have hw := went_finish h rfl (SameModule.refl s) (fun _ _ => rfl) (c := s.me) rfl (fun _ _ => rfl) rfl (SameRegisters.refl s)
  ⟨hw, hw.1.memory⟩

/-- A general register write and the completion. -/
theorem completed_wr (s : State) (d : Nat) (v : Word) {pc : DWord} (h : pc ≠ END) :
    ((s.wr d v).finish pc).g d = v ∧ Completed [d] [] pc s ((s.wr d v).finish pc) := by
  have hw : Went s s.me s.slot [d] [] pc s ((s.wr d v).finish pc) := by
    refine went_finish h rfl rfl (SameCores.setMe s _) ?_ ?_ ?_ ⟨fun n hn => ?_, fun n _ => ?_⟩
    · simp only [State.wr, State.me_setSlot]; exact onlySlots_setSlot _ _ _
    · simp only [State.wr, State.me_setSlot]; exact sameSlots_setSlot _ _ _
    · rw [State.slot_wr]; rfl
    · rw [State.g_wr, if_neg (by simpa using hn)]
    · simp
  exact ⟨by simp [State.g, h, Slot.wr], hw, hw.1.memory⟩

/-- An address register write and the completion. -/
theorem completed_wra (s : State) (d : Nat) (v : DWord) {pc : DWord} (h : pc ≠ END) :
    ((s.wra d v).finish pc).a d = v ∧ Completed [] [d] pc s ((s.wra d v).finish pc) := by
  have hw : Went s s.me s.slot [] [d] pc s ((s.wra d v).finish pc) := by
    refine went_finish h rfl rfl (SameCores.setMe s _) ?_ ?_ ?_ ⟨fun n _ => ?_, fun n hn => ?_⟩
    · simp only [State.wra, State.me_setSlot]; exact onlySlots_setSlot _ _ _
    · simp only [State.wra, State.me_setSlot]; exact sameSlots_setSlot _ _ _
    · rw [State.slot_wra]; rfl
    · simp
    · rw [State.a_wra, if_neg (by simpa using hn)]
  exact ⟨by simp [State.a, h, Slot.wra], hw, hw.1.memory⟩

/-- All that `doneWr` does. -/
theorem doneWr_spec (s : State) (d : Nat) (v : Word) (h : s.next ≠ END) :
    ∃ t, doneWr s d v = .next t ∧ t.g d = v ∧ Completed [d] [] s.next s t :=
  ⟨_, rfl, completed_wr s d v h⟩

/-- All that `done` does after nothing else. -/
theorem done_spec (s : State) (h : s.next ≠ END) : ∃ t, done s = .next t ∧ Completed [] [] s.next s t :=
  ⟨_, rfl, completed_finish s h⟩

end Sys2Proof.Machine
end

