-- ==== Sys2Proof/Laws/Forms.lean ====
section
/-! SUPPORT. What the shared shapes of instructions do, in the terms that claims use. -/

namespace Sys2Proof.Machine

/-- An instruction that ends with a register write. -/
theorem WritesG.of_doneWr {i : Instr} {s : State} {d : Nat} {v : Word} {V : Word → Prop} (h : s.next ≠ END)
    (he : exec i s = doneWr s d v) (hV : V v) : WritesG i s d V := by
  obtain ⟨t, h1, h2, h3⟩ := doneWr_spec s d v h
  exact ⟨t, he.trans h1, h2 ▸ hV, h3⟩

/-- An instruction that ends with an address register write. -/
theorem WritesA.of_done {i : Instr} {s : State} {d : Nat} {v : DWord} (h : s.next ≠ END) (he : exec i s = done (s.wra d v)) :
    WritesA i s d v :=
  ⟨_, he, completed_wra s d v h⟩

/-- An instruction that goes on at an even address with nothing else done. -/
theorem Runs.of_jumpTo {i : Instr} {s : State} {pc : DWord} (he : exec i s = jumpTo s pc id) (h : pc.toNat % 2 = 0) (hp : pc ≠ END) :
    Runs i s (Completed [] [] pc s) := by
  refine ⟨_, he.trans ?_, completed_finish s hp⟩
  unfold jumpTo
  rw [if_neg (by omega)]; rfl

/-- An odd target traps ALIGN before any effect. -/
theorem Traps.of_jumpTo {i : Instr} {s : State} {pc : DWord} {f : State → State} (he : exec i s = jumpTo s pc f)
    (h : pc.toNat % 2 = 1) : Traps i s .align pc := by
  unfold Traps
  rw [he, jumpTo, if_pos h]

/-- When n bytes from an integer offset lie in ACC and SCR. -/
theorem inPool_toNat (p : Word) {o : Int} (n : Nat) (h : 0 ≤ o) :
    inPool p o.toNat n = false ↔ 0x6000 < o + n ∨ o < hndEnd p := by
  simp only [inPool, decide_eq_false_iff_not]
  omega

/-- All that a pool form does. -/
theorem PoolForm.of_atPool {n r : Nat} {imm : Int} {i : Instr} {s : State} {P : Nat → Prop} {f : Nat → Out}
    (he : exec i s = atPool n r imm s f) (hf : ∀ o : Nat, exec i s = f o → P o) : PoolForm n r imm i s P := by
  unfold PoolForm Traps
  unfold atPool poolCheck at he
  simp only at he
  by_cases h1 : ((Z (s.g r) : Int) + imm) % n ≠ 0
  · rw [if_pos h1] at he ⊢; exact he
  · rw [if_neg h1] at he ⊢
    by_cases h2 : (Z (s.g r) : Int) + imm < 0
    · rw [if_pos (.inl h2)] at he ⊢; exact he
    · have hp := inPool_toNat s.part n (Int.not_lt.1 h2)
      by_cases h3 : inPool s.part ((Z (s.g r) : Int) + imm).toNat n = false
      · rw [if_pos (.inr h3)] at he
        rw [if_pos (.inr (hp.1 h3))]; exact he
      · rw [if_neg (by simp only [not_or]; exact ⟨h2, h3⟩)] at he
        rw [if_neg (by rw [hp] at h3; exact fun h => h.elim h2 h3)]
        exact hf _ he

/-- A form of an accepted group runs. -/
theorem inGroup_of_accepts {k : Nat} {f : State → Out} {s : State} (h : s.accepts k = true) : inGroup k f s = f s := by
  simp [inGroup, h]

/-- A form of a group that is not accepted traps FEATURE. -/
theorem inGroup_of_not {k : Nat} {f : State → Out} {s : State} (h : s.accepts k = false) :
    inGroup k f s = trap .feature (u64 s.issue.word) s := by
  simp [inGroup, h]

/-- A privileged form runs in S. -/
theorem inS_of_mode {f : State → Out} {s : State} (h : statMode s.slot.stat = 1) : inS f s = f s := by simp [inS, h]

/-- A privileged form traps PRIV in U. -/
theorem inS_of_user {f : State → Out} {s : State} (h : statMode s.slot.stat = 0) : inS f s = trap .priv (u64 s.issue.word) s := by
  simp [inS, h]

/-- An event happens where it is enabled. -/
theorem whenOn_true {b : Bool} {s : State} {f : State → Out} (h : b = true) : whenOn b s f = f s := by simp [whenOn, h]

/-- An event changes nothing where it is not enabled. -/
theorem whenOn_false {b : Bool} {s : State} {f : State → Out} (h : b = false) : whenOn b s f = .next s := by simp [whenOn, h]

end Sys2Proof.Machine
end

