-- ==== Sys2Proof/Laws/Memory.lean ====
section
/-! SUPPORT. The canonical form of tables and of module memory: every operation keeps it, and it makes equal memories equal data. -/

namespace Sys2Proof.Machine

/-! ### Tables -/

section
variable {α : Type}

theorem Map.wf_nil (d : α) : Map.wf d ([] : Map α) := ⟨List.Pairwise.nil, by simp⟩

/-- A key below every listed one reads as the default. -/
theorem Map.get_of_lt {d : α} {m : Map α} {k : Nat} (h : ∀ e ∈ m, k < e.1) : Map.get d m k = d := by
  induction m with
  | nil => rfl
  | cons f m ih =>
    rw [Map.get_cons, if_neg (Nat.ne_of_gt (h f (List.mem_cons_self ..)))]
    exact ih fun e he => h e (List.mem_cons_of_mem _ he)

/-- Tables in canonical form that read the same are the same. -/
theorem Map.ext_of_wf {d : α} {m n : Map α} (hm : Map.wf d m) (hn : Map.wf d n) (h : ∀ k, Map.get d m k = Map.get d n k) : m = n := by
  induction m generalizing n with
  | nil =>
    cases n with
    | nil => rfl
    | cons f n => exact absurd (by simpa [Map.get_cons] using (h f.1).symm) (hn.2 f (List.mem_cons_self ..))
  | cons e m ih =>
    obtain ⟨he, hm'⟩ := List.pairwise_cons.1 hm.1
    cases n with
    | nil => exact absurd (by simpa [Map.get_cons] using h e.1) (hm.2 e (List.mem_cons_self ..))
    | cons f n =>
      obtain ⟨hf, hn'⟩ := List.pairwise_cons.1 hn.1
      have hef : e.1 = f.1 := by
        rcases Nat.lt_trichotomy e.1 f.1 with hl | hl | hl
        · refine absurd ?_ (hm.2 e (List.mem_cons_self ..))
          rw [← Map.get_of_lt (d := d) (m := f :: n) (k := e.1), ← h e.1, Map.get_cons, if_pos rfl]
          intro x hx
          rcases List.mem_cons.1 hx with rfl | hx
          · exact hl
          · exact Nat.lt_trans hl (hf x hx)
        · exact hl
        · refine absurd ?_ (hn.2 f (List.mem_cons_self ..))
          rw [← Map.get_of_lt (d := d) (m := e :: m) (k := f.1), h f.1, Map.get_cons, if_pos rfl]
          intro x hx
          rcases List.mem_cons.1 hx with rfl | hx
          · exact hl
          · exact Nat.lt_trans hl (he x hx)
      have hv : e = f := Prod.ext hef (by simpa [Map.get_cons, hef] using h e.1)
      subst hv
      congr 1
      refine ih ⟨hm', fun x hx => hm.2 x (List.mem_cons_of_mem _ hx)⟩ ⟨hn', fun x hx => hn.2 x (List.mem_cons_of_mem _ hx)⟩ fun k => ?_
      by_cases hk : e.1 = k
      · rw [Map.get_of_lt fun x hx => hk ▸ he x hx, Map.get_of_lt fun x hx => hk ▸ hf x hx]
      · simpa [Map.get_cons, hk] using h k

end

/-! ### Module memory -/

/-- States whose memories are canonical and read the same have the same memory. -/
theorem State.mem_ext {s t : State} (hs : s.MemoryInv) (ht : t.MemoryInv) (h : SameMemory s t) : t.mem = s.mem :=
  Map.ext_of_wf ht hs h

theorem State.MemoryInv.of_mem_eq {s t : State} (h : s.MemoryInv) (he : t.mem = s.mem) : t.MemoryInv := by
  unfold State.MemoryInv at *; rw [he]; exact h

theorem State.MemoryInv.sameModule {s t : State} (h : s.MemoryInv) (hm : SameModule s t) : t.MemoryInv := h.of_mem_eq (by rw [hm])

theorem State.MemoryInv.putBytes {s : State} (h : s.MemoryInv) (pa : Nat) (bs : List Byte) : (s.putBytes pa bs).MemoryInv :=
  Map.setList_wf bs pa h

/-- A rebase moves clocks alone. -/
@[simp] theorem State.mem_rebase (s : State) (t : Nat) : (s.rebase t).mem = s.mem := by
  unfold State.rebase
  split <;> rfl

@[simp] theorem State.mem_roomFor (s : State) (t : Nat) : (s.roomFor t).mem = s.mem := by
  unfold State.roomFor
  split <;> simp

/-- A store writes its bytes into memory, rebase or not. -/
theorem State.mem_storeLine (s : State) (pa : Nat) (bs : List Byte) (p : Nat) : (s.storeLine pa bs p).1.mem = Map.setList 0 s.mem pa bs := by
  show Map.setList 0 (s.roomFor _).mem pa bs = _
  rw [State.mem_roomFor]

theorem State.MemoryInv.storeLine {s : State} (h : s.MemoryInv) (pa : Nat) (bs : List Byte) (p : Nat) : (s.storeLine pa bs p).1.MemoryInv := by
  unfold State.MemoryInv
  rw [State.mem_storeLine]
  exact Map.setList_wf bs pa h

theorem State.MemoryInv.withFetchWord {s : State} (h : s.MemoryInv) (nbits w : Nat) : (s.withFetchWord nbits w).MemoryInv :=
  Map.setList_wf _ _ (Map.setList_wf _ _ (Map.setList_wf _ _ h))

/-- The memory that a module reset leaves. -/
theorem State.restart_memory (s : State) (d : Device) : (s.restart d).mem = [] := rfl

theorem State.byte_putBytes (s : State) (pa a : Nat) (bs : List Byte) :
    (s.putBytes pa bs).byte a = if pa ≤ a ∧ a < pa + bs.length then bs.getD (a - pa) 0 else s.byte a := by
  show Map.get 0 (Map.setList 0 s.mem pa bs) a = _
  rw [Map.get_setList]; rfl

end Sys2Proof.Machine
end

