-- ==== Sys2Proof/Laws/PerInstr.lean ====
section
/-! SUPPORT. Laws of every constructor of `Instr`: which of them have words. -/

namespace Sys2Proof.Laws.HasWords

/-- An instruction is a step of the part, without words and never well-formed, or has a place in the map of R63 to R67. -/
def Statement (i : Instr) : Prop := i.flaws = [.event] ∨ ∃ l, i.layout = some l

theorem add (d s : Nat) (t : Option Nat) : Statement (.add d s t) := .inr ⟨_, rfl⟩
theorem sub (d s : Nat) (t : Option Nat) : Statement (.sub d s t) := .inr ⟨_, rfl⟩
theorem mul (d s : Nat) (t : Option Nat) : Statement (.mul d s t) := .inr ⟨_, rfl⟩
theorem mulh (d s : Nat) (t : Option Nat) : Statement (.mulh d s t) := .inr ⟨_, rfl⟩
theorem and (d s : Nat) (t : Option Nat) : Statement (.and d s t) := .inr ⟨_, rfl⟩
theorem or (d s : Nat) (t : Option Nat) : Statement (.or d s t) := .inr ⟨_, rfl⟩
theorem xor (d s : Nat) (t : Option Nat) : Statement (.xor d s t) := .inr ⟨_, rfl⟩
theorem andn (d s : Nat) (t : Option Nat) : Statement (.andn d s t) := .inr ⟨_, rfl⟩
theorem shl (d s : Nat) (t : Option Nat) : Statement (.shl d s t) := .inr ⟨_, rfl⟩
theorem shr (d s : Nat) (t : Option Nat) : Statement (.shr d s t) := .inr ⟨_, rfl⟩
theorem sra (d s : Nat) (t : Option Nat) : Statement (.sra d s t) := .inr ⟨_, rfl⟩
theorem ror (d s : Nat) (t : Option Nat) : Statement (.ror d s t) := .inr ⟨_, rfl⟩
theorem div (d s : Nat) (t : Option Nat) : Statement (.div d s t) := .inr ⟨_, rfl⟩
theorem divz (d s : Nat) (t : Option Nat) : Statement (.divz d s t) := .inr ⟨_, rfl⟩
theorem rem (d s : Nat) (t : Option Nat) : Statement (.rem d s t) := .inr ⟨_, rfl⟩
theorem remz (d s : Nat) (t : Option Nat) : Statement (.remz d s t) := .inr ⟨_, rfl⟩
theorem min (d s : Nat) (t : Option Nat) : Statement (.min d s t) := .inr ⟨_, rfl⟩
theorem max (d s : Nat) (t : Option Nat) : Statement (.max d s t) := .inr ⟨_, rfl⟩
theorem minz (d s : Nat) (t : Option Nat) : Statement (.minz d s t) := .inr ⟨_, rfl⟩
theorem maxz (d s : Nat) (t : Option Nat) : Statement (.maxz d s t) := .inr ⟨_, rfl⟩
theorem slt (d s : Nat) (t : Option Nat) : Statement (.slt d s t) := .inr ⟨_, rfl⟩
theorem sltz (d s : Nat) (t : Option Nat) : Statement (.sltz d s t) := .inr ⟨_, rfl⟩
theorem seq (d s : Nat) (t : Option Nat) : Statement (.seq d s t) := .inr ⟨_, rfl⟩
theorem sne (d s : Nat) (t : Option Nat) : Statement (.sne d s t) := .inr ⟨_, rfl⟩
theorem mulhz (d s : Nat) (t : Option Nat) : Statement (.mulhz d s t) := .inr ⟨_, rfl⟩
theorem clz (d s : Nat) : Statement (.clz d s) := .inr ⟨_, rfl⟩
theorem ctz (d s : Nat) : Statement (.ctz d s) := .inr ⟨_, rfl⟩
theorem popc (d s : Nat) : Statement (.popc d s) := .inr ⟨_, rfl⟩
theorem brev (d s : Nat) : Statement (.brev d s) := .inr ⟨_, rfl⟩
theorem sextB (d s : Nat) : Statement (.sextB d s) := .inr ⟨_, rfl⟩
theorem sextH (d s : Nat) : Statement (.sextH d s) := .inr ⟨_, rfl⟩
theorem zextB (d s : Nat) : Statement (.zextB d s) := .inr ⟨_, rfl⟩
theorem zextH (d s : Nat) : Statement (.zextH d s) := .inr ⟨_, rfl⟩
theorem satsB (d s : Nat) : Statement (.satsB d s) := .inr ⟨_, rfl⟩
theorem satsH (d s : Nat) : Statement (.satsH d s) := .inr ⟨_, rfl⟩
theorem satzB (d s : Nat) : Statement (.satzB d s) := .inr ⟨_, rfl⟩
theorem satzH (d s : Nat) : Statement (.satzH d s) := .inr ⟨_, rfl⟩
theorem mov (d s : Nat) : Statement (.mov d s) := .inr ⟨_, rfl⟩
theorem mfs (x d n : Nat) : Statement (.mfs x d n) := .inr ⟨_, rfl⟩
theorem mts (x d n : Nat) : Statement (.mts x d n) := .inr ⟨_, rfl⟩
theorem aadd (d s : Nat) : Statement (.aadd d s) := .inr ⟨_, rfl⟩
theorem asub (d s : Nat) : Statement (.asub d s) := .inr ⟨_, rfl⟩
theorem amov (d s : Nat) : Statement (.amov d s) := .inr ⟨_, rfl⟩
theorem alea (d s : Nat) (imm : Int) : Statement (.alea d s imm) := .inr ⟨_, rfl⟩
theorem aget (d s : Nat) : Statement (.aget d s) := .inr ⟨_, rfl⟩
theorem agetHi (d s : Nat) : Statement (.agetHi d s) := .inr ⟨_, rfl⟩
theorem aaddi (d : Nat) (imm : Int) : Statement (.aaddi d imm) := .inr ⟨_, rfl⟩
theorem apc (d : Nat) (imm : Int) : Statement (.apc d imm) := .inr ⟨_, rfl⟩
theorem li (d : Nat) (imm : Int) : Statement (.li d imm) := .inr ⟨_, rfl⟩
theorem addi (d : Nat) (imm : Int) : Statement (.addi d imm) := .inr ⟨_, rfl⟩
theorem andi (d : Nat) (imm : Int) : Statement (.andi d imm) := .inr ⟨_, rfl⟩
theorem ori (d : Nat) (imm : Int) : Statement (.ori d imm) := .inr ⟨_, rfl⟩
theorem xori (d : Nat) (imm : Int) : Statement (.xori d imm) := .inr ⟨_, rfl⟩
theorem shli (d : Nat) (imm : Int) : Statement (.shli d imm) := .inr ⟨_, rfl⟩
theorem shri (d : Nat) (imm : Int) : Statement (.shri d imm) := .inr ⟨_, rfl⟩
theorem srai (d : Nat) (imm : Int) : Statement (.srai d imm) := .inr ⟨_, rfl⟩
theorem slti (d : Nat) (imm : Int) : Statement (.slti d imm) := .inr ⟨_, rfl⟩
theorem j (imm : Int) : Statement (.j imm) := .inr ⟨_, rfl⟩
theorem call (imm : Int) : Statement (.call imm) := .inr ⟨_, rfl⟩
theorem jr (s : Nat) : Statement (.jr s) := .inr ⟨_, rfl⟩
theorem callr (s : Nat) : Statement (.callr s) := .inr ⟨_, rfl⟩
theorem beq (d s : Nat) (imm : Int) : Statement (.beq d s imm) := .inr ⟨_, rfl⟩
theorem bne (d s : Nat) (imm : Int) : Statement (.bne d s imm) := .inr ⟨_, rfl⟩
theorem blt (d s : Nat) (imm : Int) : Statement (.blt d s imm) := .inr ⟨_, rfl⟩
theorem bge (d s : Nat) (imm : Int) : Statement (.bge d s imm) := .inr ⟨_, rfl⟩
theorem bltz (d s : Nat) (imm : Int) : Statement (.bltz d s imm) := .inr ⟨_, rfl⟩
theorem bgez (d s : Nat) (imm : Int) : Statement (.bgez d s imm) := .inr ⟨_, rfl⟩
theorem bz (d : Nat) (imm : Int) : Statement (.bz d imm) := .inr ⟨_, rfl⟩
theorem bnz (d : Nat) (imm : Int) : Statement (.bnz d imm) := .inr ⟨_, rfl⟩
theorem loop (d : Nat) (imm : Int) : Statement (.loop d imm) := .inr ⟨_, rfl⟩
theorem ldp (z d s : Nat) (imm : Int) : Statement (.ldp z d s imm) := .inr ⟨_, rfl⟩
theorem ldpBS (z d s : Nat) (imm : Int) : Statement (.ldpBS z d s imm) := .inr ⟨_, rfl⟩
theorem stp (z d s : Nat) (imm : Int) : Statement (.stp z d s imm) := .inr ⟨_, rfl⟩
theorem ldpq (d s : Nat) (imm : Int) : Statement (.ldpq d s imm) := .inr ⟨_, rfl⟩
theorem stpq (d s : Nat) (imm : Int) : Statement (.stpq d s imm) := .inr ⟨_, rfl⟩
theorem ldps (d s : Nat) (imm : Int) : Statement (.ldps d s imm) := .inr ⟨_, rfl⟩
theorem stpf (d s : Nat) (imm : Int) : Statement (.stpf d s imm) := .inr ⟨_, rfl⟩
theorem sete (d s : Nat) (imm : Int) : Statement (.sete d s imm) := .inr ⟨_, rfl⟩
theorem tstf (d s : Nat) (imm : Int) : Statement (.tstf d s imm) := .inr ⟨_, rfl⟩
theorem hbind (d h : Nat) : Statement (.hbind d h) := .inr ⟨_, rfl⟩
theorem hwait (d h : Nat) : Statement (.hwait d h) := .inr ⟨_, rfl⟩
theorem hfree (d h : Nat) : Statement (.hfree d h) := .inr ⟨_, rfl⟩
theorem hadv (d h : Nat) : Statement (.hadv d h) := .inr ⟨_, rfl⟩
theorem hpub (d h : Nat) : Statement (.hpub d h) := .inr ⟨_, rfl⟩
theorem hld (d h : Nat) : Statement (.hld d h) := .inr ⟨_, rfl⟩
theorem hst (d h : Nat) : Statement (.hst d h) := .inr ⟨_, rfl⟩
theorem hcnt (d h : Nat) : Statement (.hcnt d h) := .inr ⟨_, rfl⟩
theorem fadd (m : RMode) (d s : Nat) (t : Option Nat) : Statement (.fadd m d s t) := .inr ⟨_, rfl⟩
theorem fsub (m : RMode) (d s : Nat) (t : Option Nat) : Statement (.fsub m d s t) := .inr ⟨_, rfl⟩
theorem fmul (m : RMode) (d s : Nat) (t : Option Nat) : Statement (.fmul m d s t) := .inr ⟨_, rfl⟩
theorem fdiv (m : RMode) (d s : Nat) (t : Option Nat) : Statement (.fdiv m d s t) := .inr ⟨_, rfl⟩
theorem fsqrt (m : RMode) (d s : Nat) : Statement (.fsqrt m d s) := .inr ⟨_, rfl⟩
theorem fma (m : RMode) (d s t : Nat) : Statement (.fma m d s t) := .inr ⟨_, rfl⟩
theorem fms (m : RMode) (d s t : Nat) : Statement (.fms m d s t) := .inr ⟨_, rfl⟩
theorem fnma (m : RMode) (d s t : Nat) : Statement (.fnma m d s t) := .inr ⟨_, rfl⟩
theorem fnms (m : RMode) (d s t : Nat) : Statement (.fnms m d s t) := .inr ⟨_, rfl⟩
theorem fmin (d s : Nat) (t : Option Nat) : Statement (.fmin d s t) := .inr ⟨_, rfl⟩
theorem fmax (d s : Nat) (t : Option Nat) : Statement (.fmax d s t) := .inr ⟨_, rfl⟩
theorem fsgn (d s : Nat) (t : Option Nat) : Statement (.fsgn d s t) := .inr ⟨_, rfl⟩
theorem fabs (d s : Nat) : Statement (.fabs d s) := .inr ⟨_, rfl⟩
theorem fneg (d s : Nat) : Statement (.fneg d s) := .inr ⟨_, rfl⟩
theorem fclass (d s : Nat) : Statement (.fclass d s) := .inr ⟨_, rfl⟩
theorem feq (d s : Nat) (t : Option Nat) : Statement (.feq d s t) := .inr ⟨_, rfl⟩
theorem flt (d s : Nat) (t : Option Nat) : Statement (.flt d s t) := .inr ⟨_, rfl⟩
theorem fle (d s : Nat) (t : Option Nat) : Statement (.fle d s t) := .inr ⟨_, rfl⟩
theorem fcvtiS (m : RMode) (d s : Nat) : Statement (.fcvtiS m d s) := .inr ⟨_, rfl⟩
theorem fcvtiZ (m : RMode) (d s : Nat) : Statement (.fcvtiZ m d s) := .inr ⟨_, rfl⟩
theorem fcvtfS (m : RMode) (d s : Nat) : Statement (.fcvtfS m d s) := .inr ⟨_, rfl⟩
theorem fcvtfZ (m : RMode) (d s : Nat) : Statement (.fcvtfZ m d s) := .inr ⟨_, rfl⟩
theorem fcvthB16 (m : RMode) (d s : Nat) : Statement (.fcvthB16 m d s) := .inr ⟨_, rfl⟩
theorem fcvthBf16 (m : RMode) (d s : Nat) : Statement (.fcvthBf16 m d s) := .inr ⟨_, rfl⟩
theorem fcvthXB16 (d s : Nat) : Statement (.fcvthXB16 d s) := .inr ⟨_, rfl⟩
theorem fcvthXBf16 (d s : Nat) : Statement (.fcvthXBf16 d s) := .inr ⟨_, rfl⟩
theorem frnd (m : RMode) (d s : Nat) : Statement (.frnd m d s) := .inr ⟨_, rfl⟩
theorem qadd (m : RMode) (d s : Nat) (t : Option Nat) : Statement (.qadd m d s t) := .inr ⟨_, rfl⟩
theorem qsub (m : RMode) (d s : Nat) (t : Option Nat) : Statement (.qsub m d s t) := .inr ⟨_, rfl⟩
theorem qmul (m : RMode) (d s : Nat) (t : Option Nat) : Statement (.qmul m d s t) := .inr ⟨_, rfl⟩
theorem qfma (m : RMode) (d s t : Nat) : Statement (.qfma m d s t) := .inr ⟨_, rfl⟩
theorem qdot (m : RMode) (d s : Nat) (t : Option Nat) : Statement (.qdot m d s t) := .inr ⟨_, rfl⟩
theorem qsum (m : RMode) (d s : Nat) : Statement (.qsum m d s) := .inr ⟨_, rfl⟩
theorem qmin (d s : Nat) (t : Option Nat) : Statement (.qmin d s t) := .inr ⟨_, rfl⟩
theorem qmax (d s : Nat) (t : Option Nat) : Statement (.qmax d s t) := .inr ⟨_, rfl⟩
theorem qabs (d s : Nat) : Statement (.qabs d s) := .inr ⟨_, rfl⟩
theorem qneg (d s : Nat) : Statement (.qneg d s) := .inr ⟨_, rfl⟩
theorem qbcast (d s : Nat) : Statement (.qbcast d s) := .inr ⟨_, rfl⟩
theorem qshuf (d s sel : Nat) : Statement (.qshuf d s sel) := .inr ⟨_, rfl⟩
theorem qsel (d s t : Nat) : Statement (.qsel d s t) := .inr ⟨_, rfl⟩
theorem qcmp (d s : Nat) (t : Option Nat) (c : Nat) : Statement (.qcmp d s t c) := .inr ⟨_, rfl⟩
theorem qiadd (d s : Nat) (t : Option Nat) : Statement (.qiadd d s t) := .inr ⟨_, rfl⟩
theorem qimul (d s : Nat) (t : Option Nat) : Statement (.qimul d s t) := .inr ⟨_, rfl⟩
theorem qand (d s : Nat) (t : Option Nat) : Statement (.qand d s t) := .inr ⟨_, rfl⟩
theorem qcvt (m : RMode) (d s c : Nat) : Statement (.qcvt m d s c) := .inr ⟨_, rfl⟩
theorem qdec (d s f : Nat) : Statement (.qdec d s f) := .inr ⟨_, rfl⟩
theorem qenc (d s f : Nat) : Statement (.qenc d s f) := .inr ⟨_, rfl⟩
theorem qscl (m : RMode) (d s : Nat) : Statement (.qscl m d s) := .inr ⟨_, rfl⟩
theorem msg (d k : Nat) : Statement (.msg d k) := .inr ⟨_, rfl⟩
theorem callm (d k : Nat) : Statement (.callm d k) := .inr ⟨_, rfl⟩
theorem clause (d s n : Nat) : Statement (.clause d s n) := .inr ⟨_, rfl⟩
theorem mcast (d k : Nat) : Statement (.mcast d k) := .inr ⟨_, rfl⟩
theorem mbind (d h : Nat) : Statement (.mbind d h) := .inr ⟨_, rfl⟩
theorem bnc (d h : Nat) : Statement (.bnc d h) := .inr ⟨_, rfl⟩
theorem spawn (d s p : Nat) : Statement (.spawn d s p) := .inr ⟨_, rfl⟩
theorem task (s p : Nat) : Statement (.task s p) := .inr ⟨_, rfl⟩
theorem waite (d : Nat) : Statement (.waite d) := .inr ⟨_, rfl⟩
theorem pri (n : Nat) : Statement (.pri n) := .inr ⟨_, rfl⟩
theorem node (d s : Nat) : Statement (.node d s) := .inr ⟨_, rfl⟩
theorem sig (d : Nat) : Statement (.sig d) := .inr ⟨_, rfl⟩
theorem gcomb (d s : Nat) : Statement (.gcomb d s) := .inr ⟨_, rfl⟩
theorem gsplit (d s : Nat) : Statement (.gsplit d s) := .inr ⟨_, rfl⟩
theorem gdamp (d s : Nat) : Statement (.gdamp d s) := .inr ⟨_, rfl⟩
theorem glin (d s : Nat) : Statement (.glin d s) := .inr ⟨_, rfl⟩
theorem gmean (d s : Nat) : Statement (.gmean d s) := .inr ⟨_, rfl⟩
theorem ginfo (d s : Nat) : Statement (.ginfo d s) := .inr ⟨_, rfl⟩
theorem gresd (d s : Nat) : Statement (.gresd d s) := .inr ⟨_, rfl⟩
theorem slget (d s : Nat) : Statement (.slget d s) := .inr ⟨_, rfl⟩
theorem slput (d s : Nat) : Statement (.slput d s) := .inr ⟨_, rfl⟩
theorem slret (d s : Nat) : Statement (.slret d s) := .inr ⟨_, rfl⟩
theorem slnew (d s : Nat) : Statement (.slnew d s) := .inr ⟨_, rfl⟩
theorem belief (d : Nat) : Statement (.belief d) := .inr ⟨_, rfl⟩
theorem cvupd (d : Nat) : Statement (.cvupd d) := .inr ⟨_, rfl⟩
theorem cvrd (d : Nat) : Statement (.cvrd d) := .inr ⟨_, rfl⟩
theorem ftype (d s : Nat) : Statement (.ftype d s) := .inr ⟨_, rfl⟩
theorem snap (d : Nat) : Statement (.snap d) := .inr ⟨_, rfl⟩
theorem mark (d : Nat) : Statement (.mark d) := .inr ⟨_, rfl⟩
theorem cutst (d : Nat) : Statement (.cutst d) := .inr ⟨_, rfl⟩
theorem ldg (z d s : Nat) (imm : Int) : Statement (.ldg z d s imm) := .inr ⟨_, rfl⟩
theorem ldgBS (z d s : Nat) (imm : Int) : Statement (.ldgBS z d s imm) := .inr ⟨_, rfl⟩
theorem stg (z d s : Nat) (imm : Int) : Statement (.stg z d s imm) := .inr ⟨_, rfl⟩
theorem stgn (z d s : Nat) (imm : Int) : Statement (.stgn z d s imm) := .inr ⟨_, rfl⟩
theorem ldgtW (d s : Nat) (imm : Int) : Statement (.ldgtW d s imm) := .inr ⟨_, rfl⟩
theorem ldgtD (d s : Nat) (imm : Int) : Statement (.ldgtD d s imm) := .inr ⟨_, rfl⟩
theorem pref (s : Nat) (imm : Int) : Statement (.pref s imm) := .inr ⟨_, rfl⟩
theorem renew (s : Nat) (imm : Int) : Statement (.renew s imm) := .inr ⟨_, rfl⟩
theorem discard (d s : Nat) (imm : Int) : Statement (.discard d s imm) := .inr ⟨_, rfl⟩
theorem fence (c : Nat) : Statement (.fence c) := .inr ⟨_, rfl⟩
theorem tick (n : Nat) : Statement (.tick n) := .inr ⟨_, rfl⟩
theorem clkj (d : Nat) : Statement (.clkj d) := .inr ⟨_, rfl⟩
theorem amadd (w : Bool) (d s : Nat) (imm : Int) : Statement (.amadd w d s imm) := .inr ⟨_, rfl⟩
theorem amand (w : Bool) (d s : Nat) (imm : Int) : Statement (.amand w d s imm) := .inr ⟨_, rfl⟩
theorem amor (w : Bool) (d s : Nat) (imm : Int) : Statement (.amor w d s imm) := .inr ⟨_, rfl⟩
theorem amxor (w : Bool) (d s : Nat) (imm : Int) : Statement (.amxor w d s imm) := .inr ⟨_, rfl⟩
theorem ammin (w : Bool) (d s : Nat) (imm : Int) : Statement (.ammin w d s imm) := .inr ⟨_, rfl⟩
theorem ammax (w : Bool) (d s : Nat) (imm : Int) : Statement (.ammax w d s imm) := .inr ⟨_, rfl⟩
theorem amminz (w : Bool) (d s : Nat) (imm : Int) : Statement (.amminz w d s imm) := .inr ⟨_, rfl⟩
theorem ammaxz (w : Bool) (d s : Nat) (imm : Int) : Statement (.ammaxz w d s imm) := .inr ⟨_, rfl⟩
theorem amswp (w : Bool) (d s : Nat) (imm : Int) : Statement (.amswp w d s imm) := .inr ⟨_, rfl⟩
theorem amcas (w : Bool) (d s : Nat) (imm : Int) : Statement (.amcas w d s imm) := .inr ⟨_, rfl⟩
theorem amfadd (d s : Nat) (imm : Int) : Statement (.amfadd d s imm) := .inr ⟨_, rfl⟩
theorem amaddRemote (w : Bool) (d s t : Nat) (imm : Int) : Statement (.amaddRemote w d s t imm) := .inr ⟨_, rfl⟩
theorem amandRemote (w : Bool) (d s t : Nat) (imm : Int) : Statement (.amandRemote w d s t imm) := .inr ⟨_, rfl⟩
theorem amorRemote (w : Bool) (d s t : Nat) (imm : Int) : Statement (.amorRemote w d s t imm) := .inr ⟨_, rfl⟩
theorem amxorRemote (w : Bool) (d s t : Nat) (imm : Int) : Statement (.amxorRemote w d s t imm) := .inr ⟨_, rfl⟩
theorem amminRemote (w : Bool) (d s t : Nat) (imm : Int) : Statement (.amminRemote w d s t imm) := .inr ⟨_, rfl⟩
theorem ammaxRemote (w : Bool) (d s t : Nat) (imm : Int) : Statement (.ammaxRemote w d s t imm) := .inr ⟨_, rfl⟩
theorem amminzRemote (w : Bool) (d s t : Nat) (imm : Int) : Statement (.amminzRemote w d s t imm) := .inr ⟨_, rfl⟩
theorem ammaxzRemote (w : Bool) (d s t : Nat) (imm : Int) : Statement (.ammaxzRemote w d s t imm) := .inr ⟨_, rfl⟩
theorem amswpRemote (w : Bool) (d s t : Nat) (imm : Int) : Statement (.amswpRemote w d s t imm) := .inr ⟨_, rfl⟩
theorem amcasRemote (w : Bool) (d s t : Nat) (imm : Int) : Statement (.amcasRemote w d s t imm) := .inr ⟨_, rfl⟩
theorem amfaddRemote (d s t : Nat) (imm : Int) : Statement (.amfaddRemote d s t imm) := .inr ⟨_, rfl⟩
theorem ylease (n : Nat) : Statement (.ylease n) := .inr ⟨_, rfl⟩
theorem yzero (d : Nat) : Statement (.yzero d) := .inr ⟨_, rfl⟩
theorem yfmt (d : Nat) : Statement (.yfmt d) := .inr ⟨_, rfl⟩
theorem yldb (d s t : Nat) : Statement (.yldb d s t) := .inr ⟨_, rfl⟩
theorem ymma (d s : Nat) : Statement (.ymma d s) := .inr ⟨_, rfl⟩
theorem ymmaRa (d s : Nat) : Statement (.ymmaRa d s) := .inr ⟨_, rfl⟩
theorem ymmaRb (d s : Nat) : Statement (.ymmaRb d s) := .inr ⟨_, rfl⟩
theorem ymmaRr (d s : Nat) : Statement (.ymmaRr d s) := .inr ⟨_, rfl⟩
theorem yst (d s : Nat) : Statement (.yst d s) := .inr ⟨_, rfl⟩
theorem ywait (d : Nat) : Statement (.ywait d) := .inr ⟨_, rfl⟩
theorem ypoll (d : Nat) : Statement (.ypoll d) := .inr ⟨_, rfl⟩
theorem yprog (d : Nat) : Statement (.yprog d) := .inr ⟨_, rfl⟩
theorem yres (d : Nat) : Statement (.yres d) := .inr ⟨_, rfl⟩
theorem kset (s : Nat) : Statement (.kset s) := .inr ⟨_, rfl⟩
theorem kgo (d : Nat) : Statement (.kgo d) := .inr ⟨_, rfl⟩
theorem kwait (d : Nat) : Statement (.kwait d) := .inr ⟨_, rfl⟩
theorem kpoll (d : Nat) : Statement (.kpoll d) := .inr ⟨_, rfl⟩
theorem tbinit (d s : Nat) : Statement (.tbinit d s) := .inr ⟨_, rfl⟩
theorem tbarr (d s : Nat) : Statement (.tbarr d s) := .inr ⟨_, rfl⟩
theorem tbwait (d s : Nat) : Statement (.tbwait d s) := .inr ⟨_, rfl⟩
theorem bjoin (d s : Nat) : Statement (.bjoin d s) := .inr ⟨_, rfl⟩
theorem binit (d s : Nat) : Statement (.binit d s) := .inr ⟨_, rfl⟩
theorem bqry (d s : Nat) : Statement (.bqry d s) := .inr ⟨_, rfl⟩
theorem coll (d s imm : Nat) : Statement (.coll d s imm) := .inr ⟨_, rfl⟩
theorem cwait (d : Nat) : Statement (.cwait d) := .inr ⟨_, rfl⟩
theorem gform (d s : Nat) : Statement (.gform d s) := .inr ⟨_, rfl⟩
theorem pnopen (d s : Nat) : Statement (.pnopen d s) := .inr ⟨_, rfl⟩
theorem pnpush (d s : Nat) : Statement (.pnpush d s) := .inr ⟨_, rfl⟩
theorem pnpull (d s : Nat) : Statement (.pnpull d s) := .inr ⟨_, rfl⟩
theorem pnclose (d s : Nat) : Statement (.pnclose d s) := .inr ⟨_, rfl⟩
theorem pnstat (d s : Nat) : Statement (.pnstat d s) := .inr ⟨_, rfl⟩
theorem trap (n : Nat) : Statement (.trap n) := .inr ⟨_, rfl⟩
theorem brk (n : Nat) : Statement (.brk n) := .inr ⟨_, rfl⟩
theorem tlbinv (d s : Nat) : Statement (.tlbinv d s) := .inr ⟨_, rfl⟩
theorem migr (d : Nat) : Statement (.migr d) := .inr ⟨_, rfl⟩
theorem ctxout (d s : Nat) : Statement (.ctxout d s) := .inr ⟨_, rfl⟩
theorem ctxin (d s : Nat) : Statement (.ctxin d s) := .inr ⟨_, rfl⟩
theorem fwdset (d s : Nat) : Statement (.fwdset d s) := .inr ⟨_, rfl⟩
theorem slice (d : Nat) : Statement (.slice d) := .inr ⟨_, rfl⟩
theorem lretr (d s : Nat) : Statement (.lretr d s) := .inr ⟨_, rfl⟩
theorem lstat (d s : Nat) : Statement (.lstat d s) := .inr ⟨_, rfl⟩
theorem lctl (d s : Nat) : Statement (.lctl d s) := .inr ⟨_, rfl⟩
theorem ret : Statement .ret := .inr ⟨_, rfl⟩
theorem done : Statement .done := .inr ⟨_, rfl⟩
theorem exit : Statement .exit := .inr ⟨_, rfl⟩
theorem cvclr : Statement .cvclr := .inr ⟨_, rfl⟩
theorem yfree : Statement .yfree := .inr ⟨_, rfl⟩
theorem yrot : Statement .yrot := .inr ⟨_, rfl⟩
theorem rett : Statement .rett := .inr ⟨_, rfl⟩
theorem csync : Statement .csync := .inr ⟨_, rfl⟩
theorem halt : Statement .halt := .inr ⟨_, rfl⟩
theorem ctrlRetrain (l : LinkId) : Statement (.ctrlRetrain l) := .inl rfl
theorem notice (lid k : Nat) : Statement (.notice lid k) := .inl rfl
theorem stepTrap (lid k : Nat) : Statement (.stepTrap lid k) := .inl rfl
theorem taskDispatch (lid : Nat) : Statement (.taskDispatch lid) := .inl rfl
theorem clauseExecute (lid : Nat) : Statement (.clauseExecute lid) := .inl rfl
theorem dataDelivery (f : Flit) : Statement (.dataDelivery f) := .inl rfl
theorem callDelivery (f : Flit) : Statement (.callDelivery f) := .inl rfl
theorem clauseDelivery (f : Flit) : Statement (.clauseDelivery f) := .inl rfl
theorem bounceDelivery (f : Flit) : Statement (.bounceDelivery f) := .inl rfl
theorem spawnRequest (f : Flit) : Statement (.spawnRequest f) := .inl rfl
theorem spawnReply (f : Flit) : Statement (.spawnReply f) := .inl rfl
theorem sigDelivery (f : Flit) : Statement (.sigDelivery f) := .inl rfl
theorem serviceRequest (f : Flit) : Statement (.serviceRequest f) := .inl rfl
theorem fwdsetRequest (f : Flit) : Statement (.fwdsetRequest f) := .inl rfl
theorem fwdsetReply (f : Flit) : Statement (.fwdsetReply f) := .inl rfl
theorem remoteAtomicRequest (f : Flit) : Statement (.remoteAtomicRequest f) := .inl rfl
theorem remoteAtomicExecute (lid : Nat) : Statement (.remoteAtomicExecute lid) := .inl rfl
theorem remoteAtomicReply (f : Flit) : Statement (.remoteAtomicReply f) := .inl rfl
theorem clauseAck (f : Flit) : Statement (.clauseAck f) := .inl rfl
theorem remoteDeadline (lid k entry : Nat) : Statement (.remoteDeadline lid k entry) := .inl rfl
theorem goldenEpoch : Statement .goldenEpoch := .inl rfl
theorem homeLoad (id : Nat) : Statement (.homeLoad id) := .inl rfl
theorem homeStore (id : Nat) : Statement (.homeStore id) := .inl rfl
theorem homeAtomic (id : Nat) : Statement (.homeAtomic id) := .inl rfl
theorem memoryReply (r : Reply) : Statement (.memoryReply r) := .inl rfl
theorem streamingDrain (lid k i : Nat) : Statement (.streamingDrain lid k i) := .inl rfl
theorem idleClockAdvance (lid : Nat) : Statement (.idleClockAdvance lid) := .inl rfl
theorem rebase : Statement .rebase := .inl rfl
theorem hostLoadCompletion (lid k : Nat) (data : Option (List Byte)) : Statement (.hostLoadCompletion lid k data) := .inl rfl
theorem hostReadTimeout (lid k : Nat) : Statement (.hostReadTimeout lid k) := .inl rfl
theorem yokeLeaseGrant (team : Nat) : Statement (.yokeLeaseGrant team) := .inl rfl
theorem kstep (lid : Nat) : Statement (.kstep lid) := .inl rfl
theorem yzeroJob (lid : Nat) : Statement (.yzeroJob lid) := .inl rfl
theorem ystJob (lid : Nat) : Statement (.ystJob lid) := .inl rfl
theorem yokeJobStop (lid : Nat) (far : Option FarFail) : Statement (.yokeJobStop lid far) := .inl rfl
theorem tugSize (lid id : Nat) : Statement (.tugSize lid id) := .inl rfl
theorem tugSectorLand (lid id : Nat) : Statement (.tugSectorLand lid id) := .inl rfl
theorem tugTableLoad (lid id : Nat) : Statement (.tugTableLoad lid id) := .inl rfl
theorem tugStop (lid id : Nat) (far : Option FarFail) : Statement (.tugStop lid id far) := .inl rfl
theorem launchRecord (q : Nat) (bytes : List Byte) : Statement (.launchRecord q bytes) := .inl rfl
theorem launchPlacement : Statement .launchPlacement := .inl rfl
theorem restorePlacement : Statement .restorePlacement := .inl rfl
theorem doneMessage (q team : Nat) : Statement (.doneMessage q team) := .inl rfl
theorem convergenceWindow (q : Nat) : Statement (.convergenceWindow q) := .inl rfl
theorem sliceExpiry (q : Nat) : Statement (.sliceExpiry q) := .inl rfl
theorem markerArrival (f : Flit) : Statement (.markerArrival f) := .inl rfl
theorem cutStartArrival (q k : Nat) : Statement (.cutStartArrival q k) := .inl rfl
theorem cutComplete (q : Nat) : Statement (.cutComplete q) := .inl rfl
theorem cutCompletionArrival (q k : Nat) : Statement (.cutCompletionArrival q k) := .inl rfl
theorem linkFlitReceive (l : LinkId) (f : FabFlit) : Statement (.linkFlitReceive l f) := .inl rfl
theorem linkAck (l : LinkId) (n : Nat) : Statement (.linkAck l n) := .inl rfl
theorem linkNak (l : LinkId) (n : Nat) : Statement (.linkNak l n) := .inl rfl
theorem ackTimer (l : LinkId) : Statement (.ackTimer l) := .inl rfl
theorem linkAckTimeout (l : LinkId) : Statement (.linkAckTimeout l) := .inl rfl
theorem trainingRound (l : LinkId) (passed partner : Word) (peer : Word) : Statement (.trainingRound l passed partner peer) := .inl rfl
theorem handbackRequest (l : LinkId) (lane : Nat) : Statement (.handbackRequest l lane) := .inl rfl
theorem handbackRefused (l : LinkId) (lane : Nat) : Statement (.handbackRefused l lane) := .inl rfl
theorem laneReturn (l : LinkId) (r : Dir) : Statement (.laneReturn l r) := .inl rfl
theorem laneFail (l : LinkId) (r : Dir) : Statement (.laneFail l r) := .inl rfl
theorem reachWord (p : Nat) (l : LinkId) (w : Word) : Statement (.reachWord p l w) := .inl rfl
theorem routingNotice (p : Nat) (l : LinkId) (inRouting : Bool) (peer : Nat) : Statement (.routingNotice p l inRouting peer) := .inl rfl
theorem packetForward (p : Packet) (held : Nat) : Statement (.packetForward p held) := .inl rfl
theorem fabricTargetRequest (p : Packet) : Statement (.fabricTargetRequest p) := .inl rfl
theorem barrierCompletion (m obj phase : Nat) (pclk : Nat) : Statement (.barrierCompletion m obj phase pclk) := .inl rfl
theorem form (obj src : Nat) (drop : List Nat) : Statement (.form obj src drop) := .inl rfl
theorem prepare (obj leader : Nat) : Statement (.prepare obj leader) := .inl rfl
theorem reformationDeadline (obj : Nat) : Statement (.reformationDeadline obj) := .inl rfl
theorem commit (obj : Nat) (epoch : EpochFrom) (live : List Nat) (colls : List CollDecision) (shards : List ShardReport) :
    Statement (.commit obj epoch live colls shards) := .inl rfl
theorem commitTimeout (obj : Nat) : Statement (.commitTimeout obj) := .inl rfl
theorem formAnswer (obj src epoch : Nat) (live : List Nat) : Statement (.formAnswer obj src epoch live) := .inl rfl
theorem collContribution (c : Contribution) : Statement (.collContribution c) := .inl rfl
theorem collDeadline (obj seq : Nat) : Statement (.collDeadline obj seq) := .inl rfl
theorem collResult (obj epoch seq status : Nat) (data : List Byte) : Statement (.collResult obj epoch seq status data) := .inl rfl
theorem collRelease (obj epoch seq : Nat) : Statement (.collRelease obj epoch seq) := .inl rfl
theorem collHoldTimeout (obj seq : Nat) : Statement (.collHoldTimeout obj seq) := .inl rfl
theorem pnOpenAnswer (model shard : Nat) (m : Option OpenReply) : Statement (.pnOpenAnswer model shard m) := .inl rfl
theorem pnPushRequest (p : PnFrom) (blk step : Nat) (data : List Byte) : Statement (.pnPushRequest p blk step data) := .inl rfl
theorem pnPushAnswer (p : PnFrom) (status : Nat) : Statement (.pnPushAnswer p status) := .inl rfl
theorem updateCallResend (model shard blk : Nat) : Statement (.updateCallResend model shard blk) := .inl rfl
theorem updateTaskEnd (model shard blk step : Nat) : Statement (.updateTaskEnd model shard blk step) := .inl rfl
theorem mirrorStream (model shard blk step epoch : Nat) (master moment : List Byte) (clock : Nat) :
    Statement (.mirrorStream model shard blk step epoch master moment clock) := .inl rfl
theorem mirrorAck (model shard blk step epoch : Nat) : Statement (.mirrorAck model shard blk step epoch) := .inl rfl
theorem freshMulticast (model shard blk tag epoch : Nat) (weights : List Byte) (clock : Nat) :
    Statement (.freshMulticast model shard blk tag epoch weights clock) := .inl rfl
theorem pnCloseRequest (p : PnFrom) (step : Nat) (force : Bool) : Statement (.pnCloseRequest p step force) := .inl rfl
theorem closeSettled (model shard : Nat) : Statement (.closeSettled model shard) := .inl rfl
theorem closeDeadline (model shard : Nat) : Statement (.closeDeadline model shard) := .inl rfl
theorem passedClose (model shard epoch : Nat) (r : CloseRec) : Statement (.passedClose model shard epoch r) := .inl rfl
theorem closeRecordArrival (model shard epoch : Nat) (r : CloseRec) : Statement (.closeRecordArrival model shard epoch r) := .inl rfl
theorem closeAnswer (p : PnFrom) (status missing : Nat) : Statement (.closeAnswer p status missing) := .inl rfl
theorem svcgo : Statement .svcgo := .inl rfl
theorem gimg (image : List Byte) : Statement (.gimg image) := .inl rfl
theorem accept (v : Nat) : Statement (.accept v) := .inl rfl
theorem pcap (q v : Nat) : Statement (.pcap q v) := .inl rfl
theorem stage : Statement .stage := .inl rfl
theorem stageDone (image : Option FwImage) : Statement (.stageDone image) := .inl rfl
theorem activate : Statement .activate := .inl rfl
theorem activation : Statement .activation := .inl rfl
theorem fwDiscard : Statement .fwDiscard := .inl rfl
theorem firmwareBoot : Statement .firmwareBoot := .inl rfl
theorem activationPowerFail : Statement .activationPowerFail := .inl rfl
theorem repairFence (t : Nat) : Statement (.repairFence t) := .inl rfl
theorem unfence (t : Nat) : Statement (.unfence t) := .inl rfl
theorem recal (c : Nat) : Statement (.recal c) := .inl rfl
theorem gate (q : Nat) : Statement (.gate q) := .inl rfl
theorem ungate (q : Nat) : Statement (.ungate q) := .inl rfl
theorem mnumWrite (v : Nat) : Statement (.mnumWrite v) := .inl rfl
theorem spdmRequest (bytes : List Byte) : Statement (.spdmRequest bytes) := .inl rfl
theorem tamperLevel1 : Statement .tamperLevel1 := .inl rfl
theorem tamperLevel2 : Statement .tamperLevel2 := .inl rfl
theorem tamperLevel3 : Statement .tamperLevel3 := .inl rfl
theorem powerThrottle (q w : Nat) : Statement (.powerThrottle q w) := .inl rfl
theorem thermalThrottle (q : Nat) : Statement (.thermalThrottle q) := .inl rfl
theorem thermalTrip : Statement .thermalTrip := .inl rfl
theorem moduleReset : Statement .moduleReset := .inl rfl
theorem attachmentReset : Statement .attachmentReset := .inl rfl
theorem readClear (off size : Nat) : Statement (.readClear off size) := .inl rfl
theorem registerWrite (off size : Nat) (v : Nat) : Statement (.registerWrite off size v) := .inl rfl
theorem unassignedWord (cause tval : Nat) : Statement (.unassignedWord cause tval) := .inl rfl
theorem postedWrite (lid k : Nat) : Statement (.postedWrite lid k) := .inl rfl
theorem softError (p : ErrPlace) (sector : Nat) (corrected : Bool) : Statement (.softError p sector corrected) := .inl rfl
theorem modulePowerLoss : Statement .modulePowerLoss := .inl rfl
theorem prepareAnswer (a : PrepAnswer) : Statement (.prepareAnswer a) := .inl rfl
theorem commitAck (obj rank : Nat) : Statement (.commitAck obj rank) := .inl rfl
theorem resultAck (obj : Nat) (seq : EpochSeq) (rank : Nat) : Statement (.resultAck obj seq rank) := .inl rfl
theorem collQueryAnswer (obj : Nat) (seq : EpochSeq) (rank : Nat) : Statement (.collQueryAnswer obj seq rank) := .inl rfl
theorem closeAck (model shard num epoch : Nat) : Statement (.closeAck model shard num epoch) := .inl rfl
theorem pnOpenRequest (m model shard role epoch : Nat) (dtab : List (Nat × Option Word)) :
    Statement (.pnOpenRequest m model shard role epoch dtab) := .inl rfl
theorem repairCommandDone : Statement .repairCommandDone := .inl rfl

end Sys2Proof.Laws.HasWords
end

