-- ==== Sys2Proof/Tests/Slice0.lean ====
section
/-! SUPPORT. The model's own tests: ill-formed terms that WellFormed refuses, words that the spec writes out, single steps with the
results that the spec's examples and tables give, and for every statement with hypotheses states and operands that meet them. -/

set_option Elab.async false

namespace Sys2Proof.Tests

open Sys2Proof Sys2Proof.Machine

/-! ### States -/

/-- Core 0 of a launch of one team, about to execute an instruction of 2 bytes at 0x300000 in U. -/
def base : State := (State.reset.withFetchWord 16 0).issuing 0 0 0 2

/-- The same in S with INH = 0. -/
def super : State := base.setSlot { base.slot with stat := 1 }

/-- The same in S with INH = 1. -/
def inhibited : State := base.setSlot { base.slot with stat := 3 }

/-- With the executing core as `f` makes it. -/
def withCore (f : Core → Core) : State := base.setMe (f base.me)

/-- With the executing context as `f` makes it. -/
def withSlot (f : Slot → Slot) : State := base.setSlot (f base.slot)

/-- With the groom and module block as `f` makes it. -/
def withDev (f : Device → Device) : State := { base with dev := f base.dev }

/-- With the launch of queue 0 as `f` makes it. -/
def withLaunch (f : Launch → Launch) : State := base.setQueue 0 { base.queue 0 with launch := some (f placedLaunch) }

/-- With flit `f` of the launch in flight. -/
def withFlit (f : Flit) (s : State) : State := { s with flight := [⟨f, none, 0, 0, 0, 0⟩] }

/-- `exec` answers a next state with a property. -/
def after (i : Instr) (s : State) (p : State → Bool) : Bool :=
  match exec i s with
  | .next t => p t
  | _ => false

/-- A state and value that a computation answers without an error, with a property. -/
def okAnd {ε α : Type} (r : State × Except ε α) (p : State → α → Bool) : Bool :=
  match r with
  | (s, .ok a) => p s a
  | _ => false

theorem okAnd_exists {ε α : Type} {r : State × Except ε α} {p : State → α → Bool} (h : okAnd r p = true) :
    ∃ s a, r = (s, .ok a) ∧ p s a = true := by
  obtain ⟨s, _ | a⟩ := r
  · exact absurd h (by simp [okAnd])
  · exact ⟨s, a, rfl, h⟩

/-- A state that a computation answers with an error of a value, with a property. -/
def errAnd {ε α : Type} (r : State × Except ε α) (p : State → ε → Bool) : Bool :=
  match r with
  | (s, .error e) => p s e
  | _ => false

theorem errAnd_exists {ε α : Type} {r : State × Except ε α} {p : State → ε → Bool} (h : errAnd r p = true) :
    ∃ s e, r = (s, .error e) ∧ p s e = true := by
  obtain ⟨s, e | _⟩ := r
  · exact ⟨s, e, rfl, h⟩
  · exact absurd h (by simp [errAnd])

/-- The decoder reads exactly these words as an instruction. -/
def reads (ws : List Nat) (i : Instr) : Bool :=
  match decodeWords ws with
  | .ok (j, []) => decide (j = i)
  | _ => false

/-- Whether no context of a core waits to move it. -/
def stays (c : Core) : Bool := (List.range 4).all fun k => match (c.slot k).wait with
  | some w => (match w.instr with
    | .migr _ => false
    | _ => true)
  | none => true

theorem staying {c : Core} (h : stays c = true) : Staying c := by
  intro k hk w hw d hd
  have := List.all_eq_true.1 h k (List.mem_range.2 hk)
  simp [hw, hd] at this

theorem clocked {s : State} (h : (s.flight.all fun y => (s.core y.flit.src).pts - s.base < 2 ^ 32) = true) : Clocked s := fun y hy =>
  of_decide_eq_true (List.all_eq_true.1 h y hy)

/-! ### Ill-formed terms -/

theorem test_refuses_event : (Instr.goldenEpoch).flaws = [.event] := by decide
theorem test_refuses_register : (Instr.add 0 128 (some 0)).flaws = [.register] := by decide
theorem test_refuses_address : (Instr.jr 8).flaws = [.address] := by decide
theorem test_refuses_pair : (Instr.gcomb 1 4).flaws = [.pair] := by decide
theorem test_refuses_quad : (Instr.qbcast 32 0).flaws = [.quad] := by decide
theorem test_refuses_handle : (Instr.hbind 0 16).flaws = [.handle] := by decide
theorem test_refuses_two_address : (Instr.add 16 0 none).flaws = [.twoAddress] := by decide
theorem test_refuses_immediate : (Instr.beq 0 1 512).flaws = [.immediate] := by decide
theorem test_refuses_code : (Instr.pri 4).flaws = [.code] := by decide

/-! ### Decoding the spec's words (R59, and the examples beside the tables of each chapter) -/

theorem test_decode_core : reads [0xF004, 0x4E00] (.li 8 0x100) = true ∧
    reads [0xF00D, 0xF180, 0xF000, 0x4D80] (.li 6 0x35800000) = true ∧
    reads [0xF485, 0xF402, 0x050C] (.add 20 3 (some 37)) = true ∧ reads [0xF011, 0x3100] (.mfs 0 4 0x11) = true := by decide +kernel

theorem test_decode_control : reads [0xF01A, 0x7D5B] (.bge 5 6 26) = true ∧ reads [0x7005] (.j 5) = true ∧
    reads [0x8E7B] (.loop 9 (-5)) = true := by decide +kernel

theorem test_decode_pool : reads [0xF006, 0x949D] (.ldpBS 1 2 7 6) = true ∧ reads [0xA943] (.hcnt 5 0) = true := by decide +kernel

theorem test_decode_float : reads [0xF801, 0xF405, 0x18D0] (.fma .ne 3 4 5) = true := by decide +kernel

theorem test_decode_quad : reads [0xF801, 0x8048] (.qadd .ne 1 2 none) = true ∧
    reads [0xF801, 0xF007, 0xA894] (.qdec 2 5 7) = true ∧ reads [0xF801, 0xB098] (.qscl .ne 2 6) = true ∧
    reads [0xF801, 0xF007, 0xADC8] (.qenc 7 2 7) = true := by decide +kernel

theorem test_decode_message : reads [0xF802, 0x05C2] (.msg 7 2) = true ∧ reads [0xF802, 0x0B01] (.callm 12 1) = true := by decide +kernel

theorem test_decode_gaussian : reads [0xF802, 0x2C10] (.gcomb 0 4) = true ∧ reads [0xF802, 0x2C13] (.glin 0 4) = true ∧
    reads [0xF802, 0x3192] (.gresd 6 4) = true ∧ reads [0xF802, 0x3110] (.gmean 4 4) = true := by decide +kernel

theorem test_decode_task : reads [0xF802, 0x1909] (.spawn 4 2 1) = true ∧ reads [0xF802, 0x1C0E] (.task 3 2) = true ∧
    reads [0xF802, 0x2001] (.exit) = true ∧ reads [0xF802, 0x21C2] (.waite 7) = true ∧
    reads [0xF802, 0x2402] (.pri 2) = true ∧ reads [0xF802, 0x2984] (.node 6 1) = true ∧
    reads [0xF802, 0x2941] (.sig 5) = true := by decide +kernel

theorem test_decode_global : reads [0xF803, 0x0682] (.ldg 2 10 0 0) = true ∧
    reads [0xF803, 0xF004, 0x0D46] (.stg 2 5 1 4) = true ∧ reads [0xF803, 0x1610] (.ldgtW 8 4 0) = true ∧
    reads [0xF803, 0x2908] (.amadd false 4 2 0) = true ∧ reads [0xF803, 0x4D08] (.amcas false 4 2 0) = true ∧
    reads [0xF803, 0xF407, 0xF008, 0x4916] (.amswpRemote false 4 5 7 8) = true := by decide +kernel

theorem test_decode_engines : reads [0xF803, 0x5401] (.ylease 1) = true ∧ reads [0xF803, 0x6519] (.ymmaRa 4 6) = true ∧
    reads [0xF803, 0x6914] (.yst 4 5) = true ∧ reads [0xF803, 0x7010] (.kset 4) = true := by decide +kernel

theorem test_decode_objects : reads [0xF803, 0x7D04] (.bjoin 4 1) = true ∧ reads [0xF803, 0x850D] (.gform 4 3) = true ∧
    reads [0xF803, 0x8B51] (.pnpush 13 4) = true ∧ reads [0xF803, 0x8DC0] (.pnstat 7 0) = true := by decide +kernel

theorem test_decode_system : reads [0xF804, 0x0405] (.trap 5) = true ∧ reads [0xF804, 0x0C00] (.rett) = true ∧
    reads [0xF804, 0x1004] (.tlbinv 0 1) = true ∧ reads [0xF804, 0x1517] (.fwdset 4 5) = true ∧
    reads [0xF804, 0x1C48] (.lretr 1 2) = true ∧ reads [0xF804, 0x1D1D] (.lstat 4 7) = true := by decide +kernel

/-- The sequences that R59's second table calls illegal. -/
theorem test_decode_illegal : ∀ ws ∈ [[0xF004, 0xF004, 0xF004, 0xF004, 0xF004], [0xF004, 0xF803, 0x0D46], [0xF805, 0x0400], [0xF000, 0x0400],
    [0x7D5B], [0x0000]], (decodeWords ws).toOption = none := by decide +kernel

/-! ### A step of the whole machine -/

/-- `add g20, g3, g37` needs G ≥ 64; here `li g6, 5` (RI 0x13: 0x4C00 + (6 << 6) + 5) runs as the first instruction. -/
theorem test_step_li : (match step (State.reset.withFetchWord 16 0x4D85) with
    | .next t => (t.core 0).pts == 0 && Map.get 0 ((t.core 0).slot 0).regs 6 == 5 && ((t.core 0).slot 0).pc == 0x300002
    | _ => false) = true := by decide +kernel

/-- A zeroed word traps ILLEGAL (R59, R62) with TVAL 0. -/
theorem test_step_zero_word : (match step (State.reset.withFetchWord 16 0) with
    | .next t => ((t.core 0).slot 0).tcause == 1 && ((t.core 0).slot 0).tepc == 0x300000 && ((t.core 0).slot 0).stat == 3
    | _ => false) = true := by decide +kernel

/-! ### Integer, immediate and address forms (R80 to R87) -/

theorem witness_IntegerForms : base.next ≠ END ∧ base.g 3 = (none : Option Nat).elim (base.g 3) (fun _ => base.g 1) := by decide

theorem test_add_wraps : after (.add 3 1 none) ((base.wr 3 0xFFFFFFFF).wr 1 7) (fun t => t.g 3 == 6 && t.g 1 == 7) = true := by decide
theorem test_sub_operands : after (.sub 3 4 (some 5)) ((base.wr 4 5).wr 5 7) (fun t => t.g 3 == 0xFFFFFFFE) = true := by decide
/-- R81: only bits [4:0] of a shift amount are used; `shl g1, g2` with g2 = 33 shifts by 1. -/
theorem test_shl_33 : after (.shl 1 2 none) ((base.wr 1 3).wr 2 33) (fun t => t.g 1 == 6) = true := by decide
theorem test_mulh_signed : after (.mulh 1 2 none) ((base.wr 1 0xFFFFFFFF).wr 2 2) (fun t => t.g 1 == 0xFFFFFFFF) = true := by decide
theorem test_sra_floor : after (.sra 1 2 none) ((base.wr 1 0xFFFFFFFD).wr 2 1) (fun t => t.g 1 == 0xFFFFFFFE) = true := by decide
/-- R82's table. -/
theorem test_div : after (.div 1 2 none) ((base.wr 1 7).wr 2 0xFFFFFFFE) (fun t => t.g 1 == 0xFFFFFFFD) = true := by decide
theorem test_rem : after (.rem 1 2 none) ((base.wr 1 0xFFFFFFF9).wr 2 2) (fun t => t.g 1 == 0xFFFFFFFF) = true := by decide
theorem test_div_overflow : after (.div 1 2 none) ((base.wr 1 0x80000000).wr 2 0xFFFFFFFF) (fun t => t.g 1 == 0x80000000) = true := by
  decide
theorem test_remz_zero : after (.remz 1 2 none) (base.wr 1 9) (fun t => t.g 1 == 9) = true := by decide
/-- R83: `sats.b` of 300 gives 127 and of −300 gives 0xFFFF_FF80; `satz.b` of −5 gives 0. -/
theorem test_sats_b : after (.satsB 1 2) (base.wr 2 300) (fun t => t.g 1 == 127) = true ∧
    after (.satsB 1 2) (base.wr 2 0xFFFFFED4) (fun t => t.g 1 == 0xFFFFFF80) = true := by decide
theorem test_satz_b : after (.satzB 1 2) ((base.wr 1 9).wr 2 0xFFFFFFFB) (fun t => t.g 1 == 0) = true := by decide
theorem test_clz_zero : after (.clz 1 2) base (fun t => t.g 1 == 32) = true := by decide
theorem test_slti_width : after (.slti 1 0x1FFFFFFFF) base (fun t => t.g 1 == 1) = true := by decide
theorem test_aadd_signed : after (.aadd 1 2) ((base.wra 1 4).wr 2 0xFFFFFFFF) (fun t => t.a 1 == 3) = true := by decide
theorem test_aget_hi : after (.agetHi 1 2) (base.wra 2 0x123456789ABCDEF0) (fun t => t.g 1 == 0x12345678) = true := by decide

/-! ### Jumps and branches (R88 to R90) -/

/-- Targets that are even, odd and END, and a return address. -/
def jumps : State := ((base.wra 1 0x300200).wra 2 0x300201).wra 7 0x300100

theorem witness_ControlFlow : base.next ≠ END ∧ w64 (base.issue.start.toNat + 2 * (-512 : Int)) ≠ END ∧ (jumps.a 1).toNat % 2 = 0 ∧
    jumps.a 1 ≠ END ∧ (jumps.a 2).toNat % 2 = 1 ∧ (jumps.a 7).toNat % 2 = 0 ∧ jumps.a 7 ≠ END ∧
    ((jumps.wra 7 0x300001).a 7).toNat % 2 = 1 := by decide

theorem test_callr_link_first : after (.callr 7) jumps (fun t => t.slot.pc == 0x300100 && t.a 7 == 0x300002) = true := by decide
theorem test_jr_odd : after (.jr 2) jumps (fun t => t.slot.tcause == 3 && t.slot.tval == 0x300201 && t.slot.tepc == 0x300000) = true := by
  decide
theorem test_loop_last : after (.loop 9 (-5)) (base.wr 9 1) (fun t => t.g 9 == 0 && t.slot.pc == 0x300002) = true := by decide
theorem test_loop_again : after (.loop 9 (-5)) (base.wr 9 2) (fun t => t.g 9 == 1 && t.slot.pc == 0x2FFFF6) = true := by decide
theorem test_bltz_unsigned : after (.bltz 1 2 4) ((base.wr 1 1).wr 2 0xFFFFFFFF) (fun t => t.slot.pc == 0x300008) = true := by decide

/-! ### The pool and the handles (R91 to R103) -/

/-- Bytes 0x8A and 0x31 at 0x1000, whose word is full. -/
def pooled : State := withCore fun c => { c with pool := [(0x1000, 0x8A), (0x1001, 0x31)], full := [(0x400, true)] }

/-- A count for `sete`, and offsets at the end of the pool. -/
def lastWords : State := (base.wr 1 0x5FF8).wr 2 2

theorem witness_PoolForms : base.next ≠ END ∧ (2 : Nat) ≤ 2 ∧ (1 : Nat) ≤ 1 ∧ Map.get false pooled.me.full (0x1000 / 4) = true ∧
    Map.get false pooled.me.full (0x1004 / 4) = false := by decide
theorem witness_PoolForms_sete : ((0x5FF8 : Nat) : Int) = Z (lastWords.g 1) + 0 ∧ 0x5FF8 % 4 = 0 ∧ hndEnd lastWords.me.part ≤ 0x5FF8 ∧
    0x5FF8 + 4 * max (Z (lastWords.g 2)) 1 ≤ 0x6000 := by decide

theorem test_ldp_b_s : after (.ldpBS 0 2 1 0) (pooled.wr 1 0x1000) (fun t => t.g 2 == 0xFFFFFF8A) = true := by decide
theorem test_ldp_h_order : after (.ldp 1 2 1 (-2)) (pooled.wr 1 0x1002) (fun t => t.g 2 == 0x318A) = true := by decide
theorem test_stp_keeps_full : after (.stp 0 2 1 1) ((pooled.wr 1 0x1000).wr 2 0xABCD) (fun t =>
    t.me.pool == [(0x1000, 0x8A), (0x1001, 0xCD)] && t.me.full == [(0x400, true)]) = true := by decide
theorem test_stpf_fills : after (.stpf 2 1 4) ((pooled.wr 1 0x1000).wr 2 7) (fun t =>
    t.me.full == [(0x400, true), (0x401, true)] && Map.get 0 t.me.pool 0x1004 == 7) = true := by decide
theorem test_ldps_waits : after (.ldps 2 1 4) (pooled.wr 1 0x1000) (fun t => t.slot.wait.isSome && t.slot.pc == 0x300000) = true := by decide
theorem test_sete_clears : after (.sete 2 1 0) ((pooled.wr 1 0x1000).wr 2 1) (fun t => t.me.full == []) = true := by decide
/-- HND ends at 0x900 in this partition (R76): a store below it traps POOLRANGE. -/
theorem test_stp_in_hnd : after (.stp 2 2 1 0) (base.wr 1 0x8FC) (fun t => t.slot.tcause == 4 && t.slot.tval == 0x8FC) = true := by decide
theorem test_stp_after_hnd : after (.stp 2 2 1 0) ((base.wr 1 0x900).wr 2 1) (fun t => t.me.pool == [(0x900, 1)]) = true := by decide

/-- Handle 1 is a ring of four words at 0x2000 with these counts; handle 2 is a mailbox of four entries at 0x0E00. -/
def ring (head pub rsv : Word) : State :=
  withCore fun c => { c with handles := [(1, ⟨true, false, 0, 0x2000, 2, head, pub, rsv⟩), (2, ⟨true, true, 3, 0xE00, 2, 0, 0, 0⟩)] }

theorem witness_HandleForms : (ring 0 0 0).next ≠ END ∧ ((ring 0 0 0).me.handle 1).bnd = true ∧ ((ring 0 0 0).me.handle 1).mbx = false ∧
    countDiff ((ring 0 3 3).me.handle 1).rsv ((ring 0 3 3).me.handle 1).head < 2 ^ 2 ∧
    2 ^ 2 ≤ countDiff ((ring 0 4 4).me.handle 1).rsv ((ring 0 4 4).me.handle 1).head ∧
    countDiff ((ring 0 1 1).me.handle 1).pub ((ring 0 1 1).me.handle 1).head ≠ 0 ∧
    countDiff ((ring 0 0 1).me.handle 1).pub ((ring 0 0 1).me.handle 1).head = 0 ∧
    ((ring 0 0 0).me.handle 3).bnd = false ∧ ((ring 0 0 0).me.handle 2).mbx = true := by decide

theorem test_hbind : after (.hbind 3 1) (base.wr 3 0x00022000) (fun t => t.me.handle 1 == ⟨true, false, 0, 0x2000, 2, 0, 0, 0⟩) = true := by
  decide
theorem test_hst_publishes : after (.hst 3 1) ((ring 0 0 1).wr 3 5) (fun t =>
    (t.me.handle 1).pub == 2 && (t.me.handle 1).rsv == 2 && t.me.pool == [(0x2004, 5)]) = true := by decide
theorem test_hadv_full : after (.hadv 3 1) (ring 0 4 4) (fun t => t.g 3 == 0xFFFFFFFF && (t.me.handle 1).rsv == 4) = true := by decide
theorem test_hfree_limits : after (.hfree 3 1) ((ring 0 2 3).wr 3 5) (fun t => t.g 3 == 2 && (t.me.handle 1).head == 2) = true := by decide
theorem test_hpub_mailbox : after (.hpub 3 2) (ring 0 0 0) (fun t => t.slot.tcause == 6 && t.slot.tval == 2) = true := by decide

/-! ### Floating point (R105 to R114, R249 to R254) -/

theorem witness_ScalarFloat : base.next ≠ END ∧ base.issue.slot < 4 ∧ Z 0x7F800001#32 % 2 ^ 31 > 0x7F800000 ∧
    Z 0x7F7FFFFF#32 % 2 ^ 31 < 0x7F800000 ∧ Z 0x80000001#32 % 2 ^ 31 ≠ 0 := by decide
theorem witness_FloatConversionForms : (fval 0xFFFFFFFF#32).isNan = true ∧ 0x4F800000 ≤ Z 0x7F800000#32 ∧ Z 0x7F800000#32 ≤ 0x7F800000 ∧
    0xCF800000 ≤ Z 0xCF800000#32 ∧ Z 0xCF800000#32 ≤ 0xFF800000 ∧ (fval (0x7F80#32 <<< 16)).isNan = false := by decide +kernel
theorem witness_QuadForms : base.next ≠ END ∧ base.issue.slot < 4 ∧ (5 : Nat) ≤ 5 ∧ packedWide 7 = false ∧ packedWide 1 = true := by decide

/-- 1 + 2^-24 is a tie and rounds to 1 with NX; toward +∞ it is the next word (R36). -/
theorem test_fadd_tie : after (.fadd .ne 1 2 none) ((base.wr 1 0x3F800000).wr 2 0x33800000) (fun t =>
    t.g 1 == 0x3F800000 && t.slot.fst == 1) = true ∧
    after (.fadd .ru 1 2 none) ((base.wr 1 0x3F800000).wr 2 0x33800000) (fun t => t.g 1 == 0x3F800001) = true := by decide +kernel
/-- R107: a product of 0 and ∞ sets NV and gives NaN, even when gd is a quiet NaN. -/
theorem test_fma_invalid : after (.fma .ne 3 4 5) (((base.wr 3 0x7FC00001).wr 4 0).wr 5 0x7F800000) (fun t =>
    t.g 3 == 0x7FC00000 && t.slot.fst == 16) = true := by decide +kernel
theorem test_fmin_zeros : after (.fmin 1 2 none) (base.wr 2 0x80000000) (fun t => t.g 1 == 0x80000000 && t.slot.fst == 0) = true := by
  decide +kernel
/-- R113: `fcvth.bf16` of 0x3F80_8000 is a tie and gives 0x3F80 with NX, 0x3F81_8000 gives 0x3F82. -/
theorem test_fcvth_bf16 : after (.fcvthBf16 .ne 1 2) (base.wr 2 0x3F808000) (fun t => t.g 1 == 0x3F80 && t.slot.fst == 1) = true ∧
    after (.fcvthBf16 .ne 1 2) (base.wr 2 0x3F818000) (fun t => t.g 1 == 0x3F82) = true := by decide +kernel
/-- R114: 2.5 gives 2.0 with NX, and `frnd.ru` of 2.5 gives 3.0; −0.25 gives −0. -/
theorem test_frnd : after (.frnd .ne 1 2) (base.wr 2 0x40200000) (fun t => t.g 1 == 0x40000000 && t.slot.fst == 1) = true ∧
    after (.frnd .ru 1 2) (base.wr 2 0x40200000) (fun t => t.g 1 == 0x40400000) = true ∧
    after (.frnd .ne 1 2) (base.wr 2 0xBE800000) (fun t => t.g 1 == 0x80000000) = true := by decide +kernel
theorem test_fcvti_bound : after (.fcvtiS .ne 1 2) (base.wr 2 0x4F000000) (fun t => t.g 1 == 0x7FFFFFFF && t.slot.fst == 16) = true := by
  decide +kernel

/-- R254's example: 0x8A31 as g4a is 0.5, 1.5, −1 and NaN. -/
theorem test_qdec : after (.qdec 2 5 7) (base.wr 5 0x8A31) (fun t =>
    t.g 8 == 0x3F000000 && t.g 9 == 0x3FC00000 && t.g 10 == 0xBF800000 && t.g 11 == 0x7FC00000) = true := by decide +kernel
/-- The lanes of the example after the `qscl` by 3, as the example gives them. -/
def scaled : State := (((base.wr 8 0x40800000).wr 9 0x41400000).wr 10 0xC1000000).wr 11 0x7FC00000
theorem test_qscl : after (.qscl .ne 2 6) (((((base.wr 8 0x3F000000).wr 9 0x3FC00000).wr 10 0xBF800000).wr 11 0x7FC00000).wr 6 3) (fun t =>
    [t.g 8, t.g 9, t.g 10, t.g 11] == [scaled.g 8, scaled.g 9, scaled.g 10, scaled.g 11]) = true := by decide +kernel
theorem test_qenc : after (.qenc 7 2 7) scaled (fun t => t.g 7 == 0x8F76 && t.slot.fst == 5) = true := by decide +kernel
/-- `qdot` of (1, 2^-12, 2^-12, 0) with itself gives 0x3F80_0001 (R251). -/
theorem test_qdot : after (.qdot .ne 0 1 none) (((base.wr 4 0x3F800000).wr 5 0x39800000).wr 6 0x39800000) (fun t =>
    t.g 0 == 0x3F800001) = true := by decide +kernel

/-! ### Special registers (R69 to R71) -/

theorem witness_SpecialRegisterForms : base.next ≠ END ∧ base.issue.lid < 2 ^ 32 ∧ statMode super.slot.stat = 1 ∧
    statMode base.slot.stat = 0 := by decide

theorem test_mfs_priv : after (.mfs 0 4 1) base (fun t => t.slot.tcause == 2) = true := by decide
theorem test_mts_half : after (.mts 1 4 0x040) ((withSlot fun x => { x with ksrc := 5 }).wr 4 7) (fun t => t.slot.ksrc == 0x700000005) = true := by
  decide
theorem test_mts_read_only : after (.mts 0 4 0x011) (base.wr 4 7) (fun t => t.me == ((base.wr 4 7).finish base.next).me) = true := by decide +kernel

/-! ### Messages (R115 to R131) -/

/-- A data flit to mailbox 1 of core 0, a call of entry 0, a clause, and a bounce of a data flit. -/
def dataFlit : Flit := ⟨0, 0, .data, 1, 0, 1, 5, 77, 0, 0, 0, 0⟩
def callFlit : Flit := ⟨0, 9, .call, 2, 0, 0, 5, 1, 2, 3, 4, 0⟩
def clauseFlit : Flit := ⟨0, 9, .clause, 2, 0, 1, 5, 0x2000, 0, 0, 0, 0⟩
def bounceFlit : Flit := ⟨0, 9, .bounce, 1, 2, 3, 1, 77, 0, 0, 0, 0⟩

/-- Mailbox 1 of four entries at 0x0200 would lie in HND here, so it stands at 0x0E00; `n` flits are in it. -/
def boxed (n : Word) : State := withCore fun c => { c with handles := [(1, ⟨true, true, 3, 0xE00, 2, 0, n, n⟩)], bmbx := some 1 }

/-- The same mailbox where it is no bounce mailbox. -/
def inbox (n : Word) : State := (boxed n).setMe { (boxed n).me with bmbx := none }

/-- A core that records a cut and sends nothing counted. -/
def holding : State := withCore fun c => { c with cut := { c.cut with holding := true } }

/-- A context whose request entries are all taken. -/
def unasking : State := withSlot fun x => { x with entries := (List.range 16).map fun e => (e, some ⟨.node, 0, 0⟩) }

theorem witness_MessageForms : base.next ≠ END ∧ PortFree base base.issue.lid true ∧ ¬PortFree holding holding.issue.lid true ∧
    Z (base.g 4) % 2 ^ 20 + Z (base.g 4) / 2 ^ 20 < 2 ^ 20 ∧
    2 ^ 20 ≤ Z ((base.wr 4 0xFFFFFFFF).g 4) % 2 ^ 20 + Z ((base.wr 4 0xFFFFFFFF).g 4) / 2 ^ 20 ∧ base.issue.lid < 2 ^ 20 ∧
    0x200001 / 2 ^ 21 % 8 ≠ 2 ∧ 0x400001 / 2 ^ 21 % 8 = 2 ∧ 0x400001 / 2 ^ 16 % 8 = 0 ∧ FreeEntry base.slot 0 ∧ 3 ≤ 0x600001 / 2 ^ 21 % 8 ∧
    0x40000B % 2 ^ 16 = 11 ∧ (∀ e, e < 16 → Map.get none unasking.slot.entries e ≠ none) := by unfold PortFree FreeEntry; decide
theorem witness_MessageForms_clause : (base.wr 4 0x1000).next ≠ END ∧ Z ((base.wr 4 0x5FFE).g 4) % 2 = 0 ∧
    hndEnd base.me.part ≤ Z ((base.wr 4 0x5FFE).g 4) ∧ Z ((base.wr 4 0x5FFE).g 4) + 2 * 1 ≤ 0x6000 ∧ 1 ≤ 10 ∧ FreeEntry base.slot 0 ∧
    Z ((base.wr 4 0x1001).g 4) % 2 ≠ 0 ∧ Z ((base.wr 4 0x10).g 4) < hndEnd base.me.part ∧ 0x6000 < Z ((base.wr 4 0x5FFE).g 4) + 2 * 2 := by
  unfold FreeEntry; decide

/-- R118's table row for `msg`: the flit of `msg g6, 1` with SD0 = 77 to core 0x920. -/
theorem test_msg : after (.msg 6 1) (((withSlot fun x => { x with sd := [(0, 77)], stat := 8 }).wr 6 0x920)) (fun t =>
    t.flight.map (fun x => (x.flit.dst, x.flit.src, x.flit.pri, x.flit.ksf, x.flit.w0)) == [(0x920, 0, 1, 1, 77)] && t.me.csent == 1) = true := by
  decide
theorem test_mbind : after (.mbind 4 1) (base.wr 4 0x03020E00) (fun t => t.me.handle 1 == ⟨true, true, 3, 0xE00, 2, 0, 0, 0⟩) = true := by decide

theorem witness_MeshTraffic_fates : 8 * base.dev.tcnt ≤ 8 * base.dev.tcnt ∧ 9 < 8 * base.dev.tcnt ∧ (base.core 9).queue = none ∧
    (base.core 0).queue = some 0 ∧ (base.core 0).uid = 0 ∧ (0 : Nat) ≠ 1 ∧ (base.core 0).exited = false ∧ (base.core 0).swapped = false ∧
    (base.core 0).forward = none ∧ ((withCore fun c => { c with exited := true }).core 0).exited = true ∧
    ((withCore fun c => { c with swapped := true }).core 0).swapped = true ∧
    ((withCore fun c => { c with forward := some 8 }).core 0).forward = some 8 := by decide +kernel

theorem witness_MeshTraffic_bounce : (withFlit bounceFlit (boxed 4)).inFlight bounceFlit = some ⟨bounceFlit, none, 0, 0, 0, 0⟩ ∧
    (withFlit bounceFlit (boxed 4)).fate 0 0 = .here ∧ (((withFlit bounceFlit (boxed 4)).core 9).pts - (boxed 4).base < 2 ^ 32) ∧ bits (Z bounceFlit.low) 16 3 < 2 ∧ base.me.bmbx = none ∧
    (boxed 4).me.bmbx = some 1 ∧ (boxed 4).me.mailboxRow 1 = some 4 ∧ (boxed 3).me.mailboxRow 1 = none := by decide +kernel
theorem witness_MeshTraffic_take : base.me.inboxes = [] ∧ (inbox 0).me.inboxes = [] ++ 1 :: [] ∧
    (∀ h ∈ (inbox 0).me.inboxes, countDiff ((inbox 0).me.handle h).pub ((inbox 0).me.handle h).head = 0) ∧
    countDiff ((inbox 1).me.handle 1).pub ((inbox 1).me.handle 1).head ≠ 0 := by decide

/-- R125's example: the receiver takes the flit with W0 = 77, and RVH holds DST and KSF. -/
theorem test_rvh : after (.mfs 2 2 0x02D) (inbox 1 |>.setMe { (inbox 1).me with pool := Map.setList 0 [] 0xE00 dataFlit.bytes }) (fun t =>
    Map.get 0 t.slot.rv 0 == 77 && t.a 2 == u64 dataFlit.header && (t.me.handle 1).head == 1) = true := by decide +kernel

theorem witness_Deliveries : (withFlit dataFlit (boxed 3)).inFlight dataFlit = some ⟨dataFlit, none, 0, 0, 0, 0⟩ ∧
    (withFlit dataFlit (boxed 3)).fate 0 0 = .here ∧ ((withFlit dataFlit (boxed 3)).core 0).cut.holding = false ∧
    (withFlit callFlit base).inFlight callFlit = some ⟨callFlit, none, 0, 0, 0, 0⟩ ∧ (withFlit callFlit base).fate 0 0 = .here ∧
    (withFlit callFlit base).handler 0 0 = none ∧ (withFlit callFlit (withLaunch fun la => { la with htab := [0x300100] })).handler 0 0 = some 0x300100 ∧
    (withFlit clauseFlit base).inFlight clauseFlit = some ⟨clauseFlit, none, 0, 0, 0, 0⟩ ∧
    (withFlit dataFlit (withCore fun c => { c with exited := true })).fate 0 0 = .bounce 2 := by decide +kernel

/-- Core 0 waits in slot 1 to move. -/
def moving : State := withFlit dataFlit ((boxed 3).setMe ((boxed 3).me.setSlot 1
  { Slot.empty with st := .ready, wait := some ⟨true, true, .migr 4, 0x300000, 4, 0, false, 0, []⟩ }))
theorem witness_Deliveries_staying : Staying ((withFlit dataFlit (boxed 3)).core 0) ∧ Staying ((withFlit callFlit base).core 0) ∧
    Staying ((withFlit dataFlit (withCore fun c => { c with exited := true })).core 0) ∧
    Staying ((withFlit clauseFlit base).core 0) ∧ ¬Staying (moving.core 0) ∧ moving.inFlight dataFlit = some ⟨dataFlit, none, 0, 0, 0, 0⟩ ∧
    (moving.core 0).cut.holding = false ∧ Clocked moving ∧ Clocked (withFlit dataFlit (boxed 3)) ∧ Clocked (withFlit callFlit base) ∧
    Clocked (withFlit clauseFlit base) ∧ Clocked (withFlit bounceFlit (boxed 4)) :=
  ⟨staying (by decide), staying (by decide), staying (by decide), staying (by decide), fun h => h 1 (by decide) _ rfl 4 rfl, by decide, by decide,
    clocked (by decide), clocked (by decide), clocked (by decide), clocked (by decide), clocked (by decide)⟩
theorem test_data_delivery : (match execDataDelivery dataFlit (withFlit dataFlit (boxed 3)) with
    | .next t => (t.core 0).crecv == 1 && (t.core 0).pts == 5 && Map.get 0 (t.core 0).pool (0xE60 + 12) == 77 && t.flight == []
    | _ => false) = true := by decide +kernel
theorem test_data_bounce : (match execDataDelivery dataFlit (withFlit dataFlit (boxed 4)) with
    | .next t => (t.core 0).crecv == 0 && t.flight.map (fun x => (x.flit.ksf, x.flit.cls, x.flit.low)) == [(4, 2, 1)]
    | _ => false) = true := by decide +kernel

/-! ### Tasks, events and nodes (R155 to R172) -/

/-- A run queue with `n` entries of level 0. -/
def queued (n : Nat) : State := withCore fun c => { c with runq := List.replicate n ⟨.spawn, 0, 0x300100, [], none, 0, 0, 0⟩ }

/-- A spawn request and the answer to one. -/
def spawnFlit : Flit := ⟨0, 9, .system, 2, 0, 0x102, 5, 0x40, 1, 2, 3, 4⟩
def spawnedFlit : Flit := ⟨0, 9, .system, 2, 1, 0x102, 5, 0, 0, 0, 0, 0⟩

/-- A waiting `spawn` in slot 0, with the answer to it in flight. -/
def spawning : State := withFlit spawnedFlit (base.setSlot { base.slot with wait := some ⟨false, true, .spawn 4 2 1, 0x300000, 4, 0, false, 0, []⟩ })

theorem witness_Spawning : base.next ≠ END ∧ ((base.wra 2 0x300101).a 2).toNat % 2 = 1 ∧ ((base.wra 2 0x300100).a 2).toNat % 2 = 0 ∧
    (queued 63).me.runq.length < 64 ∧ 64 ≤ (queued 64).me.runq.length ∧ (0x300100 : DWord) ≠ END ∧
    ((0x2FFFFE : Nat) : Int) - base.image.toNat < 0 ∧ 2 ^ 32 ≤ ((0x100300000 : Nat) : Int) - base.image.toNat ∧
    0 ≤ ((0x300000 : Nat) : Int) - base.image.toNat ∧ Z (base.g 4) % 2 ^ 20 = base.issue.lid ∧
    Z ((base.wr 4 9).g 4) % 2 ^ 20 ≠ base.issue.lid := by decide +kernel
theorem witness_Spawning_request : PortFree base base.issue.lid true ∧ spawnFlit.ksf / 256 = 1 ∧
    (withFlit spawnFlit base).inFlight spawnFlit = some ⟨spawnFlit, none, 0, 0, 0, 0⟩ ∧ (withFlit spawnFlit base).fate 0 0 = .here ∧
    spawning.inFlight spawnedFlit = some ⟨spawnedFlit, none, 0, 0, 0, 0⟩ ∧
    (spawning.slotAt 0 (0 / 16)).wait = some ⟨false, true, .spawn 4 2 1, 0x300000, 4, 0, false, 0, []⟩ ∧ spawnedFlit.w0 = 0 ∧
    (0x300000 : DWord) + u64 4 ≠ END := by unfold PortFree; decide +kernel

/-- The same refused with QFULL. -/
def refusedFlit : Flit := { spawnedFlit with w0 := 6 }
def refusedSpawn : State := (withFlit refusedFlit spawning).wra 2 0x300100
theorem witness_Spawning_reply : Staying ((withFlit spawnFlit base).core 0) ∧ ((withFlit spawnFlit base).core 0).cut.holding = false ∧
    (∀ q, spawning.fate 0 0 ≠ .spill q) ∧ (∀ q, refusedSpawn.fate 0 0 ≠ .spill q) ∧
    refusedSpawn.inFlight refusedFlit = some ⟨refusedFlit, none, 0, 0, 0, 0⟩ ∧ refusedFlit.w0 ≠ 0 ∧
    (refusedSpawn.slotAt 0 (0 / 16)).wait = some ⟨false, true, .spawn 4 2 1, 0x300000, 4, 0, false, 0, []⟩ ∧
    Map.get 0 (refusedSpawn.slotAt 0 0).aregs 2 ≠ END ∧ Clocked spawning ∧ Clocked refusedSpawn ∧ Clocked (withFlit spawnFlit base) ∧
    ((withFlit spawnFlit base).core 0).pts - base.base < 2 ^ 32 :=
  ⟨staying (by decide), by decide, fun q h => Fate.noConfusion (h.symm.trans (by decide : spawning.fate 0 0 = .here)),
    fun q h => Fate.noConfusion (h.symm.trans (by decide : refusedSpawn.fate 0 0 = .here)), by decide, by decide, by decide, by decide,
    clocked (by decide), clocked (by decide), clocked (by decide), by decide⟩

theorem test_spawn_queue_full : after (.spawn 4 2 1) ((queued 64).wra 2 0x300100) (fun t =>
    t.g 4 == 6 && t.slot.pc == 0x300100 && t.slot.stat == 4 && t.me.runq.length == 64) = true := by decide +kernel
theorem test_task_queues : after (.task 3 2) ((queued 1).wra 3 0x300100) (fun t =>
    t.me.runq.map (fun e => (e.level, e.start)) == [(0, 0x300100), (2, 0x300100)] && t.slot.stat == 0) = true := by decide +kernel

theorem notUpdate (s : State) (k : Nat) (h : (s.me.slot k).task = some ⟨.entry, 0⟩ ∨ (s.me.slot k).task = none) :
    ∀ o, (s.me.slot k).task = some o → ∀ m a b e, o.origin ≠ .update m a b e := by
  intro o ho m a b e hu
  rcases h with h | h
  · rw [h] at ho; cases ho; cases hu
  · rw [h] at ho; cases ho

theorem witness_TaskAndCoreEnd : base.issue.slot < 4 ∧ (∀ o, base.slot.task = some o → ∀ m k b e, o.origin ≠ .update m k b e) ∧
    base.a 7 = END ∧ (base.wra 1 END).a 1 = END ∧ base.slot.task = some ⟨.entry, 0⟩ :=
  ⟨by decide, notUpdate base 0 (by decide), by decide, by decide, by decide⟩
theorem witness_TaskAndCoreEnd_exit : (∀ k, k < 4 → ∀ o, (base.me.slot k).task = some o → ∀ m h b e, o.origin ≠ .update m h b e) ∧
    base.slot.st = .ready ∧ base.coreSettled base.issue.lid = true ∧
    (withSlot fun x => { x with sbuf := [⟨.memory 0x400000, 0x400000, [1], 0, none⟩] }).coreSettled base.issue.lid = false := by
  refine ⟨fun k hk => notUpdate base k ?_, by decide, by decide +kernel, by decide +kernel⟩
  have : k = 0 ∨ k = 1 ∨ k = 2 ∨ k = 3 := by omega
  rcases this with rfl | rfl | rfl | rfl <;> decide

theorem test_ret_end : after .ret base (fun t => t.slot.st == .free && t.me.entryOver && t.a 7 == END) = true := by decide +kernel
theorem test_exit_frozen : after .exit (queued 1) (fun t => t.me.exited && t.me.runq == [] && t.me.derr == 1) = true := by decide +kernel

theorem witness_EventsAndNodes_waite : base.next ≠ END ∧ ∃ ev : Nat → Bool,
    (ev 0 = base.me.inboxes.any fun h => countDiff (base.me.handle h).pub (base.me.handle h).head ≠ 0) ∧
    (ev 1 = match base.me.bmbx with | some h => countDiff (base.me.handle h).pub (base.me.handle h).head ≠ 0 | none => false) ∧
    ev 2 = base.me.cut.complete ∧ (Z (base.g 4) = 0 ∨ 8 ≤ Z (base.g 4)) ∧
    (∀ i, i < 3 → (3 : Nat).testBit i = true → ev i = false) ∧ ∃ i, i < 3 ∧ (7 : Nat).testBit i = true ∧ ev i = true := by
  refine ⟨by decide, fun i => i == 2, by decide, by decide, by decide, by decide, by decide, 2, by decide⟩
/-- Node 3 of core 0 is armed with count 1; node 4 is idle. -/
def armed : State := withCore fun c => c.setNode 3 ⟨true, 1, false, 0x300100, [], 2⟩

/-- A signal to node 3 of core 0. -/
def sigFlit : Flit := ⟨0, 9, .system, 1, 0, 0x203, 5, 0, 0, 0, 0, 0⟩

theorem witness_EventsAndNodes_node : 0x20 / 2 ^ 5 % 8 ≠ 0 ∧ 2 ^ 18 ≤ 0x40000 ∧ 0x3FF04 / 2 ^ 5 % 8 = 0 ∧ 0x3FF04 < 2 ^ 18 ∧
    ((base.wra 1 0x300101).a 1).toNat % 2 = 1 ∧ ((base.wra 1 0x300100).a 1).toNat % 2 = 0 ∧ (armed.me.node 3).arm = true ∧
    (armed.me.node 4).arm = false ∧ (armed.me.node 4).pend = false ∧
    ((withCore fun c => c.setNode 5 ⟨false, 0, true, 0, [], 0⟩).me.node 5).pend = true := by decide
theorem witness_EventsAndNodes_sig : 0x100000 / 2 ^ 20 % 2 ^ 7 ≠ 0 ∧ 0x18000000 / 2 ^ 20 % 2 ^ 7 = 0 ∧ 0x18000000 % 2 ^ 20 = base.issue.lid ∧
    0x18000009 % 2 ^ 20 ≠ base.issue.lid ∧ PortFree base base.issue.lid true ∧ sigFlit.ksf / 256 = 2 ∧
    (withFlit sigFlit armed).inFlight sigFlit = some ⟨sigFlit, none, 0, 0, 0, 0⟩ ∧ (withFlit sigFlit armed).fate 0 0 = .here ∧
    ((withFlit sigFlit armed).core 0).cut.holding = false ∧ (armed.me.node 3).arm = true ∧ max ((armed.me.node 3).cnt - 1) (-32768) ≤ 0 ∧
    (armed.me.node 4).arm = false := by unfold PortFree; decide +kernel

theorem witness_EventsAndNodes_staying : Staying ((withFlit sigFlit armed).core 0) ∧ Clocked (withFlit sigFlit armed) :=
  ⟨staying (by decide), clocked (by decide)⟩

theorem test_sig_fires : after (.sig 5) (armed.wr 5 0x18000000) (fun t => (t.me.node 3).arm == false && (t.me.node 3).cnt == 0 &&
    t.me.runq.map (fun e => (e.level, e.start)) == [(2, 0x300100)]) = true := by decide +kernel
theorem test_node_arms : after (.node 6 1) ((base.wra 1 0x300100).wr 6 0x20207) (fun t => t.g 6 == 0 && (t.me.node 7).arm &&
    (t.me.node 7).cnt == 2 && (t.me.node 7).prio == 2) = true := by decide +kernel

/-- A core whose entry task is over with a call of level 0 and two spawns of level 2 in its queue, and slots 0 to 3 free. -/
def dispatching : State := withCore fun c =>
  { c with entryOver := true, slots := [], runq := [⟨.call, 0, 0x300100, [], none, 0, 0, 0⟩, ⟨.spawn, 2, 0x300200, [(1, 7)], none, 0, 0, 0⟩,
      ⟨.spawn, 2, 0x300300, [], none, 0, 0, 0⟩] }

theorem witness_Dispatching : (∀ x ∈ dispatching.me.runq, x.level < 4) ∧
    pickEntry (fun _ => true) dispatching.me.runq = some ⟨.spawn, 2, 0x300200, [(1, 7)], none, 0, 0, 0⟩ ∧
    (dispatching.core 0).nextTask = some ⟨.spawn, 2, 0x300200, [(1, 7)], none, 0, 0, 0⟩ ∧ (QKind.spawn : QKind) ≠ .service ∧
    (dispatching.core 0).freeSlots ≠ [] := by decide +kernel
/-- A clause and a remote `add` of 5 to the word at 0x1000, at the head of the queue of a core that has begun its run. -/
def clauseEntry : QEntry := ⟨.clause, 2, 0, [], some clauseFlit, 0, 3, 4⟩
def atomicFlit : Flit := ⟨0, 9, .system, 2, 0, 0x40A, 5, 0x1000, 5, 0, 0, 0⟩
def atomicEntry : QEntry := ⟨.atomic, 2, 0, [], some atomicFlit, 0, 3, 4⟩
def clausing (e : QEntry) : State := withCore fun c => { c with entryOver := true, runq := [e] }
theorem witness_Dispatching_clause : ((clausing clauseEntry).core 0).open_ = true ∧ ((clausing clauseEntry).core 0).pts - base.base < 2 ^ 32 ∧
    pickEntry QEntry.isClause ((clausing clauseEntry).core 0).runq = some clauseEntry ∧ clauseEntry.flit = some clauseFlit ∧
    pickEntry QEntry.isClause ((clausing atomicEntry).core 0).runq = some atomicEntry ∧ atomicEntry.flit = some atomicFlit := by decide +kernel
theorem witness_Dispatching_nodes : (((clausing clauseEntry).core 0).age + 1) % 256 ≠ 0 ∧ (∀ n, n < 32 → (((clausing clauseEntry).core 0).node n).pend = false) ∧
    (∃ st cause m, (base.runClause 10 0 [0x0000]).2 = some (st, cause, m)) ∧ (base.runClause 10 0 []).2 = none :=
  ⟨by decide, by decide, ⟨7, 0, 0, by decide +kernel⟩, by decide⟩
/-- A clause's own context on core 0, with 0x1000 in g4 and the core's number in g6, or another's. -/
def inClause (c o : Word) : State := (({ base with issue := ⟨0, clauseSlot, 0, 0, 0, false, none⟩ }.wr 4 o).wr 5 7).wr 6 c
theorem witness_Dispatching_subset : (∃ f, clauseMeaning (.stp 2 1 2 0) = some f) ∧ (Instr.amaddRemote false 5 4 6 0).poolAtomic = some (.add, false, 5) ∧
    Sys2Proof.Machine.Instr.poolFields (Instr.amaddRemote false 5 4 6 0) = some (4, 6, 0) ∧ (inClause 0 0x1400).issue.slot = clauseSlot ∧ (inClause 0 0x1400).next ≠ END ∧
    Z ((inClause 9 0x1400).g 6) % 2 ^ 20 ≠ (inClause 9 0x1400).issue.lid ∧ Z ((inClause 0 0x1400).g 6) % 2 ^ 20 = (inClause 0 0x1400).issue.lid ∧
    Z ((inClause 0 0x1402).g 4) % 4 ≠ 0 ∧ Z ((inClause 0 0x1400).g 4) % 4 = 0 ∧ hndEnd (inClause 0 0x1400).me.part ≤ 0x1400 ∧ (0x1400 : Nat) + 4 ≤ 0x6000 ∧
    Z ((inClause 0 0x6000).g 4) + 4 > 0x6000 := ⟨⟨_, rfl⟩, by decide, by decide, by decide, by decide, by decide, by decide, by decide, by decide, by decide, by decide, by decide⟩
theorem witness_Dispatching_words : (∃ e, decodeWords [0x0000] = .error e) ∧ decodeWords [0x4D85] = .ok (.li 6 5, []) ∧ (Instr.li 6 5).fits 16 16 = true ∧
    clausePages ([0x4D85].take ([0x4D85].length - 0)) = true ∧ clauseStep (.li 6 5) (inClause 0 0) = some (exec (.li 6 5)) ∧
    (∃ t, exec (.li 6 5) (inClause 0 0) = .next t ∧ t.slot.tcause = 0) ∧ clauseStep (.j 5) (inClause 0 0) = none ∧
    clauseStep (.ldp 2 5 4 1) (inClause 0 0x1400) = some (exec (.ldp 2 5 4 1)) ∧
    ∃ t, exec (.ldp 2 5 4 1) (inClause 0 0x1400) = .next t ∧ t.slot.tcause ≠ 0 :=
  ⟨⟨_, rfl⟩, by rfl, by decide, by decide, rfl, ⟨_, rfl, by decide⟩, rfl, rfl, ⟨_, rfl, by decide⟩⟩
def serviceFlit : Flit := ⟨0, 0, .system, 3, 0, 0x300, 0, 1, 2, 0, 0, 0⟩
theorem witness_Dispatching_service : (withFlit serviceFlit base).inFlight serviceFlit = some ⟨serviceFlit, none, 0, 0, 0, 0⟩ ∧
    (withFlit serviceFlit base).fate 0 (base.core 0).uid = .here ∧ 64 ≤ ((withFlit serviceFlit (queued 64)).core 0).runq.length := by
  decide +kernel

/-- A service request in the run queue of a core with free slots. -/
def serving : State := withCore fun c => { c with entryOver := true, slots := [], runq := [⟨.service, 3, 0, [], some serviceFlit, 0, 0, 0⟩] }
theorem witness_Dispatching_serving : (serving.core 0).nextTask = some ⟨.service, 3, 0, [], some serviceFlit, 0, 0, 0⟩ ∧ (serving.core 0).freeSlots ≠ [] ∧
    Staying ((withFlit serviceFlit base).core 0) ∧ Clocked (withFlit serviceFlit base) ∧ Clocked (withFlit serviceFlit (queued 64)) :=
  ⟨by decide, by decide, staying (by decide), clocked (by decide), clocked (by decide)⟩

theorem test_dispatch_oldest : (match execTaskDispatch 0 dispatching with
    | .next t => (t.core 0).runq.map (·.start) == [0x300100, 0x300300]
    | _ => false) = true := by decide +kernel

/-! ### Gaussian, slot, convergence and factor forms (R132 to R150) -/

theorem witness_GaussianForms : base.next ≠ END ∧ base.issue.slot < 4 ∧ base.accepts 1 = true := by decide +kernel

/-- R134: damping (1, 3) against (0.5, 1) by 0.5 gives (0.75, 2). -/
theorem test_gdamp : after (.gdamp 4 8) (((((base.wr 4 0x3F000000).wr 5 0x3F800000).wr 8 0x3F800000).wr 9 0x40400000).wr 10 0x3F000000) (fun t =>
    t.g 4 == 0x3F400000 && t.g 5 == 0x40000000) = true := by decide +kernel
theorem test_gcomb_same_pair : after (.gcomb 4 4) ((base.wr 4 0x3F800000).wr 5 0x40400000) (fun t =>
    t.g 4 == 0x40000000 && t.g 5 == 0x40C00000) = true := by decide +kernel
theorem test_gresd_zero : after (.gresd 6 4) (base.wr 6 0x3F800000) (fun t => t.g 6 == 0x7F800000) = true := by decide +kernel

/-- A variable record at 0x1400 (prior and belief (1, 0), SBASE 0x1420, SCNT 1, VFLG 1) and its slot: R145's example, whose record
at 0x400 would lie in the registers here. `l` and `h` are the belief, then the slot's four words. -/
def record (l h sl sh ver st : Word) : State := withCore fun c => { c with
  pool := Map.setList 0 [] 0x1400 (leBytes 0x3F800000 4 ++ leBytes 0 4 ++ leBytes (Z l) 4 ++ leBytes (Z h) 4 ++ leBytes 0 4 ++
    leBytes 0x1420 2 ++ leBytes 1 2 ++ leBytes 0 4 ++ leBytes 1 4 ++ leBytes (Z sl) 4 ++ leBytes (Z sh) 4 ++ leBytes (Z ver) 4 ++
    leBytes (Z st) 4) }

/-- The registers of a slot form: g8 holds the record, g4 to g7 the block B0 to B3. -/
def block4 (s : State) (b0 b1 b2 b3 : Word) : State := (s.wr 8 0x1400).wrs 4 [b0, b1, b2, b3]

def fresh : State := record 0x3F800000 0 0 0 0 0
def second : State := record 0x3FC00000 0x3F800000 0x3F000000 0x3F800000 1 0
def retired : State := record 0x3F800000 0 0x3E800000 0x3F000000 2 0x80000000

theorem witness_Slots : fresh.next ≠ END ∧ fresh.issue.slot < 4 ∧ fresh.accepts 1 = true ∧
    recordCheck fresh.me.part fresh.me 0x1400 (some 0) = none ∧ recordCheck fresh.me.part fresh.me 0x1400 none = none ∧
    recordCheck fresh.me.part fresh.me 0x1401 (some 0) = some (.align, 0x1401) ∧
    recordCheck fresh.me.part fresh.me 0x1400 (some 1) = some (.slot, 0x300000001) ∧
    0x1400 + 32 ≤ leNat (Map.getList 0 fresh.me.pool (0x1400 + 0x14) 2) + 16 * (0 % 2 ^ 16) ∧
    (poolWord retired.me.pool (0x1420 + 12)).getLsbD 31 = true ∧ (poolWord fresh.me.pool (0x1420 + 12)).getLsbD 31 = false ∧
    Z (poolWord second.me.pool (0x1420 + 8)) < 2 ∧ 1 ≤ Z (poolWord second.me.pool (0x1420 + 8)) := by decide +kernel
/-- A record whose words at `a` are `v`. -/
def flawed (a : Nat) (v : Word) : Core := { fresh.me with pool := Map.setList 0 fresh.me.pool a (leBytes (Z v) 4) }
theorem witness_Slots_checks : leNat (Map.getList 0 fresh.me.pool 0x1414 2) = 0x1420 ∧ leNat (Map.getList 0 fresh.me.pool 0x1416 2) = 1 ∧
    leNat (Map.getList 0 fresh.me.pool 0x141C 4) = 1 ∧ 0x1400 % 32 = 0 ∧ hndEnd fresh.me.part ≤ 0x1400 ∧ 0x1420 + 16 * 1 ≤ 0x6000 ∧
    leNat (Map.getList 0 fresh.me.pool (0x1420 + 12) 4) / 2 ^ 24 % 2 ^ 7 = 0 ∧ (0x3000000 : Nat) / 2 ^ 24 % 2 ^ 8 ≠ 0 := by decide +kernel
/-- Each failing check: SBASE misaligned, the slots past the pool, no record, reserved flags, a slot past SCNT, a slot's reserved bits. -/
theorem test_record_checks : recordCheck fresh.me.part (flawed 0x1414 0x00011421) 0x1400 none = some (.align, 0x1400) ∧
    recordCheck fresh.me.part (flawed 0x1414 0x00015FF8) 0x1400 none = some (.align, 0x1400) ∧
    recordCheck fresh.me.part (flawed 0x1414 0x00025FF0) 0x1400 none = some (.poolRange, 0x1400) ∧
    recordCheck fresh.me.part (flawed 0x141C 0) 0x1400 none = some (.slot, 0x100001400) ∧
    recordCheck fresh.me.part (flawed 0x141C 5) 0x1400 none = some (.slot, 0x200001400) ∧
    recordCheck fresh.me.part fresh.me 0x1400 (some 1) = some (.slot, 0x300000001) ∧
    recordCheck fresh.me.part (flawed 0x142C 0x01000000) 0x1400 (some 0) = some (.slot, 0x400001420) ∧
    recordCheck fresh.me.part fresh.me 0x1400 (some 0x3000000) = some (.slot, 0x503000000) := by decide +kernel
theorem witness_Slots_belief : ∃ sum : Nat → Word × Word × Nat, sum 0 = (0x3F800000, 0, 0) ∧ ∀ i, sum (i + 1) =
    if (poolWord second.me.pool (0x1420 + 16 * i + 12)).getLsbD 31 = true then sum i
    else ((fAdd .ne (sum i).1 (poolWord second.me.pool (0x1420 + 16 * i))).1,
      (fAdd .ne (sum i).2.1 (poolWord second.me.pool (0x1420 + 16 * i + 4))).1,
      (sum i).2.2 ||| (fAdd .ne (sum i).1 (poolWord second.me.pool (0x1420 + 16 * i))).2 |||
        (fAdd .ne (sum i).2.1 (poolWord second.me.pool (0x1420 + 16 * i + 4))).2) :=
  ⟨fun n => n.rec (0x3F800000, 0, 0) fun i r => if (poolWord second.me.pool (0x1420 + 16 * i + 12)).getLsbD 31 = true then r
    else ((fAdd .ne r.1 (poolWord second.me.pool (0x1420 + 16 * i))).1, (fAdd .ne r.2.1 (poolWord second.me.pool (0x1420 + 16 * i + 4))).1,
      r.2.2 ||| (fAdd .ne r.1 (poolWord second.me.pool (0x1420 + 16 * i))).2 |||
        (fAdd .ne r.2.1 (poolWord second.me.pool (0x1420 + 16 * i + 4))).2), rfl, fun _ => rfl⟩

/-- The rows of R145's table. -/
theorem test_slput_ok : after (.slput 4 8) (block4 fresh 0x3F000000 0x3F800000 1 0) (fun t => t.g 7 == 0 &&
    poolWord t.me.pool 0x1408 == 0x3FC00000 && poolWord t.me.pool 0x140C == 0x3F800000 && t.me.sldisc == 0) = true := by decide +kernel
theorem test_slput_old : after (.slput 4 8) (block4 second 0x3F000000 0x3F800000 1 0) (fun t => t.g 7 == 1 && t.me.pool == second.me.pool &&
    t.me.sldisc == 0) = true := by decide +kernel
theorem test_slput_again : after (.slput 4 8) (block4 second 0x3E800000 0x3F000000 2 0) (fun t => t.g 7 == 0 &&
    poolWord t.me.pool 0x1408 == 0x3FA00000 && poolWord t.me.pool 0x140C == 0x3F000000) = true := by decide +kernel
theorem test_slput_retired : after (.slput 4 8) (block4 retired 0x3F000000 0x3F800000 3 0) (fun t => t.g 7 == 2 && t.me.sldisc == 1 &&
    t.me.pool == retired.me.pool) = true := by decide +kernel
theorem test_slnew : after (.slnew 4 8) (block4 retired 0 0 7 0x10000) (fun t => t.g 7 == 0 && poolWord t.me.pool 0x142C == 0x10007 &&
    poolWord t.me.pool 0x1408 == 0x3F800000) = true := by decide +kernel
theorem test_slret : after (.slret 4 8) (block4 (record 0x3FA00000 0x3F000000 0x3E800000 0x3F000000 2 0) 0 0 0 0) (fun t => t.g 7 == 0 &&
    poolWord t.me.pool 0x1408 == 0x3F800000 && poolWord t.me.pool 0x140C == 0 && poolWord t.me.pool 0x142C == 0x80000000) = true := by
  decide +kernel

theorem witness_ConvergenceAndFactors : base.next ≠ END ∧ base.accepts 1 = true ∧ (0x100 / 2 ^ 8 % 2 ^ 23 ≠ 0 ∨ 5 ≤ 0x100 % 2 ^ 8) ∧
    0x80000002 / 2 ^ 8 % 2 ^ 23 = 0 ∧ 0x80000002 % 2 ^ 8 = 2 ∧ 2 ^ 31 ≤ 0x80000002 ∧ 4 % 2 ^ 8 = 4 ∧ base.me.queue = some 0 ∧
    (base.queue 0).launch = some placedLaunch := by decide +kernel
/-- A factor table at 0x400000 whose entry 1 names the handler 0x300100, two variables and 16 bytes. -/
def factors : State := { base.wra 6 0x400000 with mem := Map.setList 0 base.mem 0x400010 (leBytes 0x300100 8 ++ [2, 0, 16, 0]) }
/-- The same with the first doubleword of the entry read. -/
def halfRead : State := (factors.wr 4 1).setSlot { (factors.wr 4 1).slot with half := some (leBytes 0x300100 8 ++ leBytes 9 8) }
/-- What is kept after the first doubleword. -/
def keptHalf (s : State) : State := s.setSlot { s.slot with half := some (leBytes 0x300100 8 ++ leBytes s.me.pts 8) }
theorem witness_ConvergenceAndFactors_ftype : w64 (((factors.wr 4 1).a 6).toNat + 16 * 1 + 0) = 0x400010 ∧ (factors.wr 4 1).slot.half = none ∧
    w64 ((halfRead.a 6).toNat + 16 * 1 + 8) = 0x400018 ∧ halfRead.slot.half = some (leBytes 0x300100 8 ++ leBytes 9 8) ∧
    (∃ u p, (factors.wr 4 1).resolve 0 0x400010 .rd = (u, .ok p) ∧ (p == .memory 0x400010 && u.prompt && !u.badIn 0x400010 8) = true) ∧
    (∃ u p, (halfRead.raise 0 (leNat (((leBytes 0x300100 8 ++ leBytes 9 8).drop 8).take 8))).resolve 0 0x400018 .rd = (u, .ok p) ∧ (p == .memory 0x400018 && u.prompt && !u.badIn 0x400018 8) = true) ∧
    (∃ u p, ({ factors with prompt := false } : State).resolve 0 0x400010 .rd = (u, .ok p) ∧ (p == .memory 0x400010 && !u.prompt) = true) ∧
    Fits factors (factors.me.pts + factors.leaseOf 0) ∧ u64 (leNat (leBytes 0x300100 8)) ≠ END ∧
    ((factors.wra 6 0x400004).a 6).toNat % 8 ≠ 0 ∧
    (∃ u p, (keptHalf factors).resolve 0 ((0x400010 : DWord) + 8).toNat .rd = (u, .ok p) ∧ (p == .memory 0x400018 && !u.badIn 0x400018 8) = true) ∧
    (∃ u e, (keptHalf factors).resolve 0 0x8000000000 .rd = (u, .error e) ∧ (e == .xlate) = true) ∧ (keptHalf factors).me.pts < 2 ^ 64 :=
  ⟨by decide, by decide, by decide, by decide, okAnd_exists (by decide +kernel), okAnd_exists (by decide +kernel), okAnd_exists (by decide +kernel),
    by unfold Fits; decide +kernel, by decide, by decide, okAnd_exists (by decide +kernel), errAnd_exists (by decide +kernel), by decide⟩

theorem test_ftype : after (.ftype 4 5) ((factors.wr 4 1).wr 5 0x1000) (fun t => t.g 4 == 2 && t.slot.pc == 0x300100 && t.a 7 == 0x300002) = true := by
  decide +kernel
theorem test_cvrd_clears : after (.cvrd 4) ((withCore fun c => { c with sldisc := 9 }).wr 4 0x80000002) (fun t => t.g 4 == 9 &&
    t.me.sldisc == 0) = true := by decide +kernel

/-! ### Traps (R190 to R199) -/

theorem witness_TrapTaking : (0 : Nat) < 4 ∧ statInh (base.slotAt 0 0).stat = 0 ∧ statInh (inhibited.slotAt 0 0).stat = 1 ∧
    (∃ j, j < partC (inhibited.core 0).part ∧ j ≠ 0 ∧ (inhibited.slotAt 0 j).st ≠ .halted) ∧ base.issue.slot < 4 ∧
    statInh base.slot.stat = 0 ∧ 2 ^ 36 - 1 < 2 ^ 36 ∧ base.issue.length < 2 ^ 8 :=
  ⟨by decide, by decide, by decide, ⟨1, by decide⟩, by decide, by decide, by decide, by decide⟩

theorem test_trap_entry : after (.trap 5) ((withSlot fun x => { x with bank := [(0, 9)], tvec := 0x300400, fst := 3, stat := 0x28 }).wr 0 4) (fun t =>
    t.slot.tcause == 15 && t.slot.tval == 0x0200000000000005 && t.slot.tepc == 0x300000 && t.slot.tstat == 0x28 && t.slot.stat == 0x0B &&
      t.slot.sfst == 3 && t.slot.pc == 0x300400 && t.g 0 == 9 && Map.get 0 t.slot.bank 0 == 4) = true := by decide +kernel
theorem test_double : after (.brk 0) inhibited (fun t => t.slot.st == .halted && t.slot.tcause == 0x1015 && t.me.derr == 2 &&
    t.me.dcode == 0x15) = true := by decide +kernel

/-- S with INH = 1 and these saved STAT and pc. -/
def returning (st : Word) (pc : DWord) : State := inhibited.setSlot { inhibited.slot with tstat := st, tepc := pc, sfst := 5, bank := [(1, 6)] }

theorem witness_TrapReturnAndHalt : super.issue.slot < 4 ∧ statMode super.slot.stat = 1 ∧ statInh super.slot.stat = 0 ∧
    statInh (returning 0x40 0).slot.stat = 1 ∧ (∃ j, j < partC (returning 0x40 0).me.part ∧ j ≠ (returning 0x40 0).issue.slot ∧
      ((returning 0x40 0).me.slot j).st ≠ .halted) ∧ 2 ^ 6 ≤ Z (returning 0x40 0).slot.tstat ∧ Z (returning 0x3F 0x300101).slot.tstat < 2 ^ 6 ∧
    (returning 0x3F 0x300101).slot.tepc.toNat % 2 = 1 ∧ (returning 0x3F 0x300100).slot.tepc.toNat % 2 = 0 ∧
    (returning 0x3F 0x300100).slot.tepc ≠ END ∧ (returning 0 END).slot.tepc = END :=
  ⟨by decide, by decide, by decide, by decide, ⟨1, by decide⟩, by decide, by decide, by decide, by decide, by decide, by decide⟩

theorem test_rett : after .rett (returning 0x28 0x300100) (fun t => t.slot.stat == 0x28 && t.slot.pc == 0x300100 && t.slot.fst == 5 && t.g 1 == 6 &&
    Map.get 0 t.slot.bank 1 == 1) = true := by decide +kernel
theorem test_halt : after .halt super (fun t => t.slot.st == .halted && t.slot.tcause == 0x15 && t.me.derr == 8 && t.me.dcode == 0) = true := by
  decide +kernel

/-- A context with a held notice, and one that owes a step trap. -/
def noticed : State := withSlot fun x => { x with notices := [⟨0x10A, 7⟩] }
def stepped : State := withSlot fun x => { x with notices := [⟨0x10A, 7⟩], stepDue := some 0x2FFFFE }

theorem witness_NoticesAndSynchronizing : (noticed.slotAt 0 0).st = .ready ∧ statInh (noticed.slotAt 0 0).stat = 0 ∧
    (noticed.slotAt 0 0).notices = ⟨0x10A, 7⟩ :: [] ∧ (noticed.slotAt 0 0).stepDue = none ∧ (noticed.slotAt 0 0).wait = none ∧
    (stepped.slotAt 0 0).stepDue = some 0x2FFFFE := by decide
/-- A notice that comes while the context waits, in a wait that a notice abandons or not. -/
def noticedWait (keep : Bool) : State :=
  withSlot fun x => { x with notices := [⟨0x10A, 7⟩], wait := some ⟨false, keep, .ldg 1 2 0 0, 0x300000, 2, 0, false, 0, []⟩ }
theorem witness_NoticesAndSynchronizing_wait : ∀ keep : Bool, ((noticedWait keep).slotAt 0 0).wait.map (·.keep) = some keep ∧
    ((noticedWait keep).slotAt 0 0).st = .ready ∧ statInh ((noticedWait keep).slotAt 0 0).stat = 0 ∧
    ((noticedWait keep).slotAt 0 0).notices = [⟨0x10A, 7⟩] ∧ ((noticedWait keep).slotAt 0 0).stepDue = none :=
  by decide
theorem witness_NoticesAndSynchronizing_sync : super.next ≠ END ∧ statMode super.slot.stat = 1 ∧ super.storesDone = true ∧
    (super.setSlot { super.slot with sbuf := [⟨.memory 0, 0, [1], 0, none⟩] }).storesDone = false ∧ 1 < Z ((super.wr 4 2).g 4) ∧
    super.me.queue = some 0 ∧ (super.queue 0).launch = some placedLaunch ∧ Z ((super.wr 4 1).g 4) = 1 ∧ (∀ hit, super.tlbBusy 0 hit = false) :=
  ⟨by decide, by decide, by decide, by decide, by decide, by decide, rfl, by decide, fun _ => rfl⟩

theorem test_tlbinv_page : after (.tlbinv 0 1) ((super.setLaunch 0 { placedLaunch with tlb := [⟨0, 65536, 0x1F⟩, ⟨65536, 65536, 0x1001F⟩] }).wra 1 65540) (fun t =>
    ((t.queue 0).launch.map (·.tlb)) == some [⟨0, 65536, 0x1F⟩]) = true := by decide +kernel

/-! ### Cuts, images, migration and slices (R200 to R218) -/

/-- S with a cut area at 0x10000000 and edges to core 9; `u` is the launch's cut. -/
def cutting (u : Option Cut) : State :=
  let s := super.setLaunch 0 { placedLaunch with cuta := 0x10000000, cut := u }
  s.setMe { s.me with edges := [9] }

/-- Eight cores that have recorded cut 1, as the root sees them. -/
def recorded : State := { cutting (some ⟨1, false, false⟩) with
  cores := (List.range 8).map fun i => (i, { placedCore0 with index := i, cutid := 1, cut := ⟨false, true, false, 0, 0, 0⟩ }) }

theorem witness_Cuts : super.next ≠ END ∧ super.accepts 4 = true ∧ 0x100000 / 2 ^ 20 % 2 ^ 11 ≠ 0 ∧ 0x80000009 / 2 ^ 20 % 2 ^ 11 = 0 ∧
    2 ^ 31 ≤ 0x80000009 ∧ 9 ∈ (cutting none).me.edges ∧ 8 ∉ (cutting none).me.edges ∧ (cutting none).me.edges.length < 64 ∧
    64 ≤ (withCore fun c => { c with edges := List.range' 9 64 }).me.edges.length ∧ 8 ∉ (withCore fun c => { c with edges := List.range' 9 64 }).me.edges := by
  decide +kernel
theorem witness_Cuts_snap : (cutting none).me.queue = some 0 ∧ ((cutting none).queue 0).launch = some { placedLaunch with cuta := 0x10000000 } ∧
    (1 : Word) = (if (cutting none).me.cutid + 1 = 0 then 1 else (cutting none).me.cutid + 1) ∧
    (0x10000000 : DWord).toNat + 0x10000 * ((cutting none).me.index + 1) + 0x10000 ≤ 2 ^ 41 ∧ (0x10000000 : DWord) ≠ 0 ∧
    (cutting none).me.pts - (cutting none).base < 2 ^ 32 ∧ (cutting none).issue.slot < 4 ∧ partOk (cutting none).me.part = true ∧
    (cutting none).me.runq.length ≤ 64 ∧ (cutting none).me.edges.length ≤ 64 ∧ (cutting none).me.cut.complete = true ∧ (cutting none).me.mayRecord = true ∧ (cutting none).issue.stepping = false ∧
    (∀ k, k < 4 → ((cutting none).me.slot k).stepDue = none) ∧ holding.me.cut.complete = true ∧
    (withCore fun c => { c with cut := { c.cut with complete := false } }).me.cut.complete = false := by decide +kernel
def markerFlit : Flit := ⟨0, 9, .marker, 0, 2, 1, 0, 1, 0, 0, 0, 0⟩
theorem witness_Cuts_arrivals : (cutting (some ⟨1, false, false⟩)).indexCore 0 0 = some 0 ∧
    (cutting (some ⟨1, false, false⟩)).placed 0 = some { placedLaunch with cuta := 0x10000000, cut := some ⟨1, false, false⟩ } ∧
    (∀ j, j < 4 → (((cutting (some ⟨1, false, false⟩)).core 0).slot j).stepDue = none) ∧ imageAt 0x10000000 0 + 0x10000 ≤ 2 ^ 41 ∧
    ((cutting none).core 0).cutid ≠ 1 ∧ ((cutting none).core 0).swapped = false ∧ ((cutting none).core 0).mayRecord = true ∧
    (withFlit markerFlit (cutting none)).inFlight markerFlit = some ⟨markerFlit, none, 0, 0, 0, 0⟩ ∧
    (withFlit markerFlit (cutting none)).fate 0 0 = .here ∧ (recorded.core 3).cut.complete = false := by decide +kernel
/-- Core 0 with a cut under way and the reply of a remote atomic awaited, and with the cut recorded. -/
def awaitingReply : State :=
  (cutting (some ⟨1, false, false⟩)).setCore 0 ((cutting none).me.setSlot 0 { super.slot with entries := [(0, some ⟨.poolAtomic 5 0, 0, 0⟩)] })
def recordedOnce : State :=
  withFlit markerFlit ((cutting (some ⟨1, false, false⟩)).setCore 0 { (cutting none).me with cutid := 1, cut := ⟨false, true, false, 0, 0, 0⟩ })
theorem witness_Cuts_again : (awaitingReply.core 0).mayRecord = false ∧ (awaitingReply.core 0).cutid ≠ 1 ∧ (awaitingReply.core 0).swapped = false ∧
    awaitingReply.indexCore 0 0 = some 0 ∧ Staying (recordedOnce.core 0) ∧ (recordedOnce.core 0).cutid = 1 ∧
    (recordedOnce.core 0).cut.complete = false ∧ recordedOnce.fate 0 0 = .here ∧ (recordedOnce.core 0).queue = some 0 ∧
    recordedOnce.inFlight markerFlit = some ⟨markerFlit, none, 0, 0, 0, 0⟩ ∧ Staying ((withFlit markerFlit (cutting none)).core 0) ∧
    recordedOnce.indexCore 0 0 = some 0 ∧ (∀ j, j < 4 → ((recordedOnce.core 0).slot j).stepDue = none) ∧ Clocked recordedOnce ∧
    Clocked (withFlit markerFlit (cutting none)) ∧ Clocked awaitingReply ∧ (awaitingReply.core 0).pts - awaitingReply.base < 2 ^ 32 :=
  ⟨by decide, by decide, by decide, by decide, staying (by decide), by decide, by decide, by decide, by decide, by decide, staying (by decide),
    by decide, by decide, clocked (by decide), clocked (by decide), clocked (by decide), by decide⟩
/-- The eight cores of a save cut, one of which runs on. -/
def saving : State := { super.setLaunch 0 { placedLaunch with sava := 0x20000000, cut := some ⟨1, true, false⟩ } with
  cores := (List.range 8).map fun i => (i, { placedCore0 with index := i, cutid := 1, swapped := true, cut := ⟨false, false, false, 0, 0, 0⟩ }) }
theorem witness_Cuts_save : saving.placed 0 = some { placedLaunch with sava := 0x20000000, cut := some ⟨1, true, false⟩ } ∧
    saving.cutReady 0 { placedLaunch with sava := 0x20000000, cut := some ⟨1, true, false⟩ } ⟨1, true, false⟩ = true ∧
    (∀ x ∈ saving.flight, x.uid ≠ placedLaunch.uid) ∧ Map.wf Core.empty saving.cores ∧
    (8, Core.empty) ∉ saving.cores ∧ saving.sumOver 0 (·.crecv) = 0 := by decide +kernel
theorem witness_Cuts_root : recorded.placed 0 = some { placedLaunch with cuta := 0x10000000, cut := some ⟨1, false, false⟩ } ∧
    recorded.cutReady 0 { placedLaunch with cuta := 0x10000000, cut := some ⟨1, false, false⟩ } ⟨1, false, false⟩ = true ∧
    placedLaunch.expired = false ∧ (5 : Nat) ≠ 0 ∧ (0x20000000 : DWord) ≠ 0 ∧
    ((withLaunch fun la => la).setQueue 1 { base.queue 1 with launch := some { placedLaunch with phase := .waiting } }).rivalWaits 0 0 = true ∧
    base.rivalWaits 0 0 = false ∧ (0x20000000 : DWord).toNat + (0x10000 * (8 * 1 + 1) + 0x200000) ≤ 2 ^ 41 := by decide +kernel

theorem test_mark_again : after (.mark 4) ((cutting none).wr 4 9) (fun t => t.g 4 == 0 && t.me.edges == [9]) = true := by decide +kernel
theorem test_snap_no_area : after (.snap 4) super (fun t => t.g 4 == 0xFFFFFFFF && t.me.cutid == 0) = true := by decide +kernel

/-- S with a task in slot 1, and an image area at 0x400000. -/
def twoTasks : State := (super.setMe (super.me.setSlot 1 { Slot.empty with st := .ready, regs := [(9, 8)], pc := 0x300100 })).wra 3 0x400000

theorem witness_Images : twoTasks.next ≠ END ∧ twoTasks.accepts 4 = true ∧ statMode twoTasks.slot.stat = 1 ∧ Z ((twoTasks.wr 2 1).g 2) = 1 ∧
    (1 : Nat) ≠ twoTasks.issue.slot ∧ twoTasks.issue.slot < 4 ∧ (twoTasks.a 3).toNat % 128 = 0 ∧ 1 < partC twoTasks.part ∧
    (twoTasks.slotAt twoTasks.issue.lid 1).st ≠ .free ∧ (twoTasks.slotAt twoTasks.issue.lid 2).st = .free ∧
    (∀ j, j < 4 → (twoTasks.me.slot j).stepDue = none) ∧
    twoTasks.slot.half = none ∧
    ∃ s1 ps, twoTasks.planLines .wr 0x400000 (imageLines twoTasks.part).length = (s1, .ok ps) ∧
      (s1.cores == twoTasks.cores && s1.issue == twoTasks.issue && s1.mayImage 0 1 && ps.all fun p => match p with
      | .far _ _ => false
      | _ => true) = true :=
  ⟨by decide, by decide, by decide, by decide, by decide, by decide, by decide, by decide, by decide, by decide, by decide, by decide +kernel,
    okAnd_exists (by decide +kernel)⟩
/-- An image of an unmapped context is refused; one with REGS 3 and a state that is not free is taken. -/
def imageMem : State := { twoTasks with mem := Map.setList 0 (Map.setList 0 twoTasks.mem 0x400000 (leBytes 0x300100 8)) 0x40002C (leBytes 0xD 4) }
theorem witness_Images_in : partC twoTasks.part ≤ 4 ∧ (∃ s1 bs, twoTasks.loadLines 0x400000 (imageLines twoTasks.part) = (s1, .ok bs) ∧
      (s1.issue == twoTasks.issue && refusesImage bs twoTasks.part) = true) ∧
    ∃ s1 bs, imageMem.loadLines 0x400000 (imageLines imageMem.part) = (s1, .ok bs) ∧
      (s1.issue == imageMem.issue && !refusesImage bs imageMem.part) = true :=
  ⟨by decide, okAnd_exists (by decide +kernel), okAnd_exists (by decide +kernel)⟩
/-- The context of slot 1 with a store under way; and the lines of its image, all in memory. -/
def twoBusy : State := twoTasks.setMe (twoTasks.me.setSlot 1 { twoTasks.slotAt 0 1 with sbuf := [⟨.memory 0, 0, [1], 0, none⟩] })
theorem witness_Images_waits : ∃ s1 ps, twoBusy.planLines .wr 0x400000 (imageLines twoBusy.part).length = (s1, .ok ps) ∧
    (s1.cores == twoBusy.cores && s1.issue == twoBusy.issue && !s1.mayImage 0 1) = true := okAnd_exists (by decide +kernel)
theorem witness_Images_lines : (∃ s1 ps, twoTasks.planLines .wr 0x400000 (imageLines twoTasks.part).length = (s1, .ok ps) ∧
      (ps == ((List.range 6).map fun i => 0x400000 + 128 * i).map Place.memory && s1.bad == [] && s1.mem == twoTasks.mem) = true) ∧
    ((List.range 6).map fun i => 0x400000 + 128 * i).Nodup ∧ (∀ pa ∈ (List.range 6).map fun i => 0x400000 + 128 * i, pa % 128 = 0) :=
  ⟨okAnd_exists (by decide +kernel), by decide, by decide⟩
theorem witness_Images_traps : 4 ≤ Z ((twoTasks.wr 2 4).g 2) ∧ Z ((twoTasks.wr 2 0).g 2) = twoTasks.issue.slot ∧
    ((twoTasks.wra 3 0x400001).a 3).toNat % 128 ≠ 0 ∧ 2 < partC twoTasks.part ∧
    (∃ s1 e, twoTasks.planLines .wr 0x1000000000 (imageLines twoTasks.part).length = (s1, .error e) ∧ (e.1 == .xlate) = true) ∧
    ∃ s1 e, twoTasks.loadLines 0x1000000000 (imageLines twoTasks.part) = (s1, .error e) ∧ (e.1 == .xlate) = true :=
  ⟨by decide, by decide, by decide, by decide, errAnd_exists (by decide +kernel), errAnd_exists (by decide +kernel)⟩
/-- Run-queue entries that came by a flit, and one that did not. -/
theorem witness_ImageLayout : partOk twoTasks.part = true ∧ (1 : Nat) < partC twoTasks.part ∧ 127 < partG twoTasks.part ∧ 15 < partH twoTasks.part ∧
    (noticed.slot).notices = ⟨0x10A, 7⟩ :: [] ∧ twoTasks.slot.notices = [] ∧ twoTasks.me.edges.length ≤ 64 ∧
    (withCore fun c => { c with runq := [⟨.call, 1, 0, [], some markerFlit, 0, 0, 0⟩, ⟨.local, 1, 0, [], none, 0, 0, 0⟩], edges := [3] }).me.runq.length = 2 ∧
    hndEnd twoTasks.part ≤ 0x5FFF := by decide

theorem witness_Images_slice : super.next ≠ END ∧ super.accepts 4 = true ∧ statMode super.slot.stat = 1 ∧ 1 < Z ((super.wr 4 2).g 4) ∧
    Z (super.g 4) ≤ 1 ∧ ((super.launchOf super.issue.lid).map (·.slice)).getD 0 = 0 ∧
    (((super.setLaunch 0 { placedLaunch with slice := 7 }).launchOf 0).map (·.slice)).getD 0 = 7 ∧ 7 < 2 ^ 32 ∧ super.me.queue = some 0 ∧
    (super.queue 0).launch = some placedLaunch ∧ placedLaunch.phase = .placed ∧ super.rivalWaits 0 0 = false := by decide +kernel

theorem test_ctxout_free : after (.ctxout 2 3) (twoTasks.wr 2 2) (fun t => t.g 2 == 1) = true := by decide +kernel
theorem test_ctxout : after (.ctxout 2 3) (twoTasks.wr 2 1) (fun t => t.g 2 == 0 && (t.me.slot 1).st == .free &&
    leNat (t.bytesAt 0x400000 8) == 0x300100 && leNat (t.bytesAt (0x400100 + 36) 4) == 8) = true := by decide +kernel

/-- R201: with 16 registers an image is 320 bytes, half of whose last line is stored. -/
theorem test_ctxout_small : after (.ctxout 2 3) ((twoTasks.setMe { twoTasks.me with part := 0xC0000000 }).wr 2 1) (fun t => t.g 2 == 0 &&
    leNat (t.bytesAt (0x400100 + 36) 4) == 8) = true := by decide +kernel

theorem witness_Moving : super.next ≠ END ∧ super.accepts 4 = true ∧ statMode super.slot.stat = 1 ∧ super.issue.slot < 4 ∧
    2 ^ 20 ≤ 2 ^ 20 ∧ 0 % 2 ^ 20 = super.issue.lid ∧ 16 % 2 ^ 20 ≠ super.issue.lid ∧ 8 * super.dev.tcnt ≤ 2 ^ 20 - 1 ∧ 16 < 8 * super.dev.tcnt ∧
    super.freeFor super.me.uid 16 = true ∧ super.freeFor super.me.uid 1 = false ∧ super.mayMove super.issue.lid = true ∧ super.issue.since = none ∧
    twoBusy.mayMove twoBusy.issue.lid = false ∧
    super.issue.stepping = false ∧ (∀ k, k < 4 → (super.me.slot k).stepDue = none) ∧ PortFree super super.issue.lid false := by
  unfold PortFree; decide +kernel
/-- A request to change core 0's forwarding entry and the answer to one, and a context that waits for it. -/
def fwdFlit : Flit := ⟨0, 9, .system, 0, 0, fwdsetKsf, 5, 17, 0, 0, 0, 0⟩
def fwdedFlit : Flit := ⟨0, 9, .system, 0, 1, fwdsetKsf, 5, 0, 0, 0, 0, 0⟩
def fwding : State := withFlit fwdedFlit (super.setSlot { super.slot with wait := some ⟨false, true, .fwdset 4 5, 0x300000, 4, 0, false, 0, []⟩ })
theorem witness_Moving_forward : (withFlit fwdFlit base).inFlight fwdFlit = some ⟨fwdFlit, none, 0, 0, 0, 0⟩ ∧
    ((withCore fun c => { c with forward := some 16 }).core 0).forward.isSome = true ∧
    fwding.inFlight fwdedFlit = some ⟨fwdedFlit, none, 0, 0, 0, 0⟩ ∧
    Staying ((withFlit fwdFlit base).core 0) ∧ (∀ q, fwding.fate 0 0 ≠ .spill q) ∧ (∀ q, (withFlit fwdFlit base).fate 0 0 ≠ .spill q) ∧
    Clocked (withFlit fwdFlit base) ∧ Clocked fwding ∧ ((withFlit fwdFlit base).core 0).pts - base.base < 2 ^ 32 ∧
    (fwding.slotAt 0 (0 / 16)).wait = some ⟨false, true, .fwdset 4 5, 0x300000, 4, 0, false, 0, []⟩ ∧ (0x300000 : DWord) + u64 4 ≠ END :=
  ⟨by decide, by decide, by decide, staying (by decide), fun q h => Fate.noConfusion (h.symm.trans (by decide : fwding.fate 0 0 = .here)),
    fun q h => Fate.noConfusion (h.symm.trans (by decide : (withFlit fwdFlit base).fate 0 0 = .here)), clocked (by decide), clocked (by decide), by decide,
    by decide, by decide⟩

theorem test_migr : after (.migr 4) ((super.setMe { super.me with pool := [(0x1000, 7)], pts := 3 }).wr 4 16) (fun t =>
    (t.core 0).forward == some 16 && (t.core 16).pool == [(0x1000, 7)] && (t.core 16).pts == 3 && ((t.core 16).slot 0).pc == 0x300002 &&
      Map.get 0 ((t.core 16).slot 0).regs 4 == 0) = true := by decide +kernel

/-! ### Launches (R173 to R184) -/

/-- A record for one team at team 2: IMAGE 0x300000, PART, FTEAM 2, TCNT 1, no handlers. -/
def recordBytes (part : Nat) : List Byte :=
  leBytes 0x300000 8 ++ leBytes 0 8 ++ leBytes 0 4 ++ leBytes part 4 ++ leBytes 2 4 ++ leBytes 1 4 ++ List.replicate 32 0

/-- A launch that waits alone on queue 1, first or saved. -/
def waiter (restore : Bool) : Launch :=
  { placedLaunch with phase := if restore then .saved else .waiting, restore := restore, fteamAsked := 2, uid := 5, seq := 3, part := 0x34100000 }
def waitingLaunch (restore : Bool) : State := base.setQueue 1 { base.queue 1 with sava := 0x20000000, launch := some (waiter restore) }

theorem witness_Launching : (recordBytes 0x34100000).length = 64 ∧ base.dev.fwRdy = true ∧
    partOk (u32 (leNat (((recordBytes 1).drop 0x14).take 4))) = false ∧ partOk (u32 (leNat (((recordBytes 0x34100000).drop 0x14).take 4))) = true ∧
    leNat (((recordBytes 0x34100000 |>.set 0 1).drop 0).take 8) % 128 ≠ 0 ∧
    ∃ hs, (base.setQueue 1 { base.queue 1 with seq := (base.queue 1).seq + 1, rst := false }).recordStatus 1 (recordBytes 0x34100000)
        (launchOfRecord (recordBytes 0x34100000) base.serial 1 base.stamp (base.queue 1).rst []) =
      (base.setQueue 1 { base.queue 1 with seq := (base.queue 1).seq + 1, rst := false }, .ok hs) :=
  ⟨by decide, by decide, by decide, by decide, by decide, [], rfl⟩
theorem witness_Launching_place : (waitingLaunch false).placeable false = [(1, waiter false)] ∧ (2 : Nat) ≠ 0xFFFFFFFF ∧
    (waitingLaunch false).rangeFree 2 1 = true ∧ 1 ≤ partC 0x34100000 ∧
    ((waitingLaunch false).objects.map Prod.fst).Nodup := by decide +kernel
theorem witness_LaunchLife_restore : (waitingLaunch true).placeable true = [(1, waiter true)] ∧
    (waitingLaunch true).rangeFree 2 1 = true ∧
    (waitingLaunch true).featured (waiter true) = true ∧ (waitingLaunch true).featured { waiter true with fset := 2 ^ 127 } = false ∧
    ((waitingLaunch true).queue 1).sava.toNat + (0x10000 * (8 * 1 + 1) + 0x200000) ≤ 2 ^ 41 := by decide +kernel
/-- The launch whose eight cores have exited, team 1 of two below the root team 0. -/
def exitedLaunch : State := withLaunch fun la => { la with coreDone := (List.range 8).map fun i => (i, some ⟨0, 0, 1, 0, 1⟩) }
def exitedPair : State := withLaunch fun la => { la with tcnt := 2, coreDone := (List.range' 8 8).map fun i => (i, some ⟨0, 0, 1, 0, 1⟩) }
theorem witness_LaunchLife_done : exitedLaunch.placed 0 = some { placedLaunch with coreDone := (List.range 8).map fun i => (i, some ⟨0, 0, 1, 0, 1⟩) } ∧
    ({ placedLaunch with coreDone := (List.range 8).map fun i => (i, some ⟨0, 0, 1, 0, 1⟩) } : Launch).teamRec 0 = some ⟨0, 0, 8, 0, 8⟩ ∧
    (0 + 1 - 0) % 1 = 0 ∧ placedLaunch.lost = false ∧ (1 + 2 - 0) % 2 ≠ 0 ∧
    ({ placedLaunch with tcnt := 2, coreDone := (List.range' 8 8).map fun i => (i, some ⟨0, 0, 1, 0, 1⟩) } : Launch).teamRec 1 = some ⟨0, 0, 8, 0, 8⟩ := by
  decide +kernel
theorem witness_LaunchLife_window : ({ placedLaunch with closed := (List.range 8).map fun i => ⟨i, 1, 0, 0⟩ } : Launch).window 0 = some 1 ∧
    (withLaunch fun la => { la with closed := (List.range 8).map fun i => ⟨i, 1, 0, 0⟩ }).placed 0 =
      some { placedLaunch with closed := (List.range 8).map fun i => ⟨i, 1, 0, 0⟩ } := by decide +kernel

theorem test_completion_record : (match execDoneMessage 0 0 exitedLaunch with
    | .next t => t.hostOut == [.data 32 (leBytes 1 4 ++ leBytes 0 4 ++ leBytes 0 4 ++ leBytes 8 4 ++ leBytes 0 4 ++ leBytes 8 4 ++
        leBytes 0 4 ++ leBytes 0 4), .msix 0] && (t.queue 0).launch == none && (t.core 0).queue == none
    | _ => false) = true := by decide +kernel

/-! ### Global memory (R256 to R282) -/

/-- Page tables: the root at 0x100000; at 0x200000 the first 1 GiB onto itself, a page without rights, a host page, an object page, and a
table at 0x201000 with a 2 MiB leaf and a table at 0x202000 with a 64 KiB leaf; the last entry is neither leaf nor table. -/
def tables : List Host.Cell :=
  let m := Map.setList 0 base.mem 0x200000 (leBytes 0x1F 8 ++ leBytes 0x40000003 8 ++ leBytes 0x8000003F 8 ++ leBytes 0x5F 8 ++
    leBytes 0x201001 8 ++ leBytes 0x02 8)
  let m := Map.setList 0 m 0x201000 (leBytes 0x1F 8 ++ leBytes 0x202001 8)
  Map.setList 0 m 0x202000 (leBytes 0x1F 8)
def mapped : State := { base with mem := tables }

theorem witness_Translation_walk : (∀ a, mapped.badAt a = false) ∧ (∀ b sh n, (fun b sh n => leNat (mapped.bytesAt (b + 8 * (0x100210000 / 2 ^ sh % 2 ^ n)) 8)) b sh n =
      leNat (mapped.bytesAt (b + 8 * (0x100210000 / 2 ^ sh % 2 ^ n)) 8)) ∧ 0x100000 + 2 ^ 14 ≤ 2 ^ 41 ∧
    0x200001 = leNat (mapped.bytesAt (0x100000 + 8 * (0x100210000 / 2 ^ 39 % 2 ^ 11)) 8) ∧
    0x201001 = leNat (mapped.bytesAt (0x200001 / 256 * 256 + 8 * (0x100210000 / 2 ^ 30 % 2 ^ 9)) 8) ∧
    0x202001 = leNat (mapped.bytesAt (0x201001 / 256 * 256 + 8 * (0x100210000 / 2 ^ 21 % 2 ^ 9)) 8) ∧
    0 = leNat (mapped.bytesAt (0x202001 / 256 * 256 + 8 * (0x100210000 / 2 ^ 16 % 2 ^ 5)) 8) ∧
    0x200001 % 256 = 1 ∧ 0x200001 / 256 * 256 % 4096 = 0 ∧ 0x202001 / 256 * 256 % 256 = 0 :=
  ⟨fun _ => rfl, fun _ _ _ => rfl, by decide, by decide +kernel, by decide +kernel, by decide +kernel, by decide +kernel, by decide, by decide,
    by decide⟩
/-- What a walk answers: the entry and the size of its page, or none. -/
def walked (va : Nat) : Option (Nat × Nat) := (mapped.walk va levels 0x100000).toOption
theorem test_walk : walked 0x123456 = some (0x1F, 2 ^ 30) ∧ walked 0x100012345 = some (0x1F, 2 ^ 21) ∧
    walked 0x100200000 = some (0x1F, 2 ^ 16) ∧ walked 0x140000000 = none := by decide +kernel

/-- Without the FABRIC group. -/
def plain : State := withDev fun d => { d with accept := 1 }
theorem witness_Translation_spaces : (mapped.core 0).queue = some 0 ∧ (mapped.queue 0).launch = some placedLaunch ∧ placedLaunch.tlb = [] ∧
    2 ^ 50 ≤ 2 ^ 63 - 1 ∧ 2 ^ 63 - 1 < 2 ^ 63 ∧ plain.accepts 5 = false ∧ mapped.accepts 5 = true ∧
    (2 ^ 63 + 2 ^ 50 * mapped.dev.mnum) / 2 ^ 50 % 2 ^ 13 = mapped.dev.mnum ∧ (2 ^ 64 - 1) / 2 ^ 50 % 2 ^ 13 ≠ mapped.dev.mnum ∧ Acc.rd ≠ .fetch := by
  decide +kernel

/-- A translation that answers a place of memory, for a form whose checks pass, reaches it. -/
theorem reaches {i : Instr} {s : State} {va : DWord} {pa n : Nat} {op : HomeOp} {q : State → Bool}
    (ha : i.access s = some (va, n, op)) (h1 : va.toNat % n = 0) (h2 : pa % n = 0) (h3 : i.soft.isSome = true → s.slot.freeEntry ≠ none)
    (h : okAnd (s.resolve s.issue.lid va.toNat op.acc) (fun u p => p == .memory pa && q u) = true) :
    ∃ u, Reaches i s u va pa n ∧ q u = true := by
  obtain ⟨u, p, hr, hp⟩ := okAnd_exists h
  obtain ⟨hp, hq⟩ := Bool.and_eq_true_iff.mp hp
  have : p = .memory pa := by simpa using hp
  exact ⟨u, ⟨op, ha, h1, h2, h3, this ▸ hr⟩, hq⟩

/-- An address for the global forms: a1 names 0x400000, whose words are 0x11223344 and 0x55667788. -/
def loaded : State := { (mapped.wra 1 0x400000) with mem := Map.setList 0 mapped.mem 0x400000 (leBytes 0x5566778811223344 8) }
/-- With every request entry taken. -/
def entriesFull : State := loaded.setSlot { loaded.slot with entries := (List.range 16).map fun e => (e, some ⟨.node, 0, 0⟩) }
/-- With the sector of 0x400000, or of the root of the page table, in error. -/
def badData : State := { loaded with bad := [(0x400000 / 32, true)] }
def badTable : State := { loaded with bad := [(0x100000 / 32, true)] }

theorem witness_AccessChecks : loaded.next ≠ END ∧ (Instr.ldg 2 5 1 2).access loaded = some (0x400002, 4, .load 4) ∧ (0x400002 : DWord).toNat % 4 ≠ 0 ∧
    (Instr.ldgtW 5 1 0).access entriesFull = some (0x400000, 4, .load 4) ∧ (Instr.ldgtW 5 1 0).soft.isSome = true ∧
    entriesFull.slot.freeEntry = none ∧ (Instr.ldg 2 5 1 0).soft = none ∧ (Instr.ldgtW 5 1 0).soft = some (5, 1) := by decide +kernel
theorem witness_AccessChecks_places : (∃ u c, loaded.resolve 0 0x8000000000 .rd = (u, .error c) ∧ (c == .xlate) = true) ∧
    (∃ u c, loaded.resolve 0 0x40000000 .rd = (u, .error c) ∧ (c == .prot) = true) ∧
    (∃ u c, badTable.resolve 0 0x400000 .rd = (u, .error c) ∧ (c == .memErr) = true) ∧
    (∃ u p, loaded.resolve 0 0xC0000040 .rd = (u, .ok p) ∧ (p == .object 0x40) = true) ∧
    (∃ u p, loaded.resolve 0 0x80000040 .wr = (u, .ok p) ∧ (p == .host 0x80000040) = true) ∧
    ∃ u p, badData.resolve 0 0x400000 .wr = (u, .ok p) ∧ (p == .memory 0x400000 && u.prompt && u.badIn 0x400000 4 && u.badPart 0x400000 4) = true :=
  ⟨errAnd_exists (by decide +kernel), errAnd_exists (by decide +kernel), errAnd_exists (by decide +kernel), okAnd_exists (by decide +kernel),
    okAnd_exists (by decide +kernel), okAnd_exists (by decide +kernel)⟩
theorem witness_AccessChecks_stgn : w64 ((loaded.a 1).toNat + 2) = 0x400002 ∧ (0x400002 : DWord).toNat % 2 ^ 2 ≠ 0 ∧
    (0x400002 : DWord).toNat % 128 ≠ 0 ∧ Z (loaded.g 4) % 128 = 0 ∧ ∃ u c, loaded.resolve 0 0x40000000 .wr = (u, .error c) ∧ (c == .prot) = true :=
  ⟨by decide +kernel, by decide, by decide, by decide +kernel, errAnd_exists (by decide +kernel)⟩

theorem witness_GlobalLoads : loaded.next ≠ END ∧
    (∃ u, Reaches (.ldg 2 5 1 0) loaded u 0x400000 0x400000 4 ∧ (u.prompt && !u.badIn 0x400000 4) = true) ∧
    (∃ u, Reaches (.ldg 3 4 1 0) loaded u 0x400000 0x400000 8 ∧ (u.prompt && !u.badIn 0x400000 8) = true) ∧
    (∃ u, Reaches (.ldgBS 1 5 1 6) loaded u 0x400006 0x400006 2 ∧ (u.prompt && !u.badIn 0x400006 2) = true) ∧
    (∃ u, Reaches (.ldgtW 5 1 0) loaded u 0x400000 0x400000 4 ∧ (u.prompt && !u.badIn 0x400000 4) = true) ∧
    ∃ u, Reaches (.ldgtD 4 1 0) loaded u 0x400000 0x400000 8 ∧ (u.prompt && !u.badIn 0x400000 8) = true := by
  refine ⟨by decide, reaches (op := .load 4) ?_ ?_ ?_ ?_ ?_, reaches (op := .load 8) ?_ ?_ ?_ ?_ ?_, reaches (op := .load 2) ?_ ?_ ?_ ?_ ?_,
    reaches (op := .load 4) ?_ ?_ ?_ ?_ ?_, reaches (op := .load 8) ?_ ?_ ?_ ?_ ?_⟩ <;> decide +kernel
theorem witness_GlobalLoads_copies : 0x40007F / 128 = 0x8000 ∧ (0x40007C + 4 - 1) / 128 = 0x8000 ∧ (∀ e ∈ loaded.teams, e.2.l2 = []) ∧
    ([⟨.memory 0x400004, 0x400004, [1, 2], 0, none⟩] : List SbEntry) = [] ++ ⟨.memory 0x400004, 0x400004, [1, 2], 0, none⟩ :: [] ∧
    0x400004 ≤ 0x400000 + 5 ∧ 0x400000 + 5 < 0x400004 + 2 ∧ 5 < [(0 : Byte), 0, 0, 0, 0, 0, 0, 0].length :=
  ⟨by decide, by decide, by decide +kernel, rfl, by decide, by decide, by decide⟩

theorem test_ldg_d : after (.ldg 3 4 1 0) loaded (fun t => t.g 4 == 0x11223344 && t.g 5 == 0x55667788 && t.slot.pc == 0x300002) = true := by
  decide +kernel
theorem test_ldg_sees_sbuf : after (.ldg 2 5 1 4) (loaded.setSlot { loaded.slot with sbuf := [⟨.memory 0x400005, 0x400005, [0xAA], 0, none⟩] }) (fun t =>
    t.g 5 == 0x5566AA88) = true := by decide +kernel
theorem test_ldgt_status : after (.ldgtW 5 1 0) (loaded.wra 1 0x40000000) (fun t => t.g 5 == 0 && t.g 6 == 3 && t.slot.tcause == 0) = true := by
  decide +kernel

theorem witness_StoresAndAtomics : loaded.issue.slot < 4 ∧
    (∃ u, Reaches (.stg 3 4 1 0) loaded u 0x400000 0x400000 8 ∧ (u.prompt && !u.badPart 0x400000 8) = true) ∧
    (∃ u, Reaches (.amcas true 2 1 0) loaded u 0x400000 0x400000 8 ∧ (u.prompt && !u.badPart 0x400000 8) = true) ∧
    (∃ u, Reaches (.amfadd 4 1 0) loaded u 0x400000 0x400000 4 ∧ (u.prompt && !u.badPart 0x400000 4) = true) ∧
    (∃ new, AtomicNew .add 4 0x11223344 1 0 new ∧ new < 2 ^ (8 * 4)) ∧ (∃ new, AtomicNew .xor 4 0x11223344 1 0 new ∧ new < 2 ^ (8 * 4)) ∧
    ∃ new, AtomicNew .min 4 0x11223344 0x80000000 0 new ∧ new < 2 ^ (8 * 4) := by
  refine ⟨by decide, reaches (op := .store (loaded.regBytes 4 2)) ?_ ?_ ?_ ?_ ?_,
    reaches (op := .atomic .cas 8 (loaded.regBytes 8 4)) ?_ ?_ ?_ ?_ ?_, reaches (op := .atomic .fadd 4 (loaded.regBytes 4 1)) ?_ ?_ ?_ ?_ ?_,
    ⟨0x11223345, by unfold AtomicNew; decide⟩,
    ⟨0x11223344 ^^^ 1, fun i => Nat.testBit_xor 0x11223344 1 i, by decide⟩, ⟨0x80000000, by unfold AtomicNew; decide⟩⟩ <;> decide +kernel

theorem test_stg_bytes : after (.stg 1 5 1 2) (loaded.wr 5 0xABCD1234) (fun t => t.bytesAt 0x400000 4 == [0x44, 0x33, 0x34, 0x12] &&
    (t.line 0x8000).wts == 1 && t.me.pts == 1) = true := by decide +kernel
theorem test_amadd : after (.amadd false 4 1 0) (loaded.wr 4 1) (fun t => t.g 4 == 0x11223344 && leNat (t.bytesAt 0x400000 4) == 0x11223345) = true := by
  decide +kernel
theorem test_amcas_differs : after (.amcas false 4 1 0) ((loaded.wr 4 1).wr 5 9) (fun t => t.g 4 == 0x11223344 && t.mem == loaded.mem) = true := by
  decide +kernel
theorem test_ammin_signed : after (.ammin false 4 1 0) (loaded.wr 4 0x80000000) (fun t => leNat (t.bytesAt 0x400000 4) == 0x80000000) = true := by
  decide +kernel

/-- A streaming buffer of `n` bytes to 0x400000 and on. -/
def buffered (n : Nat) : State := loaded.setSlot { loaded.slot with
  sbuf := (List.range n).map fun i => ⟨.memory (0x400000 + i), 0x400000 + u64 i, [0xEE], 3, none⟩ }

theorem witness_StreamingAndFences_stgn : loaded.next ≠ END ∧ w64 ((loaded.a 1).toNat + 4) = 0x400004 ∧ (2 : Nat) ≤ 3 ∧ (0x400004 : DWord).toNat % 2 ^ 2 = 0 ∧
    (buffered 7).slot.sbuf.length < 8 ∧ 8 ≤ (buffered 8).slot.sbuf.length ∧
    ∃ u p, loaded.resolve 0 0x400004 .wr = (u, .ok p) ∧ (p == .memory 0x400004) = true :=
  ⟨by decide, by decide, by decide, by decide, by decide, by decide, okAnd_exists (by decide +kernel)⟩
theorem witness_StreamingAndFences_drain : ((buffered 2).slotAt 0 0).sbuf[1]? = some ⟨.memory 0x400001, 0x400001, [0xEE], 3, none⟩ ∧
    (∀ f ∈ ((buffered 2).slotAt 0 0).sbuf.take 1, f.overlaps ⟨.memory 0x400001, 0x400001, [0xEE], 3, none⟩ = false) ∧
    (buffered 2).badPart 0x400001 1 = false ∧ badData.badPart 0x400001 1 = true ∧
    ((withSlot fun x => { x with sbuf := [⟨.host 5, 0x80000005, [1], 0, none⟩] }).slotAt 0 0).sbuf[0]? = some ⟨.host 5, 0x80000005, [1], 0, none⟩ := by
  decide +kernel
/-- Failures of levels 2 and 4 that a fence may collect. -/
def failed : State := withSlot fun x => { x with sfail := [⟨4, 7, 0x400000⟩, ⟨2, 8, 0x500000⟩] }
theorem witness_StreamingAndFences_fence : base.fenceBusy 6 = false ∧ (buffered 1).fenceBusy 6 = true ∧ (∀ f ∈ base.slot.sfail, 6 < f.level) ∧
    failed.fenceBusy 3 = false ∧ failed.slot.sfail = [⟨4, 7, 0x400000⟩] ++ ⟨2, 8, 0x500000⟩ :: [] ∧
    (∀ g ∈ [(⟨4, 7, 0x400000⟩ : SFail)], 3 < g.level) ∧ 2 ≤ 3 ∧ 8 ∈ [5, 6, 7, 8] ∧ statInh failed.slot.stat = 0 ∧ failed.issue.slot < 4 := by
  decide +kernel
theorem witness_StreamingAndFences_clocks : (base.core 0).queue ≠ none ∧ (base.core 0).exited = false ∧ (base.core 0).swapped = false ∧
    base.maxOffset ≤ 2 ^ 31 ∧ 2 ^ 31 < (withCore fun c => { c with pts := 2 ^ 31 + 1 }).maxOffset := by decide +kernel

theorem test_stgn_buffers : after (.stgn 0 5 1 0) (loaded.wr 5 0xEE) (fun t => t.mem == loaded.mem && t.slot.sbuf.map (·.data) == [[0xEE]]) = true := by
  decide +kernel
theorem test_fence_collects : after (.fence 3) failed (fun t => t.slot.tcause == 8 && t.slot.tval == 0x500000 && t.slot.tepc == 0x300000 &&
    t.slot.sfail.map (·.level) == [4]) = true := by decide +kernel
theorem test_clkj : after (.clkj 4) ((withCore fun c => { c with pts := 9 }).wr 4 5) (fun t => t.g 4 == 9 && t.me.pts == 9) = true := by decide +kernel

/-- The lines of a `discard` under way to their homes. -/
def discarded (id : Nat) : HomeReq := ⟨id, 0, 0, 16, 0, 0x400000, .discard, 0, 0, none⟩
def discarding : State := { loaded with reqs := [discarded 7, { discarded 8 with pa := 0x400080 }] }

theorem witness_DiscardAndErrors : loaded.next ≠ END ∧ w64 ((loaded.a 1).toNat + 0) = 0x400000 ∧ (0x400000 : DWord).toNat % 128 = 0 ∧
    Z ((loaded.wr 4 256).g 4) % 128 = 0 ∧ Z (loaded.g 4) = 0 ∧ ErrPlace.memory ≠ .link ∧
    (∃ u ls, (loaded.wr 4 256).discardPlan 0x400000 0x400000 2 = (u, .ok ls) ∧ (u.prompt && ls.all fun pa => pa % 128 == 0) = true) ∧
    (∃ u ls, ({ loaded.wr 4 256 with prompt := false } : State).discardPlan 0x400000 0x400000 2 = (u, .ok ls) ∧
      (!u.prompt && ls == [0x400000, 0x400080]) = true) ∧
    (discarding.reqOf 8 = some { discarded 8 with pa := 0x400080 } ∧ discarding.reqs = [discarded 7] ++ { discarded 8 with pa := 0x400080 } :: [] ∧
      { discarded 8 with pa := 0x400080 } ∉ [discarded 7] ∧ discarded 7 ∈ [discarded 7] ∧ (discarded 7).answer = none) ∧
    ∃ u e, (loaded.wr 4 256).discardPlan 0x3FFFFF80 0x3FFFFF80 2 = (u, .error e) ∧ (e == (.prot, 0x40000000)) = true :=
  ⟨by decide, by decide, by decide, by decide, by decide +kernel, by decide, okAnd_exists (by decide +kernel), okAnd_exists (by decide +kernel),
    ⟨by decide +kernel, rfl, by decide, by decide, rfl⟩, errAnd_exists (by decide +kernel)⟩
theorem test_discard_past_page : after (.discard 4 1 0) ((loaded.wr 4 256).wra 1 0x3FFFFF80) (fun t => t.slot.tcause == 6 && t.slot.tval == 0x40000000 &&
    t.mem == loaded.mem) = true := by decide +kernel

/-- A load under way to its home for slot 0, its answer, and the state that has them. -/
def homeReply : Reply := ⟨0, 0, 16, 0, 0, [1, 2, 3, 4], 9⟩
def homeLoad : HomeReq := ⟨7, 0, 0, 16, 0, 0x400000, .load 4, 0, 0, none⟩
def asking (q : HomeReq) (i : Instr) : State :=
  { loaded.setSlot { loaded.slot with wait := some ⟨false, false, i, 0x300000, 4, 0, false, 0, []⟩ } with reqs := [q] }

theorem witness_HomesAndHost : (∃ u, Reaches (.ldg 2 5 1 0) { loaded with prompt := false } u 0x400000 0x400000 4 ∧ (!u.prompt) = true) ∧
    (asking homeLoad (.ldg 2 5 1 0)).reqOf 7 = some homeLoad ∧ homeLoad.op = .load 4 ∧ (asking homeLoad (.ldg 2 5 1 0)).badIn homeLoad.pa 4 = false ∧
    (asking { homeLoad with op := .store [1] } (.stg 0 5 1 0)).reqOf 7 = some { homeLoad with op := .store [1] } ∧
    (asking { homeLoad with op := .atomic .add 4 [1, 0, 0, 0] } (.amadd false 5 1 0)).reqOf 7 = some { homeLoad with op := .atomic .add 4 [1, 0, 0, 0] } ∧
    ({ loaded with reqs := [homeLoad] } : State).reqOf 7 = some homeLoad ∧ (({ loaded with reqs := [homeLoad] } : State).slotAt 0 0).wait = none ∧
    ({ asking homeLoad (.ldg 2 5 1 0) with bad := [(0x400000 / 32, true)] } : State).badIn homeLoad.pa 4 = true ∧
    ({ asking homeLoad (.ldg 2 5 1 0) with bad := [(0x400000 / 32, true)] } : State).badPart homeLoad.pa 4 = true := by
  refine ⟨reaches (op := .load 4) ?_ ?_ ?_ ?_ ?_, ?_, ?_, ?_, ?_, ?_, ?_, ?_, ?_, ?_⟩ <;> decide +kernel
theorem witness_HomesAndHost_fits : Fits (asking homeLoad (.ldg 2 5 1 0)) (max ((asking homeLoad (.ldg 2 5 1 0)).core 0).pts homeLoad.clock + (asking homeLoad (.ldg 2 5 1 0)).leaseOf 0) ∧
    Fits loaded (homeLoad.clock + loaded.leaseOf 0) ∧ loaded.base ≤ loaded.base + homeLoad.clock ∧ Fits loaded (loaded.me.pts + loaded.leaseOf 0) ∧
    Fits loaded (max loaded.me.pts ((loaded.line 0x8000).rts + 1)) ∧ ¬Fits loaded (loaded.base + 2 ^ 32) :=
  ⟨by unfold Fits; decide +kernel, by unfold Fits; decide +kernel, by omega, by unfold Fits; decide +kernel, by unfold Fits; decide +kernel,
    by unfold Fits; omega⟩
theorem witness_HomesAndHost_reply : (asking { homeLoad with answer := some homeReply } (.ldg 2 5 1 0)).reqs = [] ++ { homeLoad with answer := some homeReply } :: [] ∧
    homeReply.entry = 16 ∧ homeLoad.op ≠ .discard ∧ homeReply.status = 0 ∧ homeReply.data.length = 2 ^ 2 ∧
    ((asking { homeLoad with answer := some homeReply } (.ldg 2 5 1 0)).slotAt 0 0).wait = some ⟨false, false, .ldg 2 5 1 0, 0x300000, 4, 0, false, 0, []⟩ ∧
    ((asking { homeLoad with answer := some homeReply } (.ldg 2 5 1 0)).slotAt 0 0).sbuf = [] ∧ (0x300000 : DWord) + u64 4 ≠ END ∧ homeReply.slot < 4 ∧
    (Instr.amadd false 5 1 0).atomic = some (.add, false, 5, 1, 0) ∧ AtOp.add ≠ .fadd := by decide +kernel
/-- A load of host memory that the host owes. -/
def hostLoading : State := { loaded.setSlot { loaded.slot with wait := some ⟨false, false, .ldg 2 5 1 0, 0x300000, 4, 0, false, 0, []⟩ } with
  hostLoads := [⟨0, 0, 0x80000040, 4, none, 0, 0⟩] }
/-- A store to host memory that has not left the port. -/
def hostStoring : State := { loaded.setSlot { loaded.slot with wait := some ⟨false, false, .stg 2 5 1 0, 0x300000, 4, 0, false, 0, []⟩ } with
  posted := [⟨0, 0, 0x80000040, [1, 2, 3, 4]⟩] }
theorem witness_HomesAndHost_host : w64 ((loaded.a 1).toNat + (0x7FC00040 : Int)) = 0x80000040 ∧ (0x80000040 : DWord).toNat % 2 ^ 2 = 0 ∧
    (∃ u p, loaded.resolve 0 0x80000040 .rd = (u, .ok p) ∧ (p == .host 0x80000040 && u.prompt) = true) ∧
    hostLoading.hostLoads = [] ++ ⟨0, 0, 0x80000040, 4, none, 0, 0⟩ :: [] ∧
    (hostLoading.slotAt 0 0).wait = some ⟨false, false, .ldg 2 5 1 0, 0x300000, 4, 0, false, 0, []⟩ ∧ (hostLoading.slotAt 0 0).sbuf = [] ∧
    statInh (hostLoading.slotAt 0 0).stat = 0 ∧ hostStoring.posted = [] ++ ⟨0, 0, 0x80000040, [1, 2, 3, 4]⟩ :: [] ∧
    (hostStoring.slotAt 0 0).wait = some ⟨false, false, .stg 2 5 1 0, 0x300000, 4, 0, false, 0, []⟩ ∧
    (∃ u p, ({ loaded with prompt := false } : State).resolve 0 0x80000040 .wr = (u, .ok p) ∧ (p == .host 0x80000040 && !u.prompt) = true) :=
  ⟨by decide, by decide, okAnd_exists (by decide +kernel), rfl, by decide +kernel, by decide +kernel, by decide, rfl, by decide +kernel, okAnd_exists (by decide +kernel)⟩

theorem test_memory_reply : (match execMemoryReply homeReply (asking { homeLoad with answer := some homeReply } (.ldg 2 5 1 0)) with
    | .next t => Map.get 0 (t.slotAt 0 0).regs 5 == 0x04030201 && (t.core 0).pts == 9 && (t.slotAt 0 0).pc == 0x300004 && t.reqs == []
    | _ => false) = true := by decide +kernel

/-- The reply to a remote pool atomic of slot 0, entry 3, and to a clause. -/
def replyFlit : Flit := ⟨0, 9, .reply, 2, 1, 0, 5, 42, 0, 0, 0, 0⟩
def replied (u : EntryUse) (w : Option Wait) : State :=
  { base.setSlot { base.slot with entries := [(3, some ⟨u, 7, 1⟩)], wait := w } with flight := [⟨replyFlit, none, 0, 0, 3, 7⟩] }
def atomicWait : Wait := ⟨false, true, .amaddRemote false 4 5 7 0, 0x300000, 6, 0, false, 0, []⟩

theorem witness_PoolAtomicsAndDeadlines : (Instr.amaddRemote false 4 5 7 0, AtOp.add, 0x0A) ∈ [(Instr.amaddRemote false 4 5 7 0, AtOp.add, 0x0A)] ∧
    0x5FFC % 4 = 0 ∧ 0x5FFC + 4 ≤ 0x6000 ∧ hndEnd base.me.part ≤ 0x5FFC ∧ PortFree base base.issue.lid true ∧
    ¬PortFree holding holding.issue.lid true ∧ FreeEntry base.slot 0 ∧ (∀ e, e < 16 → Map.get none entriesFull.slot.entries e ≠ none) ∧
    (withFlit atomicFlit base).inFlight atomicFlit = some ⟨atomicFlit, none, 0, 0, 0, 0⟩ ∧ atomicFlit.ksf / 256 = 4 := by
  unfold PortFree FreeEntry; decide +kernel
theorem witness_PoolAtomicsAndDeadlines_arrives : Arrives ⟨atomicFlit, none, 0, 0, 0, 0⟩ (withFlit atomicFlit base) base.me .system 0 :=
  ⟨by decide +kernel, rfl, rfl, rfl, by decide +kernel, rfl, staying (by decide), clocked (by decide)⟩
/-- A core whose open queue holds the request of an atomic, and one whose run queue is full. -/
def queuedAtomic : State := withCore fun c => { c with entryOver := true, runq := [⟨.atomic, 1, 0, [], some atomicFlit, 0, 3, 7⟩] }
def queueFull : State := withFlit atomicFlit (withCore fun c => { c with runq := List.replicate 64 ⟨.local, 1, 0, [], none, 0, 0, 0⟩ })
theorem witness_PoolAtomicsAndDeadlines_owner : (queuedAtomic.core 0).open_ = true ∧ (queuedAtomic.core 0).pts - queuedAtomic.base < 2 ^ 32 ∧
    pickEntry QEntry.isClause (queuedAtomic.core 0).runq = some ⟨.atomic, 1, 0, [], some atomicFlit, 0, 3, 7⟩ ∧
    64 ≤ (queueFull.core 0).runq.length ∧ queueFull.fate 0 0 = .here := by decide +kernel
theorem witness_PoolAtomicsAndDeadlines_reply : (replied (.poolAtomic 9 0x1000) (some atomicWait)).inFlight replyFlit = some ⟨replyFlit, none, 0, 0, 3, 7⟩ ∧
    3 = 16 * 0 + 3 ∧ Map.get none ((replied (.poolAtomic 9 0x1000) (some atomicWait)).slotAt 0 0).entries 3 = some ⟨.poolAtomic 9 0x1000, 7, 1⟩ ∧
    ((replied (.poolAtomic 9 0x1000) (some atomicWait)).slotAt 0 0).wait = some atomicWait ∧ atomicWait.instr.poolAtomic = some (.add, false, 4) ∧
    atomicWait.start + u64 atomicWait.length ≠ END ∧
    Map.get none ((replied (.clause 9) none).slotAt 0 0).entries 3 = some ⟨.clause 9, 7, 1⟩ ∧
    ((replied (.clause 9) none).core replyFlit.src).pts - base.base < 2 ^ 32 := by decide +kernel
theorem witness_PoolAtomicsAndDeadlines_free : (∀ q, (replied (.poolAtomic 9 0x1000) (some atomicWait)).fate 0 0 ≠ .spill q) ∧
    (∀ q, (replied (.clause 9) none).fate 0 0 ≠ .spill q) ∧ Clocked (replied (.poolAtomic 9 0x1000) (some atomicWait)) ∧ Clocked (replied (.clause 9) none) :=
  ⟨fun q h => Fate.noConfusion (h.symm.trans (by decide : (replied (.poolAtomic 9 0x1000) (some atomicWait)).fate 0 0 = .here)),
    fun q h => Fate.noConfusion (h.symm.trans (by decide : (replied (.clause 9) none).fate 0 0 = .here)), clocked (by decide), clocked (by decide)⟩
theorem witness_PoolAtomicsAndDeadlines_deadline : (replied (.access 0) (some { atomicWait with instr := .ldg 2 5 1 0 })).dev.mnum = 0 ∧
    w64 ((Map.get 0 ((base.wra 1 0xFFFC000000000000).slotAt 0 0).aregs 1).toNat + 0) = 0xFFFC000000000000 ∧ 2 ^ 63 ≤ (0xFFFC000000000000 : DWord).toNat ∧
    (0xFFFC000000000000 : DWord).toNat / 2 ^ 50 % 2 ^ 13 ≠ base.dev.mnum ∧ statInh (base.slotAt 0 0).stat = 0 ∧
    Map.get none ((replied (.stream 1 0) none).slotAt 0 0).entries 3 = some ⟨.stream 1 0, 7, 1⟩ ∧
    Map.get none ((replied .abandoned none).slotAt 0 0).entries 3 = some ⟨.abandoned, 7, 1⟩ ∧ 1 < 5 ∧ 5 ≤ 5 := by decide +kernel

theorem test_atomic_reply : (match execRemoteAtomicReply replyFlit (replied (.poolAtomic 9 0x1000) (some atomicWait)) with
    | .next t => Map.get 0 (t.slotAt 0 0).regs 4 == 42 && (t.slotAt 0 0).pc == 0x300006 && (t.slotAt 0 0).entries == [] && (t.core 0).pts == 5
    | _ => false) = true := by decide +kernel
theorem test_remote_atomic_align : after (.amaddRemote false 4 5 7 0) ((base.wr 5 0x1002).wr 7 9) (fun t =>
    t.slot.tcause == 3 && t.slot.tval == 0x0000000900001002) = true := by decide +kernel

/-- A record of a launch with a handler table of one entry, at `va`. -/
def tabled (va : Nat) : List Byte := recordBytes 0x34100000 |>.take 8 |>.append (leBytes va 8 ++ ((recordBytes 0x34100000).drop 16).take 32 ++ leBytes 1 2 ++
  List.replicate 14 0)
theorem witness_Launching_tables : (tabled 0x400000).length = 64 ∧ leNat (((tabled 0x400000).drop 0x30).take 2) = 1 ∧
    (mapped.tableBytes 0x100000 0x8000000000 8).2 = none ∧ ((loaded.tableBytes 0x100000 0x400000 8).2.map fun tb => leNat (tb.take 8) % 2) = some 0 ∧
    (({ loaded with mem := Map.setList 0 loaded.mem 0x400000 [1] } : State).tableBytes 0x100000 0x400000 8).2.map (fun tb => leNat (tb.take 8) % 2) = some 1 ∧
    (base.dev.tcnt < 0x100001 ∧ 1 ≤ base.dev.tcnt ∧ (0x80000000 : Nat).testBit 31 = true ∧ (0x7 : Nat).testBit 4 = false ∧
      base.dev.accept.getLsbD 31 = false ∧ (base.queue 0).launch ≠ none ∧ (base.queue 1).launch = none ∧ (base.queue 1).rst = false) :=
  ⟨by decide, by decide, by decide +kernel, by decide +kernel, by decide +kernel, by decide +kernel⟩
/-- R176: the statuses 3, 4 and 5 of a refused record, whose message goes to the host. -/
def refusedAs (q : Nat) (bs : List Byte) : Option Nat :=
  match execLaunchRecord q bs base with
  | .next t => match t.hostOut with
    | [.data _ r, .msix _] => some (leNat ((r.drop 4).take 4))
    | _ => none
  | _ => none
theorem test_record_refused : refusedAs 1 ((recordBytes 0x34100000).set 0x1E 0x10) = some 3 ∧ refusedAs 1 ((recordBytes 0x34100000).set 0x37 0x80) = some 4 ∧
    refusedAs 0 ((recordBytes 0x34100000).set 0x18 0) = some 5 := by decide +kernel

/-! ### The yoke (R221 to R238) -/

/-- A context with a lease of `m`, and an operand block at 0x2800 whose A rows stand at 0x2000. -/
def leased (m : Nat) : State :=
  let s := withCore fun c => { c with pool := Map.setList 0 [] 0x2800 (leBytes 0x2000 4) }
  s.setSlot { s.slot with lease := some m }

/-- A core with one job of a kind and state. -/
def working (k : YKind) (st : YState) : State := withCore fun c => { c with jobs := [⟨3, k, st, 0, 0, List.replicate 32 0, [], 0, 0, 0, 0, [], none⟩] }

theorem witness_YokeCommandForms_lease : base.next ≠ END ∧ base.accepts 2 = true ∧
    (base.setSlot { base.slot with yask := some 16, wait := some ⟨false, false, .ylease 16, 0x300000, 4, 0, false, 0, []⟩ }).nextAsk 0 =
      some (0, 0, ⟨false, false, .ylease 16, 0x300000, 4, 0, false, 0, []⟩, 16) ∧ (0x300000 : DWord) + u64 4 ≠ END ∧
    base.yokeLoad 0 + 16 ≤ 16 ∧ 16 < (leased 1).yokeLoad 0 + 16 ∧ base.nextAsk 0 = none := by decide +kernel
theorem witness_YokeCommandForms : base.slot.lease = none ∧ (leased 1).slot.lease = some 1 ∧ 0x901 % 256 ≠ 0 ∧ 0x900 % 256 = 0 ∧
    ¬(accBase base.me.part ≤ 0x1600 ∧ 0x1600 + 1024 ≤ accBase base.me.part + partAcc base.me.part) ∧
    (accBase base.me.part ≤ 0x1500 ∧ 0x1500 + 1024 ≤ accBase base.me.part + partAcc base.me.part) ∧ 0x5C00 % 4 = 0 ∧
    1024 = 128 * poolHalves (Z base.me.yfmt / 2 ^ 10 % 2 ^ 5) ∧ (hndEnd base.me.part ≤ 0x5C00 ∧ 0x5C00 + 1024 ≤ 0x6000) ∧
    ¬(hndEnd base.me.part ≤ 0x5C04 ∧ 0x5C04 + 1024 ≤ 0x6000) := by decide +kernel
theorem witness_YokeCommandForms_ymma : 0x10900 < 2 ^ 24 ∧ 0 < 0x10900 / 2 ^ 16 % 2 ^ 8 ∧ 0x10900 / 2 ^ 16 % 2 ^ 8 ≤ 2 ∧ 0x10900 % 2 ^ 16 % 256 = 0 ∧
    0x2800 % 32 = 0 ∧ hndEnd base.me.part ≤ 0x2800 ∧ leNat (Map.getList 0 (leased 1).me.pool 0x2800 4) = 0x2000 ∧
    (∀ i, i < 16 → (0x2000 + i * (16 * 1 * poolHalves 0 / 2)) % max (poolHalves 0 / 2) 1 = 0 ∧ hndEnd base.me.part ≤ 0x2000 + i * (16 * 1 * poolHalves 0 / 2) ∧
      0x2000 + i * (16 * 1 * poolHalves 0 / 2) + 16 * 1 * poolHalves 0 / 2 ≤ 0x6000) ∧ base.me.yfmt.getLsbD 15 = false ∧
    (∀ i, i < 16 → hndEnd base.me.part ≤ 0x3000 + i * 4 ∧ 0x3000 + i * 4 + (1 + 1) / 2 ≤ 0x6000) ∧
    0x2001 % max (poolHalves 0 / 2) 1 ≠ 0 ∧ 0x0 % max (poolHalves 0 / 2) 1 = 0 ∧ ¬hndEnd base.me.part ≤ 0x0 ∧ 0x5C01 % 4 ≠ 0 ∧
    (0x8000 : Word).getLsbD 15 = true ∧ ¬(hndEnd base.me.part ≤ 0x6000 ∧ 0x6000 + (1 + 1) / 2 ≤ 0x6000) := by decide +kernel

theorem test_nolease : after (.yzero 4) (base.wr 4 0x900) (fun t => t.slot.tcause == 9) = true := by decide +kernel
theorem test_yzero_accepted : after (.yzero 4) ((leased 1).wr 4 0x1500) (fun t => t.slot.lease == none && t.slot.yjob == u32 base.me.nextJob &&
    t.me.jobs.map (·.kind) == [.zero 0x1500]) = true := by decide +kernel

theorem witness_YokeForms : (∀ i, i < 16 → (0x2000 + i * 64) % max (poolHalves (Z base.me.yfmt / 2 ^ 5 % 2 ^ 5) / 2) 1 = 0 ∧
      hndEnd base.me.part ≤ 0x2000 + i * 64 ∧ 0x2000 + i * 64 + 8 * poolHalves (Z base.me.yfmt / 2 ^ 5 % 2 ^ 5) ≤ 0x6000) ∧
    (∃ j ∈ (working (.mma false false 1 0x900) .queued).me.jobs, j.state = .queued ∧ ∃ ra k c, j.kind = .mma ra false k c) ∧
    (∀ j ∈ base.me.jobs, j.state = .queued → ∀ ra k c, j.kind ≠ .mma ra false k c) ∧ base.me.jobOf 0 = none ∧
    ((working (.zero 0x900) .stopped).me.jobOf 3).map (·.state) = some .stopped ∧
    ((working (.zero 0x900) .complete).me.jobOf 3).map (·.state) = some .complete ∧
    ((working (.zero 0x900) .queued).me.jobOf 3).map (·.state) = some .queued ∧ (leased 1).slot.lease = some 1 ∧ 2 ^ 9 ≤ 0x200 ∧ 0x103 < 2 ^ 9 :=
  ⟨by decide +kernel, ⟨_, List.Mem.head _, rfl, false, 1, 0x900, rfl⟩, fun _ h => absurd h (List.not_mem_nil), by decide +kernel, by decide +kernel,
    by decide +kernel, by decide +kernel, by decide +kernel, by decide, by decide⟩

theorem test_yprog_stopped : after (.yprog 4) ((working (.zero 0x900) .stopped).wr 4 3) (fun t => t.g 4 == 0x200) = true := by decide +kernel
theorem test_yfmt_returns_old : after (.yfmt 4) ((withCore fun c => { c with yfmt := 0x421 }).wr 4 0x14A) (fun t => t.g 4 == 0x421 &&
    t.me.yfmt == 0x14A) = true := by decide +kernel

/-- Core 1 runs beside core 0 and has not issued `yrot`. -/
def pair : State := base.setCore 1 { placedCore0 with index := 1 }
theorem witness_YokeWork_alone : base.issue.since = none ∧ (∀ k, k < 4 → k ≠ base.issue.slot → ∀ w, ((base.core 0).slot k).wait = some w → w.instr ≠ .yrot) ∧
    ∀ p, p ≠ base.issue.lid → p / 8 = base.issue.lid / 8 → (base.core p).queue = none := by
  refine ⟨by decide, fun k hk _ w h => ?_, fun p hp hm => ?_⟩
  · have : ((base.core 0).slot k).wait = none := by
      have : k = 0 ∨ k = 1 ∨ k = 2 ∨ k = 3 := by omega
      rcases this with rfl | rfl | rfl | rfl <;> decide +kernel
    rw [this] at h; cases h
  · have hl : base.issue.lid = 0 := by decide
    rw [hl] at hp hm
    have : p = 1 ∨ p = 2 ∨ p = 3 ∨ p = 4 ∨ p = 5 ∨ p = 6 ∨ p = 7 := by omega
    rcases this with rfl | rfl | rfl | rfl | rfl | rfl | rfl <;> decide +kernel
theorem witness_YokeWork_pair : (1 : Nat) ≠ pair.issue.lid ∧ 1 / 8 = pair.issue.lid / 8 ∧ (pair.core 1).queue ≠ none ∧ (pair.core 1).exited = false ∧
    (pair.core 1).forward = none ∧ (pair.core 1).swapped = false ∧ ∀ k, k < 4 → ((pair.core 1).slot k).wait = none := by decide +kernel
/-- Core 1 waits in `yrot` since order stamp 3. -/
def pairRot : State := base.setCore 1 ({ placedCore0 with index := 1 }.setSlot 0
  { base.slot with wait := some ⟨true, false, .yrot, 0x300000, 4, 0, false, 3, []⟩ })
theorem witness_YokeWork_ask : (pairRot.core 1).rotator none = some (0, ⟨true, false, .yrot, 0x300000, 4, 0, false, 3, []⟩) ∧
    (∃ k, k < 4 ∧ ∃ w, ((pairRot.core 1).slot k).wait = some w ∧ w.instr = .yrot) ∧ (pairRot.core 1).queue ≠ none ∧
    (pairRot.core 1).forward = none ∧ (0x300000 : DWord) + u64 4 ≠ END :=
  ⟨by decide +kernel, ⟨0, by decide, _, rfl, rfl⟩, by decide, by decide, by decide⟩
/-- The yoke serves core 0 first, and after that core 1. -/
def twoJobs (n : Nat) : State := { (working (.zero 0x900) .queued).setCore 1 (working (.zero 0x900) .queued).me with
  teams := [(0, { Team.empty with yserved := n })] }
theorem witness_YokeWork_turn : ((twoJobs 0).turnJob 0).isSome = true ∧ (twoJobs 0).turnJob 1 = none ∧ ((twoJobs 1).turnJob 1).isSome = true ∧
    (twoJobs 1).turnJob 0 = none ∧ ((twoJobs 2).turnJob 0).isSome = true := by decide +kernel
theorem witness_YokeWork_fits : Fits (working (.zero 0x900) .queued) (0 + (working (.zero 0x900) .queued).leaseOf 0) := by
  unfold Fits; decide +kernel
/-- A job of a remote A operand, whose layout record at address 0 is not valid. -/
theorem witness_YokeWork_units : ((working (.zero 0x900) .queued).core 0).readyJob.isSome = true ∧ 0x900 % 4 = 0 ∧
    ((working (.store 0x900 0x2000) .queued).core 0).readyJob.isSome = true ∧ Z (0 : Word) / 2 ^ 10 % 2 ^ 5 ≤ 0x0A ∧ 0x2000 % 4 = 0 ∧
    ((working (.mma false false 1 0x900) .queued).core 0).readyJob = some ⟨3, .mma false false 1 0x900, .queued, 0, 0, List.replicate 32 0, [], 0, 0, 0, 0, [], none⟩ ∧
    (∃ u x, (working (.mma false false 1 0x900) .queued).kOperands 0 none ⟨3, .mma false false 1 0x900, .queued, 0, 0, List.replicate 32 0, [], 0, 0, 0, 0, [], none⟩
      false false 1 = (u, .ok x) ∧ (x.sa.getD 3 0 == 127) = true) ∧
    ∃ u e, (working (.mma true false 1 0x900) .queued).kOperands 0 none ⟨3, .mma true false 1 0x900, .queued, 0, 0, List.replicate 32 0, [], 0, 0, 0, 0, [], none⟩
      true false 1 = (u, .error e) ∧ (e.1 == .illegal) = true :=
  ⟨by decide +kernel, by decide, by decide +kernel, by decide, by decide, by decide +kernel, okAnd_exists (by decide +kernel), errAnd_exists (by decide +kernel)⟩

/-- R42's example: A's row 0 holds 1, 2^-12, 2^-12 (here the pool's row at 0x2000) and B's column 0 the same (the latch); an accumulator
of 0 becomes 0x3F80_0001. -/
def summed : State := withCore fun c => { c with
  pool := Map.setList 0 [] 0x2000 (leBytes 0x3F800000 4 ++ leBytes 0x39800000 4 ++ leBytes 0x39800000 4),
  latch := [(0, 0x3F800000), (16, 0x39800000), (32, 0x39800000)],
  jobs := [⟨3, .mma false false 1 0x900, .queued, 0, 0, leBytes 0x2000 4 ++ leBytes 64 4 ++ List.replicate 24 0, [], 0, 0, 0, 0, [], none⟩] }
theorem test_kstep : okAnd (summed.kOperands 0 none ((summed.core 0).jobs.headD ⟨0, .zero 0, .queued, 0, 0, [], [], 0, 0, 0, 0, [], none⟩) false false 1) (fun _ o =>
    (kElement 0 (o.a.getD 0 []) (o.b.map fun r => r.getD 0 (.nan false)) (o.sa.getD 0 127) (o.sb.getD 0 127)).1 == 0x3F800001) = true := by
  decide +kernel

/-! ### The tug and transaction barriers (R240 to R248) -/

/-- A core with one transfer of a state and operation, and KDST with a barrier at 0x1380 where `b` holds. -/
def copying (st : XState) (op : DWord) : State :=
  withCore fun c => { c with xfers := [⟨4, st, 0x400000, 0, op, 0, [], [], [], 1, 0, 0, 0, 6, [], [], [], none⟩] }
def tugging (lay dst : DWord) : State := withSlot fun x => { x with klay := lay, kdst := dst }
def tugFull : State := withCore fun c => { c with xfers := List.replicate 32 ⟨4, .queued, 0, 0, 0, 0, [], [], [], 0, 0, 0, 0, 0, [], [], [], none⟩ }

theorem witness_TugCommandForms : base.next ≠ END ∧ base.accepts 3 = true ∧ 0x5FD0 + 48 ≤ 0x6000 ∧ 32 ≤ tugFull.tugLoad (tugFull.issue.lid / 8) ∧
    ¬32 ≤ base.tugLoad (base.issue.lid / 8) ∧ (tugging 3 0).slot.klay.toNat % 4 = 3 ∧ (tugging 0 0).slot.kdst.getLsbD 16 = false ∧
    (tugging 0 0x02710400).slot.kdst.getLsbD 16 = true ∧ 16 * ((tugging 0 0x02710400).slot.kdst.toNat / 2 ^ 17 % 2 ^ 11) = 0x1380 ∧
    (tugging 0 0x02710400).slot.klay.toNat % 4 ≠ 3 ∧ 0x6000 < 0x5FD8 + 48 ∧ hndEnd base.me.part ≤ 0x1380 ∧ 0x380 < hndEnd base.me.part := by decide +kernel
theorem witness_TugCommandForms_waits : base.me.xferOf 4 = none ∧ (((copying .queued 0).me.xferOf 4).map (·.state)) = some .queued ∧
    (((copying .complete 0).me.xferOf 4).map (·.state)) = some .complete ∧ (((copying .stopped 0).me.xferOf 4).map (·.state)) = some .stopped := by
  decide +kernel

theorem test_kgo_announces : after (.kgo 7) (tugging 0 0x02710400) (fun t => t.g 7 == u32 base.me.nextXfer && Map.get 0 t.me.pool 0x1381 == 1 &&
    t.me.xfers.map (·.state) == [.queued]) = true := by decide +kernel
theorem test_kwait_clock : after (.kwait 4) ((copying .complete 0).wr 4 4) (fun t => t.me.pts == 6 && t.slot.pc == 0x300002) = true := by decide +kernel
theorem test_tbarr_completes : after (.tbarr 5 6) (((withCore fun c => { c with pool := Map.setList 0 [] 0x1380 (leBytes 0 4 ++ leBytes 1 4 ++ leBytes 0 4 ++ leBytes 1 4) }).wr 5 1).wr 6 0x1380) (fun t =>
    t.g 5 == 0 && poolWord t.me.pool 0x1380 == 1 && poolWord t.me.pool 0x1384 == 1) = true := by decide +kernel

theorem witness_TugTransfers : (copying .queued 2).activeXfer 0 4 = some ⟨4, .queued, 0x400000, 0, 2, 0, [], [], [], 1, 0, 0, 0, 6, [], [], [], none⟩ ∧
    (⟨4, .queued, 0x400000, 0, 2, 0, [], [], [], 1, 0, 0, 0, 6, [], [], [], none⟩ : Xfer).barrier = none ∧
    (∃ u r, (copying .queued 2).sizeXfer 0 ⟨4, .queued, 0x400000, 0, 2, 0, [], [], [], 1, 0, 0, 0, 6, [], [], [], none⟩ none = (u, .ok r) ∧ (r == ([], 1)) = true) ∧
    (∃ u e, (copying .queued 0).sizeXfer 0 ⟨4, .queued, 0x400000, 0, 0, 0, [], [], [], 1, 0, 0, 0, 6, [], [], [], none⟩ none = (u, .error e) ∧ (e.1 == .illegal) = true) ∧
    (∃ u r, (copying .sized 2).tableImage 0 ⟨4, .sized, 0x300000, 0, 2, 0, [], [], [], 1, 0, 0, 0, 6, [], [], [], none⟩ none = (u, .ok r) ∧ (r.1.length == 1024) = true) ∧
    7 ≤ 0x0A ∧ 0x2001 % poolHalves 7 = 0 :=
  ⟨by decide +kernel, by decide +kernel, okAnd_exists (by decide +kernel), errAnd_exists (by decide +kernel), okAnd_exists (by decide +kernel),
    by decide, by decide⟩
theorem witness_TugTransfers_sector : ∃ u w ls, (copying .sized 0).nextSector 0 ⟨4, .sized, 0x400000, 0, 0, 0, [], [], [], 1, 0, 0, 0, 6, [], [], [], none⟩ none = (u, w, ls, none) := by
  have h : ((copying .sized 0).nextSector 0 ⟨4, .sized, 0x400000, 0, 0, 0, [], [], [], 1, 0, 0, 0, 6, [], [], [], none⟩ none).2.2.2 = none := by decide +kernel
  exact ⟨_, _, _, by rw [← h]⟩
/-- A state and a value that a computation answers without a failure. -/
theorem unfailed {α β : Type} {r : State × α × Option β} {q : State → α → Bool} (h : (r.2.2.isNone && q r.1 r.2.1) = true) :
    ∃ u a, r = (u, a, none) ∧ q u a = true := by
  obtain ⟨u, a, _ | b⟩ := r
  · exact ⟨u, a, rfl, h⟩
  · exact absurd h (by simp)
/-- A store of 16 words, two pool sectors at 0x2000 into one line at 0x400000: the landing of the first sector updates the line once, whole. -/
def storing : State := withCore fun c => { c with
  xfers := [⟨4, .sized, 0x2000, 0, 1, 0x400000, [16], [], [1, 0, 0x80, 0, 16, 0, 0, 0, 0, 0, 0, 0, 0, 0, 0, 0, 4], 2, 0, 0, 0, 6, [], [], [], none⟩],
  pool := Map.setList 0 [] 0x2000 (leBytes 7 4 ++ leBytes 0 56 ++ leBytes 9 4) }
theorem test_tug_store_line : after (.tugSectorLand 0 4) storing (fun t => (t.byte 0x400000, t.byte 0x40003C) == (7, 9) &&
    t.me.xfers.map (fun x => (x.state, x.landed, x.lines)) == [(.sized, 1, [(.memory 0x400000, 16)])]) = true := by decide +kernel

/-- The transfer of `storing`; as a load to the same place of the pool; and both of a tensor that no page maps. -/
def storingX : Xfer := (storing.core 0).xfers.headD ⟨0, .queued, 0, 0, 0, 0, [], [], [], 0, 0, 0, 0, 0, [], [], [], none⟩
def loadingX : Xfer := { storingX with src := 0, dst := 0x2000, lay := 0 }
def astray (x : Xfer) : Xfer := { x with base := 0x4000000000 }
/-- What a store's changes come to: the state, the changes, how many elements they cover, and the failure. -/
theorem changesOf {r : State × List Patch × Nat × Option (Cause × DWord)} {q : State → List Patch → Nat → Bool} {e : Option (Cause × DWord)}
    (h : (r.2.2.2 == e && q r.1 r.2.1 r.2.2.1) = true) : ∃ u ps n, r = (u, ps, n, e) ∧ q u ps n = true := by
  obtain ⟨u, ps, n, f⟩ := r
  obtain ⟨h1, h2⟩ := Bool.and_eq_true_iff.mp h
  exact ⟨u, ps, n, by simpa using eq_of_beq h1, h2⟩
theorem witness_TugTransfers_store : storing.activeXfer 0 4 = some storingX ∧ storingX.state = .sized ∧ storingX.op = 1 ∧ storingX.asked = none ∧
    storingX.fars = [] ∧ (∀ ln, Fits storing (max storingX.clock ((storing.line ln).rts + 1))) ∧ 8 ≤ storingX.rec_.count ∧
    (∃ u ps n, storing.sectorChanges 0 storingX = (u, ps, n, none) ∧ (ps.length == 64 && n == 16 && ps.all fun p => !p.isFar) = true) ∧
    (∃ u ps n, storing.sectorChanges 0 (astray storingX) = (u, ps, n, some (.xlate, 0x4000000000)) ∧ (ps.length == 0 && n == 0) = true) ∧
    (∃ u ps n, storing.changes 0 storingX 8 = (u, ps, n, none) ∧ (n == 16) = true) ∧
    ∃ u ps n, storing.changes 0 (astray storingX) 8 = (u, ps, n, some (.xlate, 0x4000000000)) ∧ (n == 0) = true := by
  refine ⟨by decide +kernel, by decide, by decide, by decide, by decide, fun ln => ?_, by decide +kernel, changesOf (by decide +kernel),
    changesOf (by decide +kernel), changesOf (by decide +kernel), changesOf (by decide +kernel)⟩
  have h : Fits storing (max 0 (Line.empty.rts + 1)) := by unfold Fits; decide +kernel
  exact h
theorem witness_TugTransfers_load : loadingX.op = 0 ∧ fmtOk loadingX.rec_.pfmt = true ∧ 2 * loadingX.poff % poolHalves loadingX.rec_.pfmt = 0 ∧
    (∃ u a, storing.nextSector 0 loadingX none = (u, a) ∧ a.2.2 = none) ∧
    (∃ u a, storing.nextSector 0 (astray loadingX) none = (u, a) ∧ a.2.2 = some (.xlate, 0x4000000000)) ∧
    Fits storing (loadingX.clock + storing.leaseOf 0) ∧
    ∃ u e, storing.tableImage 0 { astray loadingX with lay := 2, src := 0x4000000000 } none = (u, .error e) ∧ (e.1 == .xlate) = true :=
  ⟨by decide, by decide +kernel, by decide +kernel, ⟨_, _, rfl, by decide +kernel⟩, ⟨_, _, rfl, by decide +kernel⟩, by unfold Fits; decide +kernel,
    errAnd_exists (by decide +kernel)⟩
/-- A store that has a byte of module 5 to change; the far form of `storing`, to a page of module 5 from 2^63 + 5 · 2^50 on. -/
def farX : Xfer := { storingX with fars := [⟨0, .far 5 0x400000, 0x8014000000400000, 255, 7⟩] }
theorem witness_TugTransfers_far : farX.fars = ⟨0, .far 5 0x400000, 0x8014000000400000, 255, 7⟩ :: [] ∧ (∀ q ∈ farX.fars, q.mask < 256) ∧
    (0x400000 / 128 = 0x400000 / 128 ∧ ∃ q ∈ farX.fars, q.place = .far 5 0x400000) ∧ storing.repliesFull 0 = false ∧
    (storing.outputFull (storing.farStore 0 farX 5 0x400000 [7])) = false ∧
    storing.sendPacket (storing.farStore 0 farX 5 0x400000 [7]) = none ∧
    (∃ u ps n, storing.sectorChanges 0 { storingX with base := 0x8014000000400000 } = (u, ps, n, none) ∧ (ps.any Patch.isFar) = true) := by
  refine ⟨rfl, by decide, ⟨rfl, _, List.Mem.head _, rfl⟩, by decide +kernel, by decide +kernel, ?_, changesOf (by decide +kernel)⟩
  have h : (storing.route 5 none) = none := by decide +kernel
  show (storing.route 5 none).map _ = none
  rw [h]; rfl
/-- A store to module 5 that waits for its acknowledgement, and the answers to it. -/
def askedX : Xfer := { storingX with asked := some (7, 0x8014000000400000, 0) }
theorem witness_TugTransfers_asked : askedX.asked = some (7, 0x8014000000400000, 0) ∧ askedX.awaits ⟨0, 0, 0, 7, 0, [], 9⟩ = true ∧
    [askedX].find? (·.awaits ⟨0, 0, 0, 7, 8, [], 9⟩) = some askedX ∧ (7 : Nat) % 2 ^ 32 = (2 ^ 32 + 7) % 2 ^ 32 ∧
    (∀ h ∈ storing.reqs, h.answer ≠ some ⟨0, 0, 0, 7, 8, [], 9⟩) := by decide +kernel
/-- Inside the tensor, and to the left of it with each of the ways of OOB. -/
theorem witness_TugElements : storingX.coord storingX.rec_ 3 = [3, 0, 0, 0] ∧ storingX.inside storingX.rec_ [3, 0, 0, 0] = true ∧
    storingX.rec_.elem storingX.base.toNat [3, 0, 0, 0] = (0x40000C, 0, 32) ∧ storingX.rec_.tile = [16, 1, 1, 1] ∧
    ({ storingX with dst := 0xFFFF } : Xfer).coord storingX.rec_ 0 = [-1, 0, 0, 0] ∧
    ({ storingX with dst := 0xFFFF } : Xfer).inside storingX.rec_ [-1, 0, 0, 0] = false ∧ storingX.rec_.oob = 0 ∧
    (∃ d, d < storingX.rec_.rank ∧ ({ storingX with ext := [0] } : Xfer).ext.getD d 0 = 0) ∧ (∀ d, d < storingX.rec_.rank → storingX.ext.getD d 0 ≠ 0) ∧
    (∃ u p, storing.resolve 0 0x40000C .rd = (u, .ok p) ∧ (p == .memory 0x40000C && !u.badIn 0x40000C 4) = true) ∧
    ∃ u c, storing.resolve 0 0x4000000000 .wr = (u, .error c) ∧ (c == .xlate) = true :=
  ⟨by decide +kernel, by decide +kernel, by decide +kernel, by decide +kernel, by decide +kernel, by decide +kernel, by decide +kernel,
    ⟨0, by decide +kernel, rfl⟩, by decide +kernel, okAnd_exists (by decide +kernel), errAnd_exists (by decide +kernel)⟩

/-! ### Objects, barriers and groups (R290 to R300) -/

/-- A barrier of three arrivals in phase 5 with `n` arrivals so far, whose scope is the team. -/
def bar (n : Nat) : Barrier := ⟨3, n, 5, 4, 1, (0, 0), 8, 9⟩

/-- A group of three members, of which this module is rank 1. -/
def grp : Group := ⟨false, 1, 7, 3, 1000, 0x600000, [8, 0, 9], [0, 1, 2], none, none, false, none, [], []⟩

/-- With `o` in slot 1, which a1 names, and `v` in g4. -/
def withObj (o : Obj) (v : Word) : State := { ((mapped.wra 1 0xC0000040).wr 4 v) with objects := [(1, o)] }

theorem refers {s : State} {va : DWord} {k : Nat} {q : State → Bool}
    (h : (match s.objRef va with | (u, .here j) => j == k && q u | _ => false) = true) : ∃ u, s.objRef va = (u, .here k) ∧ q u = true := by
  generalize hr : s.objRef va = r at h
  obtain ⟨u, j | _ | _⟩ := r
  · obtain ⟨hj, hq⟩ := Bool.and_eq_true_iff.mp h
    exact ⟨u, by rw [beq_iff_eq.mp hj], hq⟩
  · exact absurd h (by simp)
  · exact absurd h (by simp)

theorem witness_ObjectOperands : mapped.accepts 5 = true ∧ ((mapped.wra 1 0xC0000041).a 1).toNat % 64 ≠ 0 ∧ ((mapped.wra 1 0xC0000040).a 1).toNat % 64 = 0 ∧
    (∃ u c, mapped.resolve 0 0x8000000000 .rd = (u, .error c) ∧ (c == .xlate) = true) ∧
    (∃ u p, mapped.resolve 0 0x400000 .rd = (u, .ok p) ∧ (p == .memory 0x400000) = true) ∧
    (∃ u p, mapped.resolve 0 0x80000000 .rd = (u, .ok p) ∧ (p == .host 0x80000000) = true) ∧
    ∃ u p, mapped.resolve 0 0xC0000040 .rd = (u, .ok p) ∧ (p == .object 0x40) = true :=
  ⟨by decide, by decide, by decide, errAnd_exists (by decide +kernel), okAnd_exists (by decide +kernel), okAnd_exists (by decide +kernel),
    okAnd_exists (by decide +kernel)⟩

theorem witness_Barriers : (withObj .free 0).next ≠ END ∧ (∃ u, (withObj .free 0).objRef 0xC0000040 = (u, .here 1) ∧ (u.obj 1 == .free) = true) ∧
    (∃ u, (withObj (.group grp) 0).objRef 0xC0000040 = (u, .here 1) ∧ (u.groupAt 1 == some grp) = true) ∧
    (∃ u, (withObj (.barrier (bar 1)) 0x80000000).objRef 0xC0000040 = (u, .here 1) ∧
      (u.obj 1 == .barrier (bar 1) && u.inScope (bar 1) u.dev.mnum 0 && u.accepts 5) = true) ∧ (bar 1).scope < 5 ∧ (bar 1).arr + 1 ≠ (bar 1).count ∧
    (bar 2).arr + 1 = (bar 2).count ∧ (bar 1).phase = 5 ∧ (4 : Nat) < 2 ^ 31 := by
  refine ⟨by decide, refers ?_, refers ?_, refers ?_, by decide, by decide, by decide, by decide, by decide⟩ <;> decide +kernel
theorem witness_Barriers_stops : (withObj (.barrier { bar 1 with scope := 5 }) 0 |>.accepts 5) = true ∧
    ({ plain with objects := [(1, .barrier { bar 1 with scope := 5 })] } : State).accepts 5 = false ∧
    (withObj .free 0).inScope { bar 1 with scope := 0, anchor := (0, 1) } 0 0 = false ∧ (2 ^ 31 : Nat) < 2 ^ 31 + 1 ∧
    2 ^ 27 ≤ 2 ^ 31 ∧ 0x01000003 / 2 ^ 20 % 16 = 0 ∧ 0x01000003 % 2 ^ 20 ≠ 0 ∧ 0x01000003 / 2 ^ 24 % 8 ≠ 7 := by decide +kernel
theorem witness_BarrierWaiters : (0 : Nat) = (withObj (.barrier (bar 1)) 0).dev.mnum ∧ (withObj (.barrier (bar 1)) 0).phaseOf 1 = (5, 8) := by decide

/-- A context that waits in `bjoin` for phase 3, which is over; and a wait of module 8 for it. -/
def joining : State :=
  let s := withObj (.barrier (bar 1)) 3
  s.setSlot { s.slot with wait := some ⟨true, false, .bjoin 4 1, 0x300000, 4, 0, false, 0, []⟩ }
def joinPacket : Packet := ⟨0, 8, 3, 3, 1, 2, 9, 40, 0x40, 1000, 0, leBytes 0 4 ++ leBytes 3 4⟩
def farJoining : State := { joining with farWaits := [(1, joinPacket)] }
theorem witness_BarrierWaiters_near : (joining.core 0).runs = true ∧ (joining.core 0).allHalted = false ∧
    (∀ j, j < 4 → (joining.slotAt 0 j).stepDue = none ∧ (joining.slotAt 0 j).takesNotice = false) ∧
    (joining.core 0).waiters = (0, ⟨true, false, .bjoin 4 1, 0x300000, 4, 0, false, 0, []⟩) :: [] ∧ Z (Map.get 0 (joining.slotAt 0 0).regs 4) = 3 ∧
    (bar 1).phase ≠ 3 ∧ (∃ u, (joining.resume 0 0 ⟨true, false, .bjoin 4 1, 0x300000, 4, 0, false, 0, []⟩).objRef
      (Map.get 0 (joining.slotAt 0 0).aregs 1) = (u, .here 1) ∧ (u.obj 1 == .barrier (bar 1)) = true) :=
  ⟨by decide +kernel, by decide +kernel, by decide +kernel, by decide +kernel, by decide +kernel, by decide, refers (by decide +kernel)⟩
theorem witness_BarrierWaiters_order : joining.joiners = [] ++ (0, 0, ⟨true, false, .bjoin 4 1, 0x300000, 4, 0, false, 0, []⟩) :: [] ∧
    stillWaits 0 0 ⟨true, false, .bjoin 4 1, 0x300000, 4, 0, false, 0, []⟩ (exec (.bjoin 4 1) { joining with
      issue := (⟨true, false, .bjoin 4 1, 0x300000, 4, 0, false, 0, []⟩ : Wait).issue 0 0 }) = false ∧
    (∀ e ∈ joining.cores, e.2.runs = true → ∀ v ∈ e.2.waiters, onRing v.2.instr = true → False) := by decide +kernel
theorem witness_BarrierWaiters_far : farJoining.farWaits.filter (fun w => w.1 == 1 && farJoining.farReady w) = [(1, joinPacket)] ∧
    barOpOf joinPacket = .join 3 ∧ (3 : Word).getLsbD 31 = false ∧
    ({ withObj .free 0 with farWaits := [(1, joinPacket)] } : State).farReady (1, joinPacket) = true := by decide +kernel

/-- R297, R299: the last arrival ends phase 5 and joins the clocks of the phase; a wait for phase 5 is then over. -/
theorem test_bjoin_completes : after (.bjoin 4 1) (withObj (.barrier (bar 2)) 0x80000000) (fun t =>
    t.g 4 == 5 && t.g 5 == 0 && t.obj 1 == .barrier ⟨3, 0, 6, 4, 1, (0, 0), 9, 0⟩) = true := by decide +kernel
theorem test_bjoin_over : after (.bjoin 4 1) (withObj (.barrier (bar 2)) 3) (fun t =>
    t.g 4 == 5 && t.g 5 == 1 && t.me.pts == 8) = true := by decide +kernel
/-- R299: `binit` of 3 arrivals with scope 1 makes phase 6 of the slot. -/
theorem test_binit : after (.binit 4 1) (withObj (.barrier (bar 1)) 0x01000003) (fun t =>
    t.g 4 == 6 && t.obj 1 == .barrier ⟨3, 0, 6, 6, 1, (0, 0), 8, 0⟩) = true := by decide +kernel
theorem test_bqry_group : after (.bqry 4 1) (withObj (.group grp) 0) (fun t => t.g 4 == 7 && t.g 5 == 0x80000003) = true := by decide +kernel

/-- A re-formation that this module leads, with the answers of ranks `rs`, and with a commitment. -/
def leading (rs : List Nat) (c : Option (Nat × List Nat)) (acks : List Nat) : Group :=
  { grp with rank := 0, mods := [0, 8, 9], lead := some ⟨[2], [0, 1], rs.map fun r => ⟨1, r, 7, [], []⟩, [0], c, acks⟩ }
def withGroup (g : Group) : State := withObj (.group g) 0

theorem witness_Reformation : (withGroup grp).groupAt 1 = some grp ∧ grp.lead = none ∧ (2 : Nat) ∈ grp.live ∧
    (grp.live.filter fun r => r ∉ [2]) ≠ [] ∧ (∀ r ∈ [3], r ∉ grp.live) := by decide +kernel
theorem witness_Reformation_answers : ∃ ld, (leading [1] none []).lead = some ld ∧ ld.committed = none ∧ ld.acks = [] ∧
    (0 ∈ ld.asked ∧ 0 ∉ ld.drop ∧ ∀ a ∈ ld.answers, a.rank ≠ 0) ∧
    (∀ r, (r ∈ ld.asked ∧ r ∉ ld.drop ∧ ∀ a ∈ ld.answers, a.rank ≠ r) → r = 0) ∧
    ld.asked.filter (fun r => r ∉ ld.drop ∧ ld.answers.any (fun b => b.rank == r) = true) ≠ [] := by
  refine ⟨_, rfl, rfl, rfl, by decide, ?_, by decide⟩
  rintro r ⟨h1, h2, h3⟩
  have : r = 0 ∨ r = 1 := by simpa using h1
  rcases this with rfl | rfl
  · rfl
  · exact absurd rfl (h3 ⟨1, 1, 7, [], []⟩ (by decide))
theorem witness_Reformation_first : ∃ ld, (leading [] none []).lead = some ld ∧ (0 ∈ ld.asked ∧ 0 ∉ ld.drop ∧ ∀ a ∈ ld.answers, a.rank ≠ 0) ∧
    (1 ∈ ld.asked ∧ 1 ∉ ld.drop ∧ ∀ a ∈ ld.answers, a.rank ≠ 1) ∧ 1 ∉ [2] := ⟨_, rfl, by decide, by decide, by decide⟩
theorem witness_Reformation_acks : ∃ ld, (leading [0, 1] (some (8, [0, 1])) [0]).lead = some ld ∧ ld.committed = some (8, [0, 1]) ∧
    (∃ k ∈ [0, 1], k ∉ ld.acks ∧ k ≠ 0) ∧ ∀ k ∈ [0, 1], k ∈ ld.acks ∨ k = 1 := ⟨_, rfl, by decide, by decide, by decide⟩
theorem witness_Reformation_commit : ({ grp with prepared := some 0, forming := true } : Group).prepared = some 0 ∧ ({ grp with prepared := some 0 } : Group).prepared ≠ some 2 ∧ grp.epoch < 8 ∧ 7 ≤ grp.epoch ∧
    (∀ h ∈ (withGroup grp).holds, h.obj ≠ 1) ∧ (∀ h ∈ (withGroup grp).shards, h.obj ≠ 1) ∧
    ({ grp with asks := [⟨0, .hitch, [], 0⟩] } : Group).asks = [⟨0, .hitch, [], 0⟩] ∧ grp.live.find? (fun r => (0 : Nat) < r) = some 1 ∧
    grp.live.find? (fun k => k ≠ 0) = some 1 := by decide +kernel

theorem witness_Reformation_last : ({ grp with prepared := some 0, overdue := true } : Group).overdue = true ∧ grp.overdue = false ∧
    ∃ ld, (leading [0] none []).lead = some ld ∧ ld.asked.filter (fun r => r ∉ ld.drop ∧ ld.answers.any (fun b => b.rank == r) = true) = [0] :=
  ⟨by decide, by decide, _, rfl, by decide⟩

theorem test_commit : (match execCommit 1 ⟨8, 1⟩ [1, 2] [] [] (withGroup { grp with prepared := some 1, forming := true }) with
    | .next t => (t.groupAt 1).map (fun g => (g.forming, g.epoch, g.live, g.leader)) == some (false, 8, [1, 2], 1) &&
        t.agenda == [.happen (.commitAck 1 1)]
    | _ => false) = true := by decide +kernel
/-- R295: a COMMIT of a leader whose PREPARE is no longer the last taken changes nothing. -/
theorem test_commit_late : (match execCommit 1 ⟨8, 0⟩ [1, 2] [] [] (withGroup { grp with prepared := some 1, forming := true }) with
    | .next t => (t.groupAt 1).map (fun g => (g.forming, g.epoch, g.prepared)) == some (true, 7, some 1) && t.agenda == []
    | _ => false) = true := by decide +kernel

/-- A context that waits for the answer to its `gform`. -/
def forming : State := ((withGroup { grp with asks := [⟨3, .context 0 0 0, [2], 0⟩] }).setSlot
  { (withGroup grp).slot with wait := some ⟨false, false, .gform 4 1, 0x300000, 4, 0, false, 0, []⟩ })

theorem witness_GroupForm : (withObj .free 0).accepts 5 = true ∧ (∃ u, (withObj .free 0).objRef 0xC0000040 = (u, .here 1) ∧ (u.groupAt 1 == none) = true) ∧
    (∃ u, (withGroup grp).objRef 0xC0000040 = (u, .here 1) ∧ (u.groupAt 1 == some grp) = true) ∧ grp.rank ∈ grp.live ∧
    ({ grp with live := [0] } : Group).rank ∉ ({ grp with live := [0] } : Group).live ∧ (2 ^ 31 ≤ 2 ^ 31 + 2 ∧ 2 ^ 31 + 2 - 2 ^ 31 < grp.nmem) ∧
    grp.nmem ≤ 2 ^ 31 + 3 - 2 ^ 31 ∧ (grp.nmem ≤ 3 ∧ (8 : Nat).testBit 3 = true) := by
  refine ⟨by decide, refers ?_, refers ?_, by decide, by decide, by decide, by decide, by decide⟩ <;> decide +kernel
theorem witness_GroupForm_answer : (forming.groupAt 1).map (·.asks) = some ([] ++ (⟨3, .context 0 0 0, [2], 0⟩ : Ask) :: []) ∧
    (forming.slotAt 0 0).wait = some ⟨false, false, .gform 4 1, 0x300000, 4, 0, false, 0, []⟩ ∧ grp.rank ∈ grp.live ∧
    (0x300000 : DWord) + u64 4 ≠ END := by decide +kernel

theorem test_gform_answer : (match execFormAnswer 1 (2 ^ 13 * 3) 8 [0, 1] forming with
    | .next t => t.g 4 == 8 && t.slot.pc == 0x300004 && (t.groupAt 1).map (·.asks) == some []
    | _ => false) = true := by decide +kernel

/-! ### Collectives (R301 to R308) -/

/-- The descriptor at 0x500000: two z32 elements from 0x501000 to 0x502000 with SEQ 4, for the group in slot 1. -/
def descBytes (count : Nat) : List Byte :=
  leBytes 0xC0000040 8 ++ leBytes 0x501000 8 ++ leBytes 0x502000 8 ++ leBytes count 4 ++ leBytes 4 4 ++ leBytes 0 2 ++ leBytes 0x15 1 ++
    List.replicate 29 0
def desc : CollDesc := ⟨0xC0000040, 0x501000, 0x502000, 2, 4, 0, 0x15⟩
def collecting (g : Group) : State :=
  let s := withGroup g
  { (s.wra 1 0x500000) with mem := Map.setList 0 (Map.setList 0 s.mem 0x500000 (descBytes 2)) 0x501000 (leBytes 0x300000007 8) }
/-- What `onlyRead` checks is `HasRead`, on states whose only core is the executing one. -/
def onlyRead (s u : State) : Bool :=
  u.issue == s.issue && u.me == { s.me with pts := u.me.pts, l1 := u.me.l1, far := u.me.far } && s.cores.all (fun e => e.1 == s.issue.lid) &&
    u.cores.all fun e => e.1 == s.issue.lid
theorem onlyRead_hasRead {s u : State} (h : onlyRead s u = true) : HasRead s u := by
  simp only [onlyRead, Bool.and_eq_true, beq_iff_eq, List.all_eq_true] at h
  obtain ⟨⟨⟨h1, h2⟩, h3⟩, h4⟩ := h
  refine ⟨h1, fun k hk => ?_, h2⟩
  have none_ : ∀ m : Map Core, (∀ e ∈ m, e.1 = s.issue.lid) → Map.get Core.empty m k = Core.empty := by
    intro m hm
    induction m with
    | nil => rfl
    | cons e m ih =>
      have he := hm e (by simp)
      have := ih fun x hx => hm x (by simp [hx])
      simp [Map.get, he, this, Ne.symm hk]
  show Map.get Core.empty u.cores k = Map.get Core.empty s.cores k
  rw [none_ _ h3, none_ _ h4]
def twos : List Byte := leBytes 0x300000007 8

theorem witness_CollectiveForms : (collecting grp).next ≠ END ∧ (collecting grp).accepts 5 = true ∧ 2 ^ 6 ≤ 64 ∧ (48 < 2 ^ 6 ∧ 5 < 48 / 8) ∧
    (4 < 2 ^ 6 ∧ 3 < 4 % 8) ∧ 0 < 2 ^ 6 ∧ (((collecting grp).wra 1 0x500001).a 1).toNat % 64 ≠ 0 ∧ ((collecting grp).a 1).toNat % 64 = 0 ∧
    grp.rank ∈ grp.live ∧ FreeEntry (collecting grp).slot 0 ∧ grp.forming = false ∧ (collDesc (descBytes 0) 0).2 = true ∧
    collDesc (descBytes 2) 0 = (desc, false) ∧ ({ grp with lastSeq := some 4 } : Group).lastSeq = some 4 ∧ desc.seq ≤ 4 ∧ grp.lastSeq = none := by
  unfold FreeEntry; decide +kernel
theorem witness_CollectiveForms_runs : ∃ u bs, (collecting grp).loadNow 0x500000 64 = (u, .ok bs) ∧ collDesc bs 0 = (desc, false) ∧
    ∃ v, u.objRef desc.group = (v, .here 1) ∧ v.groupAt 1 = some grp ∧ ∃ w src, v.elemPlaces .rd 0x501000 4 2 = (w, .ok src) ∧
    ∃ x dst, w.elemPlaces .wr 0x502000 4 2 = (x, .ok dst) ∧ ∃ y data, x.readElems 4 0x501000 src = (y, .ok data) ∧ data = twos ∧
      y.holdOf 1 7 4 = none ∧ onlyRead (collecting grp) x = true ∧ onlyRead (collecting grp) y = true ∧ y.objects = (collecting grp).objects ∧
      y.dev.mnum = (collecting grp).dev.mnum ∧ y.agenda = (collecting grp).agenda ∧ y.outbox = (collecting grp).outbox := by
  let last (x : State) : State → List Byte → Bool := fun y data => decide (data = twos ∧
      y.holdOf 1 7 4 = none ∧ onlyRead (collecting grp) x = true ∧ onlyRead (collecting grp) y = true ∧ y.objects = (collecting grp).objects ∧
      y.dev.mnum = (collecting grp).dev.mnum ∧ y.agenda = (collecting grp).agenda ∧ y.outbox = (collecting grp).outbox)
  have h : okAnd ((collecting grp).loadNow 0x500000 64) (fun u bs => collDesc bs 0 == (desc, false) &&
      match u.objRef desc.group with
      | (v, .here j) => j == 1 && (v.groupAt 1 == some grp && okAnd (v.elemPlaces .rd 0x501000 4 2) (fun w src =>
          okAnd (w.elemPlaces .wr 0x502000 4 2) fun x _ => okAnd (x.readElems 4 0x501000 src) (last x)))
      | _ => false) = true := by decide +kernel
  obtain ⟨u, bs, h1, h⟩ := okAnd_exists h
  obtain ⟨h2, h⟩ := Bool.and_eq_true_iff.mp h
  obtain ⟨v, h3, h⟩ := refers h
  obtain ⟨h4, h⟩ := Bool.and_eq_true_iff.mp h
  obtain ⟨w, src, h5, h⟩ := okAnd_exists h
  obtain ⟨x, dst, h6, h⟩ := okAnd_exists h
  obtain ⟨y, data, h7, h⟩ := okAnd_exists h
  exact ⟨u, bs, h1, beq_iff_eq.mp h2, v, h3, beq_iff_eq.mp h4, w, src, h5, x, dst, h6, y, data, h7, of_decide_eq_true h⟩

/-- A descriptor whose group stands in slot 1 of module 5, and what a context has learnt of that group: its address and slot 1. -/
def farDesc : List Byte := leBytes 0x8014000000000040 8 ++ (descBytes 2).drop 8
def farCollecting : State := { collecting grp with mem := Map.setList 0 (collecting grp).mem 0x500000 farDesc }
def slotLearnt : State := farCollecting.setSlot { farCollecting.slot with half := some (leBytes 0x8014000000000040 8 ++ leBytes 1 4) }
theorem witness_CollectiveForms_far : farDesc.length = 64 ∧ (collDesc farDesc 0).2 = false ∧ (collDesc farDesc 0).1.group = 0x8014000000000040 ∧
    farCollecting.farGroup 0x8014000000000040 = none ∧ slotLearnt.farGroup 0x8014000000000040 = some 1 ∧
    (slotLearnt.groupAt 1) = some grp ∧ farCollecting.repliesFull 0 = false ∧
    (∃ u bs, farCollecting.loadNow 0x500000 64 = (u, .ok bs) ∧ (bs == farDesc) = true) ∧
    (∃ u p, farCollecting.resolve 0 0x8014000000000040 .rd = (u, .ok p) ∧ (p == .far 5 0x40) = true) :=
  ⟨by decide, by decide +kernel, by decide +kernel, by decide, by decide, by decide +kernel, by decide +kernel, okAnd_exists (by decide +kernel),
    okAnd_exists (by decide +kernel)⟩

/-- What ends or holds `coll` after its descriptor: elements without a page, an element in error, a group that re-forms, no free entry. -/
theorem witness_CollectiveForms_stops : (∃ w e, (collecting grp).elemPlaces .rd 0x8000000000 4 2 = (w, .error e) ∧ (e == (.xlate, 0x8000000000)) = true) ∧
    (∃ w e, (collecting grp).elemPlaces .wr 0x40000000 4 2 = (w, .error e) ∧ (e == (.prot, 0x40000000)) = true) ∧
    (∃ w e, ({ collecting grp with bad := [(0x501000 / 32, true)] } : State).readElems 4 0x501000 [0x501000] = (w, .error e) ∧ (e == 0x501000) = true) ∧
    ({ grp with forming := true } : Group).forming = true ∧ unasking.slot.freeEntry = none ∧ (collecting grp).slot.freeEntry ≠ none ∧
    grp.nmem ≤ 3 ∧ grp.rank ∉ ({ grp with live := [0] } : Group).live :=
  ⟨errAnd_exists (by decide +kernel), errAnd_exists (by decide +kernel), errAnd_exists (by decide +kernel), by decide, by decide, by decide,
    by decide, by decide⟩

/-- With collective 3, ended or not, among the core's. -/
def waitingColl (e : Option (Word × Nat)) : State := ((withCore fun c => { c with colls := [⟨3, 1, 7, 4, e⟩] }).wr 4 3)
theorem witness_CollectiveForms_cwait : (waitingColl none).me.colls = [] ++ ⟨3, 1, 7, 4, none⟩ :: [] ∧ (3 : Nat) = Z ((waitingColl none).g 4) % 2 ^ 8 ∧
    Z ((waitingColl none).g 4) / 2 ^ 8 % 2 ^ 23 = 0 ∧ Z (((waitingColl none).wr 4 0x100).g 4) / 2 ^ 8 % 2 ^ 23 ≠ 0 ∧ 2 ^ 31 ≤ Z ((base.wr 4 0x80000003).g 4) ∧
    (waitingColl (some (0, 9))).me.colls = [] ++ ⟨3, 1, 7, 4, some (0, 9)⟩ :: [] ∧ base.me.colls = [] := by decide +kernel

theorem test_coll : after (.coll 4 1 0) (collecting grp) (fun t => t.g 4 == 1 && t.slot.pc == t.issue.start + 2 &&
    t.outbox == [(8, .collContribution ⟨1, 1, 7, 4, 0, 0, 0x15, 2, 0, twos⟩)] && (t.groupAt 1).map (·.lastSeq) == some (some 4)) = true := by
  decide +kernel
theorem test_cwait : after (.cwait 4) (waitingColl (some (1, 9))) (fun t => t.g 4 == 1 && t.me.pts == 9) = true := by decide +kernel

/-- Contributions of one b32 element to an allreduce sum. -/
def sums (vs : List Nat) : List Contribution := (List.range vs.length).map fun r => ⟨1, r, 7, 4, 0, 0, 0, 1, 0, leBytes (vs.getD r 0) 4⟩
theorem witness_CollectiveData : sums [1, 2] ≠ [] ∧ (sums [1, 2]).head?.map (fun c => (c.count, c.fmt, c.kind)) = some (1, 0, 0) ∧
    (∀ x ∈ sums [1, 2], x.data.length = collSize 0 * 1) ∧ (∀ x ∈ (sums [1, 2]).map (fun c => { c with data := c.data ++ c.data }), x.data.length = 4 * (2 * 1)) ∧
    sums [1, 2] = [] ++ (⟨1, 0, 7, 4, 0, 0, 0, 1, 0, leBytes 1 4⟩ : Contribution) :: [⟨1, 1, 7, 4, 0, 0, 0, 1, 0, leBytes 2 4⟩] := by decide +kernel
/-- R302's example: 1.0, 2^-24, 2^-24 in this order give 1.0; 2^-24, 2^-24, 1.0 give 0x3F80_0001. -/
theorem test_allreduce : leNat (collData (sums [0x3F800000, 0x33800000, 0x33800000]) [] 0) = 0x3F800000 ∧
    leNat (collData (sums [0x33800000, 0x33800000, 0x3F800000]) [] 2) = 0x3F800001 := by decide +kernel

/-- A root of collective 4 with the contributions of ranks `rs`. -/
def lead0 : Group := { grp with rank := 0, mods := [0, 8, 9] }
def given (r : Nat) : Contribution := ⟨1, r, 7, 4, 0, 0, 0x15, 1, 0, [5, 0, 0, 0]⟩
def rooted (rs : List Nat) (st : RootSt) : State := { withGroup lead0 with roots := [⟨1, 7, 4, rs.map given, st⟩] }

theorem witness_CollectiveRoots : (rooted [0] .collecting).groupAt 1 = some lead0 ∧ ((withGroup { lead0 with forming := true }).groupAt 1).isSome ∧
    (given 1).epoch = lead0.epoch ∧ ({ given 1 with epoch := 6 } : Contribution).epoch ≠ lead0.epoch ∧
    ((rooted [0] .collecting).rootOf 1 7 4).getD ⟨1, 7, 4, [], .collecting⟩ = ⟨1, 7, 4, [given 0], .collecting⟩ ∧ (∀ x ∈ [given 0], x.rank ≠ 1) ∧
    (∃ k ∈ lead0.live, k ≠ 1 ∧ ∀ x ∈ [given 0], x.rank ≠ k) ∧ (∀ k ∈ lead0.live, k = 2 ∨ ∃ x ∈ [given 0, given 1], x.rank = k) ∧
    agree [given 0, given 1, given 2] = true ∧ (∀ x ∈ [given 0, given 1, given 2].head?, x.kind ≠ 3) ∧
    agree [given 0, given 1, { given 2 with op := 1 }] = false := by decide +kernel
theorem witness_CollectiveRoots_deadline : (rooted [0] (.querying [1, 2] [1])).rootOf 1 lead0.epoch 4 = some ⟨1, 7, 4, [given 0], .querying [1, 2] [1]⟩ ∧
    [1, 2].filter (fun k => k ∉ [1]) ≠ [] ∧ (∃ j ∈ [1, 2], j ≠ 1 ∧ j ∉ ([] : List Nat)) ∧ (∀ j ∈ [1, 2], j = 2 ∨ j ∈ [1]) ∧
    (∃ j ∈ lead0.live, j ≠ 0 ∧ j ∉ ([] : List Nat)) ∧ (∀ j ∈ lead0.live, j = 2 ∨ j ∈ [0, 1]) ∧ (2 : Nat) ∉ [0, 1] ∧
    (rooted [0, 1, 2] (.sent 0 [] [0, 1])).rootOf 1 lead0.epoch 4 = some ⟨1, 7, 4, [given 0, given 1, given 2], .sent 0 [] [0, 1]⟩ ∧
    lead0.forming = false := by decide +kernel

theorem test_root_decides : (match execCollContribution (given 2) (rooted [0, 1] .collecting) with
    | .next t => t.outbox == [(8, .collResult 1 7 4 0 [15, 0, 0, 0]), (9, .collResult 1 7 4 0 [15, 0, 0, 0])] &&
        t.agenda == [.happen (.collResult 1 7 4 0 [15, 0, 0, 0])]
    | _ => false) = true := by decide +kernel

/-- Collective 4 as this member holds it, with its request entry and the core's record. -/
def hold4 (r : Option (Nat × List Byte)) : Hold := ⟨1, 7, 4, some ⟨0, 0, 0, 0, 2, 3⟩, [0x502000], 4, r, false, 0⟩
def member (r : Option (Nat × List Byte)) : State :=
  let s := withGroup grp
  let s := s.setMe { s.me with colls := [⟨3, 1, 7, 4, none⟩] }
  { s.setSlot { s.slot with entries := [(0, some ⟨.coll 3, 2, 5⟩)] } with holds := [hold4 r] }

theorem witness_CollectiveMembers : (member none).groupAt 1 = some grp ∧ 0 ≠ 4 ∧ (6 : Nat) ≠ grp.epoch ∧ (member none).holdOf 1 7 4 = some (hold4 none) ∧
    (hold4 none).ended = false ∧ (member (some (1, []))).holdOf 1 7 4 = some (hold4 (some (1, []))) ∧ (member none).whereIs 0 64 = 0 ∧
    ((member none).core 0).uid = 0 ∧ Map.get none ((member none).slotAt 0 0).entries 0 = some ⟨.coll 3, 2, 5⟩ ∧ 1 % 256 ≠ 0 ∧
    (member none).badPart 0x502000 4 = false ∧ ([1, 2, 3, 4] : List Byte).length = 4 ∧ (∃ h ∈ (member none).holds, h.obj = 1 ∧ h.seq = 4 ∧
      h.issuer.isSome = true ∧ h.ended = false) := by decide +kernel

theorem witness_CollectiveMembers_release : ([1, 2, 3, 4] : List Byte).length = (hold4 none).size * (hold4 none).dst.length ∧
    (hold4 none).dst.Pairwise (fun a b => a + (hold4 none).size ≤ b ∨ b + (hold4 none).size ≤ a) ∧
    (∀ a ∈ (hold4 none).dst, (member none).badPart a (hold4 none).size = false) ∧
    (∀ ln, Fits (member none) (max ((member none).core 0).pts (((member none).line ln).rts + (hold4 none).dst.length))) ∧
    (withGroup grp).rootOf 1 grp.epoch 4 = none ∧ grp.leader ≠ grp.rank := by
  refine ⟨by decide, by decide, by decide +kernel, fun ln => ?_, by decide +kernel, by decide⟩
  have h : Fits (member none) (max 0 (Line.empty.rts + 1)) := by unfold Fits; decide +kernel
  exact h

theorem test_release : (match execCollRelease 1 7 4 (member (some (0, [1, 2, 3, 4]))) with
    | .next t => t.bytesAt 0x502000 4 == [1, 2, 3, 4] && Map.get none t.slot.entries 0 == none && t.me.colls.map (·.ended.map Prod.fst) == [some 0]
    | _ => false) = true := by decide +kernel

/-! ### Parameter nodes (R283 to R286, R309 to R320) -/

/-- Shard 2 of model 1 in a role: two blocks of 32 bytes, MASTER at 0x610000, MOMENT at 0x620000, STAGE at 0x630000, step 3. -/
def shard (role : Nat) : Shard :=
  { model := 1, shard := 2, obj := 1, va := 0x600000, uid := 0, owner := 0, nblk := 2, blen := 32, hidx := 0, ffmt := 0, role := role,
    deadline := 100, master := ⟨0x610000, [0x610000]⟩, moment := ⟨0x620000, [0x620000]⟩, stage := ⟨0x630000, [0x630000]⟩, step := 3, recv := 0,
    appl := 0, mack := 0, last := [], closing := none, passing := none, closers := [], passers := [], later := [], pushes := [], partner := none,
    primary := none, subs := [], cnum := 5, latest := none, dtab := [], opening := false, openers := [], calls := [] }
def withShard (h : Shard) : State := { withGroup grp with shards := [h] }
def pusher (e : Nat) : PnFrom := ⟨8, 3, 1, 2, 6, 1, 2, e, 4⟩
/-- The shard with block 0 as far as a bitmap says. -/
def worked (r a m : Nat) : Shard := { shard 1 with recv := r, appl := a, mack := m }

theorem witness_Pushes : (withShard (shard 1)).shardOf (pusher 7).model (pusher 7).shard = some (shard 1) ∧
    (withShard (shard 1)).groupAt (shard 1).obj = some grp ∧ (∀ a ∈ (shard 1).stage.pages, a % 2 ^ 16 = 0) ∧ (pusher 6).epoch ≠ grp.epoch ∧
    (pusher 7).epoch = grp.epoch ∧ 1 < (shard 1).nblk ∧ 2 < (shard 1).step ∧ (shard 1).step < 4 ∧ (worked 1 0 0).recv.testBit 0 = true ∧
    (shard 1).recv.testBit 0 = false ∧ (shard 1).passesComplete = false ∧ (withShard (shard 1)).whereIs (shard 1).owner 64 = 0 ∧
    ((withShard (shard 1)).core 0).uid = (shard 1).uid ∧ ((withShard (shard 1)).core 0).exited = false ∧
    ((withShard (shard 1)).core 0).swapped = false ∧ ((withShard (shard 1)).core 0).runq.length < 64 ∧ (shard 1).calls = [] := by decide +kernel

/-- With no clock near a rebase. -/
theorem witness_Calm : Calm (withShard (shard 1)) 4 := by
  refine ⟨8, by unfold Fits; decide +kernel, by decide +kernel, fun l => ?_, fun ln => ?_⟩
  · have h : ∀ l, ((withShard (shard 1)).core l).pts = 0 := by
      intro l
      by_cases hl : l = 0
      · subst hl; decide +kernel
      · show (Map.get Core.empty (withShard (shard 1)).cores l).pts = 0
        have : (withShard (shard 1)).cores = [(0, (withShard (shard 1)).core 0)] := by decide +kernel
        rw [this]; simp [Map.get, Ne.symm hl, Core.empty]
    rw [h]; decide
  · have h : (withShard (shard 1)).line ln = Line.empty := rfl
    rw [h]; decide
theorem witness_Apart (r : Region) (h : r = ⟨0x610000, [0x610000]⟩) : r.Apart 32 32 := by
  subst h
  refine ⟨by decide, fun i j hi hj h => ?_⟩
  have q : ∀ n, n < 32 → (0x610000 + (32 + n)) / 2 ^ 16 - 0x610000 / 2 ^ 16 = 0 := by intro n h; omega
  simp only [Region.at, q i hi, q j hj] at h
  omega
theorem witness_Updates_layout : (shard 1).blen % 32 = 0 ∧ (shard 1).master.va % 32 = 0 ∧ (shard 1).moment.va % 32 = 0 ∧
    (∀ a ∈ (shard 1).master.pages ++ (shard 1).moment.pages, a % 2 ^ 16 = 0) ∧ (withShard (shard 1)).shardForming (shard 1) = false ∧
    ({ withGroup { grp with forming := true } with shards := [shard 1] } : State).shardForming (shard 1) = true := by decide +kernel

/-- R314's arguments: g0 = b, g1 = S, and the address of the block in STAGE. -/
theorem test_push : (match execPnPushRequest (pusher 7) 1 3 [1, 2, 3, 4] (withShard (shard 1)) with
    | .next t => t.bytesAt 0x630020 5 == [1, 2, 3, 4, 0] && (t.shardOf 1 2).map (·.recv) == some 2 &&
        t.me.runq.map (fun e => [Map.get 0 e.args 0, Map.get 0 e.args 1, Map.get 0 e.args 2, Map.get 0 e.args 3]) == [[1, 3, 0x630020, 0]] &&
        t.outbox.map (fun e => (e.1, match e.2 with | .pnPushAnswer _ st => st | _ => 99)) == [(8, 0)]
    | _ => false) = true := by decide +kernel

theorem witness_Updates : (withShard (worked 1 0 0)).shardOf 1 2 = some (worked 1 0 0) ∧ (worked 1 0 0).role = 1 ∧ (worked 1 0 0).step = 3 ∧
    (worked 1 0 0).recv.testBit 0 = true ∧ (worked 1 0 0).appl.testBit 0 = false ∧ (worked 1 0 0).partner = none ∧ (worked 1 0 0).subs = [] ∧
    (∀ a ∈ (worked 1 0 0).master.pages, a % 2 ^ 16 = 0) ∧ ({ worked 1 0 0 with partner := some 9 } : Shard).partner = some 9 ∧
    7 = (withShard (shard 2)).shardEpoch (shard 2) ∧ (shard 2).role = 2 ∧ 1 < (shard 2).nblk ∧ (worked 1 1 0).appl.testBit 0 = true ∧
    (worked 1 1 0).mack.testBit 0 = false ∧ (shard 0).opening = false ∧ 8 ≠ (withShard (shard 2)).shardEpoch (shard 2) ∧
    0 ∈ ({ shard 1 with calls := [0] } : Shard).calls ∧ (withShard { shard 1 with calls := [0] }).shardForming { shard 1 with calls := [0] } = false ∧
    ((withShard (shard 1)).core 0).runq.length < 64 := by decide +kernel

theorem test_update_end : (match execUpdateTaskEnd 1 2 0 3 (withShard (worked 1 0 0)) with
    | .next t => (t.shardOf 1 2).map (fun h => (h.recv, h.appl, h.mack, Map.get 0 h.last 0)) == some (1, 1, 1, 3)
    | _ => false) = true := by decide +kernel
/-- R286: b32 weights go out as they are, with the tag behind W = 32 bytes. -/
theorem test_fresh : (match execFreshMulticast 1 2 1 4 7 (leBytes 0x3F800000 4) 9 (withShard (shard 0)) with
    | .next t => t.bytesAt (0x610000 + 48) 4 == leBytes 0x3F800000 4 && t.bytesAt (0x610000 + 48 + 32) 4 == leBytes 4 4
    | _ => false) = true := by decide +kernel

/-- A close under way at the primary, and one passed to the mirror. -/
def closing (f : Bool) (q : Option Nat) : Shard := { worked 1 1 1 with closing := some f, partner := q }
def passed (st : Nat) : CloseRec := ⟨6, st, 3, 2, 1⟩

theorem witness_Closes : (withShard (closing true none)).shardOf 1 2 = some (closing true none) ∧ (pusher 6).epoch ≠ grp.epoch ∧ (pusher 7).model = 1 ∧
    2 < (shard 1).step ∧ (shard 1).step < 4 ∧ (closing true none).passing = none ∧ (closing true none).closing = some true ∧
    ¬(∀ b, b < 2 → ((closing false none).recv.testBit b = true ∧ (closing false none).appl.testBit b = true ∧ (closing false none).mack.testBit b = true)) ∧
    (∀ b, b < 2 → ((closing true none).recv.testBit b = true ∧ (closing true none).appl.testBit b = true ∧ (closing true none).mack.testBit b = true) ∨
      (closing true none).recv.testBit b = false) ∧ 2 ^ (closing false none).nblk - 1 - ((2 ^ (closing false none).nblk - 1) &&& (closing false none).recv) ≠ 0 ∧
    ({ shard 2 with partner := some 9 } : Shard).role = 2 ∧ ({ shard 1 with passing := some (passed 0x11) } : Shard).passing = some (passed 0x11) ∧
    (shard 0).cnum < (passed 0x10).num := by decide +kernel

theorem test_close_settled : (match execCloseSettled 1 2 (withShard (closing true none)) with
    | .next t => (t.shardOf 1 2).map (fun h => (h.step, h.recv, h.cnum, h.latest.map fun r => (r.status, r.step, r.missing))) ==
        some (4, 0, 6, some (0x10, 3, 2))
    | _ => false) = true := by decide +kernel

/-- With shard `h` open and its record, or a push record of block 1 and step 3, at 0x600000, which a1 names. -/
def shardRecord (role : Nat) : List Byte :=
  leBytes 1 2 ++ leBytes 2 2 ++ leBytes 2 2 ++ leBytes 32 2 ++ leBytes 0xC0000040 8 ++ leBytes 0x610000 8 ++ leBytes 0x620000 8 ++ leBytes 0x630000 8 ++
    leBytes 0 2 ++ leBytes 0 1 ++ leBytes role 1 ++ leBytes 100 4 ++ leBytes 3 4 ++ List.replicate 12 0
def pushBytes (blk : Nat) : List Byte := leBytes 1 2 ++ leBytes 2 2 ++ leBytes blk 4 ++ leBytes 3 4 ++ leBytes 32 4 ++ List.replicate 16 0
def named (hs : List Shard) (bs : List Byte) : State :=
  let s := withGroup grp
  let s := s.setQueue 0 { s.queue 0 with launch := some { placedLaunch with htab := [0x300100] } }
  { (s.wra 1 0x600000) with shards := hs, mem := Map.setList 0 s.mem 0x600000 bs }

theorem witness_NodeForms : (named [shard 0] (shardRecord 0)).next ≠ END ∧ (named [shard 0] (shardRecord 0)).accepts 6 = true ∧
    FreeEntry (named [shard 0] (shardRecord 0)).slot 0 ∧ (∃ u bs, (named [shard 0] (shardRecord 0)).loadSpan 0x600000 8 = (u, .ok bs) ∧
      (bs == shardRecord 0 && u.shardOf 1 2 == some (shard 0) && onlyRead (named [shard 0] (shardRecord 0)) u &&
        !u.shardForming (shard 0)) = true) ∧
    (∃ u bs, (named [] (shardRecord 0)).loadSpan 0x600000 8 = (u, .ok bs) ∧ (u.shardOf 1 2 == none) = true) ∧
    (shard 0).opening = false ∧ (shard 0).va = 0x600000 ∧ (shard 0).latest = none ∧ ({ shard 0 with latest := some (passed 0x10) } : Shard).cnum = 5 ∧
    (shard 0).primary = none ∧ 2 ^ 31 ≤ 2 ^ 31 + 3 ∧ (shard 0).step ≤ 2 ^ 31 + 3 - 2 ^ 31 := by
  unfold FreeEntry
  exact ⟨by decide, by decide, by decide +kernel, okAnd_exists (by decide +kernel), okAnd_exists (by decide +kernel), by decide, by decide, by decide,
    by decide, by decide, by decide, by decide⟩
theorem witness_NodeForms_push : ∃ u bs, (named [shard 0] (pushBytes 1)).loadSpan 0x600000 4 = (u, .ok bs) ∧ bs = pushBytes 1 ∧
    u.shardOf 1 2 = some (shard 0) ∧ leNat ((bs.drop 0xC).take 4) = (shard 0).blen ∧ leNat ((bs.drop 4).take 4) < (shard 0).nblk ∧
    (∀ b ∈ bs.drop 0x10, b = 0) ∧ onlyRead (named [shard 0] (pushBytes 1)) u = true ∧
    ∃ v data, u.loadSpan 0x600020 4 = (v, .ok data) ∧ onlyRead (named [shard 0] (pushBytes 1)) v = true := by
  have h : okAnd ((named [shard 0] (pushBytes 1)).loadSpan 0x600000 4) (fun u bs => decide (bs = pushBytes 1 ∧ u.shardOf 1 2 = some (shard 0) ∧
      leNat ((bs.drop 0xC).take 4) = (shard 0).blen ∧ leNat ((bs.drop 4).take 4) < (shard 0).nblk ∧ (∀ b ∈ bs.drop 0x10, b = 0) ∧
      onlyRead (named [shard 0] (pushBytes 1)) u = true) &&
      okAnd (u.loadSpan 0x600020 4) fun v _ => decide (onlyRead (named [shard 0] (pushBytes 1)) v = true)) = true := by decide +kernel
  obtain ⟨u, bs, h1, h⟩ := okAnd_exists h
  obtain ⟨h2, h⟩ := Bool.and_eq_true_iff.mp h
  obtain ⟨a, b, c, d, e, f⟩ := of_decide_eq_true h2
  obtain ⟨v, data, h3, h4⟩ := okAnd_exists h
  exact ⟨u, bs, h1, a, b, c, d, e, f, v, data, h3, of_decide_eq_true h4⟩

/-- A push or a close that waits, and a gradient without a page. -/
theorem witness_NodeForms_waits : ({ shard 0 with primary := some 9 } : Shard).primary = some 9 ∧ unasking.slot.freeEntry = none ∧
    ({ withGroup { grp with forming := true } with shards := [shard 0] } : State).shardForming (shard 0) = true ∧
    (withShard (shard 0)).shardForming (shard 0) = false ∧
    ∃ v e, (named [shard 0] (pushBytes 1)).loadSpan 0x40000000 4 = (v, .error e) ∧ (e == (.prot, 0x40000000)) = true :=
  ⟨rfl, by decide, by decide +kernel, by decide +kernel, errAnd_exists (by decide +kernel)⟩

/-- A context that waits for the answer to `i`, a request with entry 2. -/
def nodeWait (i : Instr) : State :=
  (withShard (shard 0)).setSlot { base.slot with wait := some ⟨false, false, i, 0x300000, 4, 0, false, 0, []⟩, entries := [(2, some ⟨.node, 6, 5⟩)] }
def answerTo : PnFrom := ⟨0, 0, 0, 2, 6, 1, 2, 7, 4⟩
theorem witness_NodeForms_answer : (nodeWait (.pnpush 4 1)).answerStray answerTo = false ∧ answerTo.entry < 16 ∧
    Map.get none ((nodeWait (.pnpush 4 1)).slotAt 0 0).entries 2 = some ⟨.node, 6, 5⟩ ∧ (⟨.node, 6, 5⟩ : Entry).serial = answerTo.serial ∧
    ((nodeWait (.pnpush 4 1)).slotAt 0 0).wait = some ⟨false, false, .pnpush 4 1, 0x300000, 4, 0, false, 0, []⟩ ∧ (0x300000 : DWord) + u64 4 ≠ END := by
  decide +kernel

theorem test_pnstat : after (.pnstat 4 1) (named [shard 0] (shardRecord 0)) (fun t => t.g 4 == 3) = true := by decide +kernel
theorem test_push_answer : (match execPnPushAnswer answerTo 2 (nodeWait (.pnpush 4 1)) with
    | .next t => t.g 4 == 2 && t.slot.pc == 0x300004 && t.me.pts == 4 && Map.get none t.slot.entries 2 == none
    | _ => false) = true := by decide +kernel

theorem witness_ShardOpens : ∃ u bs, (named [] (shardRecord 2)).loadSpan 0x600000 8 = (u, .ok bs) ∧ bs = shardRecord 2 ∧ u.recordOk 0x600000 bs = true ∧
    ∃ v rs, u.recordRegions bs = (v, some rs) ∧ ∃ w, v.objRef 0xC0000040 = (w, .here 1) ∧ w.groupAt 1 = some grp ∧
      onlyRead (named [] (shardRecord 2)) w = true ∧ w.shardOf 1 2 = none ∧ w.tablesFull 1 = false := by
  have h : okAnd ((named [] (shardRecord 2)).loadSpan 0x600000 8) (fun u bs => decide (bs = shardRecord 2 ∧ u.recordOk 0x600000 bs = true) &&
      match u.recordRegions bs with
      | (v, some _) => (match v.objRef 0xC0000040 with
        | (w, .here j) => j == 1 && decide (w.groupAt 1 = some grp ∧ onlyRead (named [] (shardRecord 2)) w = true ∧ w.shardOf 1 2 = none ∧ w.tablesFull 1 = false)
        | _ => false)
      | _ => false) = true := by decide +kernel
  obtain ⟨u, bs, h1, h⟩ := okAnd_exists h
  obtain ⟨h2, h⟩ := Bool.and_eq_true_iff.mp h
  obtain ⟨a, b⟩ := of_decide_eq_true h2
  generalize hr : u.recordRegions bs = r at h
  obtain ⟨v, _ | rs⟩ := r
  · exact absurd h (by simp)
  · obtain ⟨w, h3, h4⟩ := refers h
    exact ⟨u, bs, h1, a, b, v, rs, hr, w, h3, of_decide_eq_true h4⟩
theorem witness_ShardOpens_fails : ∃ u bs, (named [] (shardRecord 3)).loadSpan 0x600000 8 = (u, .ok bs) ∧ (!u.recordOk 0x600000 bs) = true :=
  okAnd_exists (by decide +kernel)

/-- A subscriber that is opening, with the context that opens it. -/
def opener (role : Nat) : Shard := { shard role with opening := true, openers := [(0, 0, 0, true)] }
def openerAt (role : Nat) : State :=
  (withShard (opener role)).setSlot { base.slot with wait := some ⟨false, false, .pnopen 4 1, 0x300000, 4, 0, false, 0, []⟩ }
theorem witness_ShardOpens_answer : (openerAt 0).shardOf 1 2 = some (opener 0) ∧ (opener 0).openers = [(0, 0, 0, true)] ∧ (opener 0).subs = [] ∧
    ((openerAt 0).slotAt 0 0).wait = some ⟨false, false, .pnopen 4 1, 0x300000, 4, 0, false, 0, []⟩ ∧ (0x300000 : DWord) + u64 4 ≠ END ∧
    (withShard (shard 1)).groupAt (shard 1).obj = some grp ∧ (shard 1).partner = none ∧ (shard 2).ffmt < 8 ∧ (6 : Nat) ≠ grp.epoch := by decide +kernel

theorem test_pnopen_mirror : after (.pnopen 4 1) (named [] (shardRecord 2)) (fun t => t.g 4 == 0 &&
    (t.shardOf 1 2).map (fun h => (h.role, h.step, h.opening, h.stage)) == some (2, 3, false, ⟨0x630000, [0x630000]⟩)) = true := by decide +kernel
theorem test_open_deadline : (match execPnOpenAnswer 1 2 none (openerAt 0) with
    | .next t => t.g 4 == 2 && t.slot.pc == 0x300004 && t.shards == []
    | _ => false) = true := by decide +kernel

/-! ### Links and the fabric (R321 to R350) -/

/-- A link that is up on 16 lanes. -/
def lane16 : LinkDir := { LinkDir.empty with act := 16, wst := 0, lmap := 0xFFFF, spd := 0 }
def upLink : Link := { Link.empty with up := true, peer := 0x00050000, tx := lane16, rx := lane16, nextSeq := 7, expect := 4, routing := true }
def loc3 : LinkId := ⟨false, 3⟩
def withLink (k : Link) (v : Word) : State := (super.setLink loc3 k).wr 4 v

theorem witness_LinkForms : (withLink upLink 0x03014003).next ≠ END ∧ (withLink upLink 0).accepts 7 = true ∧ statMode (withLink upLink 0).slot.stat = 1 ∧
    Selects 4 (withLink upLink 0x03014003) 3 1 loc3 .rx ∧ Selects 4 (withLink upLink 0x0001401E) 0 1 ⟨false, 30⟩ .rx ∧
    Selects 4 (withLink upLink 0x0F07811F) 15 7 ⟨true, 287⟩ .tx ∧ upLink.tx.minw + 1 ≤ upLink.tx.act ∧ upLink.tx.wst = 0 ∧
    ({ lane16 with act := 2 } : LinkDir).act < lane16.minw + 1 ∧ ({ lane16 with wst := 1 } : LinkDir).wst ≠ 0 := by unfold Selects; decide +kernel
theorem witness_LinkForms_bad : ¬∃ i e l r, Selects 4 (withLink upLink 0x0000001F) i e l r := by
  rintro ⟨i, e, ⟨g, n⟩, r, h, hi, hl⟩
  have h31 : Z ((withLink upLink 0x0000001F).g 4) = 31 := by decide +kernel
  rw [h31] at h
  cases g <;> cases r <;> simp at h hl <;> omega

/-- R349's example selector: item 9 (RTRY) of global link 17. -/
theorem test_lstat_rtry : after (.lstat 5 4) ((super.setLink ⟨true, 17⟩ { upLink with tx := { lane16 with rtry := 6 } }).wr 4 0x09008011) (fun t =>
    t.g 5 == 6 && (t.link ⟨true, 17⟩).tx.rtry == 0) = true := by decide +kernel
/-- R349: `lctl` sets MINW and gives the value from before; LRETR's request is control flit 6. -/
theorem test_lctl_minw : after (.lctl 5 4) ((withLink upLink 0x07000003).wr 5 20) (fun t =>
    t.g 5 == 2 && (t.link loc3).tx.minw == 16) = true := by decide +kernel
theorem test_lretr : after (.lretr 5 4) (withLink upLink 0x00054003) (fun t =>
    t.g 5 == 0 && (t.link loc3).rx.wst == 1 && t.linkOut.map (fun f => (f.2.lk, f.2.seq, leNat f.2.body)) == [(6, 0, 5)]) = true := by decide +kernel

/-- A load of 16 bytes at 0x400000 from module 5, as a packet, and its flit. -/
def loadPacket (d : Nat) : Packet := ⟨d, 5, 0, 3, 1, 2, 9, 40, 0x400000, 1000, 0, leBytes 50 8 ++ leBytes 0 8⟩
def loadFlit (d : Nat) : FabFlit := mkFlit 4 0 0 ((loadPacket d).payloads.headD [])

theorem witness_FlitReception : (withLink upLink 0).link loc3 = upLink ∧ upLink.up = true ∧ upLink.training = none ∧ 1 ≤ upLink.expect ∧ upLink.expect < 2 ^ 32 ∧
    ({ loadFlit 0 with crc := 0 } : FabFlit).crc ≠ ({ loadFlit 0 with crc := 0 } : FabFlit).crcOf ∧ (loadFlit 0).crc = (loadFlit 0).crcOf ∧
    (loadFlit 0).body.length = 56 ∧ (loadFlit 0).ch < 5 ∧ (loadFlit 0).seq = upLink.expect ∧ (mkFlit 5 0 0 []).seq ≠ upLink.expect ∧
    upLink.hasRoom 0 = true ∧ Map.get [] upLink.asm 0 = [] ∧ leNat ((loadFlit 0).body.take 8) / 2 ^ 27 % 2 ^ 7 = 0 ∧
    (readPacket 1 (loadFlit 0).body).dmod = 0 ∧ (readPacket 1 (loadFlit 0).body).pk = 0 ∧ (readPacket 1 (loadFlit 9).body).dmod ≠ 0 ∧
    ({ upLink with rx := { lane16 with act := 0 }, held := [(0, 64)] } : Link).hasRoom 0 = false := by decide +kernel
/-- With the notices of hand-backs at flits 4 and 6; the first is about to be accepted, the second is still to come. -/
def handing : Link := { upLink with notes := [(4, 3), (6, 1)] }
theorem witness_FlitReception_hands : (∃ e ∈ handing.notes, e.1 = (mkFlit 4 15 1 []).seq) ∧ (∀ e ∈ upLink.notes, e.1 ≠ (mkFlit 4 15 1 []).seq) ∧
    handing.notes.find? (fun e => e.1 == (mkFlit 4 15 1 []).seq) = some ((mkFlit 4 15 1 []).seq, 3) ∧ (ctlFlit 8 4 3).lk = 8 ∧
    (ctlFlit 8 4 3).crc = (ctlFlit 8 4 3).crcOf ∧ (ctlFlit 8 4 3).body.length = 56 ∧ (ctlFlit 8 4 3).ch < 5 ∧
    ((ctlFlit 8 3 2).seq < handing.expect ∧ handing.expect ≤ (ctlFlit 8 3 2).seq + 2 ^ 31) ∧ (∀ e ∈ handing.notes, e.1 ≠ (ctlFlit 8 5 2).seq) ∧
    handing.expect ≤ (ctlFlit 8 5 2).seq ∧ (ctlFlit 8 5 2).seq + 1 < handing.expect + 2 ^ 31 := by decide +kernel
/-- A repeated notice of a hand-back that is done is dropped. -/
theorem test_notice : (match execLinkFlitReceive loc3 (ctlFlit 8 3 2) (withLink handing 0), execLinkFlitReceive loc3 (ctlFlit 8 5 2) (withLink handing 0) with
    | .next t, .next u => (t.link loc3).notes == [(4, 3), (6, 1)] && (u.link loc3).notes == [(4, 3), (6, 1), (5, 2)]
    | _, _ => false) = true := by decide +kernel
theorem witness_PacketLayout : (loadPacket 0).dmod < 2 ^ 13 ∧ (loadPacket 0).smod < 2 ^ 13 ∧ (loadPacket 0).core < 2 ^ 20 ∧ (loadPacket 0).slot < 4 ∧
    (loadPacket 0).entry < 16 ∧ (loadPacket 0).serial < 2 ^ 32 ∧ (loadPacket 0).clock < 2 ^ 64 ∧ (loadPacket 0).addr < 2 ^ 50 ∧
    (loadPacket 0).budget < 2 ^ 32 ∧ (loadPacket 0).status = 0 ∧ (loadPacket 0).pk = 0 ∧ (loadPacket 0).data.length = 16 ∧
    (128 : Nat) + 0x400000 % 128 ≤ 128 ∧ 1 + 0x40007F % 128 ≤ 128 := by decide

/-- A store of 64 bytes to module 0 in two flits, of which the first has come; and the notice of a hand-back at flit 4. -/
def storePacket (d : Nat) : Packet := ⟨d, 5, 1, 3, 1, 2, 9, 40, 0x400000, 1000, 0, List.replicate 64 7⟩
def halfPacket : Link := { upLink with asm := [(0, [mkFlit 3 0 0 ((storePacket 0).payloads.headD [])])], held := [(0, 1)] }
theorem witness_FlitReception_multi : (storePacket 0).payloads.length = 2 ∧
    (Map.get [] halfPacket.asm 0 ++ [mkFlit 4 0 0 ((storePacket 0).payloads.getD 1 [])]).length = 2 ∧
    leNat ((((storePacket 0).payloads.headD [])).take 8) / 2 ^ 27 % 2 ^ 7 = 1 ∧ halfPacket.hasRoom 0 = true ∧
    (storePacket 0).data.length = 56 * (1 + 1) - 32 - 16 ∧ (ctlFlit 10 0 0).lk = 10 ∧
    (mkFlit 4 15 2 (List.replicate 56 0)).body.length = 56 ∧ upLink.debt + 1 < 64 ∧ 64 ≤ ({ upLink with debt := 63 } : Link).debt + 1 := by decide +kernel
theorem test_reception : (match execLinkFlitReceive loc3 (loadFlit 0) (withLink upLink 0) with
    | .next t => (t.link loc3).expect == 5 && (t.link loc3).debt == 1 && t.agenda == [.happen (.fabricTargetRequest (loadPacket 0))]
    | _ => false) = true := by decide +kernel
theorem test_nak : (match execLinkFlitReceive loc3 { loadFlit 0 with crc := 0 } (withLink upLink 0) with
    | .next t => (t.link loc3).waiting && t.linkOut.map (fun f => (f.2.lk, f.2.seq)) == [(4, 4)]
    | _ => false) = true := by decide +kernel

/-- With flits 5 and 6 unacknowledged, each sent `n` times. -/
def replaying (n : Nat) : Link := { upLink with retry := [(mkFlit 5 0 0 [], n), (mkFlit 6 0 0 [], n)], debt := 1 }
theorem witness_FlitReplay : (replaying 1).up = true ∧ (replaying 1).retry ≠ [] ∧ 0 < (replaying 1).debt ∧ 1 < (replaying 1).expect ∧
    (∀ e ∈ (replaying 1).retry, e.1.seq ≠ 9) ∧ (replaying 1).retry = [(mkFlit 5 0 0 [], 1)] ++ (mkFlit 6 0 0 [], 1) :: [] ∧
    (∀ x ∈ [(mkFlit 5 0 0 [], 1)], x.1.seq ≠ 6) ∧ (replaying 1).txq = [] ∧ (replaying 1).mark = [] ∧
    ({ replaying 1 with handed := [(5, 2), (6, 3)] } : Link).handed.filter (fun h => !([(mkFlit 5 0 0 [], 1)]).any fun x => x.1.seq == h.1) = [(6, 3)] ∧
    (∀ x ∈ (mkFlit 6 0 0 [], 1) :: [], x.2 + 1 < 32) ∧ (∃ x ∈ (mkFlit 6 0 0 [], 31) :: [], 32 ≤ x.2 + 1) ∧ loc3.num ≤ 30 := by decide +kernel
/-- Where a transmission is one flit: with the rest of a packet begun, with packets of channels 1 and 0 waiting, and with only a mark. -/
theorem witness_FlitReplay_one : ({ withLink (replaying 1) 0 with prompt := false } : State).prompt = false ∧ 1 < loc3.retryCap ∧
    ({ replaying 1 with begun := some (0, [[1], [2]]) } : Link).begun = some (0, [1] :: [[2]]) ∧
    ({ replaying 1 with txq := [(1, [[1]]), (0, [[2]])], rot := 5 } : Link).txq = [(1, [[1]])] ++ (0, [2] :: []) :: [] ∧
    (∃ i, i < 5 ∧ 0 = ((5 : Nat) + i) % 5 ∧ ∀ j, j < i → ∀ x ∈ ([(1, [[1]]), (0, [[2]])] : List (Nat × List (List Byte))), x.1 ≠ (5 + j) % 5) ∧
    ({ replaying 1 with mark := [2] } : Link).mark = 2 :: [] ∧ 1 ∈ ({ replaying 1 with mark := [1] } : Link).mark :=
  ⟨rfl, by decide, rfl, rfl, ⟨0, by decide, by decide, fun j h => absurd h (by omega)⟩, rfl, by decide⟩
/-- An acknowledgement of flit 5 repeats the notice of the hand-back at flit 6, with its own lane. -/
theorem test_link_ack_notice : (match execLinkAck loc3 5 (withLink { replaying 1 with handed := [(5, 2), (6, 3)], tx := { lane16 with lout := 0x1F } } 0) with
    | .next t => (t.link loc3).handed == [(6, 3)] && t.linkOut.map (fun f => (f.2.lk, f.2.seq, leNat f.2.body)) == [(8, 6, 3)]
    | _ => false) = true := by decide +kernel
theorem test_link_ack : (match execLinkAck loc3 5 (withLink (replaying 1) 0) with
    | .next t => (t.link loc3).retry.map (·.1.seq) == [6]
    | _ => false) = true := by decide +kernel

/-- A link in round n of training, and the word of a partner that has lanes 0 to 7. -/
def training (n m : Nat) : Link := { Link.empty with training := some ⟨n, m, 0, 0⟩ }
def partner8 : Word := 0x00FF0008
theorem witness_LinkTraining : (withLink (training 1 0xFFFF) 0).link loc3 = training 1 0xFFFF ∧ (training 1 0xFFFF).training = some ⟨1, 0xFFFF, 0, 0⟩ ∧
    (Z partner8 / 2 ^ 5 % 2 ^ 7 = 0 ∧ Z partner8 % 2 ^ 5 = ((List.range 16).filter fun j => (Z partner8 / 2 ^ 16 % 2 ^ 16).testBit j).length ∧
      Z partner8 / 2 ^ 12 % 2 ^ 4 ≤ 2 ∧ Z partner8 / 2 ^ 16 % 2 ^ 16 ≤ 2 ^ 16 - 1) ∧ Z (0x00FF0028 : Word) / 2 ^ 5 % 2 ^ 7 ≠ 0 ∧
    2 ≤ ((List.range 16).filter fun j => ((0xFFFF &&& Z (0xFFFF : Word)) &&& 0xFF).testBit j).length ∧
    (0xFFFF &&& Z (0xFFFF : Word)) * 2 ^ 16 + 0 * 2 ^ 12 + 16 ≠ Z partner8 ∧ (0xFF &&& Z (0xFFFF : Word)) * 2 ^ 16 + 0 * 2 ^ 12 + 8 = Z partner8 ∧
    ((List.range 16).filter fun j => ((0x100 &&& Z (0xFFFF : Word)) &&& 0xFF).testBit j).length < 2 ∧ (3 : Nat) ≤ 3 ∧ (1 : Nat) < 3 := by decide +kernel
/-- A training flit, and one whose CRC is wrong. -/
theorem witness_LinkTraining_flit : (mkFlit 0x00FF0008 0 9 (List.replicate 56 0)).lk = 9 ∧ (mkFlit 0x00FF0008 0 9 (List.replicate 56 0)).body.length = 56 ∧
    (mkFlit 0x00FF0008 0 9 (List.replicate 56 0)).crc = (mkFlit 0x00FF0008 0 9 (List.replicate 56 0)).crcOf ∧ (training 1 0).up = false := by decide +kernel
theorem test_training : (match execTrainingRound loc3 0xFFFF partner8 0x00050003 (withLink (training 2 0xFF) 0) with
    | .next t => (t.link loc3).up && (t.link loc3).tx.act == 8 && (t.link loc3).rx.lmap == 0xFF && (t.link loc3).peerMod == 5
    | _ => false) = true := by decide +kernel

theorem witness_LaneHandBack : (2 : Nat) < 16 ∧ ({ lane16 with wst := 1 } : LinkDir).wst ≠ 0 ∧ ({ lane16 with act := 2 } : LinkDir).act < lane16.minw + 1 ∧
    lane16.wst = 0 ∧ lane16.minw + 1 ≤ lane16.act ∧ upLink.up = true ∧ ({ lane16 with wst := 1, lout := 2 } : LinkDir).lout ≠ 0x1F ∧
    upLink.retry.length < loc3.retryCap ∧ upLink.txq = [] := by decide
theorem witness_LaneHandBack_mark : ({ upLink with mark := [1] } : Link).mark ≠ [] ∧ upLink.mark = [] ∧ upLink.begun = none ∧
    ({ upLink with rx := { lane16 with wst := 1 } } : Link).rx.wst = 1 ∧ handing.notes ≠ [] := by decide
theorem test_handback : (match execHandbackRequest loc3 2 (withLink upLink 0) with
    | .next t => (t.link loc3).tx.act == 15 && (t.link loc3).tx.lout == 2 && (t.link loc3).tx.hseq == 7 &&
        t.linkOut.map (fun f => (f.2.lk, f.2.seq, f.2.ch)) == [(8, 7, 0), (1, 7, 15)]
    | _ => false) = true := by decide +kernel

/-- Local links 4 to module 5 (up or down) and 0 to module 1, from which link 3 leads to module 5; global link 2 to module 40. -/
def fabric (direct : Bool) : State :=
  let s := (base.setLink ⟨false, 4⟩ { upLink with up := direct }).setLink ⟨false, 0⟩ { upLink with peer := 0x00010000 }
  { s.setLink ⟨true, 2⟩ { upLink with peer := 0x00280000 } with routes := [⟨1, loc3, 5⟩] }
theorem witness_Routing : (fabric true).dev.mnum = 0 ∧ ((fabric true).link ⟨false, (5 + 31 - 0) % 32⟩).inRouting = true ∧
    ((fabric false).link ⟨false, 4⟩).inRouting = false ∧
    (List.range 32).filter (fun c => c ≠ 0 && c ≠ 5 && ((fabric false).link ⟨false, (c + 31 - 0) % 32⟩).inRouting &&
      (fabric false).routes.any fun r => r.pos = c && r.link == ⟨false, (5 + 31 - c) % 32⟩) = [1] ∧ [1][(0 + 5) % 1]? = some 1 ∧
    40 / 32 ≠ 0 / 32 ∧ (List.range 288).filter (fun n => ((fabric true).link ⟨true, n⟩).inRouting && ((fabric true).link ⟨true, n⟩).peerMod = 40) = [2] ∧
    [2][(0 + 40) % 1]? = some 2 ∧ (fabric true).routes.find? (fun r => r.pos == 1 && r.link == loc3) = some ⟨1, loc3, 5⟩ := by decide +kernel
/-- A global link to module 33, whose reach word names position 8, by way of position 1 of this group. -/
def farFabric : State := { fabric true with routes := [⟨1, ⟨true, 7⟩, 33⟩], reach := [(2 ^ 10 + (LinkId.mk true 7).key, 0x100)] }
theorem witness_Routing_far : (Map.get 0 farFabric.reach (1 * 2 ^ 10 + (LinkId.mk true 7).key)).getLsbD (40 % 32) = true ∧
    (farFabric.link ⟨false, (1 + 31 - 0) % 32⟩).inRouting = true ∧ (33 : Nat) / 32 = 40 / 32 ∧ 33 ≠ 40 ∧
    (∀ n, n < 288 → n ≠ 2 → (farFabric.link ⟨true, n⟩).inRouting = false) ∧ (70 : Nat) / 32 ≠ 40 / 32 ∧
    farFabric.route 65 none = none ∧ ({ farFabric.setLink ⟨true, 2⟩ Link.empty with mem := [] } : State).route 40 none = some (⟨false, 0⟩, 0) ∧
    farFabric.route 2 (some 4) = none := by decide +kernel
/-- A context image that goes to module 5, over link 4, over no link, and where no request entry is left. -/
def farImaging (d : Bool) : State :=
  { twoTasks.wra 3 0x8014000000400000 with links := if d then (fabric true).links else [], routes := [] }
theorem witness_Images_far : (∃ s1 ps, (farImaging true).planLines .wr 0x8014000000400000 (imageLines (farImaging true).part).length = (s1, .ok ps) ∧
      (ps.head? == some (.far 5 0x400000) && s1.cores == (farImaging true).cores && s1.issue == (farImaging true).issue && s1.mayImage 0 1 &&
        !s1.repliesFull 0 && !s1.outputFull (s1.request 0 0 0 5 0x400000 s1.deadline (.store ((((farImaging true).slotAt 0 1).image (farImaging true).part).take 128))
          0 (farImaging true).me.pts)) = true) ∧ FreeEntry (farImaging true).slot 0 ∧ (farImaging true).slot.half = none ∧
    (farImaging true).route 5 none = some (⟨false, 4⟩, 0) ∧ (farImaging false).route 5 none = none :=
  ⟨okAnd_exists (by decide +kernel), by unfold FreeEntry; decide, by decide, by decide +kernel, by decide +kernel⟩
/-- R202: the first line of the image leaves as a store with an entry, and the context stays until the last is acknowledged. -/
theorem test_ctxout_far : after (.ctxout 2 3) ((farImaging true).wr 2 1) (fun t => t.linkOut.length != 0 && (t.me.slot 1).st != .free &&
    (Map.get none t.slot.entries 0).isSome && t.slot.wait.map (·.keep) == some true) = true := by decide +kernel
theorem test_ctxout_unrouted : after (.ctxout 2 3) ((farImaging false).wr 2 1) (fun t => t.slot.tcause == 8 && t.slot.tval == 0x8014000000400000 &&
    (t.me.slot 1).st != .free) = true := by decide +kernel
theorem test_route : (fabric true).route 5 none = some (⟨false, 4⟩, 0) ∧ (fabric false).route 5 none = some (⟨false, 0⟩, 0) ∧
    (fabric true).route 40 none = some (⟨true, 2⟩, 1) ∧ (fabric true).route 5 (some 1) = some (⟨false, 4⟩, 2) := by decide +kernel

/-- A request that waits here on its way to module 5, and the export table of the module. -/
def forwarding : State := { fabric true with transit := [⟨loadPacket 5, (loadPacket 5).payloads, some ⟨true, 2⟩, 1, 1⟩] }
def exporting : State := { loaded with dev := { loaded.dev with xroot := 0x100000 } }
theorem witness_FabricRequests : ({ loadPacket 0 with budget := 0 } : Packet).budget = 0 ∧
    forwarding.transit.find? (fun t => t.pkt == loadPacket 5) = some ⟨loadPacket 5, (loadPacket 5).payloads, some ⟨true, 2⟩, 1, 1⟩ ∧ (loadPacket 5).pk < 4 ∧
    (loadPacket 5).budget ≤ 1000 ∧ 999 < (loadPacket 5).budget ∧ forwarding.route (loadPacket 5).dmod (some 1) = some (⟨false, 4⟩, 2) ∧
    (forwarding.link ⟨false, 4⟩).txq = [] ∧ (forwarding.link ⟨false, 4⟩).mark = [] ∧ (loadPacket 0).pk < 3 ∧ (loadPacket 0).dmod = exporting.dev.mnum ∧
    (loadPacket 0).budget ≠ 0 ∧ exporting.rebaseDue (loadPacket 0).clock = false ∧ exporting.badAt 0x400000 = false ∧
    exporting.badPart 0x400000 8 = false := by decide +kernel
theorem witness_PacketForwarding : forwarding.transit.find? (fun t => t.pkt == loadPacket 5) = some ⟨loadPacket 5, (loadPacket 5).payloads, some ⟨true, 2⟩, 1, 1⟩ ∧
    (loadPacket 5).payloads.length = 1 ∧ (forwarding.link ⟨false, 4⟩).up = true ∧ (forwarding.link ⟨false, 4⟩).begun = none ∧
    (LinkId.mk false 4).num < 512 ∧ forwarding.prompt = true ∧ (loadPacket 5).budget - 1000 = 0 ∧ (loadPacket 5).budget - 10 ≠ 0 ∧
    ({ fabric false with routes := [] } : State).route 5 (some 1) = none ∧ 4096 < ([(2, List.replicate 4096 [])] : List (Nat × List (List Byte))).foldl
      (fun n e => n + if e.1 = 2 then e.2.length else 0) 0 + 1 := by decide +kernel
/-- A load of module 5 where no link leads out. -/
def cutOff : State := loaded.wra 1 0x8014000000400000
theorem witness_PacketForwarding_refused : (Instr.ldg 2 5 1 0).access cutOff = some (0x8014000000400000, 4, .load 4) ∧ (Instr.ldg 2 5 1 0).soft = none ∧
    (∃ u p, cutOff.resolve 0 0x8014000000400000 .rd = (u, .ok p) ∧ (p == .far 5 0x400000 && u.me.far == [] && u.slot.freeEntry == some 0 &&
      !u.repliesFull u.issue.lid && u.route 5 none == none) = true) :=
  ⟨by decide +kernel, rfl, okAnd_exists (by decide +kernel)⟩
/-- An `add` of 8 bytes at the target, and what the objects of module 0 are asked. -/
def addPacket : Packet := { loadPacket 0 with pk := 2, data := leBytes (AtOp.add.primary + 256 * 8) 8 ++ leBytes 5 8 }
theorem witness_FabricRequests_atomic : addPacket.data = leBytes (AtOp.add.primary + 256 * 8) 8 ++ leBytes 5 8 ∧ (∃ new, AtomicNew .add 8 7 5 0 new) ∧
    Fits exporting ((loadPacket 0).clock + leNat ((loadPacket 0).data.take 4)) := ⟨rfl, ⟨12, by unfold AtomicNew; decide⟩, by unfold Fits; decide +kernel⟩
def objPacket (code v : Nat) : Packet := { loadPacket 0 with pk := 3, smod := 8, addr := 0xC0000040, data := leBytes code 4 ++ leBytes v 4 }
theorem witness_ObjectRequests : (∀ c ∈ [0, 1, 2, 3, 4], leNat ((objPacket c 3).data.take 4) = c) ∧ u32 (leNat (((objPacket 0 3).data.drop 4).take 4)) = 3 ∧
    exporting.rebaseDue (objPacket 0 3).clock = false ∧ (objPacket 0 3).budget ≠ 0 ∧ (objPacket 0 3).dmod = exporting.dev.mnum ∧
    (match exporting.export 0xC0000040 .rd with | .ok p => p == .object 0x40 | .error _ => false) = true ∧
    (∃ r ∈ grp.live, grp.modOf r = 8) ∧ (∀ r ∈ grp.live, grp.modOf r ≠ 7) ∧
    (withObj (.barrier (bar 1)) 0).inScope { bar 1 with scope := 6 } 8 3 = true ∧ (withObj (.barrier (bar 1)) 0).inScope (bar 1) 8 3 = false := by
  decide +kernel
/-- A `bqry` of another module's object waits for the reply that request entry 3 awaits; a `coll` waits for the slot of its group. -/
def objWait (i : Instr) (h : Option (List Byte)) : State :=
  base.setSlot { base.slot with wait := some ⟨false, false, i, 0x300000, 4, 0, false, 0, []⟩, entries := [(3, some ⟨.object, 7, 5⟩)], half := h }
def objReply (st : Nat) (data : List Byte) : Reply := ⟨0, 0, 3, 7, st, data, 9⟩
theorem witness_ObjectReplies : Map.get none ((objWait (.bqry 4 1) none).slotAt 0 0).entries 3 = some ⟨.object, 7, 5⟩ ∧
    (∀ q ∈ (objWait (.bqry 4 1) none).reqs, q.answer ≠ some (objReply 0 [])) ∧
    (∀ y ∈ ((objWait (.bqry 4 1) none).core 0).xfers, y.awaits (objReply 0 []) = false) ∧
    ((objWait (.coll 4 1 0) (some (leBytes 0x8014000000000040 8))).slotAt 0 0).half = some (leBytes 0x8014000000000040 8) ∧
    ((objWait (.bqry 4 1) none).slotAt 0 0).wait = some ⟨false, false, .bqry 4 1, 0x300000, 4, 0, false, 0, []⟩ ∧ 0x8014000000000040 < 2 ^ 64 := by
  refine ⟨by decide, ?_, ?_, by decide, by decide, by decide⟩
  · intro q hq; cases hq
  · intro y hy; cases hy
theorem test_object_reply : (match execMemoryReply (objReply 0 (leBytes 3 4 ++ leBytes 5 4 ++ leBytes 2 4)) (objWait (.bqry 4 1) none) with
    | .next t => t.g 4 == 5 && t.g 5 == 2 && t.me.pts == 9 && Map.get none t.slot.entries 3 == none
    | _ => false) = true := by decide +kernel
/-- What the export table answers: a place, or the status of the cause (R279). -/
def exported (va : Nat) (acc : Acc) : Place × Nat :=
  match exporting.export va acc with
  | .ok p => (p, 0)
  | .error c => (.memory 0, c.status)
theorem witness_FabricRequests_places : exported 0x400000 .rd = (.memory 0x400000, 0) ∧ exported 0x8000000000 .rd = (.memory 0, 2) ∧
    exported 0x40000000 .rd = (.memory 0, 3) ∧ exported 0xC0000040 .rd = (.object 0x40, 0) ∧ exported 0x80000000 .wr = (.host 0x80000000, 0) ∧
    base.dev.xroot = 0 := by decide +kernel
theorem test_forward : (match execPacketForward (loadPacket 5) 10 forwarding with
    | .next t => t.transit == [] && t.linkOut.map (fun f => (f.1, f.2.ch, readPacket 1 f.2.body)) ==
        [(⟨false, 4⟩, 2, { loadPacket 5 with budget := 990 })]
    | _ => false) = true := by decide +kernel

/-! ### Host, groom and service (R351 to R373) -/

/-- The groom's module block ready for service. -/
def served : State := base
theorem witness_WindowReads : served.dev.power = true ∧ (0x1000 : Nat) ≤ 0x1000 ∧ 0xFFFF < 0x10000 ∧ 0x50000 ≤ 0xEFFFF ∧ 0x31 % 4 ≠ 0 ∧ (63 : Nat) < 64 := by
  decide
theorem test_read_clear : (match execReadClear 0x34 4 (withDev fun d => { d with stray := 7 }) with
    | .next t => t.hostOut == [.read 0x34 7] && t.dev.stray == 0
    | _ => false) = true := by decide +kernel
theorem test_read_halves : (match execReadClear 0x44 4 (withDev fun d => { d with xroot := 0x0000001200004000 }) with
    | .next t => t.hostOut == [.read 0x44 0x12]
    | _ => false) = true := by decide +kernel

theorem witness_WindowWrites : served.dev.stored ≠ none ∧ (withDev fun d => { d with stored := none }).dev.stored = none ∧
    (∀ e ∈ State.reset.queues, ∀ la, e.2.launch = some la → la.phase = .waiting) ∧
    ¬(∀ e ∈ served.queues, ∀ la, e.2.launch = some la → la.phase = .waiting) ∧ State.reset.dev.power = true ∧ State.reset.dev.stored ≠ none :=
  ⟨by decide, by decide, (fun e he => by cases he), fun h => absurd (h _ (List.mem_singleton.mpr rfl) placedLaunch rfl) (by decide), by decide, by decide⟩
/-- A write of 64 bytes at LREC is a launch record. -/
theorem test_write_record : (match execRegisterWrite 0x11000 64 (leNat (recordBytes 1)) base, execRegisterWrite 0x11000 4 7 base with
    | .next t, .next u => (t.queue 1).seq == 1 && (t.queue 1).badw == 0 && (u.queue 1).seq == 0 && (u.queue 1).badw == 1
    | _, _ => false) = true := by decide +kernel
theorem test_write_dln : (match execRegisterWrite 0x13068 4 500 served with
    | .next t => (t.queue 3).dln == 500
    | _ => false) = true := by decide +kernel
theorem test_accept : (match execAccept 0x1FE State.reset with
    | .next t => t.dev.accept == 0xFF
    | _ => false) = true := by decide +kernel

theorem witness_ServiceInjection : served.dev.svcReq = none ∧ served.dev.fwRdy = true ∧ State.reset.dev.fwRdy = false ∧
    (withDev fun d => { d with svcReq := some dataFlit }).dev.svcReq ≠ none := by decide +kernel
theorem test_svcgo : (match execSvcgo (withDev fun d => { d with svcd := 9, svcw0 := 5, svcw1 := 6 }) with
    | .next t => t.flight.map (fun x => (x.flit.dst, x.flit.ksf, x.flit.w0, x.flit.w1)) == [(9, 0x300, 5, 6)]
    | _ => false) = true := by decide +kernel

/-- R293's image of a group of two members, with its table at 0x700000, for slot 4. -/
def imageBytes (kind epoch : Nat) : List Byte :=
  leBytes kind 1 ++ leBytes 0 1 ++ leBytes 1 2 ++ leBytes epoch 4 ++ leBytes 2 2 ++ leBytes 0 2 ++ leBytes 1000 4 ++ leBytes 0x700000 8 ++
    List.replicate 40 0
def imaging : State :=
  { (withDev fun d => { d with gslot := 4 }) with mem := Map.setList 0 base.mem 0x700000 (leBytes 8 4 ++ leBytes 0 4) }
theorem witness_GroupImages : (imageBytes 2 1).length = 64 ∧ imaging.groupBusy 4 = false ∧ State.reset.dev.fwRdy = false ∧ imaging.dev.fwRdy = true ∧
    ({ imaging with objects := [(4, .group grp)], shards := [{ shard 1 with obj := 4 }] } : State).groupBusy 4 = true ∧
    leNat (((imageBytes 2 1).drop 2).take 2) < leNat (((imageBytes 2 1).drop 8).take 2) ∧ leNat (((imageBytes 2 1).drop 4).take 4) ≠ 0 ∧
    (∀ i, i < 64 → 0x18 ≤ i → (imageBytes 2 1)[i]? = some 0) ∧ leNat (((imageBytes 2 0).drop 4).take 4) = 0 ∧ 0x700000 + 4 * 2 ≤ 2 ^ 41 ∧
    imaging.badIn 0x700000 8 = false ∧ (∀ m ∈ [8, 0], m < 2 ^ 13) ∧
    (List.range 2).map (fun r => leNat (imaging.bytesAt (0x700000 + 4 * r) 4)) = [8, 0] ∧ leNat ((imageBytes 0 1).take 1) = 0 := by decide +kernel
theorem test_gimg : (match execGimg (imageBytes 2 1) imaging with
    | .next t => (t.groupAt 4).map (fun g => (g.rank, g.epoch, g.mods, g.live, g.gdl)) == some (1, 1, [8, 0], [0, 1], 1000)
    | _ => false) = true := by decide +kernel

/-- A firmware image of 4 bytes of code with security version 3, and one whose magic is wrong. -/
def firmware (magic : Nat) : List Byte := leBytes magic 4 ++ leBytes 3 4 ++ leBytes 4 4 ++ List.replicate (0x40 - 12 + 4 + 96) 0
theorem witness_Firmware : served.dev.power = true ∧ served.dev.fwState ∈ [0, 2, 3, 5] ∧ leNat ((firmware 0x4D524F47).take 4) = 0x4D524F47 ∧
    leNat (((firmware 0x4D524F47).drop 8).take 4) ≤ 8 * 2 ^ 20 - 4096 ∧
    0x40 + leNat (((firmware 0x4D524F47).drop 8).take 4) + 96 ≤ (firmware 0x4D524F47).length ∧ leNat ((firmware 0).take 4) ≠ 0x4D524F47 ∧
    served.dev.fuseMin ≤ leNat (((firmware 0).drop 4).take 4) ∧ ¬(4 ≤ leNat (((firmware 0).drop 4).take 4)) ∧ served.dev.rpState ≠ 1 ∧
    State.reset.dev.fwRdy = false ∧ State.reset.dev.stored ≠ none ∧ State.reset.dev.staged = none ∧ State.reset.dev.svcReq = none ∧
    State.reset.dev.linksBegun = false ∧ (withDev fun d => { d with linksBegun := true }).dev.linksBegun = true ∧ (∀ e ∈ State.reset.links, e.2.training = none) ∧
    (∃ e ∈ ({ State.reset with links := [(0, training 1 0xFFFF)] } : State).links, e.2.training ≠ none) ∧ (firmware 0x4D524F47).length ≠ (withDev fun d => { d with stageLen := 1 }).dev.stageLen ∧
    (∀ i, i < 0x40 → 0x0C ≤ i → (firmware 0x4D524F47)[i]? = some 0) ∧ State.reset.dev.images = [] ∧ State.reset.dev.queries = [] ∧ (63 : Nat) < 64 := by decide +kernel
/-- Every image meets exactly one of the four outcomes of its signatures. -/
theorem witness_Firmware_signatures (bs : List Byte) : Config.ecdsaVerifies bs = false ∨ Config.ecdsaVerifies bs = true ∧ (Config.lmsVerifies bs = false ∨
    Config.lmsVerifies bs = true) := by
  cases Config.ecdsaVerifies bs <;> cases Config.lmsVerifies bs <;> simp
theorem witness_Firmware_images : (⟨firmware 0, true⟩ : FwImage).outOfBand = true ∧ (⟨firmware 0, false⟩ : FwImage).outOfBand = false ∧
    (⟨firmware 0, false⟩ : FwImage).bytes.length = (withDev fun d => { d with stageLen := (firmware 0).length }).dev.stageLen ∧
    (withDev fun d => { d with fwState := 4, staged := some 3, rpState := 1, fwRdy := false }).dev.fwRdy = false := by decide +kernel
/-- R372: an image that came out of band needs no FWLEN. -/
theorem test_stage_outOfBand : (match execStageDone (some ⟨firmware 0, true⟩) (withDev fun d => { d with fwState := 1, stageLen := 0 }) with
    | .next t => t.dev.fwState == 3 && t.dev.fwWhy == 1
    | _ => false) = true := by decide +kernel
/-- R364: a repair command that waits for RDY does not keep an activation from going on. -/
theorem test_activation_waits : (match execActivation (withDev fun d => { d with fwState := 4, staged := some 3, rpState := 1, fwRdy := false }),
      execActivation (withDev fun d => { d with fwState := 4, staged := some 3, rpState := 1, fwRdy := true }) with
    | .next t, .next u => t.dev.stored == some 3 && u.dev.stored != some 3
    | _, _ => false) = true := by decide +kernel
theorem test_stage_done : (match execStageDone (some ⟨firmware 0, false⟩) (withDev fun d => { d with fwState := 1, stageLen := (firmware 0).length }) with
    | .next t => t.dev.fwState == 3 && t.dev.fwWhy == 1 && t.hostOut == [.msix 64]
    | _ => false) = true := by decide +kernel

/-- With these fenced teams and gated quarters. -/
def repaired (f q : List Nat) : State := withDev fun d => { d with fenced := f, gated := q, tcnt := 1 }
theorem witness_RepairCommands : (repaired [] []).dev.power = true ∧ (repaired [] []).dev.stored ≠ none ∧ (repaired [] []).dev.fwRdy = true ∧
    (repaired [] []).dev.rpState ≠ 1 ∧ (repaired [] []).dev.tcnt ≤ 1 ∧ (repaired [] []).occupied 0 = true ∧
    ({ repaired [] [] with queues := [] } : State).occupied 0 = false ∧ 1 ∉ (repaired [0] []).dev.fenced ∧ 0 ∈ (repaired [0] []).dev.fenced ∧
    Config.quarterOf 0 % 4 ∉ (repaired [0] []).dev.gated ∧ 127 < 128 ∧ 2 ∉ (repaired [] [1]).dev.gated ∧ 1 ∈ (repaired [] [1]).dev.gated ∧
    (withDev fun d => { d with rpState := 1, repair := some (3, 5) }).dev.repair = some (3, 5) :=
  ⟨by decide, by decide, by decide, by decide, by decide, by decide +kernel, by decide +kernel, by decide, by decide, List.not_mem_nil, by decide,
    by decide, by decide, by decide⟩
theorem witness_RepairCommands_gate : (∃ a, a ≤ 3 ∧ ∃ t, t < (repaired [] []).dev.tcnt ∧ Config.quarterOf t % 4 = a ∧ t ∉ (repaired [] []).dev.fenced) ∧
    (∀ t, t < (repaired [0] []).dev.tcnt → Config.quarterOf t % 4 = 0 → t ∈ (repaired [0] []).dev.fenced) ∧
    Config.quarterOf 0 % 4 ∈ (repaired [0] [0, 1, 2, 3]).dev.gated := by
  refine ⟨⟨Config.quarterOf 0 % 4, by omega, 0, by decide, rfl, by decide⟩, fun t ht _ => ?_, ?_⟩
  · have : t = 0 := by have h1 : (repaired [0] []).dev.tcnt = 1 := rfl; omega
    rw [this]; exact List.mem_singleton.mpr rfl
  · show Config.quarterOf 0 % 4 ∈ [0, 1, 2, 3]
    have : Config.quarterOf 0 % 4 < 4 := Nat.mod_lt _ (by decide)
    simp only [List.mem_cons, List.not_mem_nil, or_false]
    omega
theorem test_fence : (match execRepairFence 0 { repaired [] [] with queues := [] } with
    | .next t => t.dev.fenced == [0] && t.dev.rpState == 2
    | _ => false) = true := by decide +kernel

/-- R358: a thermal trip ends the placed launch HALTED (0x0A), and nothing computes until the next reset. -/
theorem witness_GroomActions : base.dev.power = true ∧ (0 : Nat) < 4 ∧ Map.get 6250 base.dev.pcap 0 < 6251 % 2 ^ 16 ∧ 6250 % 2 ^ 16 ≤ Map.get 6250 base.dev.pcap 0 ∧
    base.queues = [(0, base.queue 0)] ∧ (base.queue 0).launch = some placedLaunch ∧ placedLaunch.lost = false ∧ placedLaunch.phase = .placed ∧
    (base.queues.map Prod.fst).Nodup := by decide +kernel
theorem test_thermal_trip : (match execThermalTrip base with
    | .next t => t.dev.computeOff && (t.queue 0).launch == none && t.hostOut.map (fun w => match w with
        | .data _ bs => leNat ((bs.drop 4).take 4)
        | _ => 0) == [0x0A, 0]
    | _ => false) = true := by decide +kernel
theorem witness_Resets : base.dev.power = true := by decide
theorem test_module_reset : (match execModuleReset (repaired [0] []) with
    | .next t => t.dev.tcnt == 0 && t.dev.fenced == [] && t.mem == [] && t.cores == []
    | _ => false) = true := by decide +kernel

/-! ### Gates and the machine (R56, R68, R71) -/

theorem witness_DecodeGates : (∀ g, g < 8 → base.accepts g = true) ∧ statMode base.slot.stat = 0 ∧
    (withDev fun d => { d with accept := 1 }).accepts 1 = false ∧ (withDev fun d => { d with accept := 1 }).accepts 7 = false := by decide
theorem test_priv : after (.slice 3) base (fun t => t.slot.tcause == 0x02 && t.slot.stat == 3) = true := by decide +kernel

theorem witness_StepKeepsMemoryInv : State.MemoryInv (State.reset.withFetchWord 16 0x4D85) ∧
    ∃ t, step (State.reset.withFetchWord 16 0x4D85) = .next t := by
  refine ⟨by unfold State.MemoryInv; decide +kernel, ?_⟩
  have h : (match step (State.reset.withFetchWord 16 0x4D85) with | .next _ => true | _ => false) = true := by decide +kernel
  revert h
  cases step (State.reset.withFetchWord 16 0x4D85) with
  | next t => exact fun _ => ⟨t, rfl⟩
  | fault => intro h; cases h
  | refused => intro h; cases h
theorem witness_EncodeDecode : (Instr.add 20 3 (some 37)).WellFormed := by unfold Instr.WellFormed; decide
theorem witness_DecodedForms : (∀ w ∈ [0xF485, 0xF402, 0x050C], w < 65536) ∧ decodeWords [0xF485, 0xF402, 0x050C] = .ok (.add 20 3 (some 37), []) := by
  refine ⟨by decide, by rfl⟩

/-- The machine about to issue `li g6, 5`. -/
def issuable : State := State.reset.withFetchWord 16 0x4D85
theorem witness_StepRunsDecoded_idle : issuable.agenda = [] ∧ issuable.pending = none ∧ (issuable.awake exec).isNone = true ∧ issuable.unsent = none ∧
    (issuable.core 0).cut.due = false ∧ issuable.coreTurns = 0 :: [] ∧ (issuable.core 0).runs = true ∧ (issuable.core 0).rot = 0 := by decide +kernel
theorem witness_StepRunsDecoded_turn : (∀ j, j < 4 → ((issuable.core 0).slot j).stepDue = none ∧ ((issuable.core 0).slot j).takesNotice = false ∧
      ((issuable.core 0).slot j).wait = none) ∧ 0 < partC (issuable.core 0).part ∧ ((issuable.core 0).slot 0).st = .ready ∧
    ((issuable.core 0).slot 0).pc ≠ END := by decide +kernel
theorem witness_StepRunsDecoded_word :
    (∃ u f, ({ issuable with turn := 1 }.setCore 0 { issuable.core 0 with rot := 1 }).fetch 0 0x300000 = (u, .ok f) ∧ (f.instr == .li 6 5) = true) ∧
    ∃ u e, ((State.reset.withFetchWord 16 0).fetch 0 0x300000) = (u, .error e) ∧ (e == (1, 0)) = true :=
  ⟨okAnd_exists (by decide +kernel), errAnd_exists (by decide +kernel)⟩
theorem witness_StepRunsDecoded_fetch : (Instr.li 6 5).WellFormed ∧ (Instr.li 6 5).fits 128 16 = true ∧ ∃ u p, issuable.resolve 0 0x300000 .fetch = (u, .ok p) ∧
    (p == .memory 0x300000 && partG (u.core 0).part == 128 && partH (u.core 0).part == 16 && (u.team 0).icache == [] && (u.team 0).dist == none && u.lines == [] &&
      u.bytesAt 0x300000 2 == bytesOf (encode (.li 6 5)) && !u.badIn 0x300000 2) = true :=
  ⟨by unfold Instr.WellFormed; decide, by decide, okAnd_exists (by decide +kernel)⟩
end Sys2Proof.Tests
end

section
/-! PROOF. Special registers (R69 to R71, R86): one law of `mfs` and one of `mts`, and what each index reads and takes. -/

namespace Sys2Proof.Machine

/-! ### A change of the executing context or core, and the completion -/

/-- The completion after a change of the executing context that leaves its registers. -/
theorem went_setSlot (s : State) (y : Slot) {pc : DWord} (h : pc ≠ END) (hg : y.regs = s.slot.regs) (ha : y.aregs = s.slot.aregs) :
    Went s s.me y [] [] pc s ((s.setSlot y).finish pc) := by
  refine went_finish h rfl rfl (SameCores.setMe s _) ?_ ?_ ?_ ⟨fun n _ => ?_, fun n _ => ?_⟩
  · rw [State.me_setSlot]; exact onlySlots_setSlot _ _ _
  · rw [State.me_setSlot]; exact sameSlots_setSlot _ _ _
  · rw [State.slot_setSlot]; rfl
  · rw [State.g, State.slot_setSlot, hg]; rfl
  · rw [State.a, State.slot_setSlot, ha]; rfl

/-- The instruction makes the executing core `e` and its context `y`, has no other effect, and goes on at the next address. -/
def Sets (i : Instr) (s : State) (e : Core) (y : Slot) : Prop := Runs i s fun t => Went s e y [] [] s.next s t ∧ SameMemory s t

/-- An instruction that ends with a change of its context alone. -/
theorem Sets.of_setSlot {i : Instr} {s : State} {y : Slot} (h : s.next ≠ END) (he : exec i s = done (s.setSlot y))
    (hg : y.regs = s.slot.regs) (ha : y.aregs = s.slot.aregs) : Sets i s s.me y :=
  have hw := went_setSlot s y h hg ha
  ⟨_, he, hw, hw.1.memory⟩

/-- An instruction that ends with a change of its core that leaves the contexts. -/
theorem Sets.of_setMe {i : Instr} {s : State} {e : Core} (h : s.next ≠ END) (he : exec i s = done (s.setMe e))
    (hc : e.slots = s.me.slots) : Sets i s e s.slot :=
  have hw := went_setMe s e h hc
  ⟨_, he, hw, hw.1.memory⟩

/-- An instruction that ends with nothing done. -/
theorem Sets.of_done {i : Instr} {s : State} (h : s.next ≠ END) (he : exec i s = done s) : Sets i s s.me s.slot :=
  ⟨_, he, completed_finish s h⟩

/-! ### The two forms -/

/-- The privilege of an index suffices (R69, R71): TCAUSE, TVAL, TEPC, TSTAT and TVEC are reached in S alone. -/
def State.Reaches (s : State) (n : Nat) : Prop := 1 ≤ n ∧ n ≤ 5 → statMode s.slot.stat = 1

theorem State.reaches_of_mode {s : State} (n : Nat) (h : statMode s.slot.stat = 1) : s.Reaches n := fun _ => h

theorem onSpecial_of_reaches {s : State} {n : Nat} (h : s.Reaches n) (f : State → Out) : onSpecial n f s = f s := by
  unfold onSpecial
  split
  · rename_i hn; exact inS_of_mode (h hn)
  · rfl

theorem onSpecial_of_user {s : State} {n : Nat} (h : statMode s.slot.stat = 0) (hn : 1 ≤ n ∧ n ≤ 5) (f : State → Out) :
    onSpecial n f s = trap .priv (u64 s.issue.word) s := by
  rw [onSpecial, if_pos hn, inS_of_user h]

theorem exec_mfs (x d n : Nat) (s : State) : exec (.mfs x d n) s = execMfs x d n s := rfl
theorem exec_mts (x d n : Nat) (s : State) : exec (.mts x d n) s = execMts x d n s := rfl

/-- `mfs` of an index whose read has no effect. -/
theorem exec_mfs_plain {s : State} {n : Nat} (x d : Nat) (hr : s.Reaches n) (hv : n ≠ 0x02D) (hk : n ≠ 0x048) :
    exec (.mfs x d n) s = done (s.wrSpecial x d (s.special n)) := by
  rw [exec_mfs, execMfs, onSpecial_of_reaches hr]
  split
  · contradiction
  · contradiction
  · rfl

/-- `mts` of an index whose write sends nothing. -/
theorem exec_mts_plain {s : State} {n : Nat} (x d : Nat) (hr : s.Reaches n) (hh : n ≠ 0x025) :
    exec (.mts x d n) s = done (s.setSpecial n (s.specialIn x d (s.special n))) := by
  rw [exec_mts, execMts, onSpecial_of_reaches hr]
  split
  · contradiction
  · rfl

/-- R71: in U neither form reaches the trap registers. -/
theorem special_traps_priv {s : State} {n : Nat} (x d : Nat) (h : statMode s.slot.stat = 0) (hn : 1 ≤ n ∧ n ≤ 5) :
    Traps (.mfs x d n) s .priv (u64 s.issue.word) ∧ Traps (.mts x d n) s .priv (u64 s.issue.word) :=
  ⟨(exec_mfs x d n s).trans (onSpecial_of_user h hn _), (exec_mts x d n s).trans (onSpecial_of_user h hn _)⟩

/-! ### Reads -/

/-- An index whose read is without effect and gives `v` in its low 32 bits. -/
def State.HoldsWord (s : State) (n : Nat) (v : Word) : Prop := n ≠ 0x02D ∧ n ≠ 0x048 ∧ u32 (s.special n) = v

/-- An index whose read is without effect and gives `v` in its low 64 bits. -/
def State.HoldsDouble (s : State) (n : Nat) (v : DWord) : Prop := n ≠ 0x02D ∧ n ≠ 0x048 ∧ u64 (s.special n) = v

section
variable {s : State} {n : Nat} (d : Nat)

/-- R70: the word and the wide form of `mfs` on an index that holds a word. -/
theorem mfs_word {v : Word} (h : s.next ≠ END) (hr : s.Reaches n) (hv : s.HoldsWord n v) :
    WritesG (.mfs 0 d n) s d (fun w => w = v) ∧ (s.special n < 2 ^ 32 → WritesA (.mfs 2 d n) s d (u64 (Z v))) := by
  obtain ⟨hq, hk, he⟩ := hv
  refine ⟨.of_doneWr h (exec_mfs_plain 0 d hr hq hk) he, fun hlt => .of_done h ?_⟩
  have hz : Z v = s.special n := by rw [← he]; exact Nat.mod_eq_of_lt hlt
  rw [exec_mfs_plain 2 d hr hq hk, hz]; rfl

/-- R70: the three forms of `mfs` on an index that holds a double. -/
theorem mfs_double {v : DWord} (h : s.next ≠ END) (hr : s.Reaches n) (hv : s.HoldsDouble n v) :
    WritesG (.mfs 0 d n) s d (fun w => Z w = v.toNat % 2 ^ 32) ∧ WritesG (.mfs 1 d n) s d (fun w => Z w = v.toNat / 2 ^ 32) ∧
      WritesA (.mfs 2 d n) s d v := by
  obtain ⟨hq, hk, he⟩ := hv
  have hn : v.toNat = s.special n % 2 ^ 64 := by rw [← he]; rfl
  refine ⟨.of_doneWr h (exec_mfs_plain 0 d hr hq hk) ?_, .of_doneWr h (exec_mfs_plain 1 d hr hq hk) ?_, .of_done h ?_⟩
  · rw [hn]; show s.special n % 2 ^ 32 = _; omega
  · rw [hn]; show s.special n / 2 ^ 32 % 2 ^ 32 = _; omega
  · rw [exec_mfs_plain 2 d hr hq hk, ← he]; rfl

end

@[simp] theorem u32_toNat (w : Word) : u32 w.toNat = w := by simp [u32]
@[simp] theorem u64_toNat (w : DWord) : u64 w.toNat = w := by simp [u64]

/-- R69: every readable index holds its register, and the form writes it. -/
theorem specialReads : Sys2Proof.Part.SpecialReads := by
  intro d s x c h hx hc
  subst hx hc
  have hword : ∀ w : Word, w.toNat < 4294967296 := fun w => w.isLt
  refine ⟨fun p hp => ?_, fun p hp => ?_, fun hm => ⟨fun p hp => ?_, fun p hp => ?_⟩, fun hm n hn k => ?_⟩
  · obtain ⟨hr, hv, hlt⟩ : s.Reaches p.1 ∧ s.HoldsWord p.1 p.2 ∧ (s.issue.lid < 2 ^ 32 → s.special p.1 < 2 ^ 32) := by
      revert p
      simp [State.Reaches, State.HoldsWord, State.special, State.sd, hword]
    have hw := mfs_word d h hr hv
    exact ⟨hw.1, fun hl => hw.2 (hlt hl)⟩
  · obtain ⟨hr, hv⟩ : s.Reaches p.1 ∧ s.HoldsDouble p.1 p.2 := by
      revert p
      simp [State.Reaches, State.HoldsDouble, State.special]
    exact mfs_double d h hr hv
  · obtain ⟨hv, hlt⟩ : s.HoldsWord p.1 p.2 ∧ s.special p.1 < 2 ^ 32 := by
      revert p
      simp [State.HoldsWord, State.special, hword]
    have hw := mfs_word d h (State.reaches_of_mode p.1 hm) hv
    exact ⟨hw.1, hw.2 hlt⟩
  · have hv : s.HoldsDouble p.1 p.2 := by
      revert p
      simp [State.HoldsDouble, State.special]
    exact mfs_double d h (State.reaches_of_mode p.1 hm) hv
  · have hn' : 1 ≤ n ∧ n ≤ 5 := by
      revert n
      simp
    exact special_traps_priv k d hm hn'

/-! ### Writes -/

/-- An index that takes a word into the executing context, which `f` says, and sends nothing. -/
def State.TakesWord (s : State) (n : Nat) (f : Word → Slot) : Prop :=
  n ≠ 0x025 ∧ (∀ v, s.setSpecial n v = s.setSlot (f (u32 v))) ∧ ∀ v, (f v).regs = s.slot.regs ∧ (f v).aregs = s.slot.aregs

/-- An index that holds the double `o` and takes one into the executing context, which `f` says, and sends nothing. -/
def State.TakesDouble (s : State) (n : Nat) (o : DWord) (f : DWord → Slot) : Prop :=
  n ≠ 0x025 ∧ s.special n = o.toNat ∧ (∀ v, s.setSpecial n v = s.setSlot (f (u64 v))) ∧
    ∀ v, (f v).regs = s.slot.regs ∧ (f v).aregs = s.slot.aregs

/-- An index that takes a word into the executing core, which `f` says, and sends nothing. -/
def State.TakesCoreWord (s : State) (n : Nat) (f : Word → Core) : Prop :=
  n ≠ 0x025 ∧ (∀ v, s.setSpecial n v = s.setMe (f (u32 v))) ∧ ∀ v, (f v).slots = s.me.slots

/-- An index that takes nothing, and sends nothing. -/
def State.TakesNothing (s : State) (n : Nat) : Prop := n ≠ 0x025 ∧ ∀ v, s.setSpecial n v = s

/-- What `mts` gives a register of 32 bits does not depend on what it held (R70). -/
theorem u32_specialIn_zero (s : State) (d old : Nat) : u32 (s.specialIn 0 d old) = s.g d := by
  apply BitVec.eq_of_toNat_eq
  rw [u32, BitVec.toNat_ofNat, State.specialIn, Nat.mul_add_mod_self_right, Nat.mod_eq_of_lt (s.g d).isLt]

section
variable {s : State} {n : Nat} (d : Nat)

/-- R70: the word and the wide form of `mts` on a register of the context. -/
theorem mts_word {f : Word → Slot} (h : s.next ≠ END) (hr : s.Reaches n) (ht : s.TakesWord n f) :
    Sets (.mts 0 d n) s s.me (f (s.g d)) ∧ Sets (.mts 2 d n) s s.me (f (u32 (s.a d).toNat)) := by
  obtain ⟨hh, hs, hf⟩ := ht
  refine ⟨.of_setSlot h ?_ (hf _).1 (hf _).2, .of_setSlot h ?_ (hf _).1 (hf _).2⟩
  · rw [exec_mts_plain 0 d hr hh, hs, u32_specialIn_zero]
  · rw [exec_mts_plain 2 d hr hh, hs]; rfl

/-- R70: the word and the wide form of `mts` on a register of the core. -/
theorem mts_coreWord {f : Word → Core} (h : s.next ≠ END) (hr : s.Reaches n) (ht : s.TakesCoreWord n f) :
    Sets (.mts 0 d n) s (f (s.g d)) s.slot ∧ Sets (.mts 2 d n) s (f (u32 (s.a d).toNat)) s.slot := by
  obtain ⟨hh, hs, hf⟩ := ht
  refine ⟨.of_setMe h ?_ (hf _), .of_setMe h ?_ (hf _)⟩
  · rw [exec_mts_plain 0 d hr hh, hs, u32_specialIn_zero]
  · rw [exec_mts_plain 2 d hr hh, hs]; rfl

/-- R70: `mts` writes a double half by half, the other half staying, or whole. -/
theorem mts_double {f : DWord → Slot} {o : DWord} (h : s.next ≠ END) (hr : s.Reaches n) (ht : s.TakesDouble n o f) :
    Sets (.mts 0 d n) s s.me (f (u64 (o.toNat / 2 ^ 32 * 2 ^ 32 + Z (s.g d)))) ∧
      Sets (.mts 1 d n) s s.me (f (u64 (Z (s.g d) * 2 ^ 32 + o.toNat % 2 ^ 32))) ∧ Sets (.mts 2 d n) s s.me (f (s.a d)) := by
  obtain ⟨hh, ho, hs, hf⟩ := ht
  refine ⟨.of_setSlot h ?_ (hf _).1 (hf _).2, .of_setSlot h ?_ (hf _).1 (hf _).2, .of_setSlot h ?_ (hf _).1 (hf _).2⟩
  · rw [exec_mts_plain 0 d hr hh, hs, ho]; rfl
  · have hin : s.specialIn 1 d o.toNat = Z (s.g d) * 2 ^ 32 + o.toNat % 2 ^ 32 := by rw [Nat.mul_comm, Nat.add_comm]; rfl
    rw [exec_mts_plain 1 d hr hh, hs, ho, hin]
  · rw [exec_mts_plain 2 d hr hh, hs, show s.specialIn 2 d _ = (s.a d).toNat from rfl, u64_toNat]

/-- R8: a write of an index that takes nothing has no effect. -/
theorem mts_readOnly (k : Nat) (h : s.next ≠ END) (hr : s.Reaches n) (ht : s.TakesNothing n) : Sets (.mts k d n) s s.me s.slot :=
  .of_done h (by rw [exec_mts_plain k d hr ht.1, ht.2])

end

/-- FST keeps its reserved bits clear (R39). -/
theorem u32_mod_32 (v : Nat) : u32 (v % 32) = u32 v &&& 0x1F#32 := by
  apply BitVec.eq_of_toNat_eq
  rw [BitVec.toNat_and, show (0x1F#32).toNat = 2 ^ 5 - 1 from rfl, Nat.and_two_pow_sub_one_eq_mod, u32, u32, BitVec.toNat_ofNat,
    BitVec.toNat_ofNat]
  omega

/-- STAT keeps its reserved bits clear (R190). -/
theorem u32_mod_64 (v : Nat) : u32 (v % 64) = u32 v &&& 0x3F#32 := by
  apply BitVec.eq_of_toNat_eq
  rw [BitVec.toNat_and, show (0x3F#32).toNat = 2 ^ 6 - 1 from rfl, Nat.and_two_pow_sub_one_eq_mod, u32, u32, BitVec.toNat_ofNat,
    BitVec.toNat_ofNat]
  omega

/-- TVEC keeps bit 0 clear (R190). -/
theorem u64_even (v : Nat) : u64 (v / 2 * 2) = u64 v &&& ~~~1#64 := by
  apply BitVec.eq_of_getLsbD_eq
  intro i hi
  rw [BitVec.getLsbD_and, BitVec.getLsbD_not, BitVec.getLsbD_one, u64, u64, BitVec.getLsbD_ofNat, BitVec.getLsbD_ofNat]
  cases i with
  | zero => simp
  | succ i => simp [Nat.testBit_succ, hi]

/-- TVEC takes a double but its bit 0 (R190). -/
theorem State.takesDouble_tvec (s : State) : s.TakesDouble 0x005 s.slot.tvec fun v => { s.slot with tvec := v &&& ~~~1#64 } :=
  ⟨by decide, rfl, fun v => by simp [State.setSpecial, u64_even], fun _ => ⟨rfl, rfl⟩⟩

/-- STAT takes nothing in U (R190). -/
theorem State.takesNothing_stat {s : State} (h : statMode s.slot.stat = 0) : s.TakesNothing 0x000 :=
  ⟨by decide, fun v => by simp [State.setSpecial, h]⟩

/-- STAT is reached in U. -/
theorem State.reaches_stat (s : State) : s.Reaches 0x000 := fun h => absurd h.1 (by decide)

/-- R8, R69: every index takes what its register keeps. -/
theorem specialWrites : Sys2Proof.Part.SpecialWrites := by
  intro d s x c h hx hc
  subst hx hc
  refine ⟨fun p hp => ?_, fun p hp => ?_, fun p hp => ?_, fun hm => ⟨fun p hp => ?_, fun p hp => ?_, ?_⟩, fun hm => ?_,
    fun n hn k => ?_⟩
  · obtain ⟨hr, ht⟩ : s.Reaches p.1 ∧ s.TakesWord p.1 p.2 := by
      revert p
      simp [State.Reaches, State.TakesWord, State.setSpecial, u32_mod_32]
    exact mts_word d h hr ht
  · obtain ⟨hr, ht⟩ : s.Reaches p.1 ∧ s.TakesDouble p.1 p.2.1 p.2.2 := by
      revert p
      simp [State.Reaches, State.TakesDouble, State.special, State.setSpecial]
    exact mts_double d h hr ht
  · obtain ⟨hr, ht⟩ : s.Reaches p.1 ∧ s.TakesCoreWord p.1 p.2 := by
      revert p
      simp [State.Reaches, State.TakesCoreWord, State.setSpecial]
    exact mts_coreWord d h hr ht
  · have ht : s.TakesWord p.1 p.2 := by
      revert p
      simp [State.TakesWord, State.setSpecial, hm, u32_mod_64]
    exact mts_word d h (State.reaches_of_mode p.1 hm) ht
  · have ht : s.TakesDouble p.1 p.2.1 p.2.2 := by
      revert p
      simp [State.TakesDouble, State.special, State.setSpecial]
    exact mts_double d h (State.reaches_of_mode p.1 hm) ht
  · obtain ⟨h0, h1, h2⟩ := mts_double d h (State.reaches_of_mode 0x005 hm) s.takesDouble_tvec
    exact ⟨List.forall_mem_cons.2 ⟨h0, List.forall_mem_singleton.2 h1⟩, h2⟩
  · have ht := State.takesNothing_stat hm
    exact ⟨mts_readOnly d 0 h s.reaches_stat ht, mts_readOnly d 2 h s.reaches_stat ht⟩
  · obtain ⟨hr, ht⟩ : s.Reaches n ∧ s.TakesNothing n := by
      revert n
      simp [State.Reaches, State.TakesNothing, State.setSpecial]
    exact mts_readOnly d k h hr ht

/-- Settles O9: reads by what each index holds, writes by what each index takes. -/
theorem specialRegisterForms : Obligations.SpecialRegisterForms := ⟨specialReads, specialWrites⟩

end Sys2Proof.Machine
end

section
/-! PROOF. What a reset leaves (R2, R354, R355, R359, R366 to R368, R372, R373). -/

namespace Sys2Proof.Machine

/-! ### The reset state -/

@[simp] theorem State.queue_reset (q : Nat) : State.reset.queue q = Queue.empty := rfl
@[simp] theorem State.core_reset (l : Nat) : State.reset.core l = Core.empty := rfl
@[simp] theorem State.link_reset (l : LinkId) : State.reset.link l = Link.empty := rfl
@[simp] theorem Link.dir_empty (r : Dir) : Link.empty.dir r = LinkDir.empty := by cases r <;> rfl

/-- Every table of the reset state reads as its default, and the module block holds `Device.reset`. -/
theorem resetValues : Sys2Proof.Part.ResetValues := by
  refine ⟨Nat.le_refl 125000, rfl, rfl, rfl, rfl, rfl, rfl, rfl, rfl, rfl, rfl, rfl, rfl, rfl, rfl, rfl, rfl, rfl, rfl, rfl, rfl,
    fun _ => rfl, rfl, rfl, fun q => ?_, fun l => ?_, rfl, fun l k r hk => ?_⟩
  · rw [State.queue_reset]; exact ⟨rfl, rfl, rfl, rfl, rfl, rfl, rfl, rfl, rfl, rfl, rfl⟩
  · rw [State.core_reset]; rfl
  · rw [hk, State.link_reset, Link.dir_empty]; exact ⟨rfl, rfl, rfl, rfl, rfl, rfl, rfl, rfl, rfl, rfl⟩

/-! ### The attachment reset -/

/-- A table reads as its default at a key that it does not list. -/
theorem Map.get_eq_or_mem {α : Type} (d : α) (m : Map α) (k : Nat) : Map.get d m k = d ∨ (k, Map.get d m k) ∈ m := by
  induction m with
  | nil => exact .inl rfl
  | cons e m ih =>
    rw [Map.get_cons]
    split
    · rename_i he; exact .inr (he ▸ List.mem_cons_self)
    · exact ih.imp id (List.mem_cons_of_mem e)

/-- The launch of a listed queue, if any, ends without a record (R359). -/
def State.dropEntry (s : State) (e : Nat × Queue) : State :=
  match e.2.launch with
  | some la => s.dropLaunch e.1 la
  | none => s

/-- The launches of the listed queues end without a record. -/
def State.dropEntries (s : State) (es : List (Nat × Queue)) : State := es.foldl State.dropEntry s

theorem exec_attachmentReset {s : State} (h : s.dev.power = true) : exec .attachmentReset s =
    .next { s.dropEntries s.queues with dev := { (s.dropEntries s.queues).dev with accept := 1 } } := by
  rw [show exec .attachmentReset s = execAttachmentReset s from rfl, execAttachmentReset, whenOn_true h]; rfl

/-- Of the launch queues a dropped launch changes its own alone. -/
theorem State.queue_dropLaunch (s : State) (q j : Nat) (la : Launch) :
    (s.dropLaunch q la).queue j = if j = q then { s.queue q with launch := none } else s.queue j :=
  State.queue_setQueue _ q j _

/-- What an ending without a record leaves as it was: the module block, the writes to the host, and memory. -/
def Keeps (s t : State) : Prop := t.dev = s.dev ∧ t.hostOut = s.hostOut ∧ t.mem = s.mem

theorem State.keeps_dropEntry (s : State) (e : Nat × Queue) : Keeps s (s.dropEntry e) := by
  unfold State.dropEntry
  split <;> exact ⟨rfl, rfl, rfl⟩

theorem State.keeps_dropEntries (es : List (Nat × Queue)) (s : State) : Keeps s (s.dropEntries es) := by
  induction es generalizing s with
  | nil => exact ⟨rfl, rfl, rfl⟩
  | cons e es ih =>
    obtain ⟨hd, ho, hm⟩ := s.keeps_dropEntry e
    obtain ⟨hd', ho', hm'⟩ := ih (s.dropEntry e)
    exact ⟨hd'.trans hd, ho'.trans ho, hm'.trans hm⟩

/-- A queue without a launch stays without. -/
theorem State.dropEntry_launch_none {s : State} {q : Nat} (e : Nat × Queue) (h : (s.queue q).launch = none) :
    ((s.dropEntry e).queue q).launch = none := by
  unfold State.dropEntry
  split
  · rw [State.queue_dropLaunch]
    split
    · rfl
    · exact h
  · exact h

theorem State.dropEntries_launch_none {q : Nat} (es : List (Nat × Queue)) {s : State} (h : (s.queue q).launch = none) :
    ((s.dropEntries es).queue q).launch = none := by
  induction es generalizing s with
  | nil => exact h
  | cons e es ih => exact ih (s.dropEntry_launch_none e h)

/-- A listed queue with a launch ends without. -/
theorem State.dropEntries_launch_of_mem {es : List (Nat × Queue)} (s : State) {e : Nat × Queue} {la : Launch} (he : e ∈ es)
    (hl : e.2.launch = some la) : ((s.dropEntries es).queue e.1).launch = none := by
  induction es generalizing s with
  | nil => cases he
  | cons f es ih =>
    rcases List.mem_cons.1 he with rfl | he
    · refine State.dropEntries_launch_none es ?_
      rw [State.dropEntry, hl]
      show ((s.dropLaunch e.1 la).queue e.1).launch = none
      rw [State.queue_dropLaunch, if_pos rfl]
    · exact ih (s.dropEntry f) he

/-- Once every listed queue is done, no queue has a launch: one that is not listed had none. -/
theorem State.launch_dropEntries_queues (s : State) (q : Nat) : ((s.dropEntries s.queues).queue q).launch = none := by
  cases hl : (s.queue q).launch with
  | none => exact State.dropEntries_launch_none s.queues hl
  | some la =>
    rcases Map.get_eq_or_mem Queue.empty s.queues q with hd | hm
    · rw [State.queue, hd] at hl; cases hl
    · exact s.dropEntries_launch_of_mem hm hl

/-- R359: every launch ends without a record, and the module accepts the groups it accepts at reset. -/
theorem runs_attachmentReset {s : State} (h : s.dev.power = true) : Runs .attachmentReset s fun t =>
    (∀ q, (t.queue q).launch = none) ∧ t.dev = { s.dev with accept := 1 } ∧ t.hostOut = s.hostOut ∧ SameMemory s t := by
  obtain ⟨hd, ho, hm⟩ := State.keeps_dropEntries s.queues s
  refine ⟨_, exec_attachmentReset h, s.launch_dropEntries_queues, ?_, ho, fun a => ?_⟩
  · show { (s.dropEntries s.queues).dev with accept := 1 } = _
    rw [hd]
  · show Map.get 0 (s.dropEntries s.queues).mem a = _
    rw [hm]; rfl

/-! ### The module reset and the power loss -/

theorem exec_moduleReset (s : State) : exec .moduleReset s = execModuleReset s := rfl
theorem exec_modulePowerLoss (s : State) : exec .modulePowerLoss s = execModulePowerLoss s := rfl

/-- Recovery is where no image is stored (R363). -/
theorem Device.recovery_iff (d : Device) : d.recovery = true ↔ d.stored = none := Option.isNone_iff_eq_none

/-- R2, R363, R367, R372: what each of the three resets leaves. -/
theorem resets_leave : Sys2Proof.Part.Resets := by
  intro s d hd
  subst hd
  refine ⟨⟨_, exec_moduleReset s, rfl, ?_⟩, ⟨_, exec_modulePowerLoss s, rfl, rfl⟩, runs_attachmentReset⟩
  have hr : (if s.dev.restarted.recovery then 5 else 0) = if s.dev.stored = none then 5 else 0 :=
    if_congr s.dev.restarted.recovery_iff rfl rfl
  show { s.dev.restarted with
    tampLvl := if s.dev.power then s.dev.tampLvl else 0, fwState := if s.dev.restarted.recovery then 5 else 0 } = _
  rw [hr]; rfl

/-- Settles O54: the reset state by its defaults, the two module resets by what they write, and the attachment reset by induction on the
launch queues. -/
theorem resets : Obligations.Resets := ⟨resetValues, resets_leave⟩

end Sys2Proof.Machine
end

section
/-! PROOF. What the scalar float forms write (R105 to R114): each form ends with one register write and its flags. -/

namespace Sys2Proof.Machine

/-! ### The completion of a float form -/

@[simp] theorem State.flags_of_slot {s : State} (fl : Nat) (h : s.issue.slot < 4) : s.flags fl = s.setSlot (s.slot.flags fl) :=
  if_neg (Nat.ne_of_lt h)

@[simp] theorem State.next_flags (s : State) (fl : Nat) : (s.flags fl).next = s.next := by
  unfold State.flags
  split <;> rfl

/-- A register write with flags, and the completion. -/
theorem went_wr_flags (s : State) (d : Nat) (r : Word × Nat) (h : s.next ≠ END) (hs : s.issue.slot < 4) :
    (((s.wr d r.1).flags r.2).finish s.next).g d = r.1 ∧
      Went s s.me { s.slot with fst := s.slot.fst ||| u32 (r.2 % 32) } [d] [] s.next s (((s.wr d r.1).flags r.2).finish s.next) := by
  have hs' : (s.wr d r.1).issue.slot < 4 := hs
  rw [State.flags_of_slot r.2 hs']
  refine ⟨by simp [State.g, h, Slot.flags, Slot.wr], went_finish h rfl rfl (fun k hk => ?_) ?_ (fun j hj => ?_) ?_
    ⟨fun n hn => ?_, fun n _ => ?_⟩⟩
  · rw [← SameCores.setMe s (s.me.setSlot s.issue.slot (s.slot.wr d r.1)) k hk]; exact State.core_setCore_ne _ _ hk
  · simp only [State.wr, State.me_setSlot]; exact (onlySlots_setSlot _ _ _).trans (onlySlots_setSlot _ _ _)
  · simp only [State.wr, State.me_setSlot, State.issue_setSlot]
    rw [Core.slot_setSlot_ne _ _ hj, Core.slot_setSlot_ne _ _ hj]
  · rw [State.slot_setSlot, State.slot_wr]; rfl
  · rw [← (State.g_wr s d n r.1).trans (if_neg (by simpa using hn)), State.g, State.slot_setSlot]; rfl
  · rw [← State.a_wr s d n r.1, State.a, State.slot_setSlot]; rfl

/-- A form that ends with a register write and its flags. -/
theorem WritesF.of_doneF {i : Instr} {s : State} {d : Nat} {r : Word × Nat} (h : s.next ≠ END) (hs : s.issue.slot < 4)
    (he : exec i s = doneF s d r) : WritesF i s d r := by
  obtain ⟨hg, hw⟩ := went_wr_flags s d r h hs
  refine ⟨_, he.trans ?_, hg, hw, hw.1.memory⟩
  rw [doneF, done, State.next_flags]; rfl

/-! ### The operands of a T form -/

theorem State.opA_eq_elim (s : State) (d n : Nat) (t : Option Nat) : s.opA d n t = t.elim (s.g d) fun _ => s.g n := by
  cases t <;> rfl

theorem State.opB_eq_elim (s : State) (n : Nat) (t : Option Nat) : s.opB n t = t.elim (s.g n) s.g := by
  cases t <;> rfl

/-- R105: a T form writes its operation's result of operands A and B. -/
theorem WritesF.of_floatT {i : Instr} {s : State} {d n : Nat} {t : Option Nat} {f : Word → Word → Word × Nat} {a b : Word} (h : s.next ≠ END)
    (hs : s.issue.slot < 4) (ha : a = t.elim (s.g d) fun _ => s.g n) (hb : b = t.elim (s.g n) s.g)
    (he : exec i s = floatT f d n t s) : WritesF i s d (f a b) := by
  rw [ha, hb, ← State.opA_eq_elim, ← State.opB_eq_elim]
  exact .of_doneF h hs he

/-! ### Arithmetic forms -/

/-- R105 to R107: every arithmetic form writes its operation. -/
theorem floatArithmetic : Sys2Proof.Part.FloatArithmetic := by
  intro m d n r t s h hs a b ha hb
  exact ⟨.of_floatT h hs ha hb rfl, .of_floatT h hs ha hb rfl, .of_floatT h hs ha hb rfl, .of_floatT h hs ha hb rfl,
    .of_doneF h hs rfl, .of_doneF h hs rfl, .of_doneF h hs rfl, .of_doneF h hs rfl, .of_doneF h hs rfl⟩

/-! ### Conversion forms -/

/-- R111 to R114: every conversion form writes its conversion. -/
theorem floatConversions : Sys2Proof.Part.FloatConversions := by
  intro m d n s h hs a ha
  subst ha
  exact ⟨.of_doneF h hs rfl, .of_doneF h hs rfl, .of_doneF h hs rfl, .of_doneF h hs rfl, .of_doneF h hs rfl, .of_doneF h hs rfl,
    .of_doneF h hs rfl, .of_doneF h hs rfl, .of_doneF h hs rfl⟩

/-! ### Selections, signs and comparisons -/

/-- R38: NV exactly if one of two operands is signalling. -/
theorem sigFlag_pair (u v : FVal) : sigFlag [u, v] = if u.isSig ∨ v.isSig then 16 else 0 := by
  simp [sigFlag, flagNV]

theorem fMinMax_flags (mx : Bool) (a b : Word) : (fMinMax mx a b).2 = sigFlag [fval a, fval b] := by
  unfold fMinMax
  split
  · rfl
  · split <;> rfl

theorem fMin_value (a b : Word) : (fMinMax false a b).1 =
    if (fval a).isNan then (if (fval b).isNan then 0x7FC00000#32 else b) else if (fval b).isNan then a
      else if before b a then b else a := by
  unfold fMinMax
  split
  · rfl
  · split <;> rfl

theorem fMax_value (a b : Word) : (fMinMax true a b).1 =
    if (fval a).isNan then (if (fval b).isNan then 0x7FC00000#32 else b) else if (fval b).isNan then a
      else if before a b then b else a := by
  unfold fMinMax
  split
  · rfl
  · split <;> rfl

/-- R110: of two values at most one is less than the other. -/
theorem ltVal_asymm {u v : FVal} (h : ltVal u v = true) : ltVal v u = false := by
  cases u with
  | nan s => exact absurd h (by simp [ltVal])
  | inf n => cases v with
    | nan s => rfl
    | inf k => cases n <;> cases k <;> simp [ltVal] at h ⊢
    | fin k m e => simpa [ltVal] using h
  | fin n₁ m₁ e₁ => cases v with
    | nan s => rfl
    | inf k => simpa [ltVal] using h
    | fin n₂ m₂ e₂ =>
      simp only [ltVal, decide_eq_true_eq, decide_eq_false_iff_not] at h ⊢
      rcases Int.lt_trichotomy e₁ e₂ with he | he | he
      · rw [if_pos he] at h; rw [if_neg (by omega)]; omega
      · rw [if_neg (by omega)] at h; rw [if_neg (by omega)]; subst he; omega
      · rw [if_neg (by omega)] at h; rw [if_pos he]; omega

/-- R110: of two values that are no NaN, one is less or equal exactly if the other is not less. -/
theorem lt_or_eqVal {u v : FVal} (hu : u.isNan = false) (hv : v.isNan = false) :
    (ltVal u v || eqVal u v) = !ltVal v u := by
  cases h : ltVal u v with
  | true => simp [ltVal_asymm h]
  | false => simp [eqVal, hu, hv, h]

theorem fLt_flags (a b : Word) : (fLt a b).2 = if (fval a).isNan ∨ (fval b).isNan then 16 else 0 := by
  simp only [fLt, Bool.or_eq_true]
  split <;> rfl

theorem fLe_flags (a b : Word) : (fLe a b).2 = if (fval a).isNan ∨ (fval b).isNan then 16 else 0 := by
  simp only [fLe, Bool.or_eq_true]
  split <;> rfl

theorem fLt_value (a b : Word) : (if (fLt a b).1 then 1 else 0 : Word) =
    if (fval a).isNan ∨ (fval b).isNan then 0 else if ltVal (fval a) (fval b) then 1 else 0 := by
  simp only [fLt, Bool.or_eq_true]
  split <;> rfl

theorem fLe_value (a b : Word) : (if (fLe a b).1 then 1 else 0 : Word) =
    if (fval a).isNan ∨ (fval b).isNan then 0 else if ltVal (fval b) (fval a) then 0 else 1 := by
  simp only [fLe, Bool.or_eq_true]
  split
  · rfl
  · rename_i hn
    obtain ⟨ha, hb⟩ := not_or.1 hn
    rw [lt_or_eqVal (Bool.eq_false_iff.2 ha) (Bool.eq_false_iff.2 hb)]
    cases ltVal (fval b) (fval a) <;> rfl

/-- Every bit of a word but its sign. -/
theorem getLsbD_magnitudeMask {i : Nat} (h : i < 32) : (0x7FFFFFFF#32).getLsbD i = !decide (i = 31) := by
  interval_cases i <;> rfl

/-- The sign bit of a word. -/
theorem getLsbD_signMask {i : Nat} (h : i < 32) : (0x80000000#32).getLsbD i = decide (i = 31) := by
  interval_cases i <;> rfl

theorem getLsbD_fSgn (a b : Word) {i : Nat} (h : i < 32) :
    (fSgn a b).getLsbD i = if i = 31 then b.getLsbD 31 else a.getLsbD i := by
  rw [fSgn, BitVec.getLsbD_or, BitVec.getLsbD_and, BitVec.getLsbD_and, getLsbD_magnitudeMask h, getLsbD_signMask h]
  by_cases hi : i = 31 <;> simp [hi]

theorem getLsbD_fAbs (a : Word) {i : Nat} (h : i < 32) :
    (a &&& 0x7FFFFFFF#32).getLsbD i = if i = 31 then false else a.getLsbD i := by
  rw [BitVec.getLsbD_and, getLsbD_magnitudeMask h]
  by_cases hi : i = 31 <;> simp [hi]

theorem getLsbD_fNeg (a : Word) {i : Nat} (h : i < 32) :
    (a ^^^ 0x80000000#32).getLsbD i = if i = 31 then !a.getLsbD 31 else a.getLsbD i := by
  rw [BitVec.getLsbD_xor, getLsbD_signMask h]
  by_cases hi : i = 31 <;> simp [hi]

/-- What a comparison form writes of two operands (R110): 1 or 0, and the flags. -/
def cmpResult (f : Word → Word → Bool × Nat) (a b : Word) : Word × Nat := (if (f a b).1 then 1 else 0, (f a b).2)

/-- R108 to R110: selections, signs, classes and comparisons. -/
theorem floatSelection : Sys2Proof.Part.FloatSelection := by
  intro d n t s h hs a b ha hb nv hnv
  subst hnv
  refine ⟨⟨fMinMax false a b, ?_, .of_floatT h hs ha hb rfl, fMin_value a b⟩,
    ⟨fMinMax true a b, ?_, .of_floatT h hs ha hb rfl, fMax_value a b⟩,
    ⟨fSgn a b, .of_floatT h hs ha hb (f := fun a b => (fSgn a b, 0)) rfl, fun i hi => getLsbD_fSgn a b hi⟩,
    ⟨s.g n &&& 0x7FFFFFFF#32, .of_doneF h hs rfl, fun i hi => getLsbD_fAbs _ hi⟩,
    ⟨s.g n ^^^ 0x80000000#32, .of_doneF h hs rfl, fun i hi => getLsbD_fNeg _ hi⟩, .of_doneF h hs rfl,
    ⟨cmpResult fEq a b, sigFlag_pair _ _, .of_floatT h hs ha hb (f := cmpResult fEq) rfl, rfl⟩,
    ⟨cmpResult fLt a b, .of_floatT h hs ha hb (f := cmpResult fLt) rfl, fLt_flags a b, fLt_value a b⟩,
    ⟨cmpResult fLe a b, .of_floatT h hs ha hb (f := cmpResult fLe) rfl, fLe_flags a b, fLe_value a b⟩⟩
  · exact (fMinMax_flags false a b).trans (sigFlag_pair _ _)
  · exact (fMinMax_flags true a b).trans (sigFlag_pair _ _)

end Sys2Proof.Machine
end

section
/-! PROOF. Rounding a real magnitude to a natural number (R36): what `cut` and `roundsUp` do, in the terms of real numbers. -/

namespace Sys2Proof.Machine

/-! ### Cutting a magnitude -/

/-- What `cut` says of a magnitude t: its whole part, and how the rest compares with half (0 none, 1 below, 2 half, 3 above). -/
def CutsTo (t : ℝ) (c : Nat × Nat) : Prop :=
  c.2 = 0 ∧ t = c.1 ∨ c.2 = 1 ∧ c.1 < t ∧ t < c.1 + 1 / 2 ∨ c.2 = 2 ∧ t = c.1 + 1 / 2 ∨ c.2 = 3 ∧ c.1 + 1 / 2 < t ∧ t < c.1 + 1

/-- The part d below one unit that a sticky bit stands for. -/
def StickyPart (sticky : Bool) (d : ℝ) : Prop := 0 ≤ d ∧ d < 1 ∧ (sticky = true ↔ d ≠ 0)

theorem stickyPart_false : StickyPart false 0 := ⟨le_refl _, one_pos, by simp⟩

theorem StickyPart.eq_zero {d : ℝ} (h : StickyPart false d) : d = 0 := by
  by_contra hd
  exact absurd (h.2.2.2 hd) (by decide)

theorem StickyPart.pos {d : ℝ} (h : StickyPart true d) : 0 < d := lt_of_le_of_ne h.1 (Ne.symm (h.2.2.1 rfl))

/-- Without a sticky bit a magnitude of whole units is its own cut. -/
theorem cutsTo_of_le {m : Nat} {e q : Int} (h : q ≤ e) : CutsTo (m * 2 ^ (e - q)) (cut m e q false) := by
  obtain ⟨k, hk⟩ := Int.eq_ofNat_of_zero_le (Int.sub_nonneg.2 h)
  rw [cut, if_pos h, hk]
  exact .inl ⟨rfl, by simp⟩

/-- The rest r + d of a division by 2 h, compared with half. -/
theorem cutsTo_of_rest {a r h : Nat} {s : Bool} {d t : ℝ} (hs : StickyPart s d) (hr : r < 2 * h)
    (ht : t * (2 * h) = a * (2 * h) + r + d) :
    CutsTo t (a, if r = 0 then (if s then 1 else 0) else if r < h then 1 else if r = h then (if s then 3 else 2) else 3) := by
  obtain ⟨h0, h1, hsd⟩ := hs
  have hh : (1 : ℝ) ≤ h := by exact_mod_cast (by omega : 1 ≤ h)
  have hpos : (0 : ℝ) < 2 * h := by linarith
  -- a comparison of t with the whole part is one of the rest with the divisor
  have key : ∀ c : ℝ, (t < a + c ↔ r + d < c * (2 * h)) ∧ (a + c < t ↔ c * (2 * h) < r + d) ∧ (t = a + c ↔ r + d = c * (2 * h)) := by
    refine fun c => ⟨?_, ?_, ?_⟩
    · rw [← mul_lt_mul_iff_left₀ hpos, ht, add_mul, add_assoc, add_lt_add_iff_left]
    · rw [← mul_lt_mul_iff_left₀ hpos, ht, add_mul, add_assoc, add_lt_add_iff_left]
    · rw [← mul_left_inj' hpos.ne', ht, add_mul, add_assoc, add_right_inj]
  have hr0 : (0 : ℝ) ≤ r := Nat.cast_nonneg r
  have hrh : r < 2 * h → (r : ℝ) + 1 ≤ 2 * h := fun hlt => by exact_mod_cast hlt
  have ha : t = a ↔ r + d = 0 := by simpa using (key 0).2.2
  have ha' : a < t ↔ 0 < r + d := by simpa using (key 0).2.1
  rcases Nat.eq_zero_or_pos r with rfl | hpr
  · rw [if_pos rfl]
    cases s with
    | false => exact .inl ⟨rfl, ha.2 (by simp [StickyPart.eq_zero ⟨h0, h1, hsd⟩])⟩
    | true =>
      have hd := StickyPart.pos ⟨h0, h1, hsd⟩
      exact .inr (.inl ⟨rfl, ha'.2 (by linarith), (key _).1.2 (by push_cast; linarith)⟩)
  · have hpr' : (1 : ℝ) ≤ r := by exact_mod_cast hpr
    rw [if_neg (by omega)]
    rcases Nat.lt_trichotomy r h with hlt | rfl | hgt
    · have : (r : ℝ) + 1 ≤ h := by exact_mod_cast hlt
      rw [if_pos hlt]
      exact .inr (.inl ⟨rfl, ha'.2 (by linarith), (key _).1.2 (by linarith)⟩)
    · rw [if_neg (lt_irrefl _), if_pos rfl]
      cases s with
      | false => exact .inr (.inr (.inl ⟨rfl, (key _).2.2.2 (by rw [StickyPart.eq_zero ⟨h0, h1, hsd⟩]; ring)⟩))
      | true =>
        have hd := StickyPart.pos ⟨h0, h1, hsd⟩
        exact .inr (.inr (.inr ⟨rfl, (key _).2.1.2 (by linarith), (key 1).1.2 (by have := hrh hr; linarith)⟩))
    · have : (h : ℝ) + 1 ≤ r := by exact_mod_cast hgt
      rw [if_neg (by omega), if_neg (by omega)]
      exact .inr (.inr (.inr ⟨rfl, (key _).2.1.2 (by linarith), (key 1).1.2 (by have := hrh hr; linarith)⟩))

theorem zpow_sub_toNat {e q : Int} (h : e ≤ q) : (2 : ℝ) ^ (e - q) * 2 ^ (q - e).toNat = 1 := by
  rw [← zpow_natCast, ← zpow_add₀ two_ne_zero, Int.toNat_of_nonneg (by omega)]
  simp

/-- The cut of a magnitude at 2^q. -/
theorem cut_cutsTo {m : Nat} {e q : Int} {s : Bool} {d : ℝ} (hs : StickyPart s d) (hq : s = true → e < q) :
    CutsTo ((m + d) * 2 ^ (e - q)) (cut m e q s) := by
  by_cases hle : q ≤ e
  · cases s with
    | true => exact absurd (hq rfl) (by omega)
    | false => rw [hs.eq_zero, add_zero]; exact cutsTo_of_le hle
  · have hlt : e < q := by omega
    have hp := zpow_sub_toNat hlt.le
    rw [cut, if_neg hle]
    simp only
    generalize hk : (q - e).toNat = k at hp ⊢
    obtain ⟨j, rfl⟩ : ∃ j, k = j + 1 := ⟨k - 1, by omega⟩
    generalize (2 : ℝ) ^ (e - q) = z at hp ⊢
    have hj : (2 : ℝ) ^ (j + 1) = 2 * (2 ^ j : Nat) := by push_cast; ring
    rw [hj] at hp
    have hjN : 2 ^ (j + 1) = 2 * 2 ^ j := by ring
    split
    · rename_i hfar
      have hm : m < 2 ^ (j + 1) := lt_trans Nat.lt_log2_self (Nat.pow_lt_pow_right (by decide) (by omega))
      have hm' : m < 2 ^ j := lt_of_lt_of_le Nat.lt_log2_self (Nat.pow_le_pow_right (by decide) (by omega))
      have := cutsTo_of_rest (a := 0) (r := m) (h := 2 ^ j) (t := (m + d) * z) hs (by omega) (by
        rw [mul_assoc, hp]; simp)
      convert this using 2
      rw [if_pos hm']
      rcases Nat.eq_zero_or_pos m with rfl | hpos
      · cases s <;> rfl
      · rw [if_neg (by omega), if_neg (by omega)]
    · refine cutsTo_of_rest (a := m / 2 ^ (j + 1)) (r := m % 2 ^ (j + 1)) (h := 2 ^ j) hs ?_ ?_
      · rw [← hjN]; exact Nat.mod_lt _ (by positivity)
      · rw [mul_assoc, hp, mul_one]
        have := Nat.div_add_mod m (2 ^ (j + 1))
        rw [← hj]
        have h2 : ((2 ^ (j + 1) * (m / 2 ^ (j + 1)) + m % 2 ^ (j + 1) : Nat) : ℝ) = m := by rw [this]
        push_cast at h2
        linarith

/-! ### Rounding a magnitude -/

/-- Whether a mode rounds values of this sign away from zero (R36). -/
def RoundsAway (md : RMode) (neg : Bool) : Prop := md = .ru ∧ neg = false ∨ md = .rd ∧ neg = true

/-- The natural number a is the magnitude t rounded to nearest even, away from zero or toward zero. -/
def RoundsTo (near up : Prop) (t : ℝ) (a : Nat) : Prop :=
  (near → |t - a| ≤ 1 / 2 ∧ (|t - a| = 1 / 2 → a % 2 = 0)) ∧ (up → t ≤ a ∧ (a : ℝ) < t + 1) ∧ (¬near → ¬up → a ≤ t ∧ t < a + 1)

/-- A magnitude cut at 2^q and rounded in a mode. -/
def cutRound (md : RMode) (n : Bool) (c : Nat × Nat) : Nat := if roundsUp md n c.1 c.2 then c.1 + 1 else c.1

/-- What rounds to nearest even is at most half away. -/
theorem cutRound_near {n : Bool} {t : ℝ} {c : Nat × Nat} (h : CutsTo t c) :
    |t - cutRound .ne n c| ≤ 1 / 2 ∧ (|t - cutRound .ne n c| = 1 / 2 → cutRound .ne n c % 2 = 0) := by
  obtain ⟨a, r⟩ := c
  obtain ⟨hr, ht⟩ | ⟨hr, h1, h2⟩ | ⟨hr, ht⟩ | ⟨hr, h1, h2⟩ := h <;> dsimp only at hr <;> subst hr
  · simp only at ht
    simp [cutRound, roundsUp, ht]
  · simp only [cutRound, roundsUp] at *
    have : |t - a| < 1 / 2 := by rw [abs_lt]; constructor <;> linarith
    exact ⟨this.le, fun he => absurd he this.ne⟩
  · simp only at ht
    rcases Nat.mod_two_eq_zero_or_one a with ha | ha
    · simp [cutRound, roundsUp, ha, ht]
    · have h1 : t - (a + 1 : Nat) = -(1 / 2) := by rw [ht]; push_cast; ring
      simp only [cutRound, roundsUp, ha]
      rw [if_pos (by decide), h1, abs_neg]
      exact ⟨by norm_num, fun _ => by omega⟩
  · simp only [cutRound, roundsUp] at *
    have : |t - (a + 1 : Nat)| < 1 / 2 := by rw [abs_lt]; push_cast; constructor <;> linarith
    exact ⟨this.le, fun he => absurd he this.ne⟩

/-- What does not round to nearest takes the upper of two neighbours if the mode rounds away from zero. -/
theorem cutRound_of_ne_near {md : RMode} {n : Bool} {c : Nat × Nat} (h : md ≠ .ne) [Decidable (RoundsAway md n)] :
    cutRound md n c = if c.2 ≠ 0 ∧ RoundsAway md n then c.1 + 1 else c.1 := by
  cases md with
  | ne => exact absurd rfl h
  | rz => simp [cutRound, roundsUp, RoundsAway]
  | ru => simp [cutRound, roundsUp, RoundsAway]
  | rd => simp [cutRound, roundsUp, RoundsAway]

/-- The whole part of a magnitude and its rest. -/
theorem CutsTo.bounds {t : ℝ} {c : Nat × Nat} (h : CutsTo t c) : c.1 ≤ t ∧ t < c.1 + 1 ∧ (c.2 = 0 ↔ t = c.1) := by
  obtain ⟨hr, ht⟩ | ⟨hr, h1, h2⟩ | ⟨hr, ht⟩ | ⟨hr, h1, h2⟩ := h <;> rw [hr] <;>
    refine ⟨by linarith, by linarith, ?_⟩
  · simp [ht]
  · simpa using h1.ne'
  · simp [ht]
  · simpa using (by linarith : (c.1 : ℝ) < t).ne'

/-- R36: a cut magnitude rounds as the mode says. -/
theorem CutsTo.roundsTo {md : RMode} {n : Bool} {t : ℝ} {c : Nat × Nat} (h : CutsTo t c) :
    RoundsTo (md = .ne) (RoundsAway md n) t (cutRound md n c) := by
  classical
  obtain ⟨h1, h2, h3⟩ := h.bounds
  refine ⟨fun hm => hm ▸ cutRound_near h, fun hu => ?_, fun hm hu => ?_⟩
  · rw [cutRound_of_ne_near (by rintro rfl; simp [RoundsAway] at hu)]
    by_cases h0 : c.2 = 0
    · rw [if_neg (by simp [h0]), h3.1 h0]; exact ⟨le_refl _, by linarith⟩
    · rw [if_pos ⟨h0, hu⟩]
      have := lt_of_le_of_ne h1 fun he => h0 (h3.2 he.symm)
      push_cast
      exact ⟨by linarith, by linarith⟩
  · rw [cutRound_of_ne_near hm, if_neg (by simp [hu])]; exact ⟨h1, h2⟩

/-- A magnitude that is cut with a rest is none of its neighbours, so it does not round to itself. -/
theorem CutsTo.exact_iff {md : RMode} {n : Bool} {t : ℝ} {c : Nat × Nat} (h : CutsTo t c) :
    c.2 = 0 ↔ t = cutRound md n c := by
  obtain ⟨h1, h2, h3⟩ := h.bounds
  unfold cutRound
  split
  · rename_i hu
    have h0 : c.2 ≠ 0 := fun h0 => by rw [h0] at hu; cases md <;> simp [roundsUp] at hu
    push_cast
    exact iff_of_false h0 h2.ne
  · exact h3

/-! ### Properties of a rounded magnitude -/

section
variable {near up : Prop} {t : ℝ} {a : Nat}

theorem RoundsTo.near_lt (h : RoundsTo near up t a) : t - 1 < a ∧ (a : ℝ) < t + 1 := by
  obtain ⟨h1, h2, h3⟩ := h
  by_cases hn : near
  · have := abs_le.1 (h1 hn).1
    exact ⟨by linarith, by linarith⟩
  · by_cases hu : up
    · exact ⟨by linarith [(h2 hu).1], (h2 hu).2⟩
    · exact ⟨by linarith [(h3 hn hu).2], by linarith [(h3 hn hu).1]⟩

/-- Rounding does not pass a natural number. -/
theorem RoundsTo.le_of_le {N : Nat} (h : RoundsTo near up t a) (ht : t ≤ N) : a ≤ N := by
  have : (a : ℝ) < N + 1 := by linarith [h.near_lt.2]
  exact Nat.lt_succ_iff.1 (by exact_mod_cast this)

theorem RoundsTo.ge_of_ge {N : Nat} (h : RoundsTo near up t a) (ht : N ≤ t) : N ≤ a := by
  have : (N : ℝ) < a + 1 := by linarith [h.near_lt.1]
  exact Nat.lt_succ_iff.1 (by exact_mod_cast this)

/-- A magnitude below an even number of units stays below it in rounding where the rounding is no carry. -/
theorem RoundsTo.lt_iff {N : Nat} (h : RoundsTo near up t a) (hN : N % 2 = 0) (hnu : ¬(near ∧ up)) :
    a < N ↔ (near → t < N - 1 / 2) ∧ (up → t ≤ N - 1) ∧ (¬near → ¬up → t < N) := by
  have hcast : a < N ↔ (a : ℝ) ≤ N - 1 := by
    rw [le_sub_iff_add_le]
    exact_mod_cast Nat.succ_le_iff.symm
  by_cases hn : near
  · have hu : ¬up := fun hu => hnu ⟨hn, hu⟩
    obtain ⟨h1, h2⟩ := h.1 hn
    simp only [hn, hu, true_implies, false_implies, not_true_eq_false, and_true]
    refine ⟨fun ha => ?_, fun ht => ?_⟩
    · have hle := hcast.1 ha
      refine lt_of_le_of_ne (by linarith [(abs_le.1 h1).2]) fun he => ?_
      have hge : (a : ℝ) = N - 1 := le_antisymm hle (by linarith [(abs_le.1 h1).2])
      have hodd : a + 1 = N := by exact_mod_cast (by linarith : (a : ℝ) + 1 = N)
      have := h2 (by rw [he, hge]; norm_num)
      omega
    · exact_mod_cast (by linarith [(abs_le.1 h1).1] : (a : ℝ) < N)
  · by_cases hu : up
    · simp only [hn, hu, true_implies, false_implies, not_true_eq_false, implies_true, and_true, true_and]
      obtain ⟨h1, h2⟩ := h.2.1 hu
      refine ⟨fun ha => by linarith [hcast.1 ha], fun ht => ?_⟩
      exact_mod_cast (by linarith : (a : ℝ) < N)
    · simp only [hn, hu, true_implies, false_implies, not_false_eq_true, true_and]
      obtain ⟨h1, h2⟩ := h.2.2 hn hu
      exact ⟨fun ha => by linarith [hcast.1 ha], fun ht => by exact_mod_cast (by linarith : (a : ℝ) < N)⟩

/-! ### The nearest of a grid -/

/-- A number that is whole, or whose magnitude lies below a natural number that t reaches. -/
def OnGrid (t z : ℝ) : Prop := (∃ j : Int, z = j) ∨ ∃ N : Nat, |z| < N ∧ N ≤ t

/-- A whole number other than a is at least as far from t as a is, and farther but in a tie. -/
theorem RoundsTo.near_int (h : RoundsTo near up t a) (hn : near) (j : Int) :
    |t - a| ≤ |t - j| ∧ (|t - a| = |t - j| → (a : ℝ) ≠ j → a % 2 = 0) := by
  obtain ⟨h1, h2⟩ := h.1 hn
  by_cases hj : (j : ℝ) = a
  · exact ⟨by rw [hj], fun _ hne => absurd hj.symm hne⟩
  · have hd : (1 : ℝ) ≤ |(j : ℝ) - a| := by
      have : (1 : Int) ≤ |j - a| := Int.one_le_abs (sub_ne_zero.2 fun he => hj (by exact_mod_cast he))
      exact_mod_cast this
    have htri : |(j : ℝ) - a| ≤ |t - a| + |t - j| := by
      rw [show (j : ℝ) - a = (t - a) - (t - j) by ring]
      exact abs_sub _ _
    exact ⟨by linarith, fun he _ => h2 (by linarith)⟩

/-- R36: to nearest, no number of the grid is nearer, and in a tie the rounded one is even. -/
theorem RoundsTo.near_grid (h : RoundsTo near up t a) (hn : near) {z : ℝ} (hz : OnGrid t z) :
    |t - a| ≤ |t - z| ∧ (|t - a| = |t - z| → (a : ℝ) ≠ z → a % 2 = 0) := by
  obtain ⟨j, rfl⟩ | ⟨N, hlt, hle⟩ := hz
  · exact h.near_int hn j
  · have hN := (h.near_int hn N).1
    have hz' := (abs_lt.1 hlt).2
    rw [Int.cast_natCast, abs_of_nonneg (sub_nonneg.2 hle)] at hN
    have : |t - a| < |t - z| := lt_of_lt_of_le (by linarith) (le_abs_self _)
    exact ⟨this.le, fun he => absurd he this.ne⟩

/-- R36: away from zero, no number of the grid lies between. -/
theorem RoundsTo.up_grid (h : RoundsTo near up t a) (hu : up) {z : ℝ} (hz : OnGrid t z) (ht : t ≤ z) : a ≤ z := by
  obtain ⟨j, rfl⟩ | ⟨N, hlt, hle⟩ := hz
  · have : ((a : Int) : ℝ) < (j + 1 : Int) := by push_cast; linarith [(h.2.1 hu).2]
    exact_mod_cast Int.lt_add_one_iff.1 (by exact_mod_cast this)
  · linarith [(abs_lt.1 hlt).2]

/-- R36: toward zero, no number of the grid lies between. -/
theorem RoundsTo.down_grid (h : RoundsTo near up t a) (hn : ¬near) (hu : ¬up) {z : ℝ} (hz : OnGrid t z) (ht : z ≤ t) : z ≤ a := by
  obtain ⟨j, rfl⟩ | ⟨N, hlt, hle⟩ := hz
  · have : ((j : Int) : ℝ) < (a + 1 : Int) := by push_cast; linarith [(h.2.2 hn hu).2]
    exact_mod_cast Int.lt_add_one_iff.1 (by exact_mod_cast this)
  · have hN : (N : ℝ) ≤ a := by exact_mod_cast h.ge_of_ge hle
    linarith [(abs_lt.1 hlt).2]

end

end Sys2Proof.Machine
end

section
/-! PROOF. Codes of the IEEE formats (R19): every finite value has one code and one code only. -/

namespace Sys2Proof.Machine

/-- A format whose all-ones exponent holds infinities and NaNs, with at least one fraction bit and two exponent bits. -/
def FFmt.Ieee (f : FFmt) : Prop := f.ieee = true ∧ 1 ≤ f.w ∧ 2 ≤ f.ew

theorem b32_ieee : b32.Ieee := ⟨rfl, by decide, by decide⟩
theorem b16_ieee : b16.Ieee := ⟨rfl, by decide, by decide⟩
theorem bf16_ieee : bf16.Ieee := ⟨rfl, by decide, by decide⟩
theorem f19_ieee : f19.Ieee := ⟨rfl, by decide, by decide⟩

/-- The exponent of the unit of the subnormal values and of the least normal ones. -/
def FFmt.qmin (f : FFmt) : Int := 1 - f.bias - f.w

/-- The exponent of the unit of the greatest finite values. -/
def FFmt.qmax (f : FFmt) : Int := f.emax - f.bias - f.w

/-- A magnitude m × 2^e as the format holds it: normal, or subnormal at the least exponent. -/
structure FFmt.Canon (f : FFmt) (m : Nat) (e : Int) : Prop where
  lt : m < 2 ^ (f.w + 1)
  ge : f.qmin ≤ e
  le : e ≤ f.qmax
  norm : 2 ^ f.w ≤ m ∨ e = f.qmin

/-- The code of a magnitude that the format holds. -/
def FFmt.code (f : FFmt) (n : Bool) (m : Nat) (e : Int) : Nat :=
  f.sign n + if m < 2 ^ f.w then m else (e + f.bias + f.w).toNat * 2 ^ f.w + (m - 2 ^ f.w)

/-! ### The fields of a code -/

section
variable {f : FFmt} {n : Bool} {E F : Nat}

/-- The code with exponent field E and fraction F. -/
def FFmt.fields (f : FFmt) (n : Bool) (E F : Nat) : Nat := f.sign n + (E * 2 ^ f.w + F)

theorem FFmt.fields_eq (f : FFmt) (n : Bool) (E F : Nat) : f.fields n E F = (n.toNat * 2 ^ f.ew + E) * 2 ^ f.w + F := by
  cases n
  · simp [FFmt.fields, FFmt.sign]
  · simp only [FFmt.fields, FFmt.sign, if_true, Bool.toNat_true, pow_add]; ring

theorem FFmt.fields_div (hF : F < 2 ^ f.w) : f.fields n E F / 2 ^ f.w = n.toNat * 2 ^ f.ew + E := by
  rw [FFmt.fields_eq, Nat.mul_comm _ (2 ^ f.w), Nat.mul_add_div (by positivity), Nat.div_eq_of_lt hF, Nat.add_zero]

theorem FFmt.bits_fraction (hF : F < 2 ^ f.w) : bits (f.fields n E F) 0 f.w = F := by
  rw [bits, pow_zero, Nat.div_one, FFmt.fields_eq, Nat.mul_comm _ (2 ^ f.w), Nat.mul_add_mod, Nat.mod_eq_of_lt hF]

theorem FFmt.bits_exponent (hE : E < 2 ^ f.ew) (hF : F < 2 ^ f.w) : bits (f.fields n E F) f.w f.ew = E := by
  rw [bits, FFmt.fields_div hF, Nat.mul_comm, Nat.mul_add_mod, Nat.mod_eq_of_lt hE]

theorem FFmt.bits_sign (hE : E < 2 ^ f.ew) (hF : F < 2 ^ f.w) : bits (f.fields n E F) (f.w + f.ew) 1 = n.toNat := by
  rw [bits, pow_add, ← Nat.div_div_eq_div_mul, FFmt.fields_div hF, Nat.mul_comm, Nat.mul_add_div (by positivity),
    Nat.div_eq_of_lt hE, Nat.add_zero]
  cases n <;> rfl

theorem FFmt.fields_lt (hE : E < 2 ^ f.ew) (hF : F < 2 ^ f.w) : f.fields n E F < 2 ^ (f.w + f.ew + 1) := by
  have h1 : n.toNat * 2 ^ f.ew + E + 1 ≤ 2 * 2 ^ f.ew := by
    have : n.toNat * 2 ^ f.ew ≤ 1 * 2 ^ f.ew := Nat.mul_le_mul_right _ (by cases n <;> decide)
    omega
  have h2 := Nat.mul_le_mul_right (2 ^ f.w) h1
  rw [FFmt.fields_eq]
  calc _ < (n.toNat * 2 ^ f.ew + E + 1) * 2 ^ f.w := by rw [Nat.add_mul _ 1]; omega
    _ ≤ 2 * 2 ^ f.ew * 2 ^ f.w := h2
    _ = 2 ^ (f.w + f.ew + 1) := by ring

/-- The bits of a code beyond the format are free: a code is its three fields. -/
theorem FFmt.mod_eq_fields (f : FFmt) (c : Nat) :
    c % 2 ^ (f.w + f.ew + 1) = f.fields (bits c (f.w + f.ew) 1 = 1) (bits c f.w f.ew) (bits c 0 f.w) := by
  have hs : (decide (bits c (f.w + f.ew) 1 = 1)).toNat = c / 2 ^ (f.w + f.ew) % 2 := by
    have := Nat.mod_two_eq_zero_or_one (c / 2 ^ (f.w + f.ew))
    rcases this with h | h <;> simp [bits, h]
  rw [FFmt.fields_eq, hs, pow_succ, Nat.mod_mul, pow_add, Nat.mod_mul]
  simp only [bits, pow_zero, Nat.div_one]
  ring

/-- The value of a code depends on the bits of the format alone. -/
theorem FFmt.val_mod (f : FFmt) (c : Nat) : f.val (c % 2 ^ (f.w + f.ew + 1)) = f.val c := by
  have hb : ∀ lo len, lo + len ≤ f.w + f.ew + 1 → bits (c % 2 ^ (f.w + f.ew + 1)) lo len = bits c lo len := by
    intro lo len hl
    rw [bits, bits, ← Nat.mod_mul_right_div_self, ← Nat.mod_mul_right_div_self, ← pow_add, Nat.mod_mod_of_dvd _ (pow_dvd_pow 2 hl)]
  simp only [FFmt.val, hb (f.w + f.ew) 1 (by omega), hb f.w f.ew (by omega), hb 0 f.w (by omega)]

/-- The value of a code by its fields (R19). -/
theorem FFmt.val_fields (hf : f.ieee = true) (hE : E < 2 ^ f.ew) (hF : F < 2 ^ f.w) : f.val (f.fields n E F) =
    if E = 2 ^ f.ew - 1 then (if F = 0 then .inf n else .nan (F / 2 ^ (f.w - 1) = 0))
    else if E = 0 then .fin n F f.qmin else .fin n (2 ^ f.w + F) ((E : Int) - f.bias - f.w) := by
  have hn : decide (n.toNat = 1) = n := by cases n <;> rfl
  simp only [FFmt.val, hf, FFmt.bits_fraction hF, FFmt.bits_exponent hE hF, FFmt.bits_sign hE hF, hn, true_and,
    Bool.true_eq_false, false_and, if_false, FFmt.qmin]

end

/-! ### Values and codes -/

section
variable {f : FFmt}

theorem FFmt.emax_eq (hf : f.Ieee) : f.emax = 2 ^ f.ew - 2 := by
  obtain ⟨h, -, hw⟩ := hf
  have h4 : 2 ^ 2 ≤ 2 ^ f.ew := Nat.pow_le_pow_right (by decide) hw
  rw [FFmt.emax, if_pos h]
  push_cast [show 2 ≤ 2 ^ f.ew by omega]
  rfl

theorem FFmt.qmin_lt_qmax (hf : f.Ieee) : f.qmin < f.qmax := by
  have h4 : (2 : Int) ^ 2 ≤ 2 ^ f.ew := pow_le_pow_right₀ (by decide) hf.2.2
  have := FFmt.emax_eq hf
  unfold FFmt.qmin FFmt.qmax
  omega

/-- The exponent field of a normal magnitude is between the two special ones. -/
theorem FFmt.Canon.field (hf : f.Ieee) {m : Nat} {e : Int} (h : f.Canon m e) :
    ∃ E : Nat, e + f.bias + f.w = E ∧ 1 ≤ E ∧ E < 2 ^ f.ew - 1 := by
  have hge := h.ge
  have hle := h.le
  have := FFmt.emax_eq hf
  have h2 : ((2 ^ f.ew : Nat) : Int) = 2 ^ f.ew := by push_cast; rfl
  unfold FFmt.qmin at hge
  unfold FFmt.qmax at hle
  obtain ⟨E, hE⟩ := Int.eq_ofNat_of_zero_le (show 0 ≤ e + f.bias + f.w by omega)
  exact ⟨E, hE, by omega, by omega⟩

/-- The code of a magnitude by its fields. -/
theorem FFmt.Canon.code_eq (hf : f.Ieee) {m : Nat} {e : Int} (h : f.Canon m e) (n : Bool) :
    ∃ E F : Nat, f.code n m e = f.fields n E F ∧ E < 2 ^ f.ew - 1 ∧ F < 2 ^ f.w ∧
      (if E = 0 then FVal.fin n F f.qmin else .fin n (2 ^ f.w + F) ((E : Int) - f.bias - f.w)) = .fin n m e := by
  have h4 : 2 ^ 2 ≤ 2 ^ f.ew := Nat.pow_le_pow_right (by decide) hf.2.2
  by_cases hm : m < 2 ^ f.w
  · refine ⟨0, m, ?_, by omega, hm, ?_⟩
    · rw [FFmt.code, if_pos hm, FFmt.fields, Nat.zero_mul, Nat.zero_add]
    · rw [if_pos rfl, h.norm.resolve_left (by omega)]
  · obtain ⟨E, hE, h1, h2⟩ := h.field hf
    have hlt := h.lt
    rw [pow_succ] at hlt
    refine ⟨E, m - 2 ^ f.w, ?_, h2, by omega, ?_⟩
    · rw [FFmt.code, if_neg hm, hE, Int.toNat_natCast, FFmt.fields]
    · rw [if_neg (by omega), ← hE, Nat.add_sub_cancel' (by omega)]
      congr 1
      omega

/-- A magnitude's code has its value. -/
theorem FFmt.Canon.val_code (hf : f.Ieee) {m : Nat} {e : Int} (h : f.Canon m e) (n : Bool) : f.val (f.code n m e) = .fin n m e := by
  obtain ⟨E, F, hc, hE, hF, hv⟩ := h.code_eq hf n
  rw [hc, FFmt.val_fields hf.1 (by omega) hF, if_neg (by omega), hv]

theorem FFmt.Canon.code_lt (hf : f.Ieee) {m : Nat} {e : Int} (h : f.Canon m e) (n : Bool) : f.code n m e < 2 ^ (f.w + f.ew + 1) := by
  obtain ⟨E, F, hc, hE, hF, -⟩ := h.code_eq hf n
  rw [hc]
  exact FFmt.fields_lt (by omega) hF

/-- A code is even exactly if its magnitude is. -/
theorem FFmt.even_code (hf : f.Ieee) {m : Nat} {e : Int} (n : Bool) (h : m % 2 = 0) : f.code n m e % 2 = 0 := by
  obtain ⟨-, hw, hew⟩ := hf
  have h1 : 2 ^ f.w % 2 = 0 := by rw [Nat.pow_mod]; simp [show f.w ≠ 0 by omega]
  have h2 : f.sign n % 2 = 0 := by
    unfold FFmt.sign
    split
    · rw [Nat.pow_mod]; simp [show f.w ≠ 0 by omega]
    · rfl
  unfold FFmt.code
  split
  · omega
  · have : (e + f.bias + f.w).toNat * 2 ^ f.w % 2 = 0 := by rw [Nat.mul_mod, h1]; simp
    omega

theorem FFmt.infCode_eq (f : FFmt) (n : Bool) : f.infCode n = f.fields n (2 ^ f.ew - 1) 0 := rfl

theorem FFmt.infCode_lt (f : FFmt) (n : Bool) : f.infCode n < 2 ^ (f.w + f.ew + 1) := by
  rw [FFmt.infCode_eq]
  exact FFmt.fields_lt (Nat.sub_lt (by positivity) one_pos) (by positivity)

theorem FFmt.val_infCode (hf : f.Ieee) (n : Bool) : f.val (f.infCode n) = .inf n := by
  rw [FFmt.infCode_eq, FFmt.val_fields hf.1 (Nat.sub_lt (by positivity) one_pos) (by positivity), if_pos rfl, if_pos rfl]

/-- The greatest finite magnitude. -/
theorem FFmt.canon_max (hf : f.Ieee) : f.Canon (2 ^ (f.w + 1) - 1) f.qmax :=
  have hw := Nat.two_pow_pos f.w
  ⟨Nat.sub_lt (by positivity) one_pos, (FFmt.qmin_lt_qmax hf).le, le_refl _, .inl (by rw [pow_succ]; omega)⟩

theorem FFmt.maxCode_eq (hf : f.Ieee) (n : Bool) : f.maxCode n = f.code n (2 ^ (f.w + 1) - 1) f.qmax := by
  have hw := Nat.two_pow_pos f.w
  have h4 : 2 ^ 2 ≤ 2 ^ f.ew := Nat.pow_le_pow_right (by decide) hf.2.2
  have he : (f.qmax + f.bias + f.w).toNat = 2 ^ f.ew - 2 := by
    have := FFmt.emax_eq hf
    have h2 : ((2 ^ f.ew : Nat) : Int) = 2 ^ f.ew := by push_cast; rfl
    unfold FFmt.qmax
    omega
  have hsplit : (2 ^ f.ew - 1) * 2 ^ f.w = (2 ^ f.ew - 2) * 2 ^ f.w + 2 ^ f.w := by
    rw [show 2 ^ f.ew - 1 = 2 ^ f.ew - 2 + 1 by omega, Nat.add_mul, Nat.one_mul]
  rw [FFmt.maxCode, if_pos hf.1, FFmt.code, he, hsplit, pow_succ, if_neg (by omega)]
  omega

/-- A finite value's magnitude is one that the format holds, and its code is the one of that magnitude. -/
theorem FFmt.canon_of_val (hf : f.Ieee) {c : Nat} {n : Bool} {m : Nat} {e : Int} (h : f.val c = .fin n m e) :
    f.Canon m e ∧ c % 2 ^ (f.w + f.ew + 1) = f.code n m e := by
  have hlt := FFmt.qmin_lt_qmax hf
  have hE : bits c f.w f.ew < 2 ^ f.ew := Nat.mod_lt _ (by positivity)
  have hF : bits c 0 f.w < 2 ^ f.w := Nat.mod_lt _ (by positivity)
  rw [FFmt.mod_eq_fields]
  rw [← FFmt.val_mod, FFmt.mod_eq_fields, FFmt.val_fields hf.1 hE hF] at h
  generalize decide (bits c (f.w + f.ew) 1 = 1) = b at h ⊢
  generalize bits c f.w f.ew = E at hE h ⊢
  generalize bits c 0 f.w = F at hF h ⊢
  split at h
  · split at h <;> cases h
  · rename_i hE1
    split at h
    · rename_i hE0
      cases h
      refine ⟨⟨by rw [pow_succ]; omega, le_refl _, hlt.le, .inr rfl⟩, ?_⟩
      rw [hE0, FFmt.fields, FFmt.code, if_pos hF, Nat.zero_mul, Nat.zero_add]
    · rename_i hE0
      cases h
      have := FFmt.emax_eq hf
      have h2 : ((2 ^ f.ew : Nat) : Int) = 2 ^ f.ew := by push_cast; rfl
      refine ⟨⟨by rw [pow_succ]; omega, ?_, ?_, .inl (Nat.le_add_right _ _)⟩, ?_⟩
      · unfold FFmt.qmin; omega
      · unfold FFmt.qmax; omega
      · rw [FFmt.fields, FFmt.code, if_neg (by omega), show (E : Int) - f.bias - f.w + f.bias + f.w = E by ring, Int.toNat_natCast,
          Nat.add_sub_cancel_left]

end

end Sys2Proof.Machine
end

section
/-! PROOF. Rounding to a format (R36, R38): `FFmt.round` gives the code and the flags of the exact value, in the terms of real numbers. -/

namespace Sys2Proof.Machine

/-! ### The parts of `FFmt.round` -/

/-- The exponent of the unit of m × 2^e where the exponent is unbounded. -/
def FFmt.freeUnit (f : FFmt) (m : Nat) (e : Int) : Int := e + Nat.log2 m - f.w

/-- The exponent of the unit of m × 2^e in the format. -/
def FFmt.unit (f : FFmt) (m : Nat) (e : Int) : Int := if f.freeUnit m e < f.qmin then f.qmin else f.freeUnit m e

/-- A rounded magnitude a × 2^q, renormalized where the rounding carried. -/
def FFmt.carry (f : FFmt) (a : Nat) (q : Int) : Nat × Int := if a = 2 ^ (f.w + 1) then (2 ^ f.w, q + 1) else (a, q)

/-- Whether a rounded magnitude leaves the range of the format. -/
abbrev FFmt.Overflows (f : FFmt) (p : Nat × Int) : Prop := p.1 ≥ 2 ^ f.w ∧ p.2 + f.bias + f.w > f.emax

/-- What overflow gives in a mode (R36). -/
def FFmt.overflowCode (f : FFmt) (md : RMode) (n : Bool) : Nat :=
  if (match md with | .ne => true | .rz => false | .ru => !n | .rd => n) then f.infCode n else f.maxCode n

/-- The flags of a value that does not overflow (R38): none where the cut at the format's unit left no rest, else NX, and UF where the
magnitude rounded with an unbounded exponent is below the normal ones. -/
def FFmt.roundFlags (f : FFmt) (rest : Nat) (au : Nat) (qu : Int) : Nat :=
  if rest = 0 then 0 else 1 + if qu + (if au = 2 ^ (f.w + 1) then 1 else 0) < f.qmin then 2 else 0

/-- The code and the flags of a rounded magnitude. -/
def FFmt.pack (f : FFmt) (md : RMode) (n : Bool) (p : Nat × Int) (fl : Nat) : Nat × Nat :=
  if f.Overflows p then (f.overflowCode md n, 5) else (f.code n p.1 p.2, fl)

theorem FFmt.round_zero (f : FFmt) (md : RMode) (n : Bool) (e : Int) (s : Bool) : f.round md n 0 e s = (f.sign n, 0) := if_pos rfl

/-- `FFmt.round` by its parts. -/
theorem FFmt.round_eq {f : FFmt} {md : RMode} {n : Bool} {m : Nat} {e : Int} {s : Bool} (hm : m ≠ 0) :
    f.round md n m e s = f.pack md n (f.carry (cutRound md n (cut m e (f.unit m e) s)) (f.unit m e))
      (f.roundFlags (cut m e (f.unit m e) s).2 (cutRound md n (cut m e (f.freeUnit m e) s)) (f.freeUnit m e)) := by
  unfold FFmt.round
  rw [if_neg hm]
  rfl

/-! ### A magnitude and its two roundings -/

/-- The two roundings of a magnitude x in a mode: to a units of 2^q, the unit of the format, and to b units of 2^u, the unit where the
exponent is unbounded. -/
structure FFmt.Rounding (f : FFmt) (md : RMode) (n : Bool) (x : ℝ) (a : Nat) (q : Int) (b : Nat) (u : Int) : Prop where
  lo : 2 ^ f.w * 2 ^ u ≤ x
  hi : x < 2 ^ (f.w + 1) * 2 ^ u
  unit : q = if u < f.qmin then f.qmin else u
  same : q = u → a = b
  rounds : RoundsTo (md = .ne) (RoundsAway md n) (x / 2 ^ q) a
  free : RoundsTo (md = .ne) (RoundsAway md n) (x / 2 ^ u) b

/-- The magnitude x, rounded in a mode where the exponent is unbounded, stays below 2^k. -/
abbrev FFmt.RoundsBelow (f : FFmt) (md : RMode) (n : Bool) (x : ℝ) (k : Int) : Prop := StaysBelow (md = .ne) (RoundsAway md n) f.w x k

theorem not_near_and_away (md : RMode) (n : Bool) : ¬(md = .ne ∧ RoundsAway md n) := by
  rintro ⟨rfl, h⟩
  simp [RoundsAway] at h

theorem zpow_pos_two (k : Int) : (0 : ℝ) < 2 ^ k := zpow_pos two_pos k

/-- A power of two in units of another. -/
theorem zpow_eq_mul (k u : Int) : (2 : ℝ) ^ k = 2 ^ (k - u) * 2 ^ u := by
  rw [← zpow_add₀ two_ne_zero, Int.sub_add_cancel]

/-- Whether a magnitude's rounding to units of one stays below 2^j. -/
theorem staysBelow_one {near up : Prop} {w : Nat} {t : ℝ} {b : Nat} (h : RoundsTo near up t b) (hnu : ¬(near ∧ up))
    (hlo : 2 ^ w ≤ t) (hhi : t < 2 ^ (w + 1)) (j : Int) : StaysBelow near up w t j ↔ (b : ℝ) < 2 ^ j := by
  have hw1 : (1 : ℝ) ≤ 2 ^ w := one_le_pow₀ one_le_two
  rcases lt_trichotomy j (w + 1) with hj | rfl | hj
  · have hp : (2 : ℝ) ^ j ≤ 2 ^ w := by
      rw [← zpow_natCast]; exact zpow_le_zpow_right₀ one_le_two (by omega)
    have hb : 2 ^ w ≤ b := h.ge_of_ge (by exact_mod_cast hlo)
    have hb' : (2 : ℝ) ^ w ≤ b := by exact_mod_cast hb
    have hpos := zpow_pos_two j
    refine iff_of_false (fun hs => ?_) (by linarith)
    obtain ⟨h1, h2, h3⟩ := hs
    by_cases hn : near
    · have hc := mul_pos (zpow_pos_two (-(w : Int) - 2)) hpos
      have := h1 hn
      linarith
    · by_cases hu : up
      · have hc := mul_pos (zpow_pos_two (-(w : Int) - 1)) hpos
        have := h2 hu
        linarith
      · linarith [h3 hn hu]
  · have h2 : (2 : ℝ) ^ ((w : Int) + 1) = (2 ^ (w + 1) : Nat) := by push_cast; rw [← zpow_natCast]; push_cast; rfl
    have e1 : (1 - (2 : ℝ) ^ (-(w : Int) - 2)) * 2 ^ ((w : Int) + 1) = (2 ^ (w + 1) : Nat) - 1 / 2 := by
      rw [sub_mul, ← zpow_add₀ two_ne_zero, h2, show -(w : Int) - 2 + (w + 1) = -1 by ring]; norm_num
    have e2 : (1 - (2 : ℝ) ^ (-(w : Int) - 1)) * 2 ^ ((w : Int) + 1) = (2 ^ (w + 1) : Nat) - 1 := by
      rw [sub_mul, ← zpow_add₀ two_ne_zero, h2, show -(w : Int) - 1 + (w + 1) = 0 by ring]; norm_num
    rw [StaysBelow, e1, e2, h2, Nat.cast_lt]
    exact (h.lt_iff (by rw [pow_succ]; omega) hnu).symm
  · have hp : (2 : ℝ) ^ (w + 1) * 2 ≤ 2 ^ j := by
      rw [← pow_succ, ← zpow_natCast]; exact zpow_le_zpow_right₀ one_le_two (by push_cast; omega)
    have hb : b ≤ 2 ^ (w + 1) := h.le_of_le (by exact_mod_cast hhi.le)
    have hb' : (b : ℝ) ≤ 2 ^ (w + 1) := by exact_mod_cast hb
    have hhalf : ∀ i : Nat, 1 ≤ i → (2 : ℝ) ^ (-(w : Int) - i) * 2 ^ j ≤ 1 / 2 * 2 ^ j := by
      intro i hi
      refine mul_le_mul_of_nonneg_right ?_ (zpow_pos_two j).le
      rw [show (1 / 2 : ℝ) = 2 ^ (-1 : Int) by norm_num]
      exact zpow_le_zpow_right₀ one_le_two (by omega)
    have hq := hhalf 2 (by decide)
    have hr := hhalf 1 (by decide)
    push_cast at hq hr
    have hpos : (0 : ℝ) < 2 ^ (w + 1) := by positivity
    exact iff_of_true ⟨fun _ => by linarith, fun _ => by linarith, fun _ _ => by linarith⟩ (by linarith)

/-- Scaling by a power of two. -/
theorem staysBelow_mul {near up : Prop} {w : Nat} {t : ℝ} (u k : Int) :
    StaysBelow near up w (t * 2 ^ u) k ↔ StaysBelow near up w t (k - u) := by
  have hp := zpow_pos_two u
  unfold StaysBelow
  rw [zpow_eq_mul k u, ← mul_assoc, ← mul_assoc, mul_lt_mul_iff_left₀ hp, mul_le_mul_iff_left₀ hp, mul_lt_mul_iff_left₀ hp]

section
variable {f : FFmt} {md : RMode} {n : Bool} {x : ℝ} {a b : Nat} {q u : Int}

/-- The renormalized magnitude is the same magnitude. -/
theorem FFmt.carry_mul (f : FFmt) (a : Nat) (q : Int) : ((f.carry a q).1 : ℝ) * 2 ^ (f.carry a q).2 = a * 2 ^ q := by
  unfold FFmt.carry
  split
  · rename_i h
    rw [h, zpow_add_one₀ two_ne_zero]
    push_cast
    ring
  · rfl

theorem FFmt.carry_lt {f : FFmt} {a : Nat} (q : Int) (h : a ≤ 2 ^ (f.w + 1)) : (f.carry a q).1 < 2 ^ (f.w + 1) := by
  unfold FFmt.carry
  split
  · exact Nat.pow_lt_pow_right (by decide) (by omega)
  · show a < _
    omega

/-- A renormalized magnitude is below 2^k exactly if its leading bit is. -/
theorem FFmt.carry_lt_iff {f : FFmt} {p : Nat × Int} (h1 : 2 ^ f.w ≤ p.1) (h2 : p.1 < 2 ^ (f.w + 1)) (k : Int) :
    (p.1 : ℝ) * 2 ^ p.2 < 2 ^ k ↔ p.2 + f.w < k := by
  have h1' : (2 : ℝ) ^ (f.w : Int) ≤ p.1 := by rw [zpow_natCast]; exact_mod_cast h1
  have h2' : (p.1 : ℝ) < 2 ^ ((f.w : Int) + 1) := by
    have : (p.1 : ℝ) < 2 ^ (f.w + 1) := by exact_mod_cast h2
    rw [← zpow_natCast] at this
    exact_mod_cast this
  have hp := zpow_pos_two p.2
  constructor
  · intro h
    have : (2 : ℝ) ^ (f.w + p.2) < 2 ^ k := by
      rw [zpow_add₀ two_ne_zero]
      exact lt_of_le_of_lt (mul_le_mul_of_nonneg_right h1' hp.le) h
    have := (zpow_lt_zpow_iff_right₀ one_lt_two).1 this
    omega
  · intro h
    calc (p.1 : ℝ) * 2 ^ p.2 < 2 ^ ((f.w : Int) + 1) * 2 ^ p.2 := mul_lt_mul_of_pos_right h2' hp
      _ = 2 ^ ((f.w : Int) + 1 + p.2) := (zpow_add₀ two_ne_zero _ _).symm
      _ ≤ 2 ^ k := zpow_le_zpow_right₀ one_le_two (by omega)

section
variable (h : f.Rounding md n x a q b u)
include h

theorem FFmt.Rounding.unit_cases : q = u ∧ f.qmin ≤ u ∨ q = f.qmin ∧ u < f.qmin := by
  have := h.unit
  split at this <;> omega

theorem FFmt.Rounding.pos : 0 < x := lt_of_lt_of_le (mul_pos (by positivity) (zpow_pos_two u)) h.lo

theorem FFmt.Rounding.free_lo : 2 ^ f.w ≤ x / 2 ^ u := (le_div_iff₀ (zpow_pos_two u)).2 h.lo
theorem FFmt.Rounding.free_hi : x / 2 ^ u < 2 ^ (f.w + 1) := (div_lt_iff₀ (zpow_pos_two u)).2 h.hi

theorem FFmt.Rounding.free_le : b ≤ 2 ^ (f.w + 1) := h.free.le_of_le (by exact_mod_cast h.free_hi.le)
theorem FFmt.Rounding.free_ge : 2 ^ f.w ≤ b := h.free.ge_of_ge (by exact_mod_cast h.free_lo)

/-- In units of the format, the magnitude is no greater than with an unbounded exponent. -/
theorem FFmt.Rounding.le : a ≤ 2 ^ (f.w + 1) := by
  refine h.rounds.le_of_le ?_
  push_cast
  rw [div_le_iff₀ (zpow_pos_two q)]
  have hqu : u ≤ q := by rcases h.unit_cases with hc | hc <;> omega
  exact h.hi.le.trans (mul_le_mul_of_nonneg_left (zpow_le_zpow_right₀ one_le_two hqu) (by positivity))

theorem FFmt.Rounding.normal : q = f.qmin ∨ 2 ^ f.w ≤ x / 2 ^ q := by
  rcases h.unit_cases with ⟨rfl, -⟩ | ⟨hq, -⟩
  · exact .inr h.free_lo
  · exact .inl hq

/-- R38: whether the rounding with an unbounded exponent stays below 2^k. -/
theorem FFmt.Rounding.roundsBelow_iff (k : Int) : f.RoundsBelow md n x k ↔ (b : ℝ) * 2 ^ u < 2 ^ k := by
  have hp := zpow_pos_two u
  have hx : x = x / 2 ^ u * 2 ^ u := (div_mul_cancel₀ x hp.ne').symm
  unfold FFmt.RoundsBelow
  rw [hx, staysBelow_mul, staysBelow_one h.free (not_near_and_away md n) h.free_lo h.free_hi, zpow_eq_mul k u,
    mul_lt_mul_iff_left₀ hp]

/-- The rounding with an unbounded exponent, by its leading bit. -/
theorem FFmt.Rounding.roundsBelow_iff_lt (k : Int) : f.RoundsBelow md n x k ↔ (f.carry b u).2 + f.w < k := by
  have hge : 2 ^ f.w ≤ (f.carry b u).1 := by
    unfold FFmt.carry
    split
    · exact le_refl _
    · exact h.free_ge
  rw [h.roundsBelow_iff, ← f.carry_mul, FFmt.carry_lt_iff hge (FFmt.carry_lt u h.free_le)]

/-- R38: underflow is what the model's carry says. -/
theorem FFmt.Rounding.tiny_iff : f.RoundsBelow md n x (1 - f.bias) ↔
    u + (if b = 2 ^ (f.w + 1) then 1 else 0) < f.qmin := by
  rw [h.roundsBelow_iff_lt]
  unfold FFmt.carry FFmt.qmin
  split <;> simp only <;> omega

/-- R36: the range is left exactly where the model says so. -/
theorem FFmt.Rounding.overflows_iff (hf : f.Ieee) :
    f.Overflows (f.carry a q) ↔ ¬f.RoundsBelow md n x (f.emax + 1 - f.bias) := by
  have hlt := FFmt.qmin_lt_qmax hf
  rw [h.roundsBelow_iff_lt]
  rcases h.unit_cases with ⟨hq, hge⟩ | ⟨hq, hlt'⟩
  · have hab := h.same hq
    subst hq hab
    have hge : 2 ^ f.w ≤ (f.carry a q).1 := by
      unfold FFmt.carry
      split
      · exact le_refl _
      · exact h.free_ge
    unfold FFmt.Overflows
    omega
  · refine iff_of_false (fun ho => ?_) (not_not_intro ?_)
    · -- below the least unit the format's rounding is at most the least normal magnitude
      have ha : a ≤ 2 ^ f.w := by
        refine h.rounds.le_of_le ?_
        rw [div_le_iff₀ (zpow_pos_two q)]
        push_cast
        calc x ≤ 2 ^ (f.w + 1) * 2 ^ u := h.hi.le
          _ = 2 ^ f.w * 2 ^ (u + 1) := by rw [zpow_add_one₀ two_ne_zero]; ring
          _ ≤ 2 ^ f.w * 2 ^ q := mul_le_mul_of_nonneg_left (zpow_le_zpow_right₀ one_le_two (by omega)) (by positivity)
      have hc : f.carry a q = (a, q) := if_neg (by
        have : 2 ^ f.w < 2 ^ (f.w + 1) := Nat.pow_lt_pow_right (by decide) (by omega)
        omega)
      rw [hc] at ho
      obtain ⟨-, ho⟩ := ho
      unfold FFmt.qmin FFmt.qmax at *
      simp only at ho
      omega
    · have hc : (f.carry b u).2 ≤ u + 1 := by
        unfold FFmt.carry
        split <;> simp
      unfold FFmt.qmin FFmt.qmax at *
      omega

/-- A rounded magnitude within the range is one that the format holds. -/
theorem FFmt.Rounding.canon (hf : f.Ieee) (ho : ¬f.Overflows (f.carry a q)) : f.Canon (f.carry a q).1 (f.carry a q).2 := by
  have hlt := FFmt.qmin_lt_qmax hf
  have hq : f.qmin ≤ q := by rcases h.unit_cases with hc | hc <;> omega
  have hge : f.qmin ≤ (f.carry a q).2 := by
    unfold FFmt.carry
    split
    · show _ ≤ q + 1
      omega
    · exact hq
  have hnorm : 2 ^ f.w ≤ (f.carry a q).1 ∨ (f.carry a q).2 = f.qmin := by
    unfold FFmt.carry
    split
    · exact .inl (le_refl _)
    · exact h.normal.elim .inr fun ht => .inl (h.rounds.ge_of_ge (by exact_mod_cast ht))
  refine ⟨FFmt.carry_lt q h.le, hge, ?_, hnorm⟩
  rcases hnorm with hn | hn
  · have := not_and.1 ho hn
    unfold FFmt.qmax
    omega
  · omega

end

/-! ### The best value of a format -/

/-- In a mode, z is no better for x than y, of which c is the code (R36). -/
def NoBetter (md : RMode) (x y : ℝ) (c : Nat) (z : ℝ) : Prop :=
  match md with
  | .ne => |x - y| ≤ |x - z| ∧ (|x - y| = |x - z| → y ≠ z → c % 2 = 0)
  | .rz => |y| ≤ |x| ∧ 0 ≤ x * y ∧ (|z| ≤ |x| → 0 ≤ x * z → |z| ≤ |y|)
  | .rd => y ≤ x ∧ (z ≤ x → z ≤ y)
  | .ru => x ≤ y ∧ (x ≤ z → y ≤ z)

/-- No finite value of a format is better for x than y, of which c is the code. -/
def FFmt.Best (f : FFmt) (md : RMode) (x y : ℝ) (c : Nat) : Prop := ∀ d z, (f.val d).Is z → NoBetter md x y c z

/-- The factor of a sign. -/
def signOf (n : Bool) : ℝ := if n then -1 else 1

theorem signOf_mul_self (n : Bool) : signOf n * signOf n = 1 := by cases n <;> simp [signOf]
theorem abs_signOf (n : Bool) : |signOf n| = 1 := by cases n <;> simp [signOf]

/-- A finite value is a magnitude that the format holds, with a sign. -/
theorem FFmt.exists_canon_of_is (hf : f.Ieee) {c : Nat} {z : ℝ} (h : (f.val c).Is z) :
    ∃ n m e, f.val c = .fin n m e ∧ f.Canon m e ∧ z = signOf n * (m * 2 ^ e) := by
  cases hv : f.val c with
  | nan _ => rw [hv] at h; exact h.elim
  | inf _ => rw [hv] at h; exact h.elim
  | fin n m e => rw [hv] at h; exact ⟨n, m, e, rfl, (FFmt.canon_of_val hf hv).1, h⟩

/-- In units of 2^q, the values of a format are whole but for those below a normal magnitude. -/
theorem FFmt.Canon.onGrid {m : Nat} {e : Int} (h : f.Canon m e) {t : ℝ} (hq : q = f.qmin ∨ 2 ^ f.w ≤ t) (n : Bool) :
    OnGrid t (signOf n * (m * 2 ^ e) / 2 ^ q) := by
  have hs : signOf n * (m * 2 ^ e) / 2 ^ q = signOf n * (m * 2 ^ (e - q)) := by
    rw [zpow_eq_mul e q, ← mul_assoc, ← mul_assoc, mul_div_assoc, div_self (zpow_pos_two q).ne', mul_one, mul_assoc]
  rw [hs]
  by_cases he : q ≤ e
  · obtain ⟨k, hk⟩ := Int.eq_ofNat_of_zero_le (Int.sub_nonneg.2 he)
    refine .inl ⟨(if n then -1 else 1) * (m * 2 ^ k), ?_⟩
    rw [hk, zpow_natCast]
    cases n <;> simp [signOf]
  · have ht := hq.resolve_left (by have := h.ge; omega)
    refine .inr ⟨2 ^ f.w, ?_, by exact_mod_cast ht⟩
    have hm : (m : ℝ) < 2 ^ f.w * 2 := by rw [← pow_succ]; exact_mod_cast h.lt
    have hp : (2 : ℝ) ^ (e - q) ≤ 1 / 2 := by
      rw [show (1 / 2 : ℝ) = 2 ^ (-1 : Int) by norm_num]
      exact zpow_le_zpow_right₀ one_le_two (by omega)
    rw [abs_mul, abs_signOf, one_mul, abs_of_nonneg (by positivity)]
    push_cast
    calc (m : ℝ) * 2 ^ (e - q) ≤ m * (1 / 2) := mul_le_mul_of_nonneg_left hp (Nat.cast_nonneg m)
      _ < 2 ^ f.w * 2 * (1 / 2) := mul_lt_mul_of_pos_right hm (by norm_num)
      _ = 2 ^ f.w := by ring

/-- Scaling a best value: the sign and the unit of a magnitude t that rounds to v, where the other values are z. -/
theorem noBetter_of_magnitude {md : RMode} {n : Bool} {t v r : ℝ} {c : Nat} (hr : 0 < r) (ht : 0 < t) (hv : 0 ≤ v) {z : ℝ}
    (hne : md = .ne → |t - v| ≤ |t - signOf n * z / r| ∧ (|t - v| = |t - signOf n * z / r| → v ≠ signOf n * z / r → c % 2 = 0))
    (hup : RoundsAway md n → t ≤ v ∧ (t ≤ signOf n * z / r → v ≤ signOf n * z / r))
    (hdn : md ≠ .ne → ¬RoundsAway md n → v ≤ t ∧ (signOf n * z / r ≤ t → signOf n * z / r ≤ v)) :
    NoBetter md (signOf n * (t * r)) (signOf n * (v * r)) c z := by
  -- in units of r and with the sign taken out, z is y
  obtain ⟨y, rfl⟩ : ∃ y, z = signOf n * (y * r) :=
    ⟨signOf n * z / r, by rw [div_mul_cancel₀ _ hr.ne', ← mul_assoc, signOf_mul_self, one_mul]⟩
  have hy : signOf n * (signOf n * (y * r)) / r = y := by
    rw [← mul_assoc, signOf_mul_self, one_mul, mul_div_cancel_right₀ _ hr.ne']
  rw [hy] at hne hup hdn
  have habs : ∀ c d : ℝ, |signOf n * (c * r) - signOf n * (d * r)| = |c - d| * r := fun c d => by
    rw [← mul_sub, abs_mul, abs_signOf, one_mul, ← sub_mul, abs_mul, abs_of_pos hr]
  have hmag : ∀ c : ℝ, |signOf n * (c * r)| = |c| * r := fun c => by
    rw [abs_mul, abs_signOf, one_mul, abs_mul, abs_of_pos hr]
  have hprod : ∀ c d : ℝ, signOf n * (c * r) * (signOf n * (d * r)) = c * d * (r * r) := fun c d => by
    rw [show signOf n * (c * r) * (signOf n * (d * r)) = signOf n * signOf n * (c * d * (r * r)) by ring, signOf_mul_self, one_mul]
  have hle : ∀ c d : ℝ, signOf n * (c * r) ≤ signOf n * (d * r) ↔ if n then d ≤ c else c ≤ d := fun c d => by
    cases n <;> simp [signOf, mul_le_mul_iff_left₀ hr]
  unfold NoBetter
  cases md with
  | ne =>
    simp only [habs, mul_le_mul_iff_left₀ hr, mul_left_inj' hr.ne']
    exact ⟨(hne rfl).1, fun he hn => (hne rfl).2 he fun hvy => hn (by rw [hvy])⟩
  | rz =>
    obtain ⟨h1, h2⟩ := hdn (by decide) (by simp [RoundsAway])
    simp only [hmag, hprod, mul_le_mul_iff_left₀ hr, abs_of_pos ht, abs_of_nonneg hv]
    refine ⟨h1, by positivity, fun hy1 hy2 => ?_⟩
    have hy0 : 0 ≤ y := nonneg_of_mul_nonneg_right (nonneg_of_mul_nonneg_left hy2 (by positivity)) ht
    rw [abs_of_nonneg hy0] at hy1 ⊢
    exact h2 hy1
  | rd =>
    simp only [hle]
    cases n with
    | false => exact hdn (by decide) (by simp [RoundsAway])
    | true => exact hup (.inr ⟨rfl, rfl⟩)
  | ru =>
    simp only [hle]
    cases n with
    | false => exact hup (.inl ⟨rfl, rfl⟩)
    | true => exact hdn (by decide) (by simp [RoundsAway])

/-- R36: the rounded magnitude is a best value. -/
theorem FFmt.Rounding.best (h : f.Rounding md n x a q b u) (hf : f.Ieee) {c : Nat} (hc : a % 2 = 0 → c % 2 = 0) :
    f.Best md (signOf n * x) (signOf n * (a * 2 ^ q)) c := by
  intro d z hz
  obtain ⟨k, m, e, -, hcan, rfl⟩ := FFmt.exists_canon_of_is hf hz
  have hr := zpow_pos_two q
  have hx : x = x / 2 ^ q * 2 ^ q := (div_mul_cancel₀ x hr.ne').symm
  have hg : OnGrid (x / 2 ^ q) (signOf n * (signOf k * (m * 2 ^ e)) / 2 ^ q) := by
    rw [← mul_assoc, show signOf n * signOf k = signOf (n != k) by cases n <;> cases k <;> simp [signOf]]
    exact hcan.onGrid h.normal _
  have hb := h.rounds
  rw [hx]
  exact noBetter_of_magnitude hr (div_pos h.pos hr) (Nat.cast_nonneg a)
    (fun hm => ⟨(hb.near_grid hm hg).1, fun he hne => hc ((hb.near_grid hm hg).2 he hne)⟩)
    (fun hu => ⟨(hb.2.1 hu).1, hb.up_grid hu hg⟩) (fun hm hu => ⟨(hb.2.2 hm hu).1, hb.down_grid hm hu hg⟩)

/-- The greatest finite magnitude. -/
noncomputable def FFmt.greatest (f : FFmt) : ℝ := (2 ^ (f.w + 1) - 1 : Nat) * 2 ^ f.qmax

theorem FFmt.greatest_nonneg (f : FFmt) : 0 ≤ f.greatest := mul_nonneg (Nat.cast_nonneg _) (zpow_pos_two _).le

theorem FFmt.greatest_eq (f : FFmt) : f.greatest = (1 - 2 ^ (-(f.w : Int) - 1)) * 2 ^ (f.emax + 1 - f.bias) := by
  have h2 : (2 : ℝ) ^ (f.emax + 1 - f.bias) = 2 ^ ((f.w : Int) + 1) * 2 ^ f.qmax := by
    rw [FFmt.qmax, ← zpow_add₀ two_ne_zero]; congr 1; ring
  have h1 : (2 : ℝ) ^ (-(f.w : Int) - 1) * 2 ^ ((f.w : Int) + 1) = 1 := by
    rw [← zpow_add₀ two_ne_zero, show -(f.w : Int) - 1 + (f.w + 1) = 0 by ring, zpow_zero]
  rw [h2, ← mul_assoc, sub_mul, h1, one_mul, FFmt.greatest, Nat.cast_sub Nat.one_le_two_pow, Nat.cast_one,
    Nat.cast_pow, ← zpow_natCast]
  push_cast
  rfl

/-- No magnitude up to the greatest finite one leaves the range. -/
theorem FFmt.staysBelow_of_le_greatest {near up : Prop} (h : x ≤ f.greatest) : StaysBelow near up f.w x (f.emax + 1 - f.bias) := by
  have hp := zpow_pos_two (f.emax + 1 - f.bias)
  rw [f.greatest_eq] at h
  have hlt : (2 : ℝ) ^ (-(f.w : Int) - 2) < 2 ^ (-(f.w : Int) - 1) := zpow_lt_zpow_right₀ one_lt_two (by omega)
  refine ⟨fun _ => lt_of_le_of_lt h (mul_lt_mul_of_pos_right (by linarith) hp), fun _ => h, fun _ _ => lt_of_le_of_lt h ?_⟩
  exact mul_lt_of_lt_one_left hp (by linarith [zpow_pos_two (-(f.w : Int) - 1)])

theorem FFmt.Canon.le_greatest {m : Nat} {e : Int} (h : f.Canon m e) : (m : ℝ) * 2 ^ e ≤ f.greatest := by
  have hm : m ≤ 2 ^ (f.w + 1) - 1 := Nat.le_sub_one_of_lt h.lt
  exact mul_le_mul (by exact_mod_cast hm) (zpow_le_zpow_right₀ one_le_two h.le) (zpow_pos_two e).le (Nat.cast_nonneg _)

/-- R36: toward zero, the greatest finite value is a best one for a magnitude beyond it. -/
theorem FFmt.best_greatest (hf : f.Ieee) (hx : f.greatest < x) (hm : md ≠ .ne) (hu : ¬RoundsAway md n) (c : Nat) :
    f.Best md (signOf n * x) (signOf n * f.greatest) c := by
  intro d z hz
  obtain ⟨k, m, e, -, hcan, rfl⟩ := FFmt.exists_canon_of_is hf hz
  rw [← mul_one x, ← mul_one f.greatest]
  refine noBetter_of_magnitude one_pos (by linarith [f.greatest_nonneg]) f.greatest_nonneg (fun h => absurd h hm) (fun h => absurd h hu)
    fun _ _ => ⟨hx.le, fun _ => ?_⟩
  have hmag : 0 ≤ (m : ℝ) * 2 ^ e := mul_nonneg (Nat.cast_nonneg m) (zpow_pos_two e).le
  have hle := hcan.le_greatest
  rw [div_one]
  cases n <;> cases k <;> simp [signOf] <;> linarith

/-! ### `FFmt.round` rounds -/

theorem signOf_mul_neg_iff (hx : 0 < x) : signOf n * x < 0 ↔ n = true := by
  cases n <;> simp [signOf, hx, hx.le]

theorem signOf_mul_pos_iff (hx : 0 < x) : 0 < signOf n * x ↔ n = false := by
  cases n <;> simp [signOf, hx, hx.le]

/-- The claim's statement of rounding, for a sign and a magnitude. -/
theorem FFmt.Rounded.of_magnitude (hx : 0 < x) {c fl : Nat} (hn : (f.val c).neg = n)
    (h : (∃ y, (f.val c).Is y ∧ f.Best md (signOf n * x) y c ∧
        (f.RoundsBelow md n x (f.emax + 1 - f.bias) ∨ md ≠ .ne ∧ ¬RoundsAway md n) ∧
        (signOf n * x = y → fl = 0) ∧ (¬f.RoundsBelow md n x (f.emax + 1 - f.bias) → fl = 5) ∧
        (signOf n * x ≠ y → f.RoundsBelow md n x (f.emax + 1 - f.bias) →
          (f.RoundsBelow md n x (1 - f.bias) → fl = 3) ∧
          (¬f.RoundsBelow md n x (1 - f.bias) → fl = 1))) ∨
      (f.val c).isInf = true ∧ ¬f.RoundsBelow md n x (f.emax + 1 - f.bias) ∧
        (md = .ne ∨ RoundsAway md n) ∧ fl = 5) : f.Rounded md (signOf n * x) c fl := by
  have hup : (md = .ru ∧ 0 < signOf n * x ∨ md = .rd ∧ signOf n * x < 0) = RoundsAway md n := by
    rw [signOf_mul_neg_iff hx, signOf_mul_pos_iff hx]; rfl
  have habs : |signOf n * x| = x := by rw [abs_mul, abs_signOf, one_mul, abs_of_pos hx]
  unfold FFmt.Rounded
  simp only [hup]
  refine ⟨fun _ => by rw [hn, signOf_mul_neg_iff hx], ?_⟩
  obtain ⟨y, hy, hbest, hfl⟩ | hinf := h
  · exact .inl ⟨y, hy, fun d z hz => hbest d z hz, by rwa [habs]⟩
  · exact .inr (by rwa [habs])

/-- R36: overflow gives an infinity to nearest and away from zero, else the greatest finite value. -/
theorem FFmt.overflowCode_eq (f : FFmt) (md : RMode) (n : Bool) [Decidable (md = .ne ∨ RoundsAway md n)] :
    f.overflowCode md n = if md = .ne ∨ RoundsAway md n then f.infCode n else f.maxCode n := by
  cases md <;> cases n <;> simp [FFmt.overflowCode, RoundsAway]

theorem FFmt.overflowCode_eq_or (f : FFmt) (md : RMode) (n : Bool) :
    f.overflowCode md n = f.infCode n ∨ f.overflowCode md n = f.maxCode n := ite_eq_or_eq _ _ _

theorem FFmt.pack_lt (hf : f.Ieee) (h : f.Rounding md n x a q b u) (fl : Nat) :
    (f.pack md n (f.carry a q) fl).1 < 2 ^ (f.w + f.ew + 1) := by
  unfold FFmt.pack
  split
  · dsimp only
    rcases f.overflowCode_eq_or md n with hc | hc
    · rw [hc]; exact f.infCode_lt n
    · rw [hc, FFmt.maxCode_eq hf]; exact (FFmt.canon_max hf).code_lt hf n
  · rename_i ho
    exact (h.canon hf ho).code_lt hf n

/-- The sign of a rounded magnitude is kept, whatever it rounds to. -/
theorem FFmt.pack_neg (hf : f.Ieee) (h : f.Rounding md n x a q b u) (fl : Nat) :
    (f.val (f.pack md n (f.carry a q) fl).1).neg = n := by
  unfold FFmt.pack
  split
  · dsimp only
    rcases f.overflowCode_eq_or md n with hc | hc
    · rw [hc, FFmt.val_infCode hf]; rfl
    · rw [hc, FFmt.maxCode_eq hf, (FFmt.canon_max hf).val_code hf]; rfl
  · rename_i ho
    rw [(h.canon hf ho).val_code hf]; rfl

/-- R36, R38: the code and flags that the model makes of a rounded magnitude are those of its exact value. -/
theorem FFmt.Rounding.rounded (h : f.Rounding md n x a q b u) (hf : f.Ieee) {rest : Nat} (hrest : rest = 0 ↔ x / 2 ^ q = a) :
    f.Rounded md (signOf n * x) (f.pack md n (f.carry a q) (f.roundFlags rest b u)).1
      (f.pack md n (f.carry a q) (f.roundFlags rest b u)).2 := by
  classical
  refine .of_magnitude h.pos (FFmt.pack_neg hf h _) ?_
  have hov := h.overflows_iff hf
  unfold FFmt.pack
  split
  · rename_i ho
    have hfit := hov.1 ho
    have hx : f.greatest < x := lt_of_not_ge fun hle => hfit (FFmt.staysBelow_of_le_greatest hle)
    rw [FFmt.overflowCode_eq]
    dsimp only
    split
    · rename_i hmd
      exact .inr ⟨by rw [FFmt.val_infCode hf]; rfl, hfit, hmd, rfl⟩
    · rename_i hmd
      obtain ⟨hm, hu⟩ := not_or.1 hmd
      refine .inl ⟨signOf n * f.greatest, ?_, FFmt.best_greatest hf hx hm hu _, .inr ⟨hm, hu⟩, fun he => ?_, fun _ => rfl,
        fun _ hs => absurd hs hfit⟩
      · rw [FFmt.maxCode_eq hf, (FFmt.canon_max hf).val_code hf]; rfl
      · have := congrArg (|·|) he
        simp only [abs_mul, abs_signOf, one_mul, abs_of_pos h.pos, abs_of_nonneg (FFmt.greatest_nonneg f)] at this
        exact absurd this hx.ne'
  · rename_i ho
    have hcan := h.canon hf ho
    have hfit := not_not.1 (mt hov.2 ho)
    have hy : signOf n * ((f.carry a q).1 * 2 ^ (f.carry a q).2) = signOf n * (a * 2 ^ q) := by rw [f.carry_mul]
    have hexact : signOf n * x = signOf n * (a * 2 ^ q) ↔ rest = 0 := by
      rw [hrest, div_eq_iff (zpow_pos_two q).ne']
      exact mul_right_inj' (by cases n <;> simp [signOf])
    refine .inl ⟨signOf n * (a * 2 ^ q), ?_, h.best hf fun ha => ?_, .inl hfit, fun he => ?_, fun hn => absurd hfit hn,
      fun hne _ => ?_⟩
    · rw [hcan.val_code hf, ← hy]; rfl
    · refine FFmt.even_code hf n ?_
      unfold FFmt.carry
      split
      · show 2 ^ f.w % 2 = 0
        rw [Nat.pow_mod]; simp [show f.w ≠ 0 from Nat.one_le_iff_ne_zero.1 hf.2.1]
      · exact ha
    · exact if_pos (hexact.1 he)
    · have h0 : rest ≠ 0 := fun h0 => hne (hexact.2 h0)
      rw [FFmt.roundFlags, if_neg h0, h.tiny_iff]
      exact ⟨fun ht => by rw [if_pos ht], fun ht => by rw [if_neg ht]⟩

/-- The leading bit of a magnitude is its logarithm's. -/
theorem two_pow_log2_le {m : Nat} (hm : m ≠ 0) {d : ℝ} (h0 : 0 ≤ d) (h1 : d < 1) :
    (2 : ℝ) ^ Nat.log2 m ≤ m + d ∧ (m : ℝ) + d < 2 ^ (Nat.log2 m + 1) := by
  have hlo : (2 : ℝ) ^ Nat.log2 m ≤ m := by exact_mod_cast Nat.log2_self_le hm
  have hhi : (m : ℝ) + 1 ≤ 2 ^ (Nat.log2 m + 1) := by exact_mod_cast Nat.succ_le_iff.2 (Nat.lt_log2_self (n := m))
  exact ⟨by linarith, by linarith⟩

/-- The two cuts of the model are the two roundings of the exact value. -/
theorem FFmt.rounding_cut (f : FFmt) (md : RMode) (n : Bool) {m : Nat} (hm : m ≠ 0) (e : Int) {s : Bool} {d : ℝ} (hs : StickyPart s d)
    (hbits : s = true → f.w < Nat.log2 m) :
    f.Rounding md n ((m + d) * 2 ^ e) (cutRound md n (cut m e (f.unit m e) s)) (f.unit m e)
        (cutRound md n (cut m e (f.freeUnit m e) s)) (f.freeUnit m e) ∧
      ((cut m e (f.unit m e) s).2 = 0 ↔ (m + d) * 2 ^ e / 2 ^ f.unit m e = cutRound md n (cut m e (f.unit m e) s)) := by
  have hscale : ∀ k : Int, (m + d) * 2 ^ e / 2 ^ k = (m + d) * (2 : ℝ) ^ (e - k) := fun k => by
    rw [mul_div_assoc, ← zpow_sub₀ two_ne_zero]
  have hunit : f.freeUnit m e ≤ f.unit m e := by
    unfold FFmt.unit
    split <;> omega
  have hfree : s = true → e < f.freeUnit m e := fun h => by
    have := hbits h
    unfold FFmt.freeUnit
    omega
  have hc := cut_cutsTo (m := m) hs hfree
  have hc' := cut_cutsTo (m := m) hs fun h => lt_of_lt_of_le (hfree h) hunit
  rw [← hscale] at hc hc'
  obtain ⟨hlo, hhi⟩ := two_pow_log2_le hm hs.1 hs.2.1
  have hexp : ∀ j : Nat, (2 : ℝ) ^ (f.w + j) * 2 ^ f.freeUnit m e = 2 ^ (Nat.log2 m + j) * 2 ^ e := fun j => by
    rw [← zpow_natCast, ← zpow_natCast, ← zpow_add₀ two_ne_zero, ← zpow_add₀ two_ne_zero]
    congr 1
    unfold FFmt.freeUnit
    push_cast
    ring
  refine ⟨⟨?_, ?_, rfl, fun h => by rw [h], hc'.roundsTo, hc.roundsTo⟩, hc'.exact_iff⟩
  · have := hexp 0
    rw [Nat.add_zero, Nat.add_zero] at this
    rw [this]
    exact mul_le_mul_of_nonneg_right hlo (zpow_pos_two e).le
  · rw [hexp 1]
    exact mul_lt_mul_of_pos_right hhi (zpow_pos_two e)

/-- R36, R38: `FFmt.round` rounds the exact value that its operands stand for. -/
theorem FFmt.rounded_round (hf : f.Ieee) (md : RMode) (n : Bool) {m : Nat} (hm : m ≠ 0) (e : Int) {s : Bool} {d : ℝ}
    (hs : StickyPart s d) (hbits : s = true → f.w < Nat.log2 m) :
    f.Rounded md (signOf n * ((m + d) * 2 ^ e)) (f.round md n m e s).1 (f.round md n m e s).2 := by
  obtain ⟨h, hrest⟩ := f.rounding_cut md n hm e hs hbits
  rw [FFmt.round_eq hm]
  exact h.rounded hf hrest

end

end Sys2Proof.Machine
end

section
/-! PROOF. What rounding keeps: signs, exact values and zeros; and rounding to b32 words. -/

namespace Sys2Proof.Machine

/-! ### Signs and zeros -/

section
variable {f : FFmt}

/-- A value that is no NaN has the sign of its code. -/
theorem FFmt.neg_val (f : FFmt) {c : Nat} (h : (f.val c).isNan = false) : (f.val c).neg = decide (bits c (f.w + f.ew) 1 = 1) := by
  revert h
  unfold FFmt.val
  dsimp only
  split
  · split
    · exact fun _ => rfl
    · exact fun h => absurd h (by simp [FVal.isNan])
  · split
    · exact fun h => absurd h (by simp [FVal.isNan])
    · split <;> exact fun _ => rfl

/-- A zero is one that the format holds. -/
theorem FFmt.canon_zero (hf : f.Ieee) : f.Canon 0 f.qmin := ⟨by positivity, le_refl _, (FFmt.qmin_lt_qmax hf).le, .inr rfl⟩

theorem FFmt.sign_eq_code (f : FFmt) (n : Bool) : f.sign n = f.code n 0 f.qmin := by
  rw [FFmt.code, if_pos (by positivity), Nat.add_zero]

theorem FFmt.val_sign (hf : f.Ieee) (n : Bool) : f.val (f.sign n) = .fin n 0 f.qmin := by
  rw [FFmt.sign_eq_code, (FFmt.canon_zero hf).val_code hf]

theorem FFmt.round_lt (hf : f.Ieee) (md : RMode) (n : Bool) (m : Nat) (e : Int) {s : Bool} {d : ℝ} (hs : StickyPart s d)
    (hbits : s = true → f.w < Nat.log2 m) : (f.round md n m e s).1 < 2 ^ (f.w + f.ew + 1) := by
  by_cases hm : m = 0
  · rw [hm, FFmt.round_zero, FFmt.sign_eq_code]; exact (FFmt.canon_zero hf).code_lt hf n
  · rw [FFmt.round_eq hm]; exact FFmt.pack_lt hf (f.rounding_cut md n hm e hs hbits).1 _

/-- R36: rounding keeps the sign. -/
theorem FFmt.round_neg (hf : f.Ieee) (md : RMode) (n : Bool) (m : Nat) (e : Int) : (f.val (f.round md n m e false).1).neg = n := by
  by_cases hm : m = 0
  · rw [hm, FFmt.round_zero, FFmt.val_sign hf]; rfl
  · rw [FFmt.round_eq hm]; exact FFmt.pack_neg hf (f.rounding_cut md n hm e stickyPart_false (by simp)).1 _

/-- A zero code is the number zero rounded in any mode, without a flag. -/
theorem FFmt.rounded_zero (md : RMode) {c : Nat} {n : Bool} {e : Int} (h : f.val c = .fin n 0 e) : f.Rounded md 0 c 0 := by
  have hs : StaysBelow (md = .ne) (md = .ru ∧ (0 : ℝ) < 0 ∨ md = .rd ∧ (0 : ℝ) < 0) f.w |(0 : ℝ)| (f.emax + 1 - f.bias) := by
    rw [abs_zero]
    have hp := zpow_pos_two (f.emax + 1 - f.bias)
    have h1 : (2 : ℝ) ^ (-(f.w : Int) - 1) < 1 := zpow_lt_one_of_neg₀ one_lt_two (by omega)
    have h2 : (2 : ℝ) ^ (-(f.w : Int) - 2) < 1 := zpow_lt_one_of_neg₀ one_lt_two (by omega)
    exact ⟨fun _ => mul_pos (by linarith) hp, fun _ => (mul_pos (by linarith) hp).le, fun _ _ => hp⟩
  refine ⟨fun hx => absurd rfl hx, .inl ⟨0, ?_, fun d z _ => ?_, .inl hs, fun _ => rfl, fun hn => absurd hs hn, fun hx => absurd rfl hx⟩⟩
  · rw [h, FVal.Is]; simp
  · cases md with
    | ne => exact ⟨by simp, fun he hne => absurd (abs_eq_zero.1 (by simpa using he.symm)).symm hne⟩
    | rz => simp
    | rd => simp
    | ru => simp

/-! ### Values that the format holds -/

/-- R36: a value that the format holds rounds to its own code in every mode, without a flag. -/
theorem FFmt.round_exact (md : RMode) (n : Bool) {m m' : Nat} {e e' : Int} (hm : m ≠ 0) (hc : f.Canon m' e')
    (he : (m : ℝ) * 2 ^ e = m' * 2 ^ e') : f.round md n m e false = (f.code n m' e', 0) := by
  obtain ⟨h, hrest⟩ := f.rounding_cut md n hm e stickyPart_false (by simp)
  rw [FFmt.round_eq hm]
  generalize cutRound md n (cut m e (f.unit m e) false) = a at h hrest ⊢
  generalize cutRound md n (cut m e (f.freeUnit m e) false) = b at h ⊢
  generalize (cut m e (f.unit m e) false).2 = rest at hrest ⊢
  generalize f.unit m e = q at h hrest ⊢
  generalize f.freeUnit m e = u at h ⊢
  rw [add_zero, he] at h hrest
  have hlo := h.lo
  have hhi := h.hi
  have hpow : ∀ j : Nat, (2 : ℝ) ^ j * 2 ^ u = 2 ^ (j + u : Int) := fun j => by rw [zpow_add₀ two_ne_zero, zpow_natCast]
  rw [hpow] at hlo hhi
  have hq : q = e' := by
    have hu := h.unit_cases
    have hge := hc.ge
    by_cases hn : 2 ^ f.w ≤ m'
    · have h1 := (FFmt.carry_lt_iff (p := (m', e')) hn hc.lt _).1 hhi
      have h2 := mt (FFmt.carry_lt_iff (p := (m', e')) hn hc.lt _).2 (not_lt.2 hlo)
      push_cast at h1 h2
      omega
    · have hmin := hc.norm.resolve_left hn
      have h1 : (2 : ℝ) ^ (f.w + u : Int) < 2 ^ (f.w + e' : Int) := by
        refine lt_of_le_of_lt hlo ?_
        rw [zpow_add₀ two_ne_zero, zpow_natCast]
        exact mul_lt_mul_of_pos_right (by exact_mod_cast Nat.lt_of_not_le hn) (zpow_pos_two e')
      have := (zpow_lt_zpow_iff_right₀ one_lt_two).1 h1
      omega
  subst hq
  have hdiv : (m' : ℝ) * 2 ^ q / 2 ^ q = m' := mul_div_cancel_right₀ _ (zpow_pos_two q).ne'
  have hr := h.rounds
  rw [hdiv] at hr hrest
  have ha : a = m' := le_antisymm (hr.le_of_le (le_refl _)) (hr.ge_of_ge (le_refl _))
  subst ha
  have hcarry : f.carry a q = (a, q) := if_neg hc.lt.ne
  have ho : ¬f.Overflows (a, q) := fun ⟨_, ho⟩ => by
    have := hc.le
    unfold FFmt.qmax at this
    simp only at ho
    omega
  rw [hcarry, FFmt.pack, if_neg ho, FFmt.roundFlags, if_pos (hrest.2 rfl)]

/-! ### Exact values -/

theorem FVal.is_fin {n : Bool} {m : Nat} {e : Int} {x : ℝ} : (FVal.fin n m e).Is x ↔ x = signOf n * (m * 2 ^ e) := Iff.rfl

/-- A value that is a real number is a finite one. -/
theorem FVal.Is.exists_fin {v : FVal} {x : ℝ} (h : v.Is x) : ∃ n m e, v = .fin n m e ∧ x = signOf n * (m * 2 ^ e) := by
  cases v with
  | nan _ => exact h.elim
  | inf _ => exact h.elim
  | fin n m e => exact ⟨n, m, e, rfl, h⟩

theorem signOf_mul_eq_zero {n : Bool} {m : Nat} {e : Int} : signOf n * ((m : ℝ) * 2 ^ e) = 0 ↔ m = 0 := by
  have hs : signOf n ≠ 0 := by cases n <;> simp [signOf]
  simp [hs, (zpow_pos_two e).ne']

/-- R36, R38: a finite value rounds to a format. -/
theorem FFmt.rounded_ofVal (hf : f.Ieee) (md : RMode) {v : FVal} {x : ℝ} (h : v.Is x) :
    f.Rounded md x (f.ofVal md v).1 (f.ofVal md v).2 := by
  obtain ⟨n, m, e, rfl, rfl⟩ := h.exists_fin
  show f.Rounded md _ (f.round md n m e false).1 (f.round md n m e false).2
  by_cases hm : m = 0
  · rw [signOf_mul_eq_zero.2 hm, hm, FFmt.round_zero]; exact FFmt.rounded_zero md (FFmt.val_sign hf n)
  · simpa using FFmt.rounded_round hf md n hm e stickyPart_false (by simp)

end

/-! ### b32 words -/

theorem toNat_u32 {c : Nat} (h : c < 2 ^ 32) : (u32 c).toNat = c := Nat.mod_eq_of_lt h

theorem fval_u32 {c : Nat} (h : c < 2 ^ 32) : fval (u32 c) = b32.val c := by rw [fval, toNat_u32 h]

/-- R36, R38: an exact value, with the part that a sticky bit stands for, rounds to a word. -/
theorem roundedWord_round (md : RMode) (n : Bool) {m : Nat} (e : Int) {s : Bool} {d : ℝ} (hm : m ≠ 0) (hs : StickyPart s d)
    (hbits : s = true → 23 < Nat.log2 m) :
    RoundedWord md (signOf n * ((m + d) * 2 ^ e)) (u32 (b32.round md n m e s).1, (b32.round md n m e s).2) := by
  rw [RoundedWord, toNat_u32 (FFmt.round_lt b32_ieee md n m e hs hbits)]
  exact FFmt.rounded_round b32_ieee md n hm e hs hbits

/-- A zero word is the number zero rounded. -/
theorem roundedWord_zero (md : RMode) {a : Word} {n : Bool} {e : Int} (h : fval a = .fin n 0 e) : RoundedWord md 0 (a, 0) :=
  FFmt.rounded_zero md h

theorem roundB32_fin (md : RMode) (n : Bool) (m : Nat) (e : Int) :
    roundB32 md (.fin n m e, 0) = (u32 (b32.round md n m e false).1, (b32.round md n m e false).2) := by
  simp [roundB32, FFmt.ofVal]

/-- R36, R38: an exact value rounds to a word. -/
theorem roundedWord_roundB32 (md : RMode) {v : FVal} {x : ℝ} (h : v.Is x) : RoundedWord md x (roundB32 md (v, 0)) := by
  obtain ⟨n, m, e, rfl, rfl⟩ := h.exists_fin
  rw [roundB32_fin]
  by_cases hm : m = 0
  · rw [signOf_mul_eq_zero.2 hm, hm, FFmt.round_zero]
    refine roundedWord_zero md (n := n) (e := b32.qmin) ?_
    rw [fval_u32 (by cases n <;> decide), FFmt.val_sign b32_ieee]
  · simpa using roundedWord_round md n e hm stickyPart_false (by simp)

/-- A word that is no NaN has its value's sign. -/
theorem fval_neg {a : Word} (h : (fval a).isNan = false) : (fval a).neg = a.msb := by
  rw [fval, FFmt.neg_val b32 h, BitVec.msb_eq_decide]
  have := a.isLt
  simp only [bits, b32]
  congr 1
  apply propext
  omega

/-- A finite word is the code of its value. -/
theorem eq_code_of_fval {a : Word} {n : Bool} {m : Nat} {e : Int} (h : fval a = .fin n m e) :
    b32.Canon m e ∧ a = u32 (b32.code n m e) := by
  obtain ⟨hc, hcode⟩ := FFmt.canon_of_val b32_ieee h
  refine ⟨hc, BitVec.eq_of_toNat_eq ?_⟩
  rw [toNat_u32 (hc.code_lt b32_ieee n), ← hcode]
  exact (Nat.mod_eq_of_lt a.isLt).symm

theorem msb_of_fval {a : Word} {n : Bool} {m : Nat} {e : Int} (h : fval a = .fin n m e) : a.msb = n := by
  rw [← fval_neg (by rw [h]; rfl), h]; rfl

/-- R36: a word's value rounds to the word itself, without a flag. -/
theorem roundB32_exact (md : RMode) {a : Word} {n : Bool} {m m' : Nat} {e e' : Int} (ha : fval a = .fin n m' e') (hm : m ≠ 0)
    (he : (m : ℝ) * 2 ^ e = m' * 2 ^ e') : roundB32 md (.fin n m e, 0) = (a, 0) := by
  obtain ⟨hc, hcode⟩ := eq_code_of_fval ha
  rw [roundB32_fin, FFmt.round_exact md n hm hc he, hcode]

/-- The zero words. -/
theorem roundB32_zero (md : RMode) (n : Bool) (e : Int) :
    roundB32 md (.fin n 0 e, 0) = (if n then 0x80000000#32 else 0#32, 0) := by
  rw [roundB32_fin, FFmt.round_zero]
  cases n <;> rfl

theorem eq_zero_of_fval {a : Word} {n : Bool} {e : Int} (h : fval a = .fin n 0 e) : a = if n then 0x80000000#32 else 0#32 := by
  rw [(eq_code_of_fval h).2]
  cases n <;> rfl

end Sys2Proof.Machine
end

section
/-! PROOF. The exact values of the arithmetic operations (R36, R38, R106, R107), and their rounding to words. -/

namespace Sys2Proof.Machine

/-! ### Sums -/

/-- A finite value as a multiple of a unit at or below its own. -/
theorem scaled_mul {e q : Int} (n : Bool) (m : Nat) (h : q ≤ e) : (scaled n m e q : ℝ) * 2 ^ q = signOf n * (m * 2 ^ e) := by
  obtain ⟨k, hk⟩ := Int.eq_ofNat_of_zero_le (Int.sub_nonneg.2 h)
  have he : e = k + q := by omega
  rw [scaled, hk, Int.toNat_natCast, he, zpow_add₀ two_ne_zero, zpow_natCast]
  cases n <;> simp [signOf, mul_assoc]

/-- Two values of one sign sum to zero only if both are zeros. -/
theorem eq_zero_of_scaled_add {n : Bool} {m₁ m₂ : Nat} {e₁ e₂ q : Int} (h : scaled n m₁ e₁ q + scaled n m₂ e₂ q = 0) :
    m₁ = 0 ∧ m₂ = 0 := by
  have hs : m₁ * 2 ^ (e₁ - q).toNat + m₂ * 2 ^ (e₂ - q).toNat = 0 := by
    cases n <;> simp only [scaled, if_true, Bool.false_eq_true, if_false] at h <;> omega
  obtain ⟨h₁, h₂⟩ := Nat.add_eq_zero_iff.1 hs
  exact ⟨(Nat.mul_eq_zero.1 h₁).resolve_right (by positivity), (Nat.mul_eq_zero.1 h₂).resolve_right (by positivity)⟩

/-- The unit in which `sumVals` adds two finite values. -/
def sumUnit (e₁ e₂ : Int) : Int := if e₂ < (if e₁ < 0 then e₁ else 0) then e₂ else if e₁ < 0 then e₁ else 0

theorem sumUnit_le (e₁ e₂ : Int) : sumUnit e₁ e₂ ≤ e₁ ∧ sumUnit e₁ e₂ ≤ e₂ := by
  unfold sumUnit
  split_ifs <;> omega

theorem sumUnit_comm (e₁ e₂ : Int) : sumUnit e₁ e₂ = sumUnit e₂ e₁ := by
  unfold sumUnit
  split_ifs <;> omega

/-- The sign of a zero sum of two values (R36). -/
def zeroSign (md : RMode) (n₁ n₂ : Bool) : Bool := if n₁ = n₂ then n₁ else md == .rd

/-- A sum in a unit: zero with a sign, or a multiple of the unit. -/
def unitSum (z : Bool) (v q : Int) : FVal := if v = 0 then .fin z 0 0 else .fin (v < 0) v.natAbs q

/-- The sum of two finite values. -/
theorem sumVals_fin (md : RMode) (n₁ n₂ : Bool) (m₁ m₂ : Nat) (e₁ e₂ : Int) :
    sumVals md [.fin n₁ m₁ e₁, .fin n₂ m₂ e₂] = (unitSum (zeroSign md n₁ n₂)
      (scaled n₁ m₁ e₁ (sumUnit e₁ e₂) + scaled n₂ m₂ e₂ (sumUnit e₁ e₂)) (sumUnit e₁ e₂), 0) := by
  have hz : scaled n₁ m₁ e₁ (sumUnit e₁ e₂) + scaled n₂ m₂ e₂ (sumUnit e₁ e₂) = 0 → n₁ = n₂ → m₁ = 0 ∧ m₂ = 0 :=
    fun hv hn => eq_zero_of_scaled_add (hn ▸ hv)
  unfold sumVals
  simp only [List.any_cons, List.any_nil, List.all_cons, List.all_nil, List.foldl_cons, List.foldl_nil, FVal.isNan, FVal.neg,
    FVal.isZero, reduceCtorEq, Bool.or_false, Bool.false_eq_true, if_false, Bool.and_true, zero_add,
    show ∀ a b : FVal, (a == b) = decide (a = b) from fun _ _ => rfl, decide_false, Bool.and_false]
  rw [show (if e₂ < if e₁ < 0 then e₁ else 0 then e₂ else if e₁ < 0 then e₁ else 0) = sumUnit e₁ e₂ from rfl]
  unfold unitSum
  split
  · rename_i hv
    congr 2
    by_cases hn : n₁ = n₂
    · obtain ⟨rfl, rfl⟩ := hz hv hn
      subst hn
      cases n₁ <;> simp [zeroSign]
    · cases n₁ <;> cases n₂ <;> simp [zeroSign] at hn ⊢
  · rfl

/-- An integer by its sign and its magnitude. -/
theorem signOf_mul_natAbs (v : Int) : signOf (v < 0) * (v.natAbs : ℝ) = v := by
  rw [Nat.cast_natAbs, Int.cast_abs]
  rcases lt_or_ge v 0 with h | h
  · have h' : (v : ℝ) < 0 := by exact_mod_cast h
    simp [signOf, h, abs_of_neg h']
  · have h' : (0 : ℝ) ≤ v := by exact_mod_cast h
    simp [signOf, not_lt.2 h, abs_of_nonneg h']

theorem is_unitSum {z : Bool} {v q : Int} {x : ℝ} (h : (v : ℝ) * 2 ^ q = x) : (unitSum z v q).Is x := by
  subst h
  unfold unitSum
  split
  · rename_i hv
    simp [FVal.is_fin, hv]
  · rw [FVal.is_fin, ← mul_assoc, signOf_mul_natAbs]

/-- R106, R107: the sum of two finite values is exact and raises no flag. -/
theorem sumVals_is (md : RMode) {u v : FVal} {x y : ℝ} (hu : u.Is x) (hv : v.Is y) :
    ∃ r, sumVals md [u, v] = (r, 0) ∧ r.Is (x + y) := by
  obtain ⟨n₁, m₁, e₁, rfl, rfl⟩ := hu.exists_fin
  obtain ⟨n₂, m₂, e₂, rfl, rfl⟩ := hv.exists_fin
  obtain ⟨h₁, h₂⟩ := sumUnit_le e₁ e₂
  refine ⟨_, sumVals_fin md n₁ n₂ m₁ m₂ e₁ e₂, is_unitSum ?_⟩
  rw [← scaled_mul n₁ m₁ h₁, ← scaled_mul n₂ m₂ h₂]
  push_cast
  ring

/-! ### Products and negations -/

theorem mulVals_fin (n₁ n₂ : Bool) (m₁ m₂ : Nat) (e₁ e₂ : Int) :
    mulVals (.fin n₁ m₁ e₁) (.fin n₂ m₂ e₂) = (.fin (n₁ != n₂) (m₁ * m₂) (e₁ + e₂), 0) := rfl

theorem signOf_bne (n₁ n₂ : Bool) : signOf (n₁ != n₂) = signOf n₁ * signOf n₂ := by cases n₁ <;> cases n₂ <;> simp [signOf]

/-- R106, R107: the product of two finite values is exact and raises no flag. -/
theorem mulVals_is {u v : FVal} {x y : ℝ} (hu : u.Is x) (hv : v.Is y) : ∃ r, mulVals u v = (r, 0) ∧ r.Is (x * y) := by
  obtain ⟨n₁, m₁, e₁, rfl, rfl⟩ := hu.exists_fin
  obtain ⟨n₂, m₂, e₂, rfl, rfl⟩ := hv.exists_fin
  refine ⟨_, mulVals_fin n₁ n₂ m₁ m₂ e₁ e₂, ?_⟩
  rw [FVal.is_fin, signOf_bne, zpow_add₀ two_ne_zero]
  push_cast
  ring

theorem FVal.Is.negate {v : FVal} {x : ℝ} (h : v.Is x) : v.negate.Is (-x) := by
  obtain ⟨n, m, e, rfl, rfl⟩ := h.exists_fin
  show _ = signOf (!n) * _
  cases n <;> simp [signOf]

/-- The negation that a fused form's sign bit asks for. -/
theorem FVal.Is.negateIf {v : FVal} {x : ℝ} (h : v.Is x) (b : Bool) : (if b then v.negate else v).Is (if b then -x else x) := by
  cases b
  · exact h
  · exact h.negate

/-! ### Sums and products of words -/

section
variable {a b c : Word} {x y z : ℝ} (m : RMode)

theorem roundedWord_fAdd (ha : (fval a).Is x) (hb : (fval b).Is y) : RoundedWord m (x + y) (fAdd m a b) := by
  obtain ⟨r, hr, hx⟩ := sumVals_is m ha hb
  rw [fAdd, hr]
  exact roundedWord_roundB32 m hx

theorem roundedWord_fSub (ha : (fval a).Is x) (hb : (fval b).Is y) : RoundedWord m (x - y) (fSub m a b) := by
  obtain ⟨r, hr, hx⟩ := sumVals_is m ha hb.negate
  rw [fSub, hr, sub_eq_add_neg]
  exact roundedWord_roundB32 m hx

theorem roundedWord_fMul (ha : (fval a).Is x) (hb : (fval b).Is y) : RoundedWord m (x * y) (fMul m a b) := by
  obtain ⟨r, hr, hx⟩ := mulVals_is ha hb
  rw [fMul, hr]
  exact roundedWord_roundB32 m hx

/-- R107: the fused forms round once. -/
theorem roundedWord_fMulAdd (negP negZ : Bool) (ha : (fval a).Is x) (hb : (fval b).Is y) (hc : (fval c).Is z) :
    RoundedWord m ((if negP then -(x * y) else x * y) + if negZ then -z else z) (fMulAdd m negP negZ a b c) := by
  obtain ⟨p, hp, hxy⟩ := mulVals_is ha hb
  obtain ⟨r, hr, hx⟩ := sumVals_is m (hxy.negateIf negP) (hc.negateIf negZ)
  rw [fMulAdd, hp]
  simp only
  rw [hr, Nat.or_self]
  exact roundedWord_roundB32 m hx

/-- R36: the sign of a zero sum. -/
theorem fAdd_zero_sum (ha : (fval a).Is x) (hb : (fval b).Is y) (h : x + y = 0) :
    (fAdd m a b).1 = if (if a.msb = b.msb then a.msb = true else m = .rd) then 0x80000000#32 else 0#32 := by
  obtain ⟨n₁, m₁, e₁, hu, rfl⟩ := ha.exists_fin
  obtain ⟨n₂, m₂, e₂, hv, rfl⟩ := hb.exists_fin
  obtain ⟨h₁, h₂⟩ := sumUnit_le e₁ e₂
  have hz : scaled n₁ m₁ e₁ (sumUnit e₁ e₂) + scaled n₂ m₂ e₂ (sumUnit e₁ e₂) = 0 := by
    rw [← scaled_mul n₁ m₁ h₁, ← scaled_mul n₂ m₂ h₂, ← add_mul, mul_eq_zero] at h
    exact_mod_cast h.resolve_right (zpow_pos_two _).ne'
  rw [fAdd, hu, hv, sumVals_fin, unitSum, if_pos hz, roundB32_zero, msb_of_fval hu, msb_of_fval hv, zeroSign]
  split <;> simp

/-- R36: the sign of a zero product. -/
theorem fMul_zero_product (ha : (fval a).Is x) (hb : (fval b).Is y) (h : x * y = 0) :
    (fMul m a b).1 = if a.msb = b.msb then 0#32 else 0x80000000#32 := by
  obtain ⟨n₁, m₁, e₁, hu, rfl⟩ := ha.exists_fin
  obtain ⟨n₂, m₂, e₂, hv, rfl⟩ := hb.exists_fin
  have hz : m₁ * m₂ = 0 := by
    rw [mul_eq_zero, signOf_mul_eq_zero, signOf_mul_eq_zero] at h
    exact Nat.mul_eq_zero.2 h
  rw [fMul, hu, hv, mulVals_fin, hz, roundB32_zero, msb_of_fval hu, msb_of_fval hv]
  cases n₁ <;> cases n₂ <;> rfl

end

/-! ### Quotients -/

/-- A quotient of whole numbers and the part that its remainder is. -/
theorem stickyPart_div (k : Nat) {j : Nat} (hj : j ≠ 0) :
    StickyPart (k % j != 0) ((k % j : Nat) / (j : ℝ)) ∧ ((k / j : Nat) : ℝ) + (k % j : Nat) / (j : ℝ) = k / j := by
  have hj' : (0 : ℝ) < j := by exact_mod_cast Nat.pos_of_ne_zero hj
  refine ⟨⟨by positivity, ?_, ?_⟩, ?_⟩
  · rw [div_lt_one hj']
    exact_mod_cast Nat.mod_lt k (Nat.pos_of_ne_zero hj)
  · rw [bne_iff_ne, Ne, Ne, div_eq_zero_iff, or_iff_left hj'.ne', Nat.cast_eq_zero]
  · have : (j : ℝ) * (k / j : Nat) + (k % j : Nat) = k := by exact_mod_cast Nat.div_add_mod k j
    field_simp
    linarith

/-- The model divides with enough bits: the quotient reaches 2^31. -/
theorem two_pow_le_quotient {m₁ m₂ : Nat} (h₁ : m₁ ≠ 0) (h₂ : m₂ ≠ 0) : 2 ^ 31 ≤ m₁ * 2 ^ (32 + Nat.log2 m₂) / m₂ := by
  rw [Nat.le_div_iff_mul_le (Nat.pos_of_ne_zero h₂)]
  calc 2 ^ 31 * m₂ ≤ 2 ^ 31 * 2 ^ (Nat.log2 m₂ + 1) := Nat.mul_le_mul_left _ Nat.lt_log2_self.le
    _ = 1 * 2 ^ (32 + Nat.log2 m₂) := by rw [← pow_add, one_mul]; congr 1; omega
    _ ≤ m₁ * 2 ^ (32 + Nat.log2 m₂) := Nat.mul_le_mul_right _ (Nat.one_le_iff_ne_zero.2 h₁)

theorem log2_ge_of_two_pow_le {k j : Nat} (h : 2 ^ j ≤ k) : j ≤ Nat.log2 k :=
  (Nat.le_log2 (by have := Nat.two_pow_pos j; omega)).2 h

section
variable {a b : Word} (m : RMode)

/-- The quotient of two finite words, the divisor no zero, before it is rounded: its significand, with 32 bits more than the divisor's. -/
theorem fDiv_fin {n₁ n₂ : Bool} {m₁ m₂ : Nat} {e₁ e₂ : Int} (ha : fval a = .fin n₁ m₁ e₁) (hb : fval b = .fin n₂ m₂ e₂) (h₂ : m₂ ≠ 0)
    {k : Nat} (hk : m₁ * 2 ^ (32 + Nat.log2 m₂) = k) : fDiv m a b =
      (u32 (b32.round m (n₁ != n₂) (k / m₂) (e₁ - e₂ - (32 + Nat.log2 m₂ : Nat)) (k % m₂ != 0)).1,
        (b32.round m (n₁ != n₂) (k / m₂) (e₁ - e₂ - (32 + Nat.log2 m₂ : Nat)) (k % m₂ != 0)).2) := by
  subst hk
  rw [fDiv, ha, hb]
  exact if_neg h₂

theorem roundedWord_fDiv {x y : ℝ} (ha : (fval a).Is x) (hb : (fval b).Is y) (hy : y ≠ 0) : RoundedWord m (x / y) (fDiv m a b) := by
  obtain ⟨n₁, m₁, e₁, hu, rfl⟩ := ha.exists_fin
  obtain ⟨n₂, m₂, e₂, hv, rfl⟩ := hb.exists_fin
  have h₂ : m₂ ≠ 0 := fun h => hy (signOf_mul_eq_zero.2 h)
  obtain ⟨k, hk⟩ : ∃ k, m₁ * 2 ^ (32 + Nat.log2 m₂) = k := ⟨_, rfl⟩
  rw [fDiv_fin m hu hv h₂ hk]
  by_cases h₁ : m₁ = 0
  · have hk0 : k = 0 := by rw [← hk, h₁, Nat.zero_mul]
    rw [signOf_mul_eq_zero.2 h₁, zero_div, hk0, Nat.zero_div, FFmt.round_zero]
    exact roundedWord_zero m (n := n₁ != n₂) (e := b32.qmin) (by
      rw [fval_u32 (by cases n₁ != n₂ <;> decide), FFmt.val_sign b32_ieee])
  · obtain ⟨hs, hq⟩ := stickyPart_div k h₂
    have hbig : 2 ^ 31 ≤ k / m₂ := hk ▸ two_pow_le_quotient h₁ h₂
    have hlog := log2_ge_of_two_pow_le hbig
    have hr := roundedWord_round (m := k / m₂) m (n₁ != n₂) (e₁ - e₂ - (32 + Nat.log2 m₂ : Nat)) (by omega) hs fun _ => by omega
    have hx : signOf n₁ * (m₁ * 2 ^ e₁) / (signOf n₂ * (m₂ * (2 : ℝ) ^ e₂)) =
        signOf (n₁ != n₂) * (((k / m₂ : Nat) + (k % m₂ : Nat) / m₂) * 2 ^ (e₁ - e₂ - (32 + Nat.log2 m₂ : Nat))) := by
      have hsn : signOf n₂ ≠ 0 := by cases n₂ <;> simp [signOf]
      have hm₂ : (m₂ : ℝ) ≠ 0 := by exact_mod_cast h₂
      have hp₂ := (zpow_pos_two e₂).ne'
      have hinv : (signOf n₂)⁻¹ = signOf n₂ := inv_eq_of_mul_eq_one_left (signOf_mul_self n₂)
      rw [hq, ← hk, signOf_bne, zpow_sub₀ two_ne_zero, zpow_sub₀ two_ne_zero, zpow_natCast, div_eq_mul_inv, mul_inv, hinv]
      push_cast
      field_simp
    rw [hx]
    exact hr

/-- The quotient of a finite word by a zero. -/
theorem fDiv_fin_zero {n₁ n₂ : Bool} {m₁ m₂ : Nat} {e₁ e₂ : Int} (ha : fval a = .fin n₁ m₁ e₁) (hb : fval b = .fin n₂ m₂ e₂)
    (h₂ : m₂ = 0) :
    fDiv m a b = if m₁ = 0 then (qnan, flagNV) else (u32 (b32.infCode (n₁ != n₂)), flagDZ) := by
  rw [fDiv, ha, hb]
  exact if_pos h₂

/-- R106: a quotient of a number by zero. -/
theorem fDiv_by_zero {x y : ℝ} (ha : (fval a).Is x) (hb : (fval b).Is y) (hy : y = 0) :
    (x ≠ 0 → fDiv m a b = (if a.msb = b.msb then 0x7F800000#32 else 0xFF800000#32, 8)) ∧
      (x = 0 → fDiv m a b = (0x7FC00000#32, 16)) := by
  obtain ⟨n₁, m₁, e₁, hu, rfl⟩ := ha.exists_fin
  obtain ⟨n₂, m₂, e₂, hv, rfl⟩ := hb.exists_fin
  rw [signOf_mul_eq_zero] at hy
  rw [fDiv_fin_zero m hu hv hy, msb_of_fval hu, msb_of_fval hv, Ne, signOf_mul_eq_zero]
  refine ⟨fun h => ?_, fun h => if_pos h⟩
  rw [if_neg h]
  cases n₁ <;> cases n₂ <;> rfl

end

/-! ### Square roots -/

/-- The bits below 2^i of an integer square root. -/
theorem isqrtFrom_spec {k i r : Nat} (hlo : r * r ≤ k) (hhi : k < (r + 2 ^ i) * (r + 2 ^ i)) :
    isqrtFrom k i r * isqrtFrom k i r ≤ k ∧ k < (isqrtFrom k i r + 1) * (isqrtFrom k i r + 1) := by
  induction i generalizing r with
  | zero => exact ⟨hlo, hhi⟩
  | succ i ih =>
    rw [isqrtFrom]
    split
    · rename_i h
      exact ih h (by rw [pow_succ] at hhi; convert hhi using 2 <;> ring)
    · rename_i h
      exact ih hlo (not_le.1 h)

/-- An integer square root and the part that is missing. -/
theorem stickyPart_sqrt {k r : Nat} (hlo : r * r ≤ k) (hhi : k < (r + 1) * (r + 1)) :
    StickyPart (r * r != k) (Real.sqrt k - r) := by
  have hr : (r : ℝ) ≤ Real.sqrt k := Real.le_sqrt_of_sq_le (by rw [sq]; exact_mod_cast hlo)
  have hr' : Real.sqrt k < r + 1 := by
    rw [Real.sqrt_lt' (by positivity), sq]
    exact_mod_cast hhi
  refine ⟨by linarith, by linarith, ?_⟩
  rw [bne_iff_ne, Ne, Ne, sub_eq_zero, Real.sqrt_eq_iff_mul_self_eq (Nat.cast_nonneg k) (Nat.cast_nonneg r)]
  exact not_congr ⟨fun h => by exact_mod_cast h.symm, fun h => by exact_mod_cast h.symm⟩

section
variable {a : Word} (m : RMode)

/-- The significand of which the model takes the root: 24 or 25 bits, at an even exponent. -/
def sqrtOperand (m : Nat) (e : Int) : Nat × Int :=
  if (e - (24 - (Nat.log2 m + 1) : Nat)) % 2 = 0 then (m * 2 ^ (24 - (Nat.log2 m + 1)), e - (24 - (Nat.log2 m + 1) : Nat))
  else (m * 2 ^ (24 - (Nat.log2 m + 1)) * 2, e - (24 - (Nat.log2 m + 1) : Nat) - 1)

theorem sqrtOperand_spec {k : Nat} (e : Int) (hk : k ≠ 0) (hlt : k < 2 ^ 24) :
    2 ^ 23 ≤ (sqrtOperand k e).1 ∧ (sqrtOperand k e).1 < 2 ^ 25 ∧ (sqrtOperand k e).2 % 2 = 0 ∧
      ((sqrtOperand k e).1 : ℝ) * 2 ^ (sqrtOperand k e).2 = k * 2 ^ e := by
  have hlog : Nat.log2 k < 24 := (Nat.log2_lt hk).2 hlt
  obtain ⟨j, hj⟩ : ∃ j, 24 - (Nat.log2 k + 1) = j := ⟨_, rfl⟩
  have hlo : 2 ^ 23 ≤ k * 2 ^ j := by
    calc 2 ^ 23 = 2 ^ Nat.log2 k * 2 ^ j := by rw [← pow_add]; congr 1; omega
      _ ≤ k * 2 ^ j := Nat.mul_le_mul_right _ (Nat.log2_self_le hk)
  have hhi : k * 2 ^ j < 2 ^ 24 := by
    calc k * 2 ^ j < 2 ^ (Nat.log2 k + 1) * 2 ^ j := Nat.mul_lt_mul_of_pos_right Nat.lt_log2_self (by positivity)
      _ = 2 ^ 24 := by rw [← pow_add]; congr 1; omega
  have hpow : (2 : ℝ) ^ e = 2 ^ j * 2 ^ (e - j) := by
    rw [← zpow_natCast, ← zpow_add₀ two_ne_zero]; congr 1; ring
  unfold sqrtOperand
  rw [hj]
  split
  · rename_i he
    refine ⟨hlo, by omega, he, ?_⟩
    rw [hpow]; push_cast; ring
  · rename_i he
    refine ⟨by omega, by omega, by simp only; omega, ?_⟩
    rw [hpow, zpow_sub_one₀ two_ne_zero]; push_cast; ring

theorem fSqrt_fin {k big r : Nat} {e : Int} (ha : fval a = .fin false k e) (hk : k ≠ 0) (hbig : (sqrtOperand k e).1 * 2 ^ 36 = big)
    (hr : isqrtFrom big 32 0 = r) : fSqrt m a =
      (u32 (b32.round m false r ((sqrtOperand k e).2 / 2 - 18) (r * r != big)).1,
        (b32.round m false r ((sqrtOperand k e).2 / 2 - 18) (r * r != big)).2) := by
  subst hr hbig
  rw [fSqrt, ha]
  simp only [if_neg hk, Bool.false_eq_true, if_false]
  rfl

/-- R106: √±0 = ±0. -/
theorem fSqrt_zero {n : Bool} {e : Int} (ha : fval a = .fin n 0 e) : fSqrt m a = (a, 0) := by
  rw [fSqrt, ha]
  exact if_pos rfl

/-- R106: the root of a value below −0. -/
theorem fSqrt_neg {k : Nat} {e : Int} (ha : fval a = .fin true k e) (hk : k ≠ 0) : fSqrt m a = (0x7FC00000#32, 16) := by
  rw [fSqrt, ha]
  exact if_neg hk

theorem roundedWord_fSqrt {x : ℝ} (ha : (fval a).Is x) (hx : 0 ≤ x) : RoundedWord m (Real.sqrt x) (fSqrt m a) := by
  obtain ⟨n, k, e, hu, rfl⟩ := ha.exists_fin
  by_cases hk : k = 0
  · rw [signOf_mul_eq_zero.2 hk, Real.sqrt_zero, fSqrt_zero m (hk ▸ hu)]
    exact roundedWord_zero m (hk ▸ hu)
  · have hpos : (0 : ℝ) < k * 2 ^ e := mul_pos (by exact_mod_cast Nat.pos_of_ne_zero hk) (zpow_pos_two e)
    obtain rfl : n = false := by
      by_contra hn
      rw [Bool.not_eq_false] at hn
      rw [hn] at hx
      simp only [signOf, if_true, neg_one_mul] at hx
      linarith
    obtain ⟨h23, h25, heven, hval⟩ := sqrtOperand_spec e hk (eq_code_of_fval hu).1.lt
    obtain ⟨big, hbig⟩ : ∃ big, (sqrtOperand k e).1 * 2 ^ 36 = big := ⟨_, rfl⟩
    obtain ⟨r, hr⟩ : ∃ r, isqrtFrom big 32 0 = r := ⟨_, rfl⟩
    obtain ⟨hlo, hhi⟩ := isqrtFrom_spec (k := big) (i := 32) (r := 0) (by omega) (by omega)
    rw [hr] at hlo hhi
    have hr29 : 2 ^ 29 ≤ r := by
      by_contra hlt
      have h1 : r + 1 ≤ 2 ^ 29 := by omega
      have h2 := Nat.mul_le_mul h1 h1
      omega
    have hlog := log2_ge_of_two_pow_le hr29
    have hw := roundedWord_round (m := r) m false ((sqrtOperand k e).2 / 2 - 18) (by omega) (stickyPart_sqrt hlo hhi) fun _ => by omega
    rw [fSqrt_fin m hu hk hbig hr]
    obtain ⟨i, hi⟩ : ∃ i, (sqrtOperand k e).2 = 2 * i := ⟨(sqrtOperand k e).2 / 2, by omega⟩
    have hroot : Real.sqrt (signOf false * (k * 2 ^ e)) =
        signOf false * ((r + (Real.sqrt big - r)) * 2 ^ ((sqrtOperand k e).2 / 2 - 18)) := by
      have hsq : (k : ℝ) * 2 ^ e = big * (2 ^ (i - 18)) ^ 2 := by
        rw [← hval, ← hbig, hi, ← zpow_natCast, ← zpow_mul, Nat.cast_mul, Nat.cast_pow, mul_assoc, ← zpow_natCast]
        push_cast
        rw [← zpow_add₀ two_ne_zero]
        congr 2
        ring
      have hi' : (sqrtOperand k e).2 / 2 - 18 = i - 18 := by omega
      rw [hi', add_sub_cancel, signOf]
      simp only [Bool.false_eq_true, if_false, one_mul]
      rw [hsq, Real.sqrt_mul (Nat.cast_nonneg big), Real.sqrt_sq (zpow_pos_two _).le]
    rw [hroot]
    exact hw

end

end Sys2Proof.Machine
end

section
/-! PROOF. The laws of the arithmetic operations on words (R36 to R38, R106, R107): numbers, infinities, NaNs and zeros. -/

namespace Sys2Proof.Machine

/-! ### The classes of words (R19) -/

/-- The value of a word by its sign, exponent field and fraction. -/
theorem fval_eq (a : Word) : fval a =
    if Z a / 2 ^ 23 % 2 ^ 8 = 255 then (if Z a % 2 ^ 23 = 0 then .inf a.msb else .nan (decide (Z a % 2 ^ 23 / 2 ^ 22 = 0)))
    else if Z a / 2 ^ 23 % 2 ^ 8 = 0 then .fin a.msb (Z a % 2 ^ 23) (-149)
    else .fin a.msb (2 ^ 23 + Z a % 2 ^ 23) ((Z a / 2 ^ 23 % 2 ^ 8 : Nat) - 150) := by
  have hn : bits (Z a) (23 + 8) 1 = 1 ↔ a.msb = true := by
    have hlt : Z a < 2 ^ 32 := a.isLt
    rw [BitVec.msb_eq_decide, decide_eq_true_iff]
    show Z a / 2 ^ 31 % 2 ^ 1 = 1 ↔ 2 ^ 31 ≤ Z a
    omega
  have hE : bits (Z a) 23 8 = Z a / 2 ^ 23 % 2 ^ 8 := rfl
  have hF : bits (Z a) 0 23 = Z a % 2 ^ 23 := by rw [bits, pow_zero, Nat.div_one]
  have hq : ∀ k : Int, k - (127 : Nat) - (23 : Nat) = k - 150 := fun k => by omega
  show b32.val (Z a) = _
  simp only [FFmt.val, b32, hn, hE, hF, hq, true_and, Bool.true_eq_false, false_and, if_false, Bool.decide_eq_true]
  rfl

section
variable {a : Word}

theorem fval_of_inf (h : Z a % 2 ^ 31 = 0x7F800000) : fval a = .inf a.msb := by
  rw [fval_eq, if_pos (by omega), if_pos (by omega)]

theorem fval_of_nan (h : Z a % 2 ^ 31 > 0x7F800000) : fval a = .nan (!a.getLsbD 22) := by
  rw [fval_eq, if_pos (by omega), if_neg (by omega), BitVec.getLsbD, Nat.testBit_eq_decide_div_mod_eq, ← decide_not]
  congr 2
  apply propext
  show Z a % 2 ^ 23 / 2 ^ 22 = 0 ↔ ¬Z a / 2 ^ 22 % 2 = 1
  omega

/-- A word below the infinities is finite, and zero exactly if all bits but its sign are. -/
theorem fval_of_fin (h : Z a % 2 ^ 31 < 0x7F800000) : ∃ m e, fval a = .fin a.msb m e ∧ (m = 0 ↔ Z a % 2 ^ 31 = 0) := by
  rw [fval_eq, if_neg (by omega)]
  split
  · exact ⟨_, _, rfl, by omega⟩
  · exact ⟨_, _, rfl, by omega⟩

/-- Words of the same sign and the same other bits are the same. -/
theorem eq_of_msb_of_magnitude {a b : Word} (hs : a.msb = b.msb) (hm : Z a % 2 ^ 31 = Z b % 2 ^ 31) : a = b := by
  apply BitVec.eq_of_toNat_eq
  have ha := a.isLt
  have hb := b.isLt
  rw [BitVec.msb_eq_decide, BitVec.msb_eq_decide, decide_eq_decide] at hs
  unfold Z at hm
  omega

theorem eq_infCode_of_inf (h : Z a % 2 ^ 31 = 0x7F800000) : u32 (b32.infCode a.msb) = a := by
  apply eq_of_msb_of_magnitude
  · cases a.msb <;> decide
  · rw [h]; cases a.msb <;> decide

end

/-! ### Exact results that are words -/

/-- A positive magnitude with a sign has one sign only. -/
theorem signOf_mul_inj {n k : Bool} {x y : ℝ} (hx : 0 < x) (hy : 0 < y) (h : signOf n * x = signOf k * y) : n = k ∧ x = y := by
  cases n <;> cases k <;> simp only [signOf, if_true, Bool.false_eq_true, if_false, one_mul, neg_one_mul, neg_inj] at h
  · exact ⟨rfl, h⟩
  · linarith
  · linarith
  · exact ⟨rfl, h⟩

theorem magnitude_pos {m : Nat} (e : Int) (h : m ≠ 0) : (0 : ℝ) < m * 2 ^ e :=
  mul_pos (by exact_mod_cast Nat.pos_of_ne_zero h) (zpow_pos_two e)

/-- R36: an exact non-zero value that is a word's rounds to that word in every mode, without a flag. -/
theorem roundB32_of_is (md : RMode) {r : FVal} {a : Word} {x : ℝ} (hr : r.Is x) (ha : (fval a).Is x) (hx : x ≠ 0) :
    roundB32 md (r, 0) = (a, 0) := by
  obtain ⟨n, m, e, rfl, rfl⟩ := hr.exists_fin
  obtain ⟨n', m', e', hv, hxx⟩ := ha.exists_fin
  have hm : m ≠ 0 := mt signOf_mul_eq_zero.2 hx
  have hm' : m' ≠ 0 := fun h => hx (hxx.trans (signOf_mul_eq_zero.2 h))
  obtain ⟨rfl, he⟩ := signOf_mul_inj (magnitude_pos e hm) (magnitude_pos e' hm') hxx
  exact roundB32_exact md hv hm he

/-! ### Sums and products with infinities and NaNs -/

theorem sumVals_inf_inf (md : RMode) {n k : Bool} (h : n ≠ k) : sumVals md [.inf n, .inf k] = (.nan false, 16) := by
  obtain rfl : k = !n := by cases n <;> cases k <;> simp at h ⊢
  cases n <;> rfl

theorem sumVals_inf_fin (md : RMode) (n k : Bool) (m : Nat) (e : Int) : sumVals md [.inf n, .fin k m e] = (.inf n, 0) := by
  cases n <;> rfl

theorem sumVals_nan_fin (md : RMode) (sg k : Bool) (m : Nat) (e : Int) :
    sumVals md [.nan sg, .fin k m e] = (.nan false, if sg then 16 else 0) := by
  cases sg <;> rfl

theorem mulVals_nan_fin (sg k : Bool) (m : Nat) (e : Int) : mulVals (.nan sg) (.fin k m e) = (.nan false, if sg then 16 else 0) := by
  cases sg <;> rfl

theorem mulVals_inf_zero (n k : Bool) (e : Int) : mulVals (.inf n) (.fin k 0 e) = (.nan false, 16) := rfl

theorem roundB32_nan (md : RMode) (sg : Bool) (fl : Nat) : roundB32 md (.nan sg, fl) = (0x7FC00000#32, fl) := by
  rw [roundB32, FFmt.ofVal]
  simp only [Nat.or_zero]
  rfl

theorem roundB32_inf (md : RMode) (n : Bool) : roundB32 md (.inf n, 0) = (u32 (b32.infCode n), 0) := by
  simp [roundB32, FFmt.ofVal]

/-! ### The order of operands -/

theorem sumVals_comm (md : RMode) (u v : FVal) : sumVals md [u, v] = sumVals md [v, u] := by
  cases u with
  | nan s => cases v with
    | nan t => cases s <;> cases t <;> rfl
    | inf k => cases s <;> cases k <;> rfl
    | fin k m e => cases s <;> rfl
  | inf n => cases v with
    | nan t => cases n <;> cases t <;> rfl
    | inf k => cases n <;> cases k <;> rfl
    | fin k m e => cases n <;> rfl
  | fin n m e => cases v with
    | nan t => cases t <;> rfl
    | inf k => cases k <;> rfl
    | fin k m' e' =>
      rw [sumVals_fin, sumVals_fin, sumUnit_comm e' e, Int.add_comm]
      congr 2
      cases n <;> cases k <;> rfl

theorem mulVals_comm (u v : FVal) : mulVals u v = mulVals v u := by
  cases u with
  | nan s => cases v with
    | nan t => cases s <;> cases t <;> rfl
    | inf k => cases s <;> rfl
    | fin k m e => cases s <;> rfl
  | inf n => cases v with
    | nan t => cases t <;> rfl
    | inf k => cases n <;> cases k <;> rfl
    | fin k m e => cases n <;> cases k <;> rfl
  | fin n m e => cases v with
    | nan t => cases t <;> rfl
    | inf k => cases n <;> cases k <;> rfl
    | fin k m' e' => rw [mulVals_fin, mulVals_fin, Nat.mul_comm, Int.add_comm, show (n != k) = (k != n) by cases n <;> cases k <;> rfl]

/-! ### The laws -/

section
variable (m : RMode) {a b c : Word}

/-- R36, R38, R106, R107: operations on numbers. -/
theorem float_number_laws {x y z : ℝ} (ha : (fval a).Is x) (hb : (fval b).Is y) (hc : (fval c).Is z) :
    RoundedWord m (x + y) (fAdd m a b) ∧ RoundedWord m (x - y) (fSub m a b) ∧ RoundedWord m (x * y) (fMul m a b) ∧
      (y ≠ 0 → RoundedWord m (x / y) (fDiv m a b)) ∧ (0 ≤ x → RoundedWord m (Real.sqrt x) (fSqrt m a)) ∧
      RoundedWord m (x * y + z) (fMulAdd m false false a b c) ∧ RoundedWord m (x * y - z) (fMulAdd m false true a b c) ∧
      RoundedWord m (-(x * y) + z) (fMulAdd m true false a b c) ∧ RoundedWord m (-(x * y) - z) (fMulAdd m true true a b c) ∧
      (x + y = 0 → (fAdd m a b).1 = if (if a.msb = b.msb then a.msb = true else m = .rd) then 0x80000000#32 else 0#32) ∧
      (x * y = 0 → (fMul m a b).1 = if a.msb = b.msb then 0#32 else 0x80000000#32) ∧
      (x = 0 → (fSqrt m a).1 = a) ∧ (x < 0 → fSqrt m a = (0x7FC00000#32, 16)) ∧
      (y = 0 → x ≠ 0 → fDiv m a b = (if a.msb = b.msb then 0x7F800000#32 else 0xFF800000#32, 8)) ∧
      (y = 0 → x = 0 → fDiv m a b = (0x7FC00000#32, 16)) := by
  have hf := fun p q => roundedWord_fMulAdd m p q ha hb hc
  refine ⟨roundedWord_fAdd m ha hb, roundedWord_fSub m ha hb, roundedWord_fMul m ha hb, roundedWord_fDiv m ha hb,
    roundedWord_fSqrt m ha, hf false false, ?_, hf true false, ?_, fAdd_zero_sum m ha hb, fMul_zero_product m ha hb, fun hx => ?_,
    fun hx => ?_, fun hy => (fDiv_by_zero m ha hb hy).1, fun hy => (fDiv_by_zero m ha hb hy).2⟩
  · rw [sub_eq_add_neg]; exact hf false true
  · rw [sub_eq_add_neg]; exact hf true true
  · obtain ⟨n, k, e, hu, rfl⟩ := ha.exists_fin
    rw [fSqrt_zero m (signOf_mul_eq_zero.1 hx ▸ hu)]
  · obtain ⟨n, k, e, hu, rfl⟩ := ha.exists_fin
    have hk : k ≠ 0 := fun hk => hx.ne (signOf_mul_eq_zero.2 hk)
    rw [signOf_mul_neg_iff (magnitude_pos e hk)] at hx
    exact fSqrt_neg m (hx ▸ hu) hk

/-- R38, R106: an infinite operand. -/
theorem float_infinity_laws (ha : Z a % 2 ^ 31 = 0x7F800000) : (Z b % 2 ^ 31 = 0 → fMul m a b = (0x7FC00000#32, 16)) ∧
    (Z b % 2 ^ 31 = 0x7F800000 → a ≠ b → fAdd m a b = (0x7FC00000#32, 16)) ∧
    (Z b % 2 ^ 31 = 0x7F800000 → fDiv m a b = (0x7FC00000#32, 16)) ∧ (Z b % 2 ^ 31 < 0x7F800000 → fAdd m a b = (a, 0)) := by
  have hva := fval_of_inf ha
  refine ⟨fun hb => ?_, fun hb hne => ?_, fun hb => ?_, fun hb => ?_⟩
  · obtain ⟨k, e, hvb, hk⟩ := fval_of_fin (a := b) (by omega)
    rw [fMul, hva, hvb, hk.2 hb, mulVals_inf_zero, roundB32_nan]
  · have hs : a.msb ≠ b.msb := fun hs => hne (eq_of_msb_of_magnitude hs (ha.trans hb.symm))
    rw [fAdd, hva, fval_of_inf hb, sumVals_inf_inf m hs, roundB32_nan]
  · rw [fDiv, hva, fval_of_inf hb]; rfl
  · obtain ⟨k, e, hvb, -⟩ := fval_of_fin hb
    rw [fAdd, hva, hvb, sumVals_inf_fin, roundB32_inf, eq_infCode_of_inf ha]

/-- R37, R38: a NaN operand. -/
theorem float_nan_laws (ha : Z a % 2 ^ 31 > 0x7F800000) (hb : Z b % 2 ^ 31 < 0x7F800000) :
    fAdd m a b = (0x7FC00000#32, if a.getLsbD 22 then 0 else 16) ∧ fMul m a b = (0x7FC00000#32, if a.getLsbD 22 then 0 else 16) := by
  obtain ⟨k, e, hvb, -⟩ := fval_of_fin hb
  have hfl : (if (!a.getLsbD 22) = true then 16 else 0) = if a.getLsbD 22 = true then 0 else 16 := by cases a.getLsbD 22 <;> rfl
  rw [fAdd, fMul, fval_of_nan ha, hvb, sumVals_nan_fin, mulVals_nan_fin, roundB32_nan, hfl]
  exact ⟨rfl, rfl⟩

theorem is_zero_word : (fval 0#32).Is 0 := by
  rw [show fval 0#32 = .fin false 0 (-149) from rfl, FVal.is_fin]
  simp

theorem is_one_word : (fval 0x3F800000#32).Is 1 := by
  rw [show fval 0x3F800000#32 = .fin false (2 ^ 23) (-23) by decide, FVal.is_fin, signOf]
  norm_num

/-- R22, R36: a finite non-zero word plus zero, and times one. -/
theorem float_identity_laws (ha : Z a % 2 ^ 31 < 0x7F800000) (h0 : Z a % 2 ^ 31 ≠ 0) :
    fAdd m a 0#32 = (a, 0) ∧ fMul m a 0x3F800000#32 = (a, 0) := by
  obtain ⟨k, e, hva, hk⟩ := fval_of_fin ha
  have hx : (fval a).Is (signOf a.msb * (k * 2 ^ e)) := by rw [hva]; rfl
  have hne : signOf a.msb * ((k : ℝ) * 2 ^ e) ≠ 0 := mt signOf_mul_eq_zero.1 (mt hk.1 h0)
  obtain ⟨r, hr, hrx⟩ := sumVals_is m hx is_zero_word
  obtain ⟨p, hp, hpx⟩ := mulVals_is hx is_one_word
  rw [add_zero] at hrx
  rw [mul_one] at hpx
  rw [fAdd, fMul, hr, hp]
  exact ⟨roundB32_of_is m hrx hx hne, roundB32_of_is m hpx hx hne⟩

end

/-- R22, R36 to R38, R106, R107: the laws of the arithmetic operations. -/
theorem floatLaws : Sys2Proof.Part.FloatLaws := fun m a b c =>
  ⟨fun _ _ _ ha hb hc => float_number_laws m ha hb hc, float_infinity_laws m, float_nan_laws m, float_identity_laws m,
    by rw [fAdd, sumVals_comm]; rfl, by rw [fMul, mulVals_comm]; rfl⟩

/-- Settles O6: the forms by what they write, the operations by rounding their exact values, the selections and comparisons by cases. -/
theorem scalarFloat : Obligations.ScalarFloat := ⟨floatArithmetic, floatLaws, floatSelection⟩

end Sys2Proof.Machine
end

section
/-! PROOF. The laws of the conversions (R36, R38, R111 to R114): to integers, to narrower and wider formats, and from integers. -/

namespace Sys2Proof.Machine

/-! ### Rounding to an integer -/

/-- R36: a rounded magnitude, with its sign, is the rounded number. -/
theorem RoundsTo.roundedInt {md : RMode} {n : Bool} {t : ℝ} {a : Nat} (h : RoundsTo (md = .ne) (RoundsAway md n) t a) (ht : 0 ≤ t) :
    RoundedInt md (signOf n * t) (if n then -(a : Int) else a) := by
  have hk : (((if n then -(a : Int) else a : Int)) : ℝ) = signOf n * a := by cases n <;> simp [signOf]
  have ha : (0 : ℝ) ≤ a := Nat.cast_nonneg a
  unfold RoundedInt
  rw [hk]
  cases md with
  | ne =>
    obtain ⟨h1, h2⟩ := h.1 rfl
    simp only
    rw [← mul_sub, abs_mul, abs_signOf, one_mul]
    refine ⟨h1, fun he => ?_⟩
    have := h2 he
    cases n <;> simp only [if_true, Bool.false_eq_true, if_false] <;> omega
  | rz =>
    obtain ⟨h1, h2⟩ := h.2.2 (by decide) (by simp [RoundsAway])
    simp only
    rw [abs_mul, abs_mul, abs_signOf, one_mul, one_mul, abs_of_nonneg ht, abs_of_nonneg ha, mul_mul_mul_comm, signOf_mul_self, one_mul]
    exact ⟨h1, h2, mul_nonneg ht ha⟩
  | rd =>
    cases n with
    | false =>
      obtain ⟨h1, h2⟩ := h.2.2 (by decide) (by simp [RoundsAway])
      simp only [signOf, Bool.false_eq_true, if_false, one_mul]
      exact ⟨h1, h2⟩
    | true =>
      obtain ⟨h1, h2⟩ := h.2.1 (.inr ⟨rfl, rfl⟩)
      simp only [signOf, if_true]
      exact ⟨by linarith, by linarith⟩
  | ru =>
    cases n with
    | false =>
      obtain ⟨h1, h2⟩ := h.2.1 (.inl ⟨rfl, rfl⟩)
      simp only [signOf, Bool.false_eq_true, if_false, one_mul]
      exact ⟨h1, by linarith⟩
    | true =>
      obtain ⟨h1, h2⟩ := h.2.2 (by decide) (by simp [RoundsAway])
      simp only [signOf, if_true]
      exact ⟨by linarith, by linarith⟩

/-- The magnitude of the integer that `nearestInt` gives. -/
def nearestMagnitude (md : RMode) (n : Bool) (m : Nat) (e : Int) : Nat := cutRound md n (cut m e 0 false)

theorem nearestInt_eq (md : RMode) (n : Bool) (m : Nat) (e : Int) : nearestInt md n m e =
    (if n then -(nearestMagnitude md n m e : Int) else nearestMagnitude md n m e, (cut m e 0 false).2 != 0) := rfl

theorem natAbs_nearestInt (md : RMode) (n : Bool) (m : Nat) (e : Int) : (nearestInt md n m e).1.natAbs = nearestMagnitude md n m e := by
  rw [nearestInt_eq]
  cases n <;> simp

theorem cast_nearestInt (md : RMode) (n : Bool) (m : Nat) (e : Int) :
    ((nearestInt md n m e).1 : ℝ) = signOf n * nearestMagnitude md n m e := by
  rw [nearestInt_eq]
  cases n <;> simp [signOf]

/-- The cut of a magnitude at one. -/
theorem cut_one_cutsTo (m : Nat) (e : Int) : CutsTo (m * 2 ^ e) (cut m e 0 false) := by
  simpa using cut_cutsTo (m := m) (e := e) (q := 0) stickyPart_false (by simp)

theorem nearestMagnitude_roundsTo (md : RMode) (n : Bool) (m : Nat) (e : Int) :
    RoundsTo (md = .ne) (RoundsAway md n) (m * 2 ^ e) (nearestMagnitude md n m e) := (cut_one_cutsTo m e).roundsTo

/-- R36, R111: `nearestInt` rounds, and says whether the integer differs. -/
theorem nearestInt_spec (md : RMode) (n : Bool) (m : Nat) (e : Int) :
    RoundedInt md (signOf n * (m * 2 ^ e)) (nearestInt md n m e).1 ∧
      ((nearestInt md n m e).2 = false ↔ signOf n * ((m : ℝ) * 2 ^ e) = (nearestInt md n m e).1) := by
  have hc := cut_one_cutsTo m e
  refine ⟨hc.roundsTo.roundedInt (mul_nonneg (Nat.cast_nonneg m) (zpow_pos_two e).le), ?_⟩
  have hs : signOf n ≠ 0 := by cases n <;> simp [signOf]
  rw [cast_nearestInt, mul_right_inj' hs, nearestInt_eq]
  simp only [bne_eq_false_iff_eq]
  exact hc.exact_iff

/-- A magnitude of whole units is its own rounding. -/
theorem nearestMagnitude_of_nonneg (md : RMode) (n : Bool) (m : Nat) {e : Int} (h : 0 ≤ e) :
    (nearestMagnitude md n m e : ℝ) = m * 2 ^ e := by
  have hc := cut_one_cutsTo m e
  refine ((hc.exact_iff (md := md) (n := n)).1 ?_).symm
  rw [cut, if_pos h]
  rfl

/-! ### To an integer (R111) -/

section
variable (m : RMode) {a : Word}

theorem fToInt_fin {n : Bool} {k : Nat} {e : Int} (ha : fval a = .fin n k e) (lo hi : Int) : fToInt m lo hi a =
    if (nearestInt m n k e).1 < lo then (w32 lo, 16) else if (nearestInt m n k e).1 > hi then (w32 hi, 16)
    else (w32 (nearestInt m n k e).1, if (nearestInt m n k e).2 then 1 else 0) := by
  rw [fToInt, ha]; rfl

/-- R111: a number converts to the integer that it rounds to, or saturates with NV. -/
theorem fToInt_number {x : ℝ} (ha : (fval a).Is x) {lo hi : Int} (hle : lo ≤ hi) : ∃ k, RoundedInt m x k ∧
    (k < lo → fToInt m lo hi a = (w32 lo, 16)) ∧ (hi < k → fToInt m lo hi a = (w32 hi, 16)) ∧
    (lo ≤ k → k ≤ hi → (fToInt m lo hi a).1 = w32 k ∧ (x = k → (fToInt m lo hi a).2 = 0) ∧ (x ≠ k → (fToInt m lo hi a).2 = 1)) := by
  obtain ⟨n, j, e, hv, rfl⟩ := ha.exists_fin
  obtain ⟨hr, hx⟩ := nearestInt_spec m n j e
  rw [fToInt_fin m hv]
  refine ⟨_, hr, fun h => if_pos h, fun h => ?_, fun h₁ h₂ => ?_⟩
  · rw [if_neg (by omega), if_pos h]
  · rw [if_neg (by omega), if_neg (by omega)]
    refine ⟨rfl, fun h => ?_, fun h => ?_⟩
    · rw [hx.2 h]; rfl
    · rw [eq_true_of_ne_false (mt hx.1 h)]; rfl

theorem fToInt_nan (h : (fval a).isNan = true) (lo hi : Int) : fToInt m lo hi a = (0, 16) := by
  cases hv : fval a with
  | nan s => rw [fToInt, hv]; rfl
  | inf n => rw [hv] at h; cases h
  | fin n k e => rw [hv] at h; cases h

/-- A word from 2^32 up is an infinity, or a multiple of 2^9 with a full significand. -/
theorem fval_of_large (h₁ : 0x4F800000 ≤ Z a % 2 ^ 31) (h₂ : Z a % 2 ^ 31 ≤ 0x7F800000) :
    fval a = .inf a.msb ∨ ∃ k e, fval a = .fin a.msb k e ∧ 2 ^ 23 ≤ k ∧ 9 ≤ e := by
  by_cases h : Z a % 2 ^ 31 = 0x7F800000
  · exact .inl (fval_of_inf h)
  · rw [fval_eq, if_neg (by omega), if_neg (by omega)]
    exact .inr ⟨_, _, rfl, by omega, by omega⟩

theorem two_pow_le_nearestMagnitude (n : Bool) {k : Nat} {e : Int} (hk : 2 ^ 23 ≤ k) (he : 9 ≤ e) : 2 ^ 32 ≤ nearestMagnitude m n k e := by
  have hk' : (2 : ℝ) ^ 23 ≤ k := by exact_mod_cast hk
  have hp : (2 : ℝ) ^ (9 : Int) ≤ 2 ^ e := zpow_le_zpow_right₀ one_le_two he
  have h : ((2 ^ 32 : Nat) : ℝ) ≤ nearestMagnitude m n k e := by
    rw [nearestMagnitude_of_nonneg m n k (by omega)]
    calc ((2 ^ 32 : Nat) : ℝ) = 2 ^ 23 * 2 ^ (9 : Int) := by norm_num
      _ ≤ k * 2 ^ e := mul_le_mul hk' hp (zpow_pos_two 9).le (Nat.cast_nonneg k)
  exact_mod_cast h

/-- R111: a large word saturates at the bound of its sign. -/
theorem fToInt_large (h₁ : 0x4F800000 ≤ Z a % 2 ^ 31) (h₂ : Z a % 2 ^ 31 ≤ 0x7F800000) {lo hi : Int} (hlo : -2 ^ 32 < lo) (hhi : hi < 2 ^ 32)
    (hle : lo ≤ hi) : fToInt m lo hi a = (w32 (if a.msb then lo else hi), 16) := by
  obtain hv | ⟨k, e, hv, hk, he⟩ := fval_of_large h₁ h₂
  · rw [fToInt, hv]; rfl
  · have hbig := two_pow_le_nearestMagnitude m a.msb hk he
    rw [fToInt_fin m hv, nearestInt_eq]
    dsimp only
    cases hn : a.msb with
    | false =>
      rw [hn] at hbig
      rw [if_neg, if_pos] <;> simp only [Bool.false_eq_true, if_false] <;> omega
    | true =>
      rw [hn] at hbig
      rw [if_pos] <;> simp only [if_true]; omega

/-! ### To an integral value (R114) -/

/-- A magnitude of at most 24 bits in the range of b32 is one that b32 holds. -/
theorem b32_canon_of_lt {k : Nat} {e : Int} (h0 : k ≠ 0) (hk : k < 2 ^ 24) (he : -149 ≤ e) (hr : e + Nat.log2 k ≤ 127) :
    ∃ k' e', b32.Canon k' e' ∧ (k : ℝ) * 2 ^ e = k' * 2 ^ e' := by
  have hlog : Nat.log2 k < 24 := (Nat.log2_lt h0).2 hk
  have hmin : b32.qmin = -149 := rfl
  have hmax : b32.qmax = 104 := by decide
  -- shift left until the significand is full or the exponent is the least
  obtain ⟨j, hj⟩ : ∃ j : Nat, j = min (23 - Nat.log2 k) (e + 149).toNat := ⟨_, rfl⟩
  refine ⟨k * 2 ^ j, e - j, ⟨?_, by omega, by omega, ?_⟩, ?_⟩
  · calc k * 2 ^ j < 2 ^ (Nat.log2 k + 1) * 2 ^ j := Nat.mul_lt_mul_of_pos_right Nat.lt_log2_self (by positivity)
      _ ≤ 2 ^ (23 + 1) := by rw [← pow_add]; exact Nat.pow_le_pow_right (by decide) (by omega)
  · by_cases hc : j = 23 - Nat.log2 k
    · left
      show 2 ^ 23 ≤ k * 2 ^ j
      calc 2 ^ 23 = 2 ^ Nat.log2 k * 2 ^ j := by rw [← pow_add, show Nat.log2 k + j = 23 by omega]
        _ ≤ k * 2 ^ j := Nat.mul_le_mul_right _ (Nat.log2_self_le h0)
    · exact .inr (by omega)
  · rw [zpow_sub₀ two_ne_zero, zpow_natCast]
    push_cast
    field_simp

/-- The integers that a b32 value rounds to are values of b32. -/
theorem canon_nearestMagnitude (n : Bool) {k : Nat} {e : Int} (hc : b32.Canon k e) (h0 : nearestMagnitude m n k e ≠ 0) :
    ∃ k' e', b32.Canon k' e' ∧ (nearestMagnitude m n k e : ℝ) * 2 ^ (0 : Int) = k' * 2 ^ e' := by
  by_cases he : 0 ≤ e
  · exact ⟨k, e, hc, by rw [zpow_zero, mul_one, nearestMagnitude_of_nonneg m n k he]⟩
  · have hle : nearestMagnitude m n k e ≤ 2 ^ 23 := by
      refine (nearestMagnitude_roundsTo m n k e).le_of_le ?_
      have hk : (k : ℝ) ≤ 2 ^ 24 := by exact_mod_cast hc.lt.le
      have hp : (2 : ℝ) ^ e ≤ 2 ^ (-1 : Int) := zpow_le_zpow_right₀ one_le_two (by omega)
      calc (k : ℝ) * 2 ^ e ≤ 2 ^ 24 * 2 ^ (-1 : Int) := mul_le_mul hk hp (zpow_pos_two e).le (by positivity)
        _ = (2 ^ 23 : Nat) := by norm_num
    have hlog : Nat.log2 (nearestMagnitude m n k e) < 24 := (Nat.log2_lt h0).2 (by omega)
    exact b32_canon_of_lt h0 (by omega) (by omega) (by omega)

theorem fRnd_zero {n : Bool} {e : Int} (ha : fval a = .fin n 0 e) : fRnd m a = (a, 0) := by
  rw [fRnd, ha]; exact if_pos rfl

theorem fRnd_fin {n : Bool} {k : Nat} {e : Int} (ha : fval a = .fin n k e) (hk : k ≠ 0) : fRnd m a =
    (u32 (b32.round m n (nearestMagnitude m n k e) 0 false).1, if (nearestInt m n k e).2 then 1 else 0) := by
  rw [fRnd, ha, ← natAbs_nearestInt]
  exact if_neg hk

/-- A magnitude that b32 holds rounds to the word that has its value and the sign. -/
theorem fval_round_held (n : Bool) {k : Nat} {e : Int} (h : k ≠ 0 → ∃ k' e', b32.Canon k' e' ∧ (k : ℝ) * 2 ^ e = k' * 2 ^ e') :
    ∃ j i, fval (u32 (b32.round m n k e false).1) = .fin n j i ∧ (j : ℝ) * 2 ^ i = k * 2 ^ e := by
  by_cases hk : k = 0
  · refine ⟨0, b32.qmin, ?_, by simp [hk]⟩
    rw [hk, FFmt.round_zero, fval_u32 (by cases n <;> decide), FFmt.val_sign b32_ieee]
  · obtain ⟨k', e', hc, he⟩ := h hk
    refine ⟨k', e', ?_, he.symm⟩
    rw [FFmt.round_exact m n hk hc he, fval_u32 (hc.code_lt b32_ieee n), hc.val_code b32_ieee]

/-- R114: a number rounds to an integral value of its sign. -/
theorem fRnd_number {x : ℝ} (ha : (fval a).Is x) : ∃ k : Int, RoundedInt m x k ∧ (fval (fRnd m a).1).Is k ∧ (fRnd m a).1.msb = a.msb ∧
    (x = k → (fRnd m a).2 = 0) ∧ (x ≠ k → (fRnd m a).2 = 1) := by
  obtain ⟨n, k, e, hv, rfl⟩ := ha.exists_fin
  obtain ⟨hr, hx⟩ := nearestInt_spec m n k e
  refine ⟨_, hr, ?_⟩
  by_cases hk : k = 0
  · have hz : nearestMagnitude m n k e = 0 :=
      Nat.le_zero.1 ((nearestMagnitude_roundsTo m n k e).le_of_le (by simp [hk]))
    have hi : ((nearestInt m n k e).1 : ℝ) = signOf n * ((k : ℝ) * 2 ^ e) := by rw [cast_nearestInt, hz, hk]; simp
    rw [fRnd_zero m (hk ▸ hv), hi]
    exact ⟨hv ▸ rfl, rfl, fun _ => rfl, fun h => absurd rfl h⟩
  · obtain ⟨j, i, hval, hmag⟩ := fval_round_held m n (canon_nearestMagnitude m n (eq_code_of_fval hv).1)
    rw [zpow_zero, mul_one] at hmag
    rw [fRnd_fin m hv hk]
    refine ⟨?_, ?_, fun h => ?_, fun h => ?_⟩
    · rw [hval, cast_nearestInt, ← hmag]; rfl
    · rw [msb_of_fval hval, msb_of_fval hv]
    · rw [hx.2 h]; rfl
    · rw [eq_true_of_ne_false (mt hx.1 h)]; rfl

/-! ### To a narrower format (R113) -/

theorem narrow_number {f : FFmt} (hf : f.Ieee) {x : ℝ} (ha : (fval a).Is x) :
    f.Rounded m x (narrow f m a).1 (narrow f m a).2 ∧ (f.val (narrow f m a).1).neg = a.msb := by
  have hr := FFmt.rounded_ofVal hf m ha
  obtain ⟨n, k, e, hv, -⟩ := ha.exists_fin
  have hn : narrow f m a = f.ofVal m (fval a) := by rw [narrow, hv]; exact Prod.ext rfl (Nat.or_zero _)
  rw [hn]
  refine ⟨hr, ?_⟩
  rw [msb_of_fval hv, hv]
  exact FFmt.round_neg hf m n k e

theorem narrow_nan (f : FFmt) (h : (fval a).isNan = true) : narrow f m a = (f.nan, if (fval a).isSig then 16 else 0) := by
  cases hv : fval a with
  | nan s => cases s <;> simp [narrow, hv, FFmt.ofVal, sigFlag, FVal.isSig, flagNV]
  | inf n => rw [hv] at h; cases h
  | fin n k e => rw [hv] at h; cases h

/-! ### From an integer (R112) -/

theorem roundedWord_intToF (k : Int) : RoundedWord m k (intToF m k) := by
  refine roundedWord_roundB32 m ?_
  rw [FVal.is_fin, zpow_zero, mul_one, signOf_mul_natAbs]

theorem intToF_zero : intToF m 0 = (0, 0) := roundB32_zero m false 0

/-! ### To a wider format (R113) -/

/-- The formats of which b32 holds every finite value. -/
def FFmt.Within (f : FFmt) : Prop := f.Ieee ∧ f.w ≤ 23 ∧ -149 ≤ f.qmin ∧ f.qmax + f.w ≤ 127

theorem b16_within : b16.Within := ⟨b16_ieee, by decide, by decide, by decide⟩
theorem bf16_within : bf16.Within := ⟨bf16_ieee, by decide, by decide, by decide⟩

theorem FFmt.Within.canon {f : FFmt} (hf : f.Within) {k : Nat} {e : Int} (hc : f.Canon k e) (h0 : k ≠ 0) :
    ∃ k' e', b32.Canon k' e' ∧ (k : ℝ) * 2 ^ e = k' * 2 ^ e' := by
  obtain ⟨-, hw, hmin, hmax⟩ := hf
  have hlog : Nat.log2 k < f.w + 1 := (Nat.log2_lt h0).2 hc.lt
  have hlt : k < 2 ^ 24 := lt_of_lt_of_le hc.lt (Nat.pow_le_pow_right (by decide) (by omega))
  have hge := hc.ge
  have hle := hc.le
  exact b32_canon_of_lt h0 hlt (by omega) (by omega)

/-- R21, R113: a finite value of a narrower format widens to itself. -/
theorem widen_number {f : FFmt} (hf : f.Within) {c : Nat} {x : ℝ} (h : (f.val c).Is x) :
    (fval (widen f c).1).Is x ∧ (widen f c).2 = 0 := by
  obtain ⟨n, k, e, hv, rfl⟩ := h.exists_fin
  obtain ⟨j, i, hval, hmag⟩ := fval_round_held .ne n (hf.canon (FFmt.canon_of_val hf.1 hv).1)
  rw [widen, hv]
  refine ⟨?_, rfl⟩
  show (fval (u32 (b32.round .ne n k e false).1)).Is _
  rw [hval, ← hmag]
  rfl

theorem exactB32_fin (n : Bool) (k : Nat) (e : Int) : exactB32 (.fin n k e) = (roundB32 .ne (.fin n k e, 0)).1 := by
  rw [roundB32_fin]; rfl

/-- The value of a bf16 code by its fields. -/
theorem bf16_val_eq (c : Nat) : bf16.val c =
    if c / 2 ^ 7 % 2 ^ 8 = 255 then
      (if c % 2 ^ 7 = 0 then .inf (bits c 15 1 = 1) else .nan (decide (c % 2 ^ 7 / 2 ^ 6 = 0)))
    else if c / 2 ^ 7 % 2 ^ 8 = 0 then .fin (bits c 15 1 = 1) (c % 2 ^ 7) (-133)
    else .fin (bits c 15 1 = 1) (2 ^ 7 + c % 2 ^ 7) ((c / 2 ^ 7 % 2 ^ 8 : Nat) - 134) := by
  have hE : bits c 7 8 = c / 2 ^ 7 % 2 ^ 8 := rfl
  have hF : bits c 0 7 = c % 2 ^ 7 := by rw [bits, pow_zero, Nat.div_one]
  have hq : ∀ k : Int, k - (127 : Nat) - (7 : Nat) = k - 134 := fun k => by omega
  simp only [FFmt.val, bf16, hE, hF, hq, true_and, Bool.true_eq_false, false_and, if_false]
  rfl

/-- A value with the unit of its significand 2^16 times finer. -/
def FVal.finer : FVal → FVal
  | .fin n k e => .fin n (k * 2 ^ 16) (e - 16)
  | v => v

/-- R19: a bf16 code is the upper half of the b32 word of its class and value. -/
theorem fval_shiftLeft (a : Word) : fval (a <<< 16) = (bf16.val (Z a % 2 ^ 16)).finer := by
  have hz : Z (a <<< 16) = Z a % 2 ^ 16 * 2 ^ 16 := by
    show (a <<< 16).toNat = a.toNat % 2 ^ 16 * 2 ^ 16
    rw [BitVec.toNat_shiftLeft, Nat.shiftLeft_eq]
    omega
  have hc : Z a % 2 ^ 16 < 2 ^ 16 := Nat.mod_lt _ (by decide)
  have hn : decide (bits (Z a % 2 ^ 16) 15 1 = 1) = (a <<< 16).msb := by
    rw [BitVec.msb_eq_decide, decide_eq_decide]
    show Z a % 2 ^ 16 / 2 ^ 15 % 2 ^ 1 = 1 ↔ 2 ^ 31 ≤ Z (a <<< 16)
    omega
  rw [fval_eq, bf16_val_eq, hz, hn]
  generalize Z a % 2 ^ 16 = c at hc
  have hE : c * 2 ^ 16 / 2 ^ 23 % 2 ^ 8 = c / 2 ^ 7 % 2 ^ 8 := by omega
  have hF : c * 2 ^ 16 % 2 ^ 23 = c % 2 ^ 7 * 2 ^ 16 := by omega
  rw [hE, hF]
  by_cases h1 : c / 2 ^ 7 % 2 ^ 8 = 255
  · rw [if_pos h1, if_pos h1]
    by_cases h2 : c % 2 ^ 7 = 0
    · rw [if_pos (by omega), if_pos h2]; rfl
    · rw [if_neg (by omega), if_neg h2, FVal.finer]
      · congr 2
        apply propext
        omega
      · simp
  · rw [if_neg h1, if_neg h1]
    by_cases h2 : c / 2 ^ 7 % 2 ^ 8 = 0
    · rw [if_pos h2, if_pos h2]; rfl
    · have hk : (2 ^ 7 + c % 2 ^ 7) * 2 ^ 16 = 2 ^ 23 + c % 2 ^ 7 * 2 ^ 16 := by omega
      have he : ((c / 2 ^ 7 % 2 ^ 8 : Nat) : Int) - 134 - 16 = (c / 2 ^ 7 % 2 ^ 8 : Nat) - 150 := by omega
      rw [if_neg h2, if_neg h2, FVal.finer, hk, he]

theorem eq_infCode_of_fval {n : Bool} (h : fval a = .inf n) : u32 (b32.infCode n) = a := by
  rcases Nat.lt_trichotomy (Z a % 2 ^ 31) 0x7F800000 with hz | hz | hz
  · obtain ⟨k, e, hv, -⟩ := fval_of_fin hz
    rw [hv] at h; cases h
  · rw [fval_of_inf hz] at h
    cases h
    exact eq_infCode_of_inf hz
  · rw [fval_of_nan hz] at h; cases h

/-- R113: `fcvth.x.bf16` shifts by 16. -/
theorem widen_bf16 (h : (fval (a <<< 16)).isNan = false) : widen bf16 (Z a % 2 ^ 16) = (a <<< 16, 0) := by
  have hs := fval_shiftLeft a
  rw [widen]
  cases hv : bf16.val (Z a % 2 ^ 16) with
  | nan s => rw [hs, hv] at h; cases h
  | inf n =>
    rw [hv] at hs
    exact Prod.ext (eq_infCode_of_fval hs) rfl
  | fin n k e =>
    rw [hv, FVal.finer] at hs
    refine Prod.ext ?_ rfl
    show exactB32 (.fin n k e) = a <<< 16
    rw [exactB32_fin]
    by_cases hk : k = 0
    · rw [hk, Nat.zero_mul] at hs
      rw [hk, roundB32_zero, eq_zero_of_fval hs]
    · rw [roundB32_exact .ne hs hk]
      rw [zpow_sub₀ two_ne_zero]
      push_cast
      norm_num
      ring

end

/-- R36, R38, R111 to R114: the laws of the conversions. -/
theorem conversionLaws : Sys2Proof.Part.ConversionLaws := by
  intro m a
  refine ⟨fun x hx => ⟨fun lo hi hb => fToInt_number m hx ?_, fRnd_number m hx, fun f hf => narrow_number m ?_ hx⟩,
    fun k _ _ => ⟨roundedWord_intToF m k, fun hk => hk ▸ intToF_zero m⟩, fun f hf c x hx => widen_number ?_ hx,
    fun hn f _ => narrow_nan m f hn, fun hn => ⟨fToInt_nan m hn _ _, fToInt_nan m hn _ _⟩, fun h₁ h₂ => ?_, fun h₁ h₂ => ?_,
    widen_bf16⟩
  · rcases hb with ⟨rfl, rfl⟩ | ⟨rfl, rfl⟩ <;> decide
  · simp only [List.mem_cons, List.not_mem_nil, or_false] at hf
    rcases hf with rfl | rfl | rfl
    · exact b16_ieee
    · exact bf16_ieee
    · exact f19_ieee
  · simp only [List.mem_cons, List.not_mem_nil, or_false] at hf
    rcases hf with rfl | rfl
    · exact b16_within
    · exact bf16_within
  · have hs : a.msb = false := by
      rw [BitVec.msb_eq_decide]
      exact decide_eq_false (by show ¬2 ^ 31 ≤ Z a; omega)
    have hl := fun lo hi => fToInt_large m (a := a) (lo := lo) (hi := hi) (by omega) (by omega)
    rw [hs] at hl
    exact ⟨hl _ _ (by decide) (by decide) (by decide), hl _ _ (by decide) (by decide) (by decide)⟩
  · have hlt : Z a < 2 ^ 32 := a.isLt
    have hs : a.msb = true := by
      rw [BitVec.msb_eq_decide]
      exact decide_eq_true (by show 2 ^ 31 ≤ Z a; omega)
    have hl := fun lo hi => fToInt_large m (a := a) (lo := lo) (hi := hi) (by omega) (by omega)
    rw [hs] at hl
    exact ⟨hl _ _ (by decide) (by decide) (by decide), hl _ _ (by decide) (by decide) (by decide)⟩

/-- Settles O7: the forms by what they write, the conversions by rounding to an integer or to a format. -/
theorem floatConversionForms : Obligations.FloatConversionForms := ⟨floatConversions, conversionLaws⟩

end Sys2Proof.Machine
end
section
/-! PROOF. The opcode map against the checks of forms (R50 to R57, R62 to R67): every row of the map makes instructions whose flaws are
those of the row's own fields. -/

namespace Sys2Proof

/-! ### The flaws of a form -/

/-- A check that names its flaw finds none exactly where it holds. -/
theorem check_eq_nil {c : Prop} [Decidable c] {x : Flaw} : (if c then [] else [x]) = [] ↔ c := by split <;> simp [*]

@[simp] theorem codeFlaws_eq_nil {b : Bool} : codeFlaws b = [] ↔ b = true := check_eq_nil

@[simp] theorem two_eq_nil {kd ks : Kind} {d s : Nat} : two kd d ks s = [] ↔ kd.flaws d = [] ∧ ks.flaws s = [] := List.append_eq_nil_iff

@[simp] theorem three_eq_nil {kd ks kt : Kind} {d s : Nat} {t : Option Nat} : three kd d ks s kt t = [] ↔
    kd.flaws d = [] ∧ ks.flaws s = [] ∧ (∀ n ∈ t, kt.flaws n = []) ∧ (t = none → d < 16 ∧ s < 16) := by
  cases t <;> simp [three]

@[simp] theorem imm1U_eq_nil {n : Nat} : imm1U n = [] ↔ n < 1024 := check_eq_nil

theorem imm1S_eq_nil {imm : Int} : imm1S imm = [] ↔ -512 ≤ imm ∧ imm < 512 := check_eq_nil

theorem immU_eq_nil {page w0 d s n : Nat} {t : Option Nat} : immU page w0 d s t n = [] ↔ n < 2 ^ immWidth page w0 d s t := check_eq_nil

theorem immS_eq_nil {page w0 d s : Nat} {t : Option Nat} {imm : Int} : immS page w0 d s t imm = [] ↔
    -(2 ^ (immWidth page w0 d s t - 1) : Nat) ≤ imm ∧ imm < (2 ^ (immWidth page w0 d s t - 1) : Nat) := check_eq_nil

theorem keep_eq_some {ok : Bool} {i j : Instr} : keep ok i = some j ↔ ok = true ∧ i = j := by
  unfold keep
  split <;> simp [*]

/-- A field of a kind: 0 where the kind says that it is unused. -/
def Kind.at : Kind → Nat → Nat
  | .z, _ => 0
  | _, n => n

theorem Kind.at_eq {k : Kind} {n : Nat} (h : k = .z → n = 0) : k.at n = n := by
  cases k with
  | z => exact (h rfl).symm
  | _ => rfl

theorem Kind.flaws_z {n : Nat} : Kind.z.flaws n = [] ↔ n = 0 := by simp [Kind.flaws]

/-! ### What a row of the map says of its fields -/

/-- The immediate is one that the row takes beside these registers on its page (R52, R55, R57). -/
def Form.TakesImm (f : Form) (page d s : Nat) (t : Option Nat) (imm : Int) : Prop :=
  match f.imm with
  | .none => imm = 0
  | .one true => imm1S imm = []
  | .one false => 0 ≤ imm ∧ imm1U imm.toNat = []
  | .more true => immS page f.fmt.ownWidth d s t imm = []
  | .more false => 0 ≤ imm ∧ immU page f.fmt.ownWidth d s t imm.toNat = []

/-- The fields are such as the row's own columns allow (R51 to R55, R57). -/
def Form.Takes (f : Form) (page d s : Nat) (t : Option Nat) (imm : Int) : Prop :=
  f.kd.flaws d = [] ∧ f.ks.flaws s = [] ∧ (∀ n ∈ t, f.kt.flaws n = []) ∧ (f.t = .opt → t = none → d < 16 ∧ s < 16) ∧
    f.TakesImm page d s t imm

/-- The fields that the row does not use are blank, and those that it needs are there; an unsigned immediate is not negative. -/
structure Form.Blank (f : Form) (d s : Nat) (t : Option Nat) (imm : Int) : Prop where
  fieldD : f.kd = .z → d = 0
  fieldS : f.ks = .z → s = 0
  noThird : f.t = .no → t = none
  third : f.t = .req → t ≠ none
  noImm : f.imm = .none → imm = 0
  sign : f.imm = .one false ∨ f.imm = .more false → 0 ≤ imm

/-- A row of the map uses the fields and the immediates that its format has (R50). -/
def Form.regular (f : Form) : Bool :=
  match f.fmt with
  | .rr => true
  | .h => f.ks == .h && f.t == .no && f.imm == .none
  | .ri => f.ks == .z && f.t == .no && (f.imm == .more true || f.imm == .more false)
  | .b => f.kd == .z && f.ks == .z && f.t == .no && f.imm == .more true

/-- What a row of a page makes is well-formed exactly when the row takes its fields. -/
def Form.Sound (page : Nat) (f : Form) : Prop :=
  f.regular = true ∧ ∀ d s t imm i, f.build d s t imm = some i → f.Blank d s t imm → (i.WellFormed ↔ f.Takes page d s t imm)

/-- The shapes of the rows of the map: those that refuse a code are named one by one. -/
inductive RowShape (page : Nat) : Option Form → Prop
  | vacant : RowShape page none
  | mfs (x : Nat) (h : decide (x < 4)) : RowShape page
      (Form.rr1 false (if x = 2 then .a else .g) .z fun d _ i => keep (srXOk x i.toNat) (.mfs x d i.toNat))
  | mts (x : Nat) (h : decide (x < 4)) : RowShape page
      (Form.rr1 false (if x = 2 then .a else .g) .z fun d _ i => keep (srXOk x i.toNat) (.mts x d i.toNat))
  | qshuf : RowShape page (Form.rr1 false .q .q fun d s i => keep (i < 256) (.qshuf d s i.toNat))
  | qcmp : RowShape page (some ⟨.rr, .q, .q, .q, .one false, .opt, fun d s t i => keep (i < 6) (.qcmp d s t i.toNat)⟩)
  | qcvt (m : RMode) : RowShape page (Form.rr1 false .q .q fun d s i => keep (i < 7) (.qcvt m d s i.toNat))
  | qdec : RowShape page (Form.rr1 false .q .g fun d s i => keep (qfmtOk i.toNat) (.qdec d s i.toNat))
  | qenc : RowShape page (Form.rr1 false .g .q fun d s i => keep (qfmtOk i.toNat) (.qenc d s i.toNat))
  | msg (h : page = 2) : RowShape page (Form.ri false .g fun d i => keep (i < 16) (.msg d i.toNat))
  | callm (h : page = 2) : RowShape page (Form.ri false .g fun d i => keep (i < 65536) (.callm d i.toNat))
  | mcast (h : page = 2) : RowShape page (Form.ri false .g fun d i => keep (i < 16) (.mcast d i.toNat))
  | clause : RowShape page (Form.rr1 false .g .g fun d s i => keep (1 ≤ i ∧ i ≤ 10) (.clause d s i.toNat))
  | spawn (x : Nat) (h : decide (x < 4)) : RowShape page (Form.rr .g .a fun d s => .spawn d s x)
  | task (x : Nat) (h : decide (x < 4)) : RowShape page (Form.rr .z .a fun _ s => .task s x)
  | pri : RowShape page (Form.ri false .z fun _ i => keep (i < 4) (.pri i.toNat))
  | fence : RowShape page (some ⟨.rr, .g, .z, .z, .none, .no, fun d _ _ _ => keep (d < 7) (.fence d)⟩)
  | tick (h : page = 3) : RowShape page (Form.ri false .z fun _ i => keep (i < 2 ^ 20) (.tick i.toNat))
  | ylease : RowShape page (Form.ri false .z fun _ i => keep (1 ≤ i ∧ i ≤ 16) (.ylease i.toNat))
  | yldb (x : Nat) (h : decide (x < 2)) : RowShape page (Form.rr .g .g fun d s => .yldb d s x)
  | coll : RowShape page (Form.rr1 false .g .a fun d s i => some (.coll d s i.toNat))
  | trap (h : page = 4) : RowShape page (Form.ri false .z fun _ i => some (.trap i.toNat))
  | brk (h : page = 4) : RowShape page (Form.ri false .z fun _ i => some (.brk i.toNat))
  | rrK {b : Nat → Nat → Instr} (h : ∀ d s, (b d s).flaws = two .g d .g s ++ codeFlaws (d % 4 = 0)) : RowShape page (Form.rrK b)
  | rr {kd ks : Kind} {b : Nat → Nat → Instr} (h : ∀ d s, (b d s).flaws = two kd (kd.at d) ks (ks.at s)) :
      RowShape page (Form.rr kd ks b)
  | rrT {kd ks kt : Kind} {b : Nat → Nat → Option Nat → Instr} (h : ∀ d s t, (b d s t).flaws = three kd d ks s kt t) :
      RowShape page (Form.rrT kd ks kt b)
  | rrX {kd ks kt : Kind} {b : Nat → Nat → Nat → Instr} (h : ∀ d s t, (b d s t).flaws = three kd d ks s kt (some t)) :
      RowShape page (Form.rrX kd ks kt b)
  | rrI {kd ks : Kind} {b : Nat → Nat → Int → Instr}
      (h : ∀ d s imm, (b d s imm).flaws = two kd (kd.at d) ks (ks.at s) ++ immS page 0 (kd.at d) s none imm) :
      RowShape page (Form.rrI kd ks b)
  | rrXI {kd ks kt : Kind} {b : Nat → Nat → Nat → Int → Instr}
      (h : ∀ d s t imm, (b d s t imm).flaws = three kd d ks s kt (some t) ++ immS page 0 d s (some t) imm) :
      RowShape page (Form.rrXI kd ks kt b)
  | rr1 {kd ks : Kind} {b : Nat → Nat → Int → Instr} (h : ∀ d s imm, (b d s imm).flaws = two kd d ks s ++ imm1S imm) :
      RowShape page (Form.rr1 true kd ks fun d s i => some (b d s i))
  | ri {kd : Kind} {b : Nat → Int → Instr} (h : ∀ d imm, (b d imm).flaws = two kd d .z 0 ++ immS page 6 d 0 none imm) :
      RowShape page (Form.ri true kd fun d i => some (b d i))
  | bw {b : Int → Instr} (h : ∀ imm, (b imm).flaws = immS page 10 0 0 none imm) : RowShape page (Form.bw b)
  | hh {b : Nat → Nat → Instr} (h : ∀ d s, (b d s).flaws = two .g d .h s) : RowShape page (Form.hh b)

/-! ### The rows of the pages -/

theorem page0_shape {op x : Nat} (ho : op < 64) (hx : x < 4) : RowShape 0 (page0 op x) := by
  interval_cases op <;> interval_cases x <;> constructor <;> intros <;> rfl
theorem page1_shape {op x : Nat} (ho : op < 64) (hx : x < 4) : RowShape 1 (page1 op x) := by
  interval_cases op <;> interval_cases x <;> constructor <;> intros <;> rfl
theorem page2_shape {op x : Nat} (ho : op < 64) (hx : x < 4) : RowShape 2 (page2 op x) := by
  interval_cases op <;> interval_cases x <;> constructor <;> intros <;> rfl
theorem page3_shape {op x : Nat} (ho : op < 64) (hx : x < 4) : RowShape 3 (page3 op x) := by
  interval_cases op <;> interval_cases x <;> constructor <;> intros <;> rfl
theorem page4_shape {op x : Nat} (ho : op < 64) (hx : x < 4) : RowShape 4 (page4 op x) := by
  interval_cases op <;> interval_cases x <;> constructor <;> intros <;> rfl

/-- Every place of the map holds a row of one of the shapes. -/
theorem formOf_shape (page : Nat) {op x : Nat} (ho : op < 64) (hx : x < 4) : RowShape page (formOf page op x) := by
  match page with
  | 0 => exact page0_shape ho hx
  | 1 => exact page1_shape ho hx
  | 2 => exact page2_shape ho hx
  | 3 => exact page3_shape ho hx
  | 4 => exact page4_shape ho hx
  | _ + 5 => exact .vacant

/-! ### Every row is sound -/

section
variable (d s p n x : Nat) (m : RMode) (t : Option Nat)

@[simp] theorem flaws_mfs : (Instr.mfs x d n).flaws = srFlaws x d n ++ imm1U n := rfl
@[simp] theorem flaws_mts : (Instr.mts x d n).flaws = srFlaws x d n ++ imm1U n := rfl
@[simp] theorem flaws_qshuf : (Instr.qshuf d s n).flaws = two .q d .q s ++ codeFlaws (n < 256) := rfl
@[simp] theorem flaws_qcmp : (Instr.qcmp d s t n).flaws = three .q d .q s .q t ++ codeFlaws (n < 6) := rfl
@[simp] theorem flaws_qcvt : (Instr.qcvt m d s n).flaws = two .q d .q s ++ codeFlaws (n < 7) := rfl
@[simp] theorem flaws_qdec : (Instr.qdec d s n).flaws = two .q d .g s ++ codeFlaws (qfmtOk n) := rfl
@[simp] theorem flaws_qenc : (Instr.qenc d s n).flaws = two .g d .q s ++ codeFlaws (qfmtOk n) := rfl
@[simp] theorem flaws_msg : (Instr.msg d n).flaws = two .g d .z 0 ++ immU 2 6 d 0 none n ++ codeFlaws (n < 16) := rfl
@[simp] theorem flaws_callm : (Instr.callm d n).flaws = two .g d .z 0 ++ immU 2 6 d 0 none n ++ codeFlaws (n < 2 ^ 16) := rfl
@[simp] theorem flaws_mcast : (Instr.mcast d n).flaws = two .g d .z 0 ++ immU 2 6 d 0 none n ++ codeFlaws (n < 16) := rfl
@[simp] theorem flaws_clause : (Instr.clause d s n).flaws = two .g d .g s ++ codeFlaws (1 ≤ n ∧ n ≤ 10) := rfl
@[simp] theorem flaws_spawn : (Instr.spawn d s p).flaws = two .g d .a s ++ codeFlaws (p < 4) := rfl
@[simp] theorem flaws_task : (Instr.task s p).flaws = two .z 0 .a s ++ codeFlaws (p < 4) := rfl
@[simp] theorem flaws_pri : (Instr.pri n).flaws = codeFlaws (n < 4) := rfl
@[simp] theorem flaws_fence : (Instr.fence n).flaws = codeFlaws (n < 7) := rfl
@[simp] theorem flaws_tick : (Instr.tick n).flaws = immU 3 6 0 0 none n ++ codeFlaws (n < 2 ^ 20) := rfl
@[simp] theorem flaws_ylease : (Instr.ylease n).flaws = codeFlaws (1 ≤ n ∧ n ≤ 16) := rfl
@[simp] theorem flaws_yldb : (Instr.yldb d s n).flaws = two .g d .g s ++ codeFlaws (n < 2) := rfl
@[simp] theorem flaws_coll (i : Int) : (Instr.coll d s i.toNat).flaws = two .g d .a s ++ imm1U i.toNat := rfl
@[simp] theorem flaws_trap : (Instr.trap n).flaws = immU 4 6 0 0 none n := rfl
@[simp] theorem flaws_brk : (Instr.brk n).flaws = immU 4 6 0 0 none n := rfl

end

/-- A format code of R254 is one of a byte. -/
theorem lt_of_qfmtOk {n : Nat} (h : qfmtOk n = true) : n < 1024 := by
  simp only [qfmtOk, decide_eq_true_eq, List.mem_cons, List.not_mem_nil, or_false] at h
  omega

/-- An unsigned immediate that the own field holds needs no word before it. -/
theorem immU_of_lt {page w0 d s n : Nat} {t : Option Nat} (h : n < 2 ^ w0) : immU page w0 d s t n = [] :=
  if_pos (Nat.lt_of_lt_of_le h (Nat.pow_le_pow_right (by decide) (Nat.le_add_right _ _)))

/-- Every row of the map is sound. -/
theorem RowShape.sound {page : Nat} {o : Option Form} {f : Form} (h : RowShape page o) (hf : o = some f) : f.Sound page := by
  cases h with
  | vacant => cases hf
  | mfs | mts | msg | callm | mcast | tick | rrK =>
    cases hf
    refine ⟨rfl, fun d s t imm i hb ⟨hd, hs, ht, hr, hi, hg⟩ => ?_⟩
    obtain ⟨hk, rfl⟩ := keep_eq_some.1 hb
    simp_all [Instr.WellFormed, srFlaws, Form.Takes, Form.TakesImm, Format.ownWidth, Kind.flaws]
  | fence =>
    cases hf
    refine ⟨rfl, fun d s t imm i hb ⟨hd, hs, ht, hr, hi, hg⟩ => ?_⟩
    obtain ⟨hk, rfl⟩ := keep_eq_some.1 hb
    have hm : d < 128 := by simp at hk; omega
    simp_all [Instr.WellFormed, Form.Takes, Form.TakesImm, Kind.flaws]
  | qshuf | qcmp | qcvt | clause =>
    cases hf
    refine ⟨rfl, fun d s t imm i hb ⟨hd, hs, ht, hr, hi, hg⟩ => ?_⟩
    obtain ⟨hk, rfl⟩ := keep_eq_some.1 hb
    have hm : imm < 1024 := by simp at hk; omega
    simp_all [Instr.WellFormed, Form.Takes, Form.TakesImm]
  | qdec | qenc =>
    cases hf
    refine ⟨rfl, fun d s t imm i hb ⟨hd, hs, ht, hr, hi, hg⟩ => ?_⟩
    obtain ⟨hk, rfl⟩ := keep_eq_some.1 hb
    simp_all [Instr.WellFormed, Form.Takes, Form.TakesImm, lt_of_qfmtOk hk]
  | pri | ylease =>
    cases hf
    refine ⟨rfl, fun d s t imm i hb ⟨hd, hs, ht, hr, hi, hg⟩ => ?_⟩
    obtain ⟨hk, rfl⟩ := keep_eq_some.1 hb
    have hm : immU page 6 0 0 none imm.toNat = [] := immU_of_lt (by simp at hk; omega)
    simp_all [Instr.WellFormed, Form.Takes, Form.TakesImm, Format.ownWidth, Kind.flaws]
  | rrX | rrXI =>
    cases hf
    refine ⟨rfl, fun d s t imm i hb ⟨hd, hs, ht, hr, hi, hg⟩ => ?_⟩
    obtain ⟨t, rfl, rfl⟩ := Option.map_eq_some_iff.1 hb
    simp_all [Instr.WellFormed, Form.Takes, Form.TakesImm, Format.ownWidth, and_assoc]
  | spawn | task | yldb | coll | trap | brk | rr | rrT | rrI | rr1 | ri | bw | hh =>
    cases hf
    refine ⟨rfl, fun d s t imm i hb ⟨hd, hs, ht, hr, hi, hg⟩ => ?_⟩
    cases hb
    simp_all [Instr.WellFormed, Form.Takes, Form.TakesImm, Format.ownWidth, Kind.at_eq, Kind.flaws_z, and_assoc]

end Sys2Proof
end

section
/-! PROOF. Immediates (R52): an immediate that fits is split into the payloads of its prefixes and its own field, and assembled from
them. -/

namespace Sys2Proof

/-! ### The bits of an immediate -/

/-- The number that payloads make, the most significant first (R52). -/
def joined (ps : List Nat) : Nat := ps.foldl (fun a p => a * 1024 + p) 0

/-- The bits of an immediate: those of the payloads above those of the own field (R52). -/
def Form.raw (f : Form) (ps : List Nat) (w : Nat) : Nat := joined ps * 2 ^ f.fmt.ownWidth + w % 2 ^ f.fmt.ownWidth

theorem foldl_payloads_lt (ps : List Nat) (h : ∀ p ∈ ps, p < 1024) (a : Nat) :
    ps.foldl (fun a p => a * 1024 + p) a < (a + 1) * 1024 ^ ps.length := by
  induction ps generalizing a with
  | nil => simp
  | cons p ps ih =>
    have hp := h p List.mem_cons_self
    refine Nat.lt_of_lt_of_le (ih (fun q hq => h q (List.mem_cons_of_mem p hq)) (a * 1024 + p)) ?_
    rw [List.length_cons, Nat.pow_succ', ← Nat.mul_assoc]
    exact Nat.mul_le_mul_right _ (by omega)

theorem joined_lt {ps : List Nat} (h : ∀ p ∈ ps, p < 1024) : joined ps < 2 ^ (10 * ps.length) := by
  rw [Nat.pow_mul]
  simpa [joined] using foldl_payloads_lt ps h 0

/-- The assembled bits fit the width of R52. -/
theorem Form.raw_lt (f : Form) {ps : List Nat} (h : ∀ p ∈ ps, p < 1024) (w : Nat) :
    f.raw ps w < 2 ^ (10 * ps.length + f.fmt.ownWidth) := by
  have hj := joined_lt h
  have hw : w % 2 ^ f.fmt.ownWidth < 2 ^ f.fmt.ownWidth := Nat.mod_lt _ (Nat.two_pow_pos _)
  rw [Nat.pow_add, Form.raw]
  calc joined ps * 2 ^ f.fmt.ownWidth + w % 2 ^ f.fmt.ownWidth
      < joined ps * 2 ^ f.fmt.ownWidth + 2 ^ f.fmt.ownWidth := by omega
    _ = (joined ps + 1) * 2 ^ f.fmt.ownWidth := by rw [Nat.add_one_mul]
    _ ≤ 2 ^ (10 * ps.length) * 2 ^ f.fmt.ownWidth := Nat.mul_le_mul_right _ hj

theorem assemble_none {f : Form} (h : f.imm = .none) (ps : List Nat) (w : Nat) : assemble f ps w = 0 := by simp [assemble, h]

theorem assemble_signed {f : Form} (h : f.imm = .one true ∨ f.imm = .more true) (ps : List Nat) (w : Nat) :
    assemble f ps w = sxInt (f.raw ps w) (10 * ps.length + f.fmt.ownWidth) := by
  rcases h with h | h <;> simp only [assemble, h] <;> rfl

theorem assemble_unsigned {f : Form} (h : f.imm = .one false ∨ f.imm = .more false) (ps : List Nat) (w : Nat) :
    assemble f ps w = f.raw ps w := by
  rcases h with h | h <;> simp only [assemble, h] <;> rfl

/-! ### Two's complement -/

theorem sxInt_zero (raw : Nat) : sxInt raw 0 = 0 := rfl

/-- A signed reading of `n + 1` bits is in their range. -/
theorem sxInt_mem (raw n : Nat) : -(2 ^ n : Nat) ≤ sxInt raw (n + 1) ∧ sxInt raw (n + 1) < (2 ^ n : Nat) := by
  have hlt : raw % 2 ^ (n + 1) < 2 ^ (n + 1) := Nat.mod_lt _ (Nat.two_pow_pos _)
  have hp : 2 ^ (n + 1) = 2 * 2 ^ n := Nat.pow_succ'
  simp only [sxInt, Nat.add_one_ne_zero, if_false, Nat.add_sub_cancel]
  split <;> omega

/-- The signed reading of the low bits of an integer in their range is that integer. -/
theorem sxInt_emod {n : Nat} {imm : Int} (h : -(2 ^ n : Nat) ≤ imm ∧ imm < (2 ^ n : Nat)) :
    sxInt (imm % (2 ^ (n + 1) : Nat)).toNat (n + 1) = imm := by
  have hp : 2 ^ (n + 1) = 2 * 2 ^ n := Nat.pow_succ'
  simp only [sxInt, Nat.add_one_ne_zero, if_false, Nat.add_sub_cancel]
  rw [hp]
  generalize 2 ^ n = k at h
  rcases Int.lt_or_le imm 0 with hneg | hpos
  · have hm : (imm % (2 * k : Nat)).toNat = (imm + 2 * k).toNat := by
      rw [← Int.add_emod_right, Int.emod_eq_of_lt] <;> omega
    rw [hm, Nat.mod_eq_of_lt (by omega), if_neg (by omega)]
    omega
  · have hm : (imm % (2 * k : Nat)).toNat = imm.toNat := by
      rw [Int.emod_eq_of_lt] <;> omega
    rw [hm, Nat.mod_eq_of_lt (by omega), if_pos (by omega)]
    omega

/-! ### An assembled immediate fits -/

/-- Payloads beside these prefixes assemble to an immediate that the row takes (R52, R55, R57). -/
theorem Form.takesImm_assemble {f : Form} (hf : f.regular = true) {page d s : Nat} {t : Option Nat} {ps : List Nat} (w : Nat)
    (hps : ∀ p ∈ ps, p < 1024) (hn : (if page = 0 then 0 else 1) + xregs d s t + ps.length ≤ 4)
    (h1 : ∀ sg, f.imm = .one sg → ps.length = 1) : f.TakesImm page d s t (assemble f ps w) := by
  have hraw := f.raw_lt hps w
  have hw : 10 * ps.length + f.fmt.ownWidth ≤ immWidth page f.fmt.ownWidth d s t := by
    unfold immWidth
    omega
  have hw0 : ∀ sg, f.imm = .one sg → f.fmt.ownWidth = 0 := by
    intro sg hi
    cases hm : f.fmt <;> simp_all [Form.regular, Format.ownWidth]
  unfold Form.TakesImm
  split
  · rename_i hi
    exact assemble_none hi ps w
  · rename_i hi
    rw [assemble_signed (.inl hi), h1 _ hi, hw0 _ hi, imm1S_eq_nil]
    exact sxInt_mem _ 9
  · rename_i hi
    rw [h1 _ hi, hw0 _ hi] at hraw
    rw [assemble_unsigned (.inl hi), imm1U_eq_nil]
    exact ⟨Int.natCast_nonneg _, hraw⟩
  · rename_i hi
    rw [assemble_signed (.inr hi), immS_eq_nil]
    cases hz : 10 * ps.length + f.fmt.ownWidth with
    | zero => rw [sxInt_zero]; have := Nat.two_pow_pos (immWidth page f.fmt.ownWidth d s t - 1); omega
    | succ n =>
      have hm := sxInt_mem (f.raw ps w) n
      have hle : 2 ^ n ≤ 2 ^ (immWidth page f.fmt.ownWidth d s t - 1) := Nat.pow_le_pow_right (by decide) (by omega)
      omega
  · rename_i hi
    rw [assemble_unsigned (.inr hi), immU_eq_nil]
    exact ⟨Int.natCast_nonneg _, Nat.lt_of_lt_of_le hraw (Nat.pow_le_pow_right (by decide) hw)⟩

end Sys2Proof
end

section
/-! PROOF. What decoding accepts (R56, R57): the loop keeps what it has seen within R55, and the row of the instruction word takes it. -/

namespace Sys2Proof

/-- What the loop of R56 has seen keeps the order and the counts of R53 and R55. -/
structure Scan.Valid (sc : Scan) : Prop where
  count : sc.np + sc.nr + sc.ximms.length ≤ 4
  onePage : sc.np ≤ 1
  twoXregs : sc.nr ≤ 2
  page : sc.page = 0 ∨ sc.np = 1
  noXreg : sc.nr = 0 → sc.dh = 0 ∧ sc.sh = 0
  oneXreg : sc.nr ≤ 1 → sc.th = 0
  low : sc.tl < 16
  ximms : ∀ p ∈ sc.ximms, p < 1024

theorem Scan.valid_start : Scan.start.Valid := ⟨by decide, by decide, by decide, .inl rfl, fun _ => ⟨rfl, rfl⟩, fun _ => rfl,
    by decide, by simp [Scan.start]⟩

/-- How many prefixes the loop has seen. -/
def Scan.seen (sc : Scan) : Nat := sc.np + sc.nr + sc.ximms.length

/-- A word before the base is one more, and keeps what the loop has seen valid. -/
theorem Scan.Valid.feed {sc sc' : Scan} {w : Nat} (h : sc.Valid) (hf : sc.feed w = .more sc') : sc'.Valid ∧ sc'.seen = sc.seen + 1 := by
  obtain ⟨hc, hnp, hnr, hp, h0, h1, hl, hx⟩ := h
  have hw : w % 1024 < 1024 := Nat.mod_lt _ (by decide)
  unfold Scan.feed at hf
  dsimp only at hf
  unfold Scan.seen
  split_ifs at hf with h3F hbase hfull hpage hbad hxreg hbad hfirst hbits <;> cases hf <;> dsimp only
  · exact ⟨⟨by dsimp only; omega, by simp, hnr, .inr rfl, h0, h1, hl, hx⟩, by omega⟩
  · exact ⟨⟨by dsimp only; omega, hnp, by simp, hp, by simp, fun _ => h1 (by omega), Nat.mod_lt _ (by decide), hx⟩, by omega⟩
  · exact ⟨⟨by dsimp only; omega, hnp, by simp, hp, by simp, by simp, hl, hx⟩, by omega⟩
  · refine ⟨⟨by simp; omega, hnp, hnr, hp, h0, h1, hl, fun p hm => ?_⟩, by simp; omega⟩
    rcases List.mem_append.1 hm with hm | hm
    · exact hx p hm
    · rw [List.mem_singleton.1 hm]; exact hw

/-- What `finish` accepts: the row at the word's place, whose columns the prefixes satisfy, takes the fields and makes the instruction. -/
theorem finish_eq_ok {sc : Scan} {w : Nat} {i : Instr} (hf : finish sc w = .ok i) : ∃ f d s t,
    formOf sc.page (w / 1024 % 64) (w % 4) = some f ∧ usageOk f sc = true ∧ d = sc.dh * 16 + f.fmt.dField w ∧
      s = sc.sh * 16 + f.fmt.sField w ∧
      t = (if f.t = .no ∨ sc.nr = 0 then none else some (sc.th * 16 + sc.tl)) ∧
      (f.kd.flaws d = [] ∧ f.ks.flaws s = [] ∧ ∀ n ∈ t, f.kt.flaws n = []) ∧ f.build d s t (assemble f sc.ximms w) = some i := by
  cases hform : formOf sc.page (w / 1024 % 64) (w % 4) with
  | none => simp [finish, hform] at hf
  | some f =>
    simp only [finish, hform] at hf
    generalize ht : (if f.t = .no ∨ sc.nr = 0 then none else some (sc.th * 16 + sc.tl)) = t at hf
    split at hf
    · rename_i hu
      split at hf
      · rename_i hk
        split at hf
        · rename_i hb
          cases hf
          exact ⟨f, _, _, t, rfl, hu, rfl, rfl, ht.symm, hk, hb⟩
        · cases hf
      · cases hf
    · cases hf

/-- The fields of a word are of four bits. -/
theorem Format.field_lt (fmt : Format) (w : Nat) : fmt.dField w < 16 ∧ fmt.sField w < 16 := by
  cases fmt <;> simp only [Format.dField, Format.sField] <;> omega

/-- The registers that `finish` reads took no more `xreg` words than the loop has seen (R53). -/
theorem Scan.Valid.xregs_le {sc : Scan} (h : sc.Valid) {d s : Nat} (hd : d < 16) (hs : s < 16) :
    xregs (sc.dh * 16 + d) (sc.sh * 16 + s) (if sc.nr = 0 then none else some (sc.th * 16 + sc.tl)) ≤ sc.nr := by
  obtain ⟨-, -, -, -, h0, h1, hl, -⟩ := h
  split
  · rename_i hz
    obtain ⟨hdh, hsh⟩ := h0 hz
    simp [xregs, hdh, hsh, hd, hs]
  · unfold xregs
    by_cases hn : sc.nr ≤ 1
    · simp [h1 hn, hl]; omega
    · dsimp only; split <;> omega

theorem xregs_none_le (d s t : Nat) : xregs d s none ≤ xregs d s (some t) := by
  unfold xregs
  dsimp only
  split <;> split <;> omega

/-- What `finish` accepts is well-formed. -/
theorem Scan.Valid.finish {sc : Scan} {w : Nat} {i : Instr} (h : sc.Valid) (hf : finish sc w = .ok i) : i.WellFormed := by
  obtain ⟨f, d, s, t, hform, hu, hd, hs, ht, ⟨hkd, hks, hkt⟩, hb⟩ := finish_eq_ok hf
  obtain ⟨hreg, hsound⟩ := (formOf_shape sc.page (Nat.mod_lt _ (by decide)) (Nat.mod_lt _ (by decide))).sound hform
  obtain ⟨hdf, hsf⟩ := f.fmt.field_lt w
  have hxr := h.xregs_le hdf hsf
  rw [← hd, ← hs] at hxr
  have hxt : xregs d s t ≤ sc.nr := by
    by_cases hno : f.t = .no
    · rw [ht, if_pos (.inl hno)]
      split at hxr
      · exact hxr
      · exact Nat.le_trans (xregs_none_le d s _) hxr
    · simpa [ht, hno] using hxr
  simp only [usageOk, Bool.and_eq_true] at hu
  obtain ⟨⟨huimm, -⟩, hut⟩ := hu
  refine (hsound d s t _ i hb ⟨fun hz => ?_, fun hz => ?_, fun hno => by simp [ht, hno], fun hreq => ?_, fun hn => assemble_none hn _ w,
    fun hn => ?_⟩).2 ⟨hkd, hks, hkt, fun hopt hnone => ?_, ?_⟩
  · rw [hz] at hkd; exact Kind.flaws_z.1 hkd
  · rw [hz] at hks; exact Kind.flaws_z.1 hks
  · simp only [hreq, decide_eq_true_eq] at hut
    simp [ht, hreq, Nat.ne_of_gt hut]
  · rw [assemble_unsigned hn]; exact Int.natCast_nonneg _
  · have hz : sc.nr = 0 := by
      by_contra hne
      simp [ht, hopt, hne] at hnone
    obtain ⟨hdh, hsh⟩ := h.noXreg hz
    omega
  · refine Form.takesImm_assemble hreg w h.ximms ?_ fun sg hi => ?_
    · have := h.count
      have := h.onePage
      rcases h.page with hp | hp
      · rw [if_pos hp]; omega
      · split <;> omega
    · simpa [hi] using huimm

/-- From a valid state of the loop: the instruction is well-formed, and its words are as many as the five allow. -/
theorem decodeFrom_ok {ws rest : List Nat} {sc : Scan} {i : Instr} (h : sc.Valid) (hd : decodeFrom sc ws = .ok (i, rest)) :
    i.WellFormed ∧ ∃ n, n + sc.seen ≤ 5 ∧ 0 < n ∧ rest = ws.drop n ∧ n ≤ ws.length := by
  induction ws generalizing sc with
  | nil => cases hd
  | cons w ws ih =>
    unfold decodeFrom at hd
    split at hd
    · rename_i sc' hf
      obtain ⟨hv, hs⟩ := h.feed hf
      obtain ⟨hi, n, hn, hpos, hr, hlen⟩ := ih hv hd
      exact ⟨hi, n + 1, by omega, by omega, hr, by simpa using hlen⟩
    · cases hd
    · split at hd
      · rename_i hfin
        cases hd
        exact ⟨h.finish hfin, 1, by have := h.count; unfold Scan.seen; omega, by omega, rfl, by simp⟩
      · cases hd

/-- Settles O58, by induction on the words: the loop keeps the limits of R53 and R55, and every row of the map is sound. -/
theorem decodedForms : Obligations.DecodedForms := fun _ _ _ _ h => decodeFrom_ok Scan.valid_start h
end Sys2Proof
end

section
/-! PROOF. The words of an instruction (R50 to R56): where every form stands in the map, and how the loop of R56 reads its words back. -/

namespace Sys2Proof

/-! ### The place of a form -/

/-- The x bits of a word whose low bits are those of `r` where its format has no x of its own (R50). -/
def Format.xBits (fmt : Format) (x r : Nat) : Nat :=
  match fmt with
  | .rr | .h => x
  | .ri | .b => r % 4

/-- A layout holds the instruction `i` by the row `f`: every word of its page and primary with its x has that row, and the row makes the
instruction of the fields, of which those that it does not use are blank. -/
structure Layout.Holds (l : Layout) (f : Form) (i : Instr) : Prop where
  range : l.page < 5 ∧ l.op < 60 ∧ l.x < 4
  row : ∀ r, formOf l.page l.op (f.fmt.xBits l.x r) = some f
  makes : f.build l.d l.s l.t l.imm = some i
  blank : f.Blank l.d l.s l.t l.imm

/-- The instruction stands in the map at its layout. -/
def Instr.Located (i : Instr) : Prop := ∃ l f, i.layout = some l ∧ formOf l.page l.op l.x = some f ∧ l.Holds f i

/-- The part of `Layout.Holds` that computes where the page, the primary and x are numerals. -/
def Layout.checks (l : Layout) (f : Form) : Bool :=
  decide (l.page < 5) && decide (l.op < 60) && decide (l.x < 4) && (f.kd != .z || l.d == 0) && (f.ks != .z || l.s == 0) &&
    (match f.t with
    | .no => l.t.isNone
    | .opt => true
    | .req => l.t.isSome) &&
    match f.imm with
    | .none => l.imm == 0
    | .one sg | .more sg => sg || decide (0 ≤ l.imm)

theorem Layout.blank_of_checks {l : Layout} {f : Form} (h : l.checks f = true) : f.Blank l.d l.s l.t l.imm := by
  simp only [Layout.checks, Bool.and_eq_true, Bool.or_eq_true, bne_iff_ne, beq_iff_eq] at h
  obtain ⟨⟨⟨⟨-, hd⟩, hs⟩, ht⟩, hi⟩ := h
  refine ⟨hd.resolve_left ∘ not_not.2, hs.resolve_left ∘ not_not.2, fun hn => ?_, fun hn => ?_, fun hn => ?_, fun hn => ?_⟩
  · simpa [hn] using ht
  · simpa [hn, Option.isSome_iff_ne_none] using ht
  · simpa [hn] using hi
  · rcases hn with hn | hn <;> simpa [hn] using hi

/-- A place that computes. -/
theorem Instr.Located.of_checks {i : Instr} {l : Layout} {f : Form} (hl : i.layout = some l) (hf : formOf l.page l.op l.x = some f)
    (hr : ∀ r, formOf l.page l.op (f.fmt.xBits l.x r) = some f) (hm : f.build l.d l.s l.t l.imm = some i) (hc : l.checks f = true) :
    i.Located := by
  refine ⟨l, f, hl, hf, ?_, hr, hm, Layout.blank_of_checks hc⟩
  simp only [Layout.checks, Bool.and_eq_true, decide_eq_true_eq] at hc
  obtain ⟨⟨⟨⟨⟨⟨hpage, hop⟩, hx⟩, -⟩, -⟩, -⟩, -⟩ := hc
  exact ⟨hpage, hop, hx⟩

/-- A code that the row of its form keeps. -/
theorem keep_of {b : Bool} (i : Instr) (h : b = true) : keep b i = some i := if_pos h

section
variable (z d s : Nat) (imm : Int)

@[simp] theorem flaws_slget : (Instr.slget d s).flaws = two .g d .g s ++ codeFlaws (d % 4 = 0) := rfl
@[simp] theorem flaws_slput : (Instr.slput d s).flaws = two .g d .g s ++ codeFlaws (d % 4 = 0) := rfl
@[simp] theorem flaws_slret : (Instr.slret d s).flaws = two .g d .g s ++ codeFlaws (d % 4 = 0) := rfl
@[simp] theorem flaws_slnew : (Instr.slnew d s).flaws = two .g d .g s ++ codeFlaws (d % 4 = 0) := rfl
@[simp] theorem flaws_ldp : (Instr.ldp z d s imm).flaws = codeFlaws (z < 3) ++ two .g d .g s ++ immS 0 0 d s none imm := rfl
@[simp] theorem flaws_stp : (Instr.stp z d s imm).flaws = codeFlaws (z < 3) ++ two .g d .g s ++ immS 0 0 d s none imm := rfl
@[simp] theorem flaws_ldpBS : (Instr.ldpBS z d s imm).flaws = codeFlaws (z < 2) ++ two .g d .g s ++ immS 0 0 d s none imm := rfl
@[simp] theorem flaws_ldgBS : (Instr.ldgBS z d s imm).flaws = codeFlaws (z < 2) ++ two .g d .a s ++ immS 3 0 d s none imm := rfl
@[simp] theorem flaws_ldg : (Instr.ldg z d s imm).flaws =
    codeFlaws (z < 4) ++ two (if z = 3 then .p else .g) d .a s ++ immS 3 0 d s none imm := rfl
@[simp] theorem flaws_stg : (Instr.stg z d s imm).flaws =
    codeFlaws (z < 4) ++ two (if z = 3 then .p else .g) d .a s ++ immS 3 0 d s none imm := rfl
@[simp] theorem flaws_stgn : (Instr.stgn z d s imm).flaws =
    codeFlaws (z < 4) ++ two (if z = 3 then .p else .g) d .a s ++ immS 3 0 d s none imm := rfl

end

/-- R70 has three x values. -/
theorem lt_of_srXOk {x n : Nat} (h : srXOk x n = true) : x < 3 := by
  unfold srXOk at h
  split at h
  · cases h
  · omega

/-- Every well-formed instruction stands in the map: where its fields are fixed by its form its place computes, where a rounding mode,
a size or a code chooses the place it does so for each. -/
theorem Instr.located {i : Instr} (h : i.WellFormed) : i.Located := by
  cases i with
  | add | sub | mul | mulh | and | or | xor | andn | shl | shr | sra | ror | div | divz | rem | remz | min | max | minz | maxz | slt
   | sltz | seq | sne | mulhz | clz | ctz | popc | brev | sextB | sextH | zextB | zextH | satsB | satsH | satzB | satzH | mov | aadd
   | asub | amov | alea | aget | agetHi | aaddi | apc | li | addi | andi | ori | xori | shli | shri | srai | slti | j | call | jr
   | callr | ret | beq | bne | blt | bge | bltz | bgez | bz | bnz | loop | ldpq | stpq | ldps | stpf | sete | tstf | hbind | hwait
   | hfree | hadv | hpub | hld | hst | hcnt | fmin | fmax | fsgn | fabs | fneg | fclass | feq | flt | fle | fcvthXB16 | fcvthXBf16
   | qmin | qmax | qabs | qneg | qbcast | qsel | qiadd | qimul | qand | mbind | bnc | done | exit | waite | node | sig | gcomb
   | gsplit | gdamp | glin | gmean | ginfo | gresd | belief | cvupd | cvrd | cvclr | ftype | snap | mark | cutst | ldgtW | ldgtD
   | pref | renew | discard | clkj | amfadd | amfaddRemote | yfree | yzero | yrot | yfmt | ymma | ymmaRa | ymmaRb | ymmaRr | yst
   | ywait | ypoll | yprog | yres | kset | kgo | kwait | kpoll | tbinit | tbarr | tbwait | bjoin | binit | bqry | coll | cwait
   | gform | pnopen | pnpush | pnpull | pnclose | pnstat | trap | brk | rett | csync | halt | tlbinv | migr | ctxout | ctxin
   | fwdset | slice | lretr | lstat | lctl =>
    exact .of_checks rfl rfl (fun _ => rfl) rfl rfl
  | fadd m | fsub m | fmul m | fdiv m | fsqrt m | fma m | fms m | fnma m | fnms m | fcvtiS m | fcvtiZ m | fcvtfS m | fcvtfZ m
   | fcvthB16 m | fcvthBf16 m | frnd m | qadd m | qsub m | qmul m | qfma m | qdot m | qsum m | qscl m =>
    cases m <;> exact .of_checks rfl rfl (fun _ => rfl) rfl rfl
  | amadd w | amand w | amor w | amxor w | ammin w | ammax w | amminz w | ammaxz w | amswp w | amcas w | amaddRemote w
   | amandRemote w | amorRemote w | amxorRemote w | amminRemote w | ammaxRemote w | amminzRemote w | ammaxzRemote w | amswpRemote w
   | amcasRemote w =>
    cases w <;> exact .of_checks rfl rfl (fun _ => rfl) rfl rfl
  | mfs x d n =>
    have hx : srXOk x n = true := by simp_all [Instr.WellFormed, srFlaws]
    have hlt : x < 3 := lt_of_srXOk hx
    interval_cases x <;> exact .of_checks rfl rfl (fun _ => rfl) (keep_of _ hx) rfl
  | mts x d n =>
    have hx : srXOk x n = true := by simp_all [Instr.WellFormed, srFlaws]
    have hlt : x < 3 := lt_of_srXOk hx
    interval_cases x <;> exact .of_checks rfl rfl (fun _ => rfl) (keep_of _ hx) rfl
  | qshuf | qcmp | qdec | qenc | msg | callm | clause | mcast | pri | fence | tick | ylease | slget | slput | slret | slnew =>
    refine .of_checks rfl rfl (fun _ => rfl) ?_ rfl
    dsimp only
    exact keep_of _ (by simp_all [Instr.WellFormed])
  | qcvt m =>
    cases m <;> exact .of_checks rfl rfl (fun _ => rfl) (keep_of _ (by simp_all [Instr.WellFormed])) rfl
  | ldp z | stp z =>
    have hz : z < 3 := by simp_all [Instr.WellFormed]
    interval_cases z <;> exact .of_checks rfl rfl (fun _ => rfl) rfl rfl
  | ldpBS z | ldgBS z | yldb _ _ z =>
    have hz : z < 2 := by simp_all [Instr.WellFormed]
    interval_cases z <;> exact .of_checks rfl rfl (fun _ => rfl) rfl rfl
  | ldg z | stg z | stgn z | spawn _ _ z | task _ z =>
    have hz : z < 4 := by simp_all [Instr.WellFormed]
    interval_cases z <;> exact .of_checks rfl rfl (fun _ => rfl) rfl rfl
  | _ => cases h

/-! ### The immediate of a layout -/

/-- `ximm` payloads join to the bits that they were cut from. -/
theorem foldl_ximmPayloads (n high a : Nat) :
    (ximmPayloads n high).foldl (fun a p => a * 1024 + p) a = a * 1024 ^ n + high % 1024 ^ n := by
  induction n generalizing a with
  | zero => simp [ximmPayloads, Nat.mod_one]
  | succ n ih =>
    have hpow := Nat.mod_pow_succ (x := high) (b := 1024) (k := n)
    rw [ximmPayloads, List.foldl_cons, ih, hpow]
    ring

theorem joined_ximmPayloads {n high : Nat} (h : high < 1024 ^ n) : joined (ximmPayloads n high) = high := by
  rw [joined, foldl_ximmPayloads, Nat.mod_eq_of_lt h, Nat.zero_mul, Nat.zero_add]

theorem length_ximmPayloads (n high : Nat) : (ximmPayloads n high).length = n := by
  induction n with
  | zero => rfl
  | succ n ih => rw [ximmPayloads, List.length_cons, ih]

theorem lt_of_mem_ximmPayloads {n high p : Nat} (h : p ∈ ximmPayloads n high) : p < 1024 := by
  induction n with
  | zero => simp [ximmPayloads] at h
  | succ n ih =>
    rcases List.mem_cons.1 h with rfl | h
    · exact Nat.mod_lt _ (by decide)
    · exact ih h

/-- The bits of an immediate beside n `ximm` words (R52). -/
def rawBits (w0 n : Nat) (imm : Int) : Nat := (imm % (2 ^ (10 * n + w0) : Nat)).toNat

theorem rawBits_lt (w0 n : Nat) (imm : Int) : rawBits w0 n imm < 2 ^ (10 * n + w0) := by
  have hp : (0 : Int) < (2 ^ (10 * n + w0) : Nat) := by exact_mod_cast Nat.two_pow_pos _
  have h1 := Int.emod_nonneg imm (Int.ne_of_gt hp)
  have h2 := Int.emod_lt_of_pos imm hp
  unfold rawBits
  omega

/-- The bits that prefixes and own field were given are those that they are assembled from. -/
theorem Form.raw_rawBits (f : Form) (n : Nat) (imm : Int) {w : Nat}
    (hw : w % 2 ^ f.fmt.ownWidth = rawBits f.fmt.ownWidth n imm % 2 ^ f.fmt.ownWidth) :
    f.raw (ximmPayloads n (rawBits f.fmt.ownWidth n imm / 2 ^ f.fmt.ownWidth)) w = rawBits f.fmt.ownWidth n imm := by
  have hlt : rawBits f.fmt.ownWidth n imm / 2 ^ f.fmt.ownWidth < 1024 ^ n := by
    rw [show 1024 = 2 ^ 10 from rfl, ← Nat.pow_mul]
    refine Nat.div_lt_of_lt_mul ?_
    rw [← Nat.pow_add, Nat.add_comm]
    exact rawBits_lt _ n imm
  rw [Form.raw, joined_ximmPayloads hlt, hw]
  exact Nat.div_add_mod' _ _

theorem immFits_zero {imm : Int} : immFits true 0 0 imm = true ↔ imm = 0 := beq_iff_eq

theorem immFits_signed {w0 n m : Nat} {imm : Int} (hw : w0 + 10 * n = m + 1) :
    immFits true w0 n imm = true ↔ -(2 ^ m : Nat) ≤ imm ∧ imm < (2 ^ m : Nat) := by
  unfold immFits
  rw [hw]
  simp only [if_true, Nat.add_one_ne_zero, if_false, Nat.add_sub_cancel, Bool.and_eq_true, decide_eq_true_eq]

theorem immFits_unsigned {w0 n : Nat} {imm : Int} :
    immFits false w0 n imm = true ↔ 0 ≤ imm ∧ imm < (2 ^ (w0 + 10 * n) : Nat) := by
  unfold immFits
  simp only [Bool.false_eq_true, if_false, Bool.and_eq_true, decide_eq_true_eq]

/-- A fitting signed immediate is read back from its bits. -/
theorem sxInt_rawBits {w0 n : Nat} {imm : Int} (h : immFits true w0 n imm = true) : sxInt (rawBits w0 n imm) (10 * n + w0) = imm := by
  unfold rawBits
  cases hw : 10 * n + w0 with
  | zero =>
    obtain ⟨rfl, rfl⟩ : w0 = 0 ∧ n = 0 := by omega
    rw [sxInt_zero, immFits_zero.1 h]
  | succ m => exact sxInt_emod ((immFits_signed (by omega)).1 h)

/-- A fitting unsigned immediate is read back from its bits. -/
theorem rawBits_unsigned {w0 n : Nat} {imm : Int} (h : immFits false w0 n imm = true) : (rawBits w0 n imm : Int) = imm := by
  obtain ⟨h0, hlt⟩ := immFits_unsigned.1 h
  rw [Nat.add_comm] at hlt
  rw [rawBits, Int.emod_eq_of_lt h0 hlt, Int.toNat_of_nonneg h0]

/-- The encoder's count of `ximm` words fits, and is the least that does. -/
theorem ximmCount_spec {f : Form} {sg : Bool} {imm : Int} {n : Nat} (hi : f.imm = .more sg) (hn : n ≤ 4)
    (h : immFits sg f.fmt.ownWidth n imm = true) :
    immFits sg f.fmt.ownWidth (ximmCount f imm) imm = true ∧ ximmCount f imm ≤ n := by
  simp only [ximmCount, hi]
  interval_cases n <;> split_ifs <;> simp_all

/-- The count of `ximm` words fits the immediate, and R55 has room for them. -/
theorem Form.ximmCount_fits {f : Form} (hf : f.regular = true) {page d s : Nat} {t : Option Nat} {imm : Int}
    (h : f.TakesImm page d s t imm) : (∀ sg, f.imm = .one sg ∨ f.imm = .more sg → immFits sg f.fmt.ownWidth (ximmCount f imm) imm = true) ∧
      (if page = 0 then 0 else 1) + xregs d s t + ximmCount f imm ≤ 4 := by
  have hx : xregs d s t ≤ 2 := by
    unfold xregs
    split <;> split <;> omega
  have hp : (if page = 0 then 0 else 1) ≤ 1 := by split <;> omega
  have hw : immWidth page f.fmt.ownWidth d s t = f.fmt.ownWidth + 10 * (4 - (if page = 0 then 0 else 1) - xregs d s t) := rfl
  generalize (if page = 0 then 0 else 1) = p at hp hw ⊢
  have hmore : ∀ sg, f.imm = .more sg → immFits sg f.fmt.ownWidth (4 - p - xregs d s t) imm = true →
      (∀ sg, f.imm = .one sg ∨ f.imm = .more sg → immFits sg f.fmt.ownWidth (ximmCount f imm) imm = true) ∧
        p + xregs d s t + ximmCount f imm ≤ 4 := by
    intro sg hi hfit
    obtain ⟨h1, h2⟩ := ximmCount_spec hi (by omega) hfit
    refine ⟨fun sg' hi' => ?_, by omega⟩
    simp_all
  cases hi : f.imm with
  | none => simp [ximmCount, hi]; omega
  | one sg =>
    have hw0 : f.fmt.ownWidth = 0 := by cases hm : f.fmt <;> simp_all [Form.regular, Format.ownWidth]
    have hc : ximmCount f imm = 1 := by simp [ximmCount, hi]
    rw [hc, hw0]
    refine ⟨fun sg' hi' => ?_, by omega⟩
    obtain rfl : sg = sg' := by simpa using hi'
    cases sg <;> simp only [Form.TakesImm, hi, imm1S_eq_nil, imm1U_eq_nil] at h
    · exact immFits_unsigned.2 (by simp; omega)
    · exact (immFits_signed (m := 9) rfl).2 (by simp; omega)
  | more sg =>
    rw [← hi]
    refine hmore sg hi ?_
    cases sg <;> simp only [Form.TakesImm, hi, immS_eq_nil, immU_eq_nil, hw] at h
    · exact immFits_unsigned.2 (by omega)
    · exact (immFits_signed (m := f.fmt.ownWidth + 10 * (4 - p - xregs d s t) - 1) (by omega)).2 h

/-- The word of a row with its bits in it reads back the immediate (R52). -/
theorem assemble_rawBits {f : Form} (hf : f.regular = true) {page d s : Nat} {t : Option Nat} {imm : Int}
    (h : f.TakesImm page d s t imm) {w : Nat}
    (hw : w % 2 ^ f.fmt.ownWidth = rawBits f.fmt.ownWidth (ximmCount f imm) imm % 2 ^ f.fmt.ownWidth) :
    assemble f (ximmPayloads (ximmCount f imm) (rawBits f.fmt.ownWidth (ximmCount f imm) imm / 2 ^ f.fmt.ownWidth)) w = imm := by
  have hfit := (Form.ximmCount_fits hf h).1
  have hraw := f.raw_rawBits (ximmCount f imm) imm hw
  cases hi : f.imm with
  | none =>
    rw [assemble_none hi]
    simpa [Form.TakesImm, hi, eq_comm] using h
  | one sg =>
    cases sg
    · rw [assemble_unsigned (.inl hi), hraw, rawBits_unsigned (hfit _ (.inl hi))]
    · rw [assemble_signed (.inl hi), hraw, length_ximmPayloads, sxInt_rawBits (hfit _ (.inl hi))]
  | more sg =>
    cases sg
    · rw [assemble_unsigned (.inr hi), hraw, rawBits_unsigned (hfit _ (.inr hi))]
    · rw [assemble_signed (.inr hi), hraw, length_ximmPayloads, sxInt_rawBits (hfit _ (.inr hi))]

end Sys2Proof
end

section
/-! PROOF. Reading words back (R56): the loop sees the prefixes of a layout, its row takes the fields, and the bytes give the words. -/

namespace Sys2Proof

/-! ### The loop of R56 on prefixes -/

theorem decodeFrom_more {sc sc' : Scan} {w : Nat} (ws : List Nat) (h : sc.feed w = .more sc') :
    decodeFrom sc (w :: ws) = decodeFrom sc' ws := by simp [decodeFrom, h]

theorem decodeFrom_base {sc : Scan} {w : Nat} (ws : List Nat) {i : Instr} (h : sc.feed w = .base) (hf : finish sc w = .ok i) :
    decodeFrom sc (w :: ws) = .ok (i, ws) := by simp [decodeFrom, h, hf]

/-- The state of the loop after the prefixes of a layout on a page with these registers and payloads. -/
def Scan.after (page d s : Nat) (t : Option Nat) (ps : List Nat) : Scan :=
  { page := page, np := if page = 0 then 0 else 1, nr := xregs d s t, dh := d / 16, sh := s / 16, tl := t.getD 0 % 16, th := t.getD 0 / 16,
    ximms := ps }

theorem feed_xpage {page : Nat} (h : 0 < page ∧ page < 5) : Scan.start.feed (0xF800 + page) = .more (Scan.after page 0 0 none []) := by
  have h1 : (0xF800 + page) / 1024 % 64 = 0x3E := by omega
  have h2 : (0xF800 + page) % 1024 = page := by omega
  simp [Scan.feed, h1, h2, Scan.start, Scan.after, xregs, show ¬4 < page by omega, show page ≠ 0 by omega]

theorem feed_xreg {page dh sh tl : Nat} (hd : dh < 8) (hs : sh < 8) (ht : tl < 16) :
    (Scan.after page 0 0 none []).feed (0xF400 + dh * 128 + sh * 16 + tl) =
      .more { Scan.after page 0 0 none [] with dh := dh, sh := sh, tl := tl, nr := 1 } := by
  have h1 : (0xF400 + dh * 128 + sh * 16 + tl) / 1024 % 64 = 0x3D := by omega
  have h2 : (0xF400 + dh * 128 + sh * 16 + tl) % 1024 = dh * 128 + sh * 16 + tl := by omega
  have hp : (if page = 0 then 0 else 1) ≠ 4 := by split <;> decide
  simp [Scan.feed, h1, h2, Scan.after, xregs, hp]
  omega

theorem feed_xreg_again {sc : Scan} {th : Nat} (ht : th < 8) (hn : sc.nr = 1) (hp : sc.np ≤ 1) (hx : sc.ximms = []) :
    sc.feed (0xF400 + th) = .more { sc with th := th, nr := 2 } := by
  have h1 : (0xF400 + th) / 1024 % 64 = 0x3D := by omega
  have h2 : (0xF400 + th) % 1024 = th := by omega
  have h3 : th / 8 = 0 ∧ th % 8 = th := by omega
  simp [Scan.feed, h1, h2, h3, hn, hx, show sc.np + 1 ≠ 4 by omega]

theorem feed_ximm {sc : Scan} {p : Nat} (hp : p < 1024) (hn : sc.seen < 4) :
    sc.feed (0xF000 + p) = .more { sc with ximms := sc.ximms ++ [p] } := by
  have h1 : (0xF000 + p) / 1024 % 64 = 0x3C := by omega
  have h2 : (0xF000 + p) % 1024 = p := by omega
  unfold Scan.seen at hn
  simp [Scan.feed, h1, h2, Nat.ne_of_lt hn]

theorem feed_base {sc : Scan} {w : Nat} (h : w / 1024 % 64 < 60) : sc.feed w = .base := by
  unfold Scan.feed
  dsimp only
  rw [if_neg (by omega), if_pos h]

/-- The page word of a layout (R54). -/
theorem decodeFrom_page {page : Nat} (h : page < 5) (ws : List Nat) :
    decodeFrom Scan.start ((if page = 0 then [] else [0xF800 + page]) ++ ws) = decodeFrom (Scan.after page 0 0 none []) ws := by
  split
  · rename_i hp; subst hp; rfl
  · exact decodeFrom_more ws (feed_xpage (by omega))

/-- The register prefixes of a layout (R53). -/
theorem decodeFrom_xregs {page d s : Nat} {t : Option Nat} (hd : d < 128) (hs : s < 128) (ht : ∀ n ∈ t, n < 128) (ws : List Nat) :
    decodeFrom (Scan.after page 0 0 none []) (xregWords d s t ++ ws) = decodeFrom (Scan.after page d s t []) ws := by
  have hp : (if page = 0 then 0 else 1) ≤ 1 := by split <;> decide
  have hdh : d / 16 < 8 := by omega
  have hsh : s / 16 < 8 := by omega
  cases t with
  | none =>
    unfold xregWords
    by_cases h : d < 16 ∧ s < 16
    · simp [h, Scan.after, xregs, Nat.div_eq_of_lt]
    · rw [if_neg h]
      refine (decodeFrom_more ws (feed_xreg (tl := 0) hdh hsh (by decide))).trans ?_
      simp [Scan.after, xregs, h]
  | some t =>
    have hlt := ht t rfl
    refine (decodeFrom_more _ (feed_xreg hdh hsh (Nat.mod_lt t (by decide)))).trans ?_
    by_cases h : t < 16
    · simp [h, Scan.after, xregs, Nat.div_eq_of_lt]
    · rw [if_neg h]
      refine (decodeFrom_more ws (feed_xreg_again (th := t / 16) (by omega) rfl hp rfl)).trans ?_
      simp [Scan.after, xregs, h]

/-- The immediate prefixes of a layout (R52). -/
theorem decodeFrom_ximms (ps ws : List Nat) (sc : Scan) (hp : ∀ p ∈ ps, p < 1024) (hn : sc.seen + ps.length ≤ 4) :
    decodeFrom sc (ps.map (0xF000 + ·) ++ ws) = decodeFrom { sc with ximms := sc.ximms ++ ps } ws := by
  induction ps generalizing sc with
  | nil => simp
  | cons p ps ih =>
    rw [List.length_cons] at hn
    rw [List.map_cons, List.cons_append, decodeFrom_more _ (feed_ximm (hp p List.mem_cons_self) (by omega)),
      ih _ (fun q hq => hp q (List.mem_cons_of_mem p hq))]
    · simp
    · simp only [Scan.seen, List.length_append, List.length_singleton] at hn ⊢
      omega

/-! ### The instruction word -/

/-- The low ten bits of the instruction word of a layout (R50). -/
def Layout.low (l : Layout) (f : Form) : Nat :=
  match f.fmt with
  | .rr | .h => l.d % 16 * 64 + l.s % 16 * 4 + l.x
  | .ri => l.d % 16 * 64 + rawBits f.fmt.ownWidth (ximmCount f l.imm) l.imm % 64
  | .b => rawBits f.fmt.ownWidth (ximmCount f l.imm) l.imm % 1024

theorem Layout.words_eq (l : Layout) (f : Form) : l.words f = (if l.page = 0 then [] else [0xF800 + l.page]) ++ (xregWords l.d l.s l.t ++
    ((ximmPayloads (ximmCount f l.imm) (rawBits f.fmt.ownWidth (ximmCount f l.imm) l.imm / 2 ^ f.fmt.ownWidth)).map (0xF000 + ·) ++
      [l.op * 1024 + l.low f])) := by
  simp only [Layout.words, Layout.low, rawBits, List.append_assoc] <;> rfl

/-- What the instruction word of a layout says: its primary, the bits of its x, its fields, and the low bits of its immediate. -/
theorem Layout.word_fields {l : Layout} {f : Form} (hx : l.x < 4) (hd : f.fmt = .b → l.d = 0)
    (hs : f.fmt = .b ∨ f.fmt = .ri → l.s = 0) :
    let w := l.op * 1024 + l.low f
    let raw := rawBits f.fmt.ownWidth (ximmCount f l.imm) l.imm
    w / 1024 = l.op ∧ w % 4 = f.fmt.xBits l.x raw ∧ l.d / 16 * 16 + f.fmt.dField w = l.d ∧ l.s / 16 * 16 + f.fmt.sField w = l.s ∧
      w % 2 ^ f.fmt.ownWidth = raw % 2 ^ f.fmt.ownWidth := by
  intro w raw
  have hw : w = l.op * 1024 + l.low f := rfl
  have hr : raw = rawBits f.fmt.ownWidth (ximmCount f l.imm) l.imm := rfl
  clear_value w raw
  unfold Layout.low at hw
  rw [← hr] at hw
  cases hf : f.fmt <;> simp only [hf, Format.xBits, Format.dField, Format.sField, Format.ownWidth, reduceCtorEq, or_true, or_false,
    forall_const] at hw hd hs ⊢ <;> omega

/-- A register field of any kind is below 128 (R51). -/
theorem Kind.lt_of_flaws {k : Kind} {n : Nat} (h : k.flaws n = []) : n < 128 := by
  cases k <;> simp only [Kind.flaws, check_eq_nil] at h <;> omega

theorem xregs_some_pos (d s n : Nat) : 1 ≤ xregs d s (some n) := by
  unfold xregs
  dsimp only
  split <;> omega

theorem xregs_none_le_one (d s : Nat) : xregs d s none ≤ 1 := by
  unfold xregs
  dsimp only
  split <;> omega

section
variable {l : Layout} {f : Form} {i : Instr}

/-- An RI or B form has no field s, and a B form no field d (R50). -/
theorem Layout.Holds.unused (h : l.Holds f i) (hreg : f.regular = true) :
    (f.fmt = .b → l.d = 0 ∧ l.s = 0 ∧ l.t = none) ∧ (f.fmt = .ri → l.s = 0) ∧ (f.fmt = .h → f.ks = .h) := by
  obtain ⟨hd, hs, hno, -, -, -⟩ := h.blank
  refine ⟨fun hf => ?_, fun hf => ?_, fun hf => ?_⟩ <;> simp_all [Form.regular]

/-- The prefixes of a layout are those that its row asks for (R57). -/
theorem Layout.Holds.usageOk (h : l.Holds f i) (hreg : f.regular = true) (hT : f.Takes l.page l.d l.s l.t l.imm) (high : Nat) :
    usageOk f (Scan.after l.page l.d l.s l.t (ximmPayloads (ximmCount f l.imm) high)) = true := by
  obtain ⟨hb, hri, hh⟩ := h.unused hreg
  obtain ⟨-, hks, -, -, -⟩ := hT
  simp only [Sys2Proof.usageOk, Bool.and_eq_true, Scan.after, length_ximmPayloads]
  refine ⟨⟨?_, ?_⟩, ?_⟩
  · cases hi : f.imm <;> simp [ximmCount, hi]
  · cases hf : f.fmt with
    | rr => rfl
    | b =>
      obtain ⟨h1, h2, h3⟩ := hb hf
      simp [h1, h2, h3, xregs]
    | ri => simp [hri hf]
    | h =>
      rw [hh hf, Kind.flaws, check_eq_nil] at hks
      simpa using hks
  · cases ht : f.t with
    | no => simpa [h.blank.noThird ht] using xregs_none_le_one l.d l.s
    | opt => rfl
    | req =>
      obtain ⟨n, hn⟩ := Option.ne_none_iff_exists'.1 (h.blank.third ht)
      simpa [hn] using xregs_some_pos l.d l.s n

/-- The third register that `finish` reads is that of the layout (R53). -/
theorem Layout.Holds.third (h : l.Holds f i) (hT : f.Takes l.page l.d l.s l.t l.imm) :
    (if f.t = .no ∨ xregs l.d l.s l.t = 0 then none else some (l.t.getD 0 / 16 * 16 + l.t.getD 0 % 16)) = l.t := by
  obtain ⟨-, -, -, hopt, -⟩ := hT
  cases ht : l.t with
  | none =>
    cases hf : f.t with
    | no => simp
    | opt => simp [xregs, hopt hf ht]
    | req => exact absurd ht (h.blank.third hf)
  | some n =>
    have hno : f.t ≠ .no := fun hf => by simp [h.blank.noThird hf] at ht
    have hpos := xregs_some_pos l.d l.s n
    rw [if_neg (by simp only [hno, false_or]; omega)]
    simp [Nat.div_add_mod']

/-- What `finish` reads where the row takes the fields. -/
theorem finish_of {sc : Scan} {w page d s : Nat} {t : Option Nat} {imm : Int} (hform : formOf sc.page (w / 1024 % 64) (w % 4) = some f)
    (hu : Sys2Proof.usageOk f sc = true) (hd : sc.dh * 16 + f.fmt.dField w = d) (hs : sc.sh * 16 + f.fmt.sField w = s)
    (ht : (if f.t = .no ∨ sc.nr = 0 then none else some (sc.th * 16 + sc.tl)) = t) (hT : f.Takes page d s t imm)
    (hb : f.build d s t (assemble f sc.ximms w) = some i) : Sys2Proof.finish sc w = .ok i := by
  obtain ⟨hkd, hks, hkt, -, -⟩ := hT
  simp only [Sys2Proof.finish, hform, hu, if_true, hd, hs, ht]
  rw [if_pos ⟨hkd, hks, hkt⟩, hb]

/-- The instruction word of a layout, after its prefixes, is read as the instruction. -/
theorem Layout.Holds.finish (h : l.Holds f i) (hreg : f.regular = true) (hT : f.Takes l.page l.d l.s l.t l.imm) :
    Sys2Proof.finish (Scan.after l.page l.d l.s l.t (ximmPayloads (ximmCount f l.imm)
      (rawBits f.fmt.ownWidth (ximmCount f l.imm) l.imm / 2 ^ f.fmt.ownWidth))) (l.op * 1024 + l.low f) = .ok i := by
  obtain ⟨hb, hri, -⟩ := h.unused hreg
  obtain ⟨hop, hx, hd, hs, hw⟩ := Layout.word_fields (l := l) (f := f) h.range.2.2 (fun hf => (hb hf).1)
    fun hf => hf.elim (fun hf => (hb hf).2.1) hri
  refine finish_of ?_ (h.usageOk hreg hT _) hd hs (h.third hT) hT ?_
  · rw [hop, hx, Nat.mod_eq_of_lt (by have := h.range.2.1; omega)]
    exact h.row _
  · show f.build l.d l.s l.t (assemble f (ximmPayloads _ _) _) = some i
    rw [assemble_rawBits hreg hT.2.2.2.2 hw]
    exact h.makes

end

/-- The words of a layout are read back, whatever follows them. -/
theorem Layout.Holds.decode_words {l : Layout} {f : Form} {i : Instr} (h : l.Holds f i) (hreg : f.regular = true)
    (hT : f.Takes l.page l.d l.s l.t l.imm) (rest : List Nat) : decodeWords (l.words f ++ rest) = .ok (i, rest) := by
  obtain ⟨hkd, hks, hkt, -, himm⟩ := id hT
  have hroom := (Form.ximmCount_fits hreg himm).2
  rw [decodeWords, Layout.words_eq]
  simp only [List.append_assoc]
  rw [decodeFrom_page h.range.1, decodeFrom_xregs (Kind.lt_of_flaws hkd) (Kind.lt_of_flaws hks) fun n hn => Kind.lt_of_flaws (hkt n hn),
    decodeFrom_ximms _ _ _ (fun p => lt_of_mem_ximmPayloads) (by simpa [Scan.seen, Scan.after, length_ximmPayloads] using hroom)]
  refine decodeFrom_base rest (feed_base ?_) (h.finish hreg hT)
  obtain ⟨hb, hri, -⟩ := h.unused hreg
  rw [(Layout.word_fields h.range.2.2 (fun hf => (hb hf).1) fun hf => hf.elim (fun hf => (hb hf).2.1) hri).1]
  have := h.range.2.1
  omega

/-! ### Instructions and their bytes -/

theorem lt_of_mem_xregWords {d s w : Nat} {t : Option Nat} (hd : d < 128) (hs : s < 128) (ht : ∀ n ∈ t, n < 128)
    (h : w ∈ xregWords d s t) : w < 65536 := by
  cases t with
  | none =>
    simp only [xregWords] at h
    split at h
    · cases h
    · rw [List.mem_singleton.1 h]; omega
  | some t =>
    have hlt := ht t rfl
    simp only [xregWords] at h
    split at h <;> simp only [List.mem_cons, List.not_mem_nil, or_false] at h <;> omega

/-- The words of a layout are of 16 bits. -/
theorem Layout.Holds.words_lt {l : Layout} {f : Form} {i : Instr} (h : l.Holds f i) (hT : f.Takes l.page l.d l.s l.t l.imm) :
    ∀ w ∈ l.words f, w < 65536 := by
  obtain ⟨hkd, hks, hkt, -, -⟩ := hT
  obtain ⟨⟨hp, ho, hx⟩, -, -, -⟩ := h
  have hlow : l.low f < 1024 := by
    unfold Layout.low
    split <;> omega
  intro w hw
  rw [Layout.words_eq] at hw
  rcases List.mem_append.1 hw with hw | hw
  · split at hw
    · cases hw
    · rw [List.mem_singleton.1 hw]; omega
  rcases List.mem_append.1 hw with hw | hw
  · exact lt_of_mem_xregWords (Kind.lt_of_flaws hkd) (Kind.lt_of_flaws hks) (fun n hn => Kind.lt_of_flaws (hkt n hn)) hw
  rcases List.mem_append.1 hw with hw | hw
  · obtain ⟨p, hm, rfl⟩ := List.mem_map.1 hw
    have := lt_of_mem_ximmPayloads hm
    omega
  · rw [List.mem_singleton.1 hw]; omega

/-- The words of a well-formed instruction are those of a layout whose row takes its fields. -/
theorem encode_layout {i : Instr} (h : i.WellFormed) : ∃ (l : Layout) (f : Form), encode i = l.words f ∧ l.Holds f i ∧ f.regular = true ∧
    f.Takes l.page l.d l.s l.t l.imm := by
  obtain ⟨l, f, hl, hf, hh⟩ := Instr.located h
  obtain ⟨hreg, hsound⟩ := (formOf_shape l.page (by have := hh.range.2.1; omega) hh.range.2.2).sound hf
  exact ⟨l, f, by simp only [encode, hl, hf], hh, hreg, (hsound _ _ _ _ i hh.makes hh.blank).1 h⟩

/-- R50 to R56: the words of a well-formed instruction are read back, whatever follows them. -/
theorem decodeWords_encode {i : Instr} (h : i.WellFormed) (rest : List Nat) : decodeWords (encode i ++ rest) = .ok (i, rest) := by
  obtain ⟨l, f, he, hh, hreg, hT⟩ := encode_layout h
  rw [he]
  exact hh.decode_words hreg hT rest

theorem encode_lt {i : Instr} (h : i.WellFormed) : ∀ w ∈ encode i, w < 65536 := by
  obtain ⟨l, f, he, hh, hreg, hT⟩ := encode_layout h
  rw [he]
  exact hh.words_lt hT

/-- A word of 16 bits is read back from its two bytes (R49). -/
theorem wordsOf_bytesOf {ws : List Nat} (h : ∀ w ∈ ws, w < 65536) (rest : List Byte) :
    wordsOf (bytesOf ws ++ rest) = ws ++ wordsOf rest := by
  induction ws with
  | nil => rfl
  | cons w ws ih =>
    have hw := h w List.mem_cons_self
    rw [bytesOf, List.flatMap_cons, List.append_assoc, List.cons_append, List.cons_append, List.nil_append, wordsOf]
    change _ :: wordsOf (bytesOf ws ++ rest) = _
    rw [ih fun v hv => h v (List.mem_cons_of_mem w hv)]
    congr 1
    simp only [BitVec.toNat_ofNat]
    omega

theorem length_bytesOf (ws : List Nat) : (bytesOf ws).length = 2 * ws.length := by
  simp [bytesOf, List.length_flatMap, Nat.mul_comm]

theorem length_wordsOf : ∀ bs : List Byte, (wordsOf bs).length = bs.length / 2
  | [] => rfl
  | [_] => by simp [wordsOf]
  | _ :: _ :: bs => by rw [wordsOf, List.length_cons, length_wordsOf bs, List.length_cons, List.length_cons]; omega

/-- Settles O57: the words of a well-formed instruction are those of its layout, which the loop of R56 reads back, and bytes give words. -/
theorem encodeDecode : Obligations.EncodeDecode := by
  intro i rest h
  have hlen : (bytesOf (encode i) ++ rest).length / 2 * 2 - 2 * (wordsOf rest).length = (bytesOf (encode i)).length := by
    rw [List.length_append, length_bytesOf, length_wordsOf]
    omega
  rw [decode, wordsOf_bytesOf (encode_lt h), decodeWords_encode h]
  simp only [hlen, List.drop_left]

end Sys2Proof
end

section
/-! PROOF. The gates of decode (R56, R68, R359): every form of a group goes through the group's check, and every page-4 form but `trap` and
`brk` through that of privilege. -/

namespace Sys2Proof.Machine

/-- The meaning of a form goes through the check of a feature group first (R359). -/
def Instr.Gated (k : Nat) (i : Instr) : Prop := ∃ f, ∀ s, exec i s = inGroup k f s

/-- The meaning of a form goes through the check of privilege, behind that of a feature group if it has one (R56, R68). -/
inductive Instr.Privileged (i : Instr) : Prop
  | bare (f : State → Out) (h : ∀ s, exec i s = inS f s) : Privileged i
  | grouped (k : Nat) (f : State → Out) (hk : k < 8) (h : ∀ s, exec i s = inGroup k (inS f) s) : Privileged i

theorem Instr.Gated.traps {k : Nat} {i : Instr} {s : State} (hi : Gated k i) (h : s.accepts k = false) :
    Traps i s .feature (u64 s.issue.word) := by
  obtain ⟨f, hf⟩ := hi
  exact (hf s).trans (inGroup_of_not h)

theorem Instr.Privileged.traps {i : Instr} {s : State} (hi : Privileged i) (hg : ∀ g, g < 8 → s.accepts g = true)
    (h : statMode s.slot.stat = 0) : Traps i s .priv (u64 s.issue.word) := by
  cases hi with
  | bare f hf => exact (hf s).trans (inS_of_user h)
  | grouped k f hk hf => exact ((hf s).trans (inGroup_of_accepts (hg k hk))).trans (inS_of_user h)

/-- A list of forms that all go through the check of a group. -/
theorem gated_of_forall {k : Nat} {is : List Instr} {s : State} (his : ∀ i ∈ is, Instr.Gated k i) (h : s.accepts k = false) :
    ∀ i ∈ is, Traps i s .feature (u64 s.issue.word) := fun i hi => (his i hi).traps h

/-- R359: the forms of the seven groups. -/
theorem featureGate : Sys2Proof.Part.FeatureGate := by
  intro n d a x imm s gated
  refine ⟨gated_of_forall ?_, gated_of_forall ?_, gated_of_forall ?_, gated_of_forall ?_, gated_of_forall ?_, gated_of_forall ?_,
    gated_of_forall ?_⟩ <;> simp only [List.forall_mem_cons, List.not_mem_nil, false_imp_iff, implies_true, and_true] <;>
    and_intros <;> exact ⟨_, fun _ => rfl⟩

/-- R68: the page-4 forms. -/
theorem privilege : Sys2Proof.Part.Privilege := by
  intro i s d n hg hm hi
  refine Instr.Privileged.traps ?_ hg hm
  simp only [List.mem_cons, List.not_mem_nil, or_false] at hi
  rcases hi with rfl | rfl | rfl | rfl | rfl | rfl | rfl | rfl | rfl | rfl | rfl | rfl
  iterate 4 exact .bare _ fun _ => rfl
  iterate 5 exact .grouped 4 _ (by decide) fun _ => rfl
  iterate 3 exact .grouped 7 _ (by decide) fun _ => rfl

/-- Settles O53: no form of the lists does anything before its gates. -/
theorem decodeGates : Obligations.DecodeGates := ⟨privilege, featureGate⟩

end Sys2Proof.Machine
end

section
/-! PROOF. Words that the spec writes out (R56 and the examples beside the tables of forms). -/

namespace Sys2Proof.Machine

/-- Settles O59: the words of each instruction are the encoder's, which are read back; the loop of R56 stops at each of the others. -/
theorem decodeWords_written : Obligations.DecodeWords := by
  refine ⟨fun e he => ?_, ?_⟩
  · obtain ⟨hw, hf⟩ : encode e.2 = e.1 ∧ e.2.flaws = [] := by
      revert e
      decide
    rw [← hw, ← List.append_nil (encode e.2)]
    exact decodeWords_encode hf []
  · simp only [List.forall_mem_cons, List.not_mem_nil, false_imp_iff, implies_true, and_true]
    and_intros <;> exact fun r h => by cases h

end Sys2Proof.Machine
end

section
/-! PROOF. Taking a trap (R193, R194, R197): what `takeTrap` does to the context that takes it, and that nothing else changes. -/

namespace Sys2Proof.Machine

/-! ### The slot that takes a trap -/

theorem Map.getD_getList {α : Type} (d : α) (m : Map α) (k : Nat) {n i : Nat} (h : i < n) :
    (Map.getList d m k n).getD i d = Map.get d m (k + i) := by
  induction n generalizing k i with
  | zero => omega
  | succ n ih =>
    cases i with
    | zero => rfl
    | succ i =>
      rw [Map.getList, List.getD_cons_succ, ih (k + 1) (by omega), Nat.add_right_comm, Nat.add_assoc]

/-- Reading a table into which the first four entries of another were copied. -/
theorem Map.get_copy4 {α : Type} [DecidableEq α] (d : α) (m b : Map α) (n : Nat) :
    Map.get d (Map.setList d m 0 (Map.getList d b 0 4)) n = if n < 4 then Map.get d b n else Map.get d m n := by
  rw [Map.get_setList, Map.length_getList]
  by_cases h : n < 4
  · rw [if_pos ⟨Nat.zero_le n, by omega⟩, if_pos h, Map.getD_getList d b 0 (by omega)]
    congr 1
    omega
  · rw [if_neg (by omega), if_neg h]

theorem Slot.get_regs_swapBank (x : Slot) (n : Nat) :
    Map.get 0 x.swapBank.regs n = if n < 4 then Map.get 0 x.bank n else Map.get 0 x.regs n := Map.get_copy4 0 x.regs x.bank n

theorem Slot.get_bank_swapBank (x : Slot) {n : Nat} (h : n < 4) : Map.get 0 x.swapBank.bank n = Map.get 0 x.regs n :=
  (Map.get_copy4 0 x.bank x.regs n).trans (if_pos h)

/-- Reading a bit of a word with a field replaced. -/
theorem getLsbD_setBits (w : Word) {lo len i : Nat} (v : Nat) (hi : i < 32) :
    (setBits w lo len v).getLsbD i = if lo ≤ i ∧ i < lo + len then v.testBit (i - lo) else w.getLsbD i := by
  have hsplit : w.toNat % 2 ^ lo + v % 2 ^ len * 2 ^ lo + w.toNat / 2 ^ (lo + len) * 2 ^ (lo + len) =
      2 ^ lo * (2 ^ len * (w.toNat / 2 ^ (lo + len)) + v % 2 ^ len) + w.toNat % 2 ^ lo := by
    rw [Nat.pow_add]
    ring
  rw [setBits, u32, BitVec.getLsbD_ofNat, decide_eq_true hi, Bool.true_and, hsplit,
    Nat.testBit_two_pow_mul_add _ (Nat.mod_lt _ (Nat.two_pow_pos lo)), Nat.testBit_two_pow_mul_add _ (Nat.mod_lt _ (Nat.two_pow_pos len)),
    Nat.testBit_mod_two_pow, Nat.testBit_mod_two_pow, Nat.testBit_div_two_pow]
  by_cases hlo : i < lo
  · rw [if_pos hlo, if_neg (by omega), decide_eq_true hlo, Bool.true_and]; rfl
  · by_cases hlen : i - lo < len
    · rw [if_neg hlo, if_pos hlen, if_pos (by omega), decide_eq_true hlen, Bool.true_and]
    · rw [if_neg hlo, if_neg hlen, if_neg (by omega), show i - lo - len + (lo + len) = i by omega]; rfl

/-- R193: the entry sets MODE and INH and clears STEP. -/
theorem getLsbD_entryStat (w : Word) {i : Nat} (hi : i < 32) :
    (setBits (setBits w 0 2 3) 5 1 0).getLsbD i = if i = 0 ∨ i = 1 then true else if i = 5 then false else w.getLsbD i := by
  rw [getLsbD_setBits _ 0 hi, getLsbD_setBits _ 3 hi, Nat.zero_testBit]
  by_cases h5 : i = 5
  · subst h5; rfl
  · rw [if_neg (by omega), if_neg h5]
    by_cases h : i = 0 ∨ i = 1
    · rw [if_pos (by omega), if_pos h]
      rcases h with rfl | rfl <;> rfl
    · rw [if_neg (by omega), if_neg h]

theorem Slot.entered_enterTrap (x : Slot) (c : Word) (v e : DWord) : Entered x (x.enterTrap c v e) c v e :=
  ⟨rfl, x.get_regs_swapBank, fun _ => x.get_bank_swapBank, fun _ => getLsbD_entryStat x.stat⟩

/-! ### The core and the module -/

@[simp] theorem State.slotAt_setSlotAt_self (s : State) (l k : Nat) (y : Slot) : (s.setSlotAt l k y).slotAt l k = y := by
  simp [State.slotAt, State.setSlotAt]

@[simp] theorem State.core_setSlotAt_self (s : State) (l k : Nat) (y : Slot) : (s.setSlotAt l k y).core l = (s.core l).setSlot k y :=
  State.core_setCore_self s l _

/-- A context replaced is the only thing that changed. -/
theorem onlyContextAt_setSlotAt (s : State) (l k : Nat) (y : Slot) : OnlyContextAt l k y s (s.setSlotAt l k y) := by
  refine ⟨rfl, fun _ hj => State.core_setCore_ne s _ hj, ?_, ?_, s.slotAt_setSlotAt_self l k y, fun _ => rfl⟩
  · rw [State.core_setSlotAt_self]; exact onlySlots_setSlot _ _ _
  · rw [State.core_setSlotAt_self]; exact sameSlots_setSlot _ _ _

/-- A trap with INH = 0 enters S in its context. -/
theorem State.takeTrap_enter {s : State} {l k : Nat} (c : Word) (v e : DWord) (hk : k < 4) (h : statInh (s.slotAt l k).stat = 0) :
    s.takeTrap l k c v e = s.setSlotAt l k ((s.slotAt l k).enterTrap c v e) := by
  unfold State.takeTrap
  rw [if_neg (by unfold clauseSlot; omega), if_neg (by omega)]

theorem entered_takeTrap {s : State} {l k : Nat} (c : Word) (v e : DWord) (hk : k < 4) (h : statInh (s.slotAt l k).stat = 0) :
    ∃ y, Entered (s.slotAt l k) y c v e ∧ OnlyContextAt l k y s (s.takeTrap l k c v e) := by
  rw [State.takeTrap_enter c v e hk h]
  exact ⟨_, Slot.entered_enterTrap _ c v e, onlyContextAt_setSlotAt s l k _⟩

/-- A trap with INH = 1 halts its context. -/
theorem State.takeTrap_halt {s : State} {l k : Nat} (c : Word) (v e : DWord) (hk : k < 4) (h : statInh (s.slotAt l k).stat = 1) :
    s.takeTrap l k c v e = s.haltSlot l k c v e 1 := by
  unfold State.takeTrap
  rw [if_neg (by unfold clauseSlot; omega), if_pos h]

/-- The core once its context k is halted with cause `c` by way of bit `bit` of DSTAT (R194). -/
def Core.halted (co : Core) (k : Nat) (c : Word) (v e : DWord) (bit : Nat) : Core :=
  { co.setSlot k ((co.slot k).halt c v e) with
    derr := errBit co.derr bit,
    dcode := if bit = 1 then (if co.dcode.toNat < 0x15 then 0x15 else co.dcode) else co.dcode }

theorem Core.slot_halted (co : Core) (k j : Nat) (c : Word) (v e : DWord) (bit : Nat) :
    (co.halted k c v e bit).slot j = if j = k then (co.slot k).halt c v e else co.slot j :=
  Core.slot_setSlot co k j ((co.slot k).halt c v e)

/-- A core with a slot that is not halted goes on (R194). -/
theorem State.haltSlot_eq {s : State} {l k j : Nat} (c : Word) (v e : DWord) (bit : Nat) (hj : j < partC (s.core l).part) (hjk : j ≠ k)
    (h : (s.slotAt l j).st ≠ .halted) : s.haltSlot l k c v e bit = s.setCore l ((s.core l).halted k c v e bit) := by
  have hall : ((s.core l).halted k c v e bit).allHalted = false := by
    rw [Core.allHalted, List.all_eq_false]
    refine ⟨j, List.mem_range.2 hj, ?_⟩
    rw [Core.slot_halted, if_neg hjk, beq_iff_eq]
    exact h
  show (s.setCore l ((s.core l).halted k c v e bit)).haltedExit l = _
  rw [State.haltedExit, State.core_setCore_self, hall]
  rfl

/-- R192 to R194: a trap enters S, or halts its context. -/
theorem trapEntry : Sys2Proof.Part.TrapEntry := by
  intro s l k c v e hk
  refine ⟨entered_takeTrap c v e hk, fun h ⟨j, hj, hjk, hst⟩ t ht => ?_⟩
  rw [State.takeTrap_halt c v e hk h, State.haltSlot_eq c v e 1 hj hjk hst] at ht
  subst ht
  rw [State.slotAt, State.core_setCore_self]
  refine ⟨?_, rfl, ?_, fun j hj => ?_, fun _ hj => State.core_setCore_ne s _ hj, rfl, fun _ => rfl⟩
  · rw [Core.slot_halted, if_pos rfl]; rfl
  · show (if (s.core l).dcode.toNat < 0x15 then 0x15#32 else (s.core l).dcode).toNat = max (s.core l).dcode.toNat 0x15
    split
    · rw [Nat.max_eq_right (by omega)]; rfl
    · rw [Nat.max_eq_left (by omega)]
  · rw [Core.slot_halted, if_neg hj]

/-- R197, R199: the three forms. -/
theorem trapForms : Sys2Proof.Part.TrapForms := by
  intro n s hk hi hn hl val entered
  exact ⟨⟨_, rfl, entered_takeTrap _ _ _ hk hi⟩, ⟨_, rfl, entered_takeTrap _ _ _ hk hi⟩, fun c v => ⟨_, rfl, entered_takeTrap _ _ _ hk hi⟩⟩

/-- Settles O19: a trap with INH = 0 replaces its context by the one that R193 names, one with INH = 1 halts it. -/
theorem trapTaking : Obligations.TrapTaking := ⟨trapEntry, trapForms⟩

end Sys2Proof.Machine
end

section
/-! PROOF. Translation (R256 to R259): what it reads and what it leaves. -/

namespace Sys2Proof.Machine

/-- `t` translates the addresses of core l as `s` does: it has the same memory, queues, device window and next free value, and the core
runs in the same queue. -/
structure TranslatesAs (l : Nat) (s t : State) : Prop where
  queue : (t.core l).queue = (s.core l).queue
  mem : t.mem = s.mem
  bad : t.bad = s.bad
  queues : t.queues = s.queues
  dev : t.dev = s.dev
  free : t.free = s.free

theorem TranslatesAs.refl (l : Nat) (s : State) : TranslatesAs l s s := ⟨rfl, rfl, rfl, rfl, rfl, rfl⟩

/-- A table walk reads memory and its errors alone. -/
theorem State.walk_congr {s t : State} (hm : t.mem = s.mem) (hb : t.bad = s.bad) (va : Nat) (ls : List (Nat × Nat × Nat)) (a : Nat) :
    t.walk va ls a = s.walk va ls a := by
  induction ls generalizing a with
  | nil => rfl
  | cons x ls ih =>
    obtain ⟨sh, b, al⟩ := x
    simp only [State.walk, ih, State.badAt, State.bytesAt, hm, hb] <;> rfl

theorem State.leafFor_congr {l : Nat} {s t : State} (h : TranslatesAs l s t) (q : Nat) (la : Launch) (va : Nat) :
    t.leafFor q la va = ((s.leafFor q la va).1.backTo t, (s.leafFor q la va).2) := by
  have hw := State.walk_congr h.mem h.bad va levels la.ptroot.toNat
  obtain ⟨-, -, -, hq, hd, hf⟩ := h
  unfold State.leafFor State.choose
  rw [hw]
  cases t
  dsimp only at hq hd hf ⊢
  subst hq hd hf
  generalize s.walk va levels la.ptroot.toNat = w
  generalize hold : la.tlb.filter (fun h => h.stale va w) = olds
  cases olds with
  | nil =>
    cases w <;> dsimp only <;> split <;> rfl
  | cons y ys =>
    dsimp only
    cases (y :: ys)[Config.choice s.free % ((y :: ys).length + 1)]? with
    | some x => rfl
    | none => cases w <;> dsimp only <;> split <;> rfl

theorem State.translate_congr {l : Nat} {s t : State} (h : TranslatesAs l s t) (va : Nat) (acc : Acc) :
    t.translate l va acc = ((s.translate l va acc).1.backTo t, (s.translate l va acc).2) := by
  have hl : t.launchOf l = s.launchOf l := by simp only [State.launchOf, h.queue, State.queue, h.queues]
  have hback : s.backTo t = t := by
    unfold State.backTo
    rw [← h.free, ← h.queues, ← h.dev]
  unfold State.translate
  rw [h.queue, hl]
  cases (s.core l).queue with
  | none => exact congrArg (·, _) hback.symm
  | some q =>
    cases s.launchOf l with
    | none => exact congrArg (·, _) hback.symm
    | some la =>
      dsimp only
      rw [State.leafFor_congr h]

/-- A state that translates as another resolves an address as it does, and is left with its free values, queues and device window. -/
theorem State.resolve_congr {l va : Nat} {acc : Acc} {s t u : State} {r : Except Cause Place} (h : TranslatesAs l s t)
    (hr : s.resolve l va acc = (u, r)) : t.resolve l va acc = (u.backTo t, r) := by
  have hback : s.backTo t = t := by
    unfold State.backTo
    rw [← h.free, ← h.queues, ← h.dev]
  suffices hs : t.resolve l va acc = ((s.resolve l va acc).1.backTo t, (s.resolve l va acc).2) by rw [hs, hr]
  unfold State.resolve State.accepts
  rw [h.dev, State.translate_congr h, State.translate_congr h]
  split_ifs
  · exact congrArg (·, _) hback.symm
  · rfl
  · exact congrArg (·, _) hback.symm
  · exact congrArg (·, _) hback.symm
  · exact congrArg (·, _) hback.symm
  · rfl

/-- Translation leaves all but the free values, the queues and the device window. -/
theorem State.resolve_frame {l va : Nat} {acc : Acc} {s u : State} {r : Except Cause Place} (h : s.resolve l va acc = (u, r)) :
    u = u.backTo s := by
  have := State.resolve_congr (TranslatesAs.refl l s) h
  rw [h] at this
  exact congrArg Prod.fst this

end Sys2Proof.Machine
end

section
/-! PROOF. Fetch and issue (R49, R56, R58, R196): a fetch reads the instruction that the bytes encode, and a step issues the context whose
turn it is. -/

namespace Sys2Proof.Machine

/-! ### A fetch changes the teams alone -/

/-- The state with other contents of the teams' caches. -/
def State.withTeams (s : State) (m : Map Team) : State := { s with teams := m }

@[simp] theorem State.withTeams_withTeams (s : State) (m m' : Map Team) : (s.withTeams m).withTeams m' = s.withTeams m' := rfl

/-- Translation does not look at the teams. -/
theorem State.resolve_withTeams {s u : State} (m : Map Team) {l va : Nat} {acc : Acc} {r : Except Cause Place}
    (h : s.resolve l va acc = (u, r)) : (s.withTeams m).resolve l va acc = (u.withTeams m, r) := by
  have hu := State.resolve_frame h
  rw [State.resolve_congr (l := l) (s := s) (t := s.withTeams m) ⟨rfl, rfl, rfl, rfl, rfl, rfl⟩ h, hu]
  rfl

/-! ### A halfword -/

/-- Where no line has an older version, a halfword reads as it stands whatever the cache holds. -/
theorem State.staleCode_eq_nil {s : State} (h : ∀ n, (s.line n).older = []) (t va pa : Nat) : s.staleCode t va pa = [] := by
  have hb : ∀ f pa, s.halfBefore f pa = s.half pa := by
    intro f pa
    simp only [State.halfBefore, State.byteBefore, h, byteAtStamp]
    rfl
  simp only [State.staleCode, hb, List.filter_eq_nil_iff, List.mem_append, bne_iff_ne, not_not]
  rintro v (hv | hv)
  · split at hv <;> simp_all
  · split at hv
    · split at hv <;> simp_all
    · cases hv

/-- A halfword of module memory is fetched as it stands. -/
theorem State.fetchHalf_memory {s u : State} {l pa : Nat} {pc : DWord} (h : s.resolve l pc.toNat .fetch = (u, .ok (.memory pa)))
    (hb : u.badIn pa 2 = false) (ho : ∀ n, (u.line n).older = []) : ∃ m, s.fetchHalf l pc = (u.withTeams m, .ok (u.half pa)) := by
  have hm : ∃ m, u.fetchMem l pc.toNat pa = (u.withTeams m, u.half pa) := by
    unfold State.fetchMem
    dsimp only
    rw [State.staleCode_eq_nil ho]
    dsimp only
    split
    · exact ⟨_, rfl⟩
    · exact ⟨u.teams, rfl⟩
  obtain ⟨m, hm⟩ := hm
  refine ⟨m, ?_⟩
  unfold State.fetchHalf
  rw [h]
  simp only [hb, hm]
  rfl

/-- From an address on, at `pa` in memory, a core fetches these halfwords. -/
def State.CodeAt (u : State) (l : Nat) : DWord → Nat → List Nat → Prop
  | _, _, [] => True
  | pc, pa, w :: ws => u.resolve l pc.toNat .fetch = (u, .ok (.memory pa)) ∧ u.badIn pa 2 = false ∧ u.half pa = w ∧
      u.CodeAt l (pc + 2) (pa + 2) ws

theorem pc_step (pc : DWord) (j : Nat) : pc + 2 + u64 (2 * j) = pc + u64 (2 * (j + 1)) := by
  simp only [u64]
  bv_omega

/-- Where every halfword resolves and is not in error, the bytes of words are code (R49). -/
theorem State.codeAt_of_bytes {u : State} {l : Nat} {pc : DWord} {pa : Nat} {ws : List Nat} (hw : ∀ w ∈ ws, w < 65536)
    (hr : ∀ j, j < ws.length → u.resolve l (pc + u64 (2 * j)).toNat .fetch = (u, .ok (.memory (pa + 2 * j))))
    (hb : ∀ j, j < ws.length → u.badIn (pa + 2 * j) 2 = false) (h : u.bytesAt pa (2 * ws.length) = bytesOf ws) : u.CodeAt l pc pa ws := by
  induction ws generalizing pc pa with
  | nil => trivial
  | cons w ws ih =>
    have hcons : u.byte pa :: u.byte (pa + 1) :: u.bytesAt (pa + 2) (2 * ws.length) =
        BitVec.ofNat 8 w :: BitVec.ofNat 8 (w / 256) :: bytesOf ws := h
    obtain ⟨h0, h1, hrest⟩ : _ ∧ _ ∧ _ := by simpa using hcons
    refine ⟨by simpa [u64] using hr 0 (by simp), hb 0 (by simp), ?_, ih (fun v hv => hw v (List.mem_cons_of_mem w hv)) (fun j hj => ?_)
      (fun j hj => ?_) hrest⟩
    · have := hw w List.mem_cons_self
      rw [State.half, h0, h1, BitVec.toNat_ofNat, BitVec.toNat_ofNat]
      omega
    · rw [pc_step, hr (j + 1) (by simpa using hj), Nat.mul_add, Nat.mul_one, Nat.add_assoc, Nat.add_comm 2]
    · rw [Nat.add_assoc, Nat.add_comm 2, ← Nat.mul_add_one]
      exact hb (j + 1) (by simpa using hj)

/-! ### The loop -/

/-- Code that decodes to an instruction is fetched as that instruction, from a state whose first translation leads into the code. -/
theorem State.fetchLoop_decoded {u : State} {l : Nat} {i : Instr} (start : DWord) (ho : ∀ n, (u.line n).older = [])
    (hf : i.fits (partG (u.core l).part) (partH (u.core l).part) = true) {ws : List Nat} {sc : Scan} {s : State} {m : Map Team}
    {pc : DWord} {pa n : Nat} (hd : decodeFrom sc ws = .ok (i, [])) (hn : ws.length ≤ n) (hc : u.CodeAt l pc pa ws)
    (hs : s.resolve l pc.toNat .fetch = (u.withTeams m, .ok (.memory pa))) :
    ∃ m', s.fetchLoop l start pc sc n = (u.withTeams m', .ok ⟨i, ws.getLastD 0, (pc + u64 (2 * ws.length) - start).toNat⟩) := by
  induction ws generalizing sc s m pc pa n with
  | nil => cases hd
  | cons w ws ih =>
    obtain ⟨-, hb, hw, hc⟩ := hc
    obtain ⟨m', hm⟩ := State.fetchHalf_memory hs hb ho
    rw [show (u.withTeams m).half pa = w from hw, State.withTeams_withTeams] at hm
    cases n with
    | zero => simp at hn
    | succ n =>
      rw [State.fetchLoop, hm]
      simp only [decodeFrom] at hd ⊢
      cases hfeed : sc.feed w with
      | stop why => rw [hfeed] at hd; cases hd
      | base =>
        rw [hfeed] at hd
        cases hfin : Sys2Proof.finish sc w with
        | error r => rw [hfin] at hd; cases hd
        | ok i' =>
          rw [hfin] at hd
          cases hd
          refine ⟨m', ?_⟩
          show (if i.fits (partG (u.core l).part) (partH (u.core l).part) = true then _ else _) = _
          rw [if_pos hf]
          rfl
      | more sc' =>
        rw [hfeed] at hd
        cases ws with
        | nil => cases hd
        | cons v vs =>
          obtain ⟨m'', hl⟩ := ih (n := n) hd (by simpa using hn) hc (State.resolve_withTeams m' hc.1)
          refine ⟨m'', hl.trans ?_⟩
          rw [pc_step]
          rfl

/-- R49, R56: the bytes of a well-formed instruction are fetched as that instruction. -/
theorem fetch_encoded {s u : State} {l pa : Nat} {pc : DWord} {i : Instr} (hi : i.WellFormed)
    (hf : i.fits (partG (u.core l).part) (partH (u.core l).part) = true) (ho : ∀ n, (u.line n).older = [])
    (hs : s.resolve l pc.toNat .fetch = (u, .ok (.memory pa))) (hc : u.CodeAt l pc pa (encode i)) :
    ∃ m, s.fetch l pc = (u.withTeams m, .ok ⟨i, (encode i).getLastD 0, 2 * (encode i).length⟩) := by
  have hd : decodeFrom Scan.start (encode i) = .ok (i, []) := by simpa [decodeWords] using decodeWords_encode hi []
  have hlen : (encode i).length ≤ 5 := by
    obtain ⟨-, n, hn, -, hrest, hle⟩ := decodeFrom_ok Scan.valid_start hd
    have := List.drop_eq_nil_iff.1 hrest.symm
    omega
  obtain ⟨m, hm⟩ := State.fetchLoop_decoded pc ho hf hd hlen hc (m := u.teams) hs
  refine ⟨m, hm.trans ?_⟩
  have hpc : (pc + u64 (2 * (encode i).length) - pc).toNat = 2 * (encode i).length := by
    simp only [u64]
    bv_omega
  rw [hpc]

/-! ### Which context issues -/

/-- Neither a cut nor another context stops a context of a core none of whose contexts waits. -/
theorem Core.stops_eq_false {c : Core} (hcut : c.cut.due = false) (hw : ∀ j, j < 4 → (c.slot j).wait = none) (k : Nat) :
    c.stops k = false := by
  unfold Core.stops
  rw [hcut, Bool.false_or, List.any_eq_false]
  intro j hj
  simp [hw j (List.mem_range.1 hj)]

theorem Core.lt_of_mem_turns {c : Core} {k : Nat} (h : k ∈ c.turns) : k < 4 := by
  obtain ⟨i, -, rfl⟩ := List.mem_map.1 h
  exact Nat.mod_lt _ (by decide)

/-- The pointer's slot is the first of the turn. -/
theorem Core.turns_eq_cons {c : Core} (h : c.rot < 4) : ∃ ks, c.turns = c.rot :: ks := by
  refine ⟨[(c.rot + 1) % 4, (c.rot + 2) % 4, (c.rot + 3) % 4], ?_⟩
  show (c.rot + 0) % 4 :: _ = _
  rw [Nat.add_zero, Nat.mod_eq_of_lt h]
  rfl

theorem Core.waiters_eq_nil {c : Core} (hw : ∀ j, j < 4 → (c.slot j).wait = none) : c.waiters = [] := by
  have hnil : ((List.range 4).filterMap fun k => match (c.slot k).wait with
      | some w => if w.poll && (c.slot k).st == .ready && !c.stops k then some (k, w) else none
      | none => none) = [] := by
    rw [List.filterMap_eq_nil_iff]
    intro j hj
    rw [hw j (List.mem_range.1 hj)]
  exact congrArg (oldestFirst fun e => e.2.since) hnil

/-- A core with a slot that is not halted is not halted (R194). -/
theorem Core.allHalted_eq_false {c : Core} {k : Nat} (hk : k < partC c.part) (h : (c.slot k).st ≠ .halted) : c.allHalted = false := by
  rw [Core.allHalted, List.all_eq_false]
  exact ⟨k, List.mem_range.2 hk, by simpa using h⟩

/-- A core none of whose contexts waits or owes a trap issues the context whose turn it is (R98, R196). -/
theorem issueOn_turn {ex : Instr → State → Out} {s : State} {l : Nat} {c : Core} (hc : c = s.core l) (hruns : c.runs = true)
    (hrot : c.rot < 4)
    (hidle : ∀ j, j < 4 → (c.slot j).stepDue = none ∧ (c.slot j).takesNotice = false ∧ (c.slot j).wait = none)
    (hcut : c.cut.due = false) (hpart : c.rot < partC c.part) (hst : (c.slot c.rot).st = .ready) :
    s.issueOn ex l = some ((s.setCore l { c with rot := (c.rot + 1) % 4 }).issueSlot ex l c.rot) := by
  have hstop : ∀ k, c.stops k = false := Core.stops_eq_false hcut fun j hj => (hidle j hj).2.2
  have hstep : (c.turns.find? fun k => (c.slot k).st == .ready && (c.slot k).stepDue.isSome && !c.stops k) = none :=
    List.find?_eq_none.2 fun k hk => by simp [(hidle k (Core.lt_of_mem_turns hk)).1]
  have hnote : (c.turns.find? fun k => (c.slot k).takesNotice && !c.stops k) = none :=
    List.find?_eq_none.2 fun k hk => by simp [(hidle k (Core.lt_of_mem_turns hk)).2.1]
  have hready : (c.turns.find? fun k => (c.slot k).st == .ready && (c.slot k).wait.isNone && !c.stops k) = some c.rot := by
    obtain ⟨ks, hks⟩ := Core.turns_eq_cons hrot
    rw [hks, List.find?_cons_of_pos]
    simp [hst, (hidle _ hrot).2.2, hstop]
  unfold State.issueOn
  simp only [← hc, hruns, Core.allHalted_eq_false hpart (by rw [hst]; decide), hstep, hnote,
    Core.waiters_eq_nil fun j hj => (hidle j hj).2.2,
    hready, List.map_nil, State.tryWaiters, Bool.true_eq_false, Bool.false_eq_true, if_false]

/-- Where nothing else is to happen, a step is the next issue. -/
theorem step_issue {s : State} (hag : s.agenda = []) (haw : s.awake exec = none) (hp : s.pending = none) (hu : s.unsent = none) :
    step s = s.issueNext exec := by
  unfold step State.advance
  rw [haw, hag, hp, hu]

/-- Settles O60: the step is the issue of the context whose turn it is, and the loop of R56 over fetched halfwords is the decoder's. -/
theorem stepRunsDecoded : Obligations.StepRunsDecoded := by
  refine ⟨?_, fun s u l pa pc i hi hf _ _ ho hs hr hb hbytes => ?_⟩
  · intro s s1 u l k ls c hag haw hp hu hl hc hruns hk hrot hidle hcut hpart hst hpc hs1
    subst hrot
    have hstep : step s = s1.issueSlot exec l c.rot := by
      rw [step_issue hag haw hp hu, State.issueNext, hl, List.findSome?_cons,
        issueOn_turn (s := { s with turn := l + 1 }) hc hruns hk hidle hcut hpart hst, hs1]
    have hslot : s1.slotAt l c.rot = c.slot c.rot := by
      rw [hs1, State.slotAt, State.core_setCore_self]; rfl
    rw [hstep, State.issueSlot, hslot, if_neg hpc]
    exact ⟨fun f hf => by rw [hf], fun e v hf => by rw [hf]; rfl⟩
  · obtain ⟨m, hm⟩ := fetch_encoded hi hf ho hs (State.codeAt_of_bytes (encode_lt hi) hr hb hbytes)
    exact ⟨m, congrArg Prod.fst hm, congrArg Prod.snd hm⟩

end Sys2Proof.Machine
end

section
/-! PROOF. Convergence (R147 to R149): the residual and the count of the window. -/

namespace Sys2Proof.Machine

/-- The count of the window goes up by one and stays at the greatest word (R147). -/
theorem cvcnt_saturates (b : Bool) (x : Word) :
    (if b && x != 0xFFFFFFFF#32 then x + 1 else x) = if b = true then u32 (min (Z x + 1) (2 ^ 32 - 1)) else x := by
  cases b with
  | false => rfl
  | true =>
    have hlt := x.isLt
    rw [Bool.true_and, if_pos rfl]
    by_cases h : x = 0xFFFFFFFF#32
    · rw [h]; rfl
    · have hne : Z x ≠ 2 ^ 32 - 1 := fun hx => h (BitVec.eq_of_toNat_eq hx)
      rw [if_pos (by simpa using h), Nat.min_eq_left (by simp only [Z] at *; omega)]
      apply BitVec.eq_of_toNat_eq
      simp [u32, Z, BitVec.toNat_add]

/-- R147: the core after a residual is folded into the window. -/
theorem Core.cvupd_eq (c : Core) (x : Word) : c.cvupd x = { c with
    cvres := if (fval x).isNan then 0x7FC00000#32 else if (fval c.cvres).isNan then c.cvres
      else if ltVal (fval c.cvres) (fval x) then x else c.cvres,
    cvcnt := if (fval x).isNan ∨ (fval c.cvthr).isNan = false ∧ ltVal (fval c.cvthr) (fval x) then
      u32 (min (Z c.cvcnt + 1) (2 ^ 32 - 1)) else c.cvcnt } := by
  unfold Core.cvupd
  dsimp only
  rw [cvcnt_saturates]
  congr 1
  · cases (fval c.cvres).isNan <;> simp [qnan]
  · simp

/-- A form that reads a word of its core and may change the core besides, but none of its contexts. -/
theorem Runs.of_setMe_doneWr {i : Instr} {s : State} {e : Core} {d : Nat} {v : Word} (h : s.next ≠ END)
    (he : exec i s = doneWr (s.setMe e) d v) (hc : e.slots = s.me.slots) :
    Runs i s fun t => t.g d = v ∧ Went s e s.slot [d] [] s.next s t ∧ SameMemory s t := by
  obtain ⟨hv, hw⟩ := went_setMe_wr s e d v h hc
  exact ⟨_, he, hv, hw, hw.1.memory⟩

/-- A counter that reads, and clears where bit 31 is set. -/
theorem Runs.of_clearing {i : Instr} {s : State} {e : Core} {d : Nat} {v : Word} {p q : Prop} [Decidable p] [Decidable q] (h : s.next ≠ END)
    (he : exec i s = doneWr (if p then s.setMe e else s) d v) (hpq : q ↔ p) (hc : e.slots = s.me.slots) :
    Runs i s fun t => t.g d = v ∧ Went s (if q then e else s.me) s.slot [d] [] s.next s t ∧ SameMemory s t := by
  by_cases hp : p
  · rw [if_pos hp] at he
    rw [if_pos (hpq.2 hp)]
    exact Runs.of_setMe_doneWr h he hc
  · rw [if_neg hp] at he
    rw [if_neg (hpq.not.2 hp)]
    obtain ⟨t, ht, hv, hw⟩ := doneWr_spec s d v h
    exact ⟨t, he.trans ht, hv, hw⟩

/-- R149: the core with the next window open. -/
def Core.nextWindow (c : Core) : Core := { c with cvres := 0, cvcnt := 0, cvwin := c.cvwin + 1 }

/-- R149: a window closes with its counters, and the rein tree has it where the core runs a launch. -/
theorem State.closeWindow_spec (s : State) : ∃ qs, s.closeWindow s.issue.lid =
      State.setMe { s with queues := qs } s.me.nextWindow ∧
    ∀ q la, s.me.queue = some q → (s.queue q).launch = some la → (Map.get Queue.empty qs q).launch =
      some { la with closed := la.closed ++ [⟨s.me.index, Z s.me.cvwin, s.me.cvres, Z s.me.cvcnt⟩] } := by
  have hme : s.core s.issue.lid = s.me := rfl
  have hcore : { s.me with cvres := 0, cvcnt := 0, cvwin := s.me.cvwin + 1 } = s.me.nextWindow := rfl
  unfold State.closeWindow
  dsimp only
  rw [hme, hcore]
  cases hq : s.me.queue with
  | none => exact ⟨s.queues, rfl, fun _ _ h => by cases h⟩
  | some q =>
    dsimp only
    rw [State.queue_setCore]
    cases hl : (s.queue q).launch with
    | none =>
      refine ⟨s.queues, rfl, fun q' la h h' => ?_⟩
      cases h; rw [hl] at h'; cases h'
    | some la =>
      dsimp only
      refine ⟨Map.set Queue.empty s.queues q _, rfl, fun q' la' h h' => ?_⟩
      cases h; rw [hl] at h'; cases h'
      rw [Map.get_set_self]
      rfl

/-- R147, R148, R149: the three forms of the window. -/
theorem convergence : Part.Convergence := by
  rintro d s x c v hn hacc rfl rfl rfl
  have hlt := (s.g d).isLt
  have hrd : execCvrd d s = _ := inGroup_of_accepts hacc
  dsimp only at hrd
  have h31 : 2 ^ 31 ≤ Z (s.g d) ↔ bits (Z (s.g d)) 31 1 = 1 := by simp only [bits, Z]; omega
  have h8 : bits (Z (s.g d)) 8 23 = Z (s.g d) / 2 ^ 8 % 2 ^ 23 := rfl
  have h0 : bits (Z (s.g d)) 0 8 = Z (s.g d) % 2 ^ 8 := by simp [bits]
  rw [h8, h0] at hrd
  refine ⟨?_, fun hr => ?_, fun hr h5 => ?_, fun hr => ?_, ?_⟩
  · rw [← Core.cvupd_eq]
    exact Sets.of_setMe hn (inGroup_of_accepts hacc : execCvupd d s = _) rfl
  · exact hrd.trans (if_pos hr)
  · rw [if_neg (not_not.2 hr), if_pos h5] at hrd
    exact hrd
  · rw [if_neg (not_not.2 hr)] at hrd
    refine ⟨fun h => ?_, fun h => ?_, fun h => ?_, fun h => ?_, fun h => ?_⟩ <;> rw [h, if_neg (by decide)] at hrd
    · exact WritesG.of_doneWr hn hrd rfl
    · exact WritesG.of_doneWr hn hrd rfl
    · exact Runs.of_clearing hn hrd h31 rfl
    · exact Runs.of_clearing hn hrd h31 rfl
    · exact WritesG.of_doneWr hn hrd rfl
  · obtain ⟨qs, hs, hq⟩ := s.closeWindow_spec
    have hw := went_setMe { s with queues := qs } s.me.nextWindow hn rfl
    have he : exec .cvclr s = done (s.closeWindow s.issue.lid) := (inGroup_of_accepts hacc : execCvclr s = _)
    rw [hs] at he
    refine ⟨_, he, qs, hw, hw.1.memory, fun q la h1 h2 => ?_⟩
    show ((State.finish _ s.next).queue q).launch = _
    rw [State.finish_eq _ hn]
    exact hq q la h1 h2

end Sys2Proof.Machine
end

section
/-! PROOF. A load that ends in its step (R261, R269, R274). -/

namespace Sys2Proof.Machine

/-! ### The use of a line's copy -/

/-- `v` is `u` after core l used a copy of the version of a line written at `w`: its clock is at least `w`, copies and leases changed, and
no line's versions did. -/
structure UsedLine (l w : Nat) (u v : State) : Prop where
  frame : v = { u with lines := v.lines, teams := v.teams, free := v.free, cores := v.cores }
  cores : SameCores l u v
  core : v.core l = { u.core l with pts := max (u.core l).pts w, l1 := (v.core l).l1 }
  wts : ∀ ln, (v.line ln).wts = (u.line ln).wts
  older : ∀ ln, (v.line ln).older = (u.line ln).older

/-- Which free values were used does not matter. -/
theorem UsedLine.withFree {l w : Nat} {u v : State} (h : UsedLine l w u v) (f : Nat) : UsedLine l w u { v with free := f } :=
  ⟨by rw [h.frame], h.cores, h.core, h.wts, h.older⟩

theorem usedLine_useCopy (u : State) (l ln : Nat) (x : Copy) : UsedLine l x.wts u (u.useCopy l ln x) := by
  refine ⟨rfl, fun k hk => State.core_setCore_ne u _ hk, ?_, fun _ => rfl, fun _ => rfl⟩
  rw [State.useCopy, State.core_setCore_self]
  rfl

/-- A lease raises the time up to which a line is read, and leaves its versions. -/
theorem State.line_setLine_lease (s : State) (ln j r : Nat) :
    ((s.setLine ln { s.line ln with rts := r }).line j).wts = (s.line j).wts ∧
      ((s.setLine ln { s.line ln with rts := r }).line j).older = (s.line j).older := by
  unfold State.line State.setLine
  dsimp only
  rw [Map.get_set]
  split
  · next h => subst h; exact ⟨by simp, rfl⟩
  · exact ⟨rfl, rfl⟩

/-- Where no rebase must come first, a fetch at the home grants a lease and brings the current version. -/
theorem usedLine_fetchCopy {u : State} {l ln p n : Nat} (hf : Fits u (p + n)) :
    UsedLine l (u.line ln).wts u ((u.homeRead ln p n).1.fetchCopy l ln (u.homeRead ln p n).2) := by
  have hroom : u.roomFor (p + n) = u := by
    unfold State.roomFor
    rw [if_neg]
    unfold Fits at hf
    omega
  unfold State.homeRead
  rw [hroom]
  dsimp only
  have hline := fun j => State.line_setLine_lease u ln j (max (u.line ln).rts (max p u.base + n))
  refine ⟨rfl, fun k hk => State.core_setCore_ne _ _ hk, ?_, fun j => (hline j).1, fun j => (hline j).2⟩
  rw [State.fetchCopy, State.core_setTeam, State.useCopy, State.core_setCore_self]
  rfl

/-- A copy that a string's L2 serves is one of the current version. -/
theorem State.currentCopy_wts {s : State} {l ln : Nat} {x : Copy} (h : s.currentCopy l ln = some x) : x.wts = (s.line ln).wts := by
  unfold State.currentCopy at h
  simp only at h
  split at h
  · next hx =>
    cases h
    split at hx
    · next hu => cases hx; simp_all
    · cases hx
  · obtain ⟨e, -, he⟩ := List.exists_of_findSome?_eq_some h
    split at he
    · next y hy =>
      split at he
      · cases he
        split at hy
        · next hu => cases hy; simp_all
        · cases hy
      · cases he
    · cases he

/-- R261, R274: a load uses the current version of a line or an older one of which the core could meet a usable copy. -/
theorem readLine_spec {u : State} {l ln : Nat} (hf : Fits u ((u.core l).pts + u.leaseOf l)) :
    ((u.readLine l ln).2 = (u.line ln).wts ∨ ∃ c ∈ u.staleCopies l ln, c.wts = (u.readLine l ln).2) ∧
      UsedLine l (u.readLine l ln).2 u (u.readLine l ln).1 := by
  have hnow : ∀ own : Copy, UsedLine l (u.line ln).wts u
      (if own.usable (u.core l).pts (u.leaseOf l) && own.wts = (u.line ln).wts then u.useCopy l ln own
      else match u.currentCopy l ln with
        | some x => u.useCopy l ln x
        | none => (u.homeRead ln (u.core l).pts (u.leaseOf l)).1.fetchCopy l ln (u.homeRead ln (u.core l).pts (u.leaseOf l)).2) := by
    intro own
    split
    · next h =>
      rw [Bool.and_eq_true, decide_eq_true_eq] at h
      rw [← h.2]
      exact usedLine_useCopy u l ln own
    · cases hc : u.currentCopy l ln with
      | some x =>
        rw [← State.currentCopy_wts hc]
        exact usedLine_useCopy u l ln x
      | none => exact usedLine_fetchCopy hf
  unfold State.readLine
  dsimp only
  split
  · next h =>
    refine ⟨.inr ⟨_, ?_, rfl⟩, usedLine_useCopy u l ln _⟩
    simp only [Bool.and_eq_true, decide_eq_true_eq] at h
    unfold State.staleCopies
    dsimp only
    rw [if_pos (by simpa using h.1)]
    exact List.mem_append_left _ List.mem_cons_self
  · cases hs : u.staleCopies l ln with
    | nil => exact ⟨.inl rfl, hnow _⟩
    | cons y ys =>
      dsimp only
      cases hk : (y :: ys)[(u.choose ((y :: ys).length + 1)).2]? with
      | some x => exact ⟨.inr ⟨x, List.mem_of_getElem? hk, rfl⟩, (usedLine_useCopy u l ln x).withFree _⟩
      | none => exact ⟨.inl rfl, (hnow _).withFree _⟩

/-! ### The bytes of a version -/

/-- Where memory and the lines' versions are the same, a version's bytes are. -/
theorem State.verBytes_congr {s t : State} (hm : t.mem = s.mem) (hw : ∀ ln, (t.line ln).wts = (s.line ln).wts)
    (ho : ∀ ln, (t.line ln).older = (s.line ln).older) (w pa n : Nat) : t.verBytes w pa n = s.verBytes w pa n := by
  induction n generalizing pa with
  | zero => rfl
  | succ n ih => simp only [State.verBytes, State.verByte, State.byte, hw, ho, hm, ih]

@[simp] theorem State.length_verBytes (s : State) (w pa n : Nat) : (s.verBytes w pa n).length = n := by
  induction n generalizing pa with
  | zero => rfl
  | succ n ih => simp [State.verBytes, ih]

@[simp] theorem length_overlay (sb : List SbEntry) (p : Place) (bs : List Byte) : (overlay sb p bs).length = bs.length := by
  induction sb generalizing bs with
  | nil => rfl
  | cons e sb ih =>
    rw [overlay, List.foldl_cons]
    refine (ih _).trans ?_
    split
    · simp [patch]
    · rfl

/-! ### The access -/

/-- A load that ends in its step goes on with the bytes of a version and the clock raised to its write time. -/
theorem homeThen_load {u : State} {pa : Nat} (n : Nat) (hp : u.prompt = true) (hb : u.badIn pa n = false)
    (hf : Fits u (u.me.pts + u.leaseOf u.issue.lid)) :
    ∃ bs v, ReadAt u pa n bs v ∧ ∀ i va k, homeThen i va pa (.load n) k u = k bs v := by
  obtain ⟨hw, hv⟩ := readLine_spec (ln := pa / 128) hf
  have hm : (u.readLine u.issue.lid (pa / 128)).1.mem = u.mem := by rw [hv.frame]
  have hi : (u.readLine u.issue.lid (pa / 128)).1.issue = u.issue := by rw [hv.frame]
  refine ⟨_, _, ⟨_, hw, rfl, hv.frame, hv.cores, ?_⟩, fun i va k => ?_⟩
  · rw [State.me, hi]
    exact hv.core
  · unfold homeThen State.perform
    rw [if_pos hp]
    simp only [hb, Bool.false_eq_true, if_false, ne_eq, not_true_eq_false]
    rw [State.verBytes_congr hm hv.wts hv.older]

/-- A load that meets an uncorrectable sector fails (R277). -/
theorem homeThen_bad {i : Instr} {va : DWord} {u : State} {pa n : Nat} (k : List Byte → State → Out) (hi : i.soft = none)
    (hp : u.prompt = true) (hb : u.badIn pa n = true) : homeThen i va pa (.load n) k u = trap .memErr va u.report := by
  unfold homeThen State.perform accessFails
  rw [if_pos hp]
  simp [hb, hi]

/-- An instruction that waits keeps its context but for the wait and the address to which it returns. -/
theorem State.slot_waiting (s : State) (poll keep counts : Bool) (i : Instr) :
    ∃ w, (s.waiting poll keep counts i).slot = { s.slot with wait := some w, pc := s.issue.start } ∧ w.instr = i := by
  refine ⟨⟨poll, keep, i, s.issue.start, s.issue.length, s.issue.word, s.issue.stepping, s.issue.since.getD s.stamp, s.slot.sbuf⟩, ?_, rfl⟩
  show Core.slot (State.core (s.setMe _) s.issue.lid) s.issue.slot = _
  rw [State.setMe, State.core_setCore_self]
  exact Core.slot_setSlot_self _ _ _

/-- A load that does not end in its step is a request under way, and its context waits (R264). -/
theorem homeThen_waits {i : Instr} {va : DWord} {u : State} {pa : Nat} (n : Nat) (k : List Byte → State → Out) (hi : i.soft = none)
    (hp : u.prompt = false) : ∃ (t : State) (q : HomeReq) (w : Wait), homeThen i va pa (.load n) k u = .next t ∧ t.reqs = u.reqs ++ [q] ∧
      q.lid = u.issue.lid ∧ q.slot = u.issue.slot ∧ q.pa = pa ∧ q.op = .load n ∧ q.answer = none ∧ q.clock = u.askClock ∧
      t.slot = { u.slot with wait := some w, pc := u.issue.start } ∧ w.instr = i := by
  unfold homeThen
  rw [if_neg (by rw [hp]; exact Bool.false_ne_true), hi]
  simp only [Option.isSome_none, Bool.false_eq_true, if_false, blockedEntry, Nat.lt_irrefl]
  obtain ⟨w, hw, hwi⟩ := State.slot_waiting { u with
    reqs := u.reqs ++ [{ id := u.serial, lid := u.issue.lid, slot := u.issue.slot, entry := 16, serial := u.serial, pa := pa, op := .load n,
                         clock := u.askClock, since := u.issue.since.getD u.stamp, answer := none }]
    serial := u.serial + 1 } false false false i
  exact ⟨_, _, w, rfl, rfl, rfl, rfl, rfl, rfl, rfl, rfl, hw, hwi⟩

section
variable {i : Instr} {va : DWord} {n : Nat} {s u : State}

/-- ALIGN comes first (R257). -/
theorem accessThen_misaligned (op : HomeOp) (k : List Byte → State → Out) (h : va.toNat % n ≠ 0) :
    accessThen i va n op k s = trap .align va s := by
  unfold accessThen
  rw [if_pos h]

/-- The failure of a translation is the trap of a form that has no status register (R258). -/
theorem accessThen_error {op : HomeOp} {c : Cause} (k : List Byte → State → Out) (hi : i.soft = none) (h : va.toNat % n = 0)
    (hr : s.resolve s.issue.lid va.toNat op.acc = (u, .error c)) : accessThen i va n op k s = trap c va u := by
  unfold accessThen accessFails
  rw [if_neg (by simpa using h), if_neg (by simp [hi]), hr]
  simp [hi]

/-- An access of module memory goes to the home of its line. -/
theorem accessThen_memory {op : HomeOp} {pa : Nat} (k : List Byte → State → Out) (hi : i.soft = none) (h : va.toNat % n = 0)
    (hr : s.resolve s.issue.lid va.toNat op.acc = (u, .ok (.memory pa))) : accessThen i va n op k s = homeThen i va pa op k u := by
  unfold accessThen
  rw [if_neg (by simpa using h), if_neg (by simp [hi]), hr]

end

end Sys2Proof.Machine
end

section
/-! PROOF. Factor dispatch (R150, R264): the two loads of an entry, its checks, and the call of its handler. -/

namespace Sys2Proof.Machine

/-! ### The states that loads leave -/

/-- What a load leaves of the state before it, or of a clock raised: everything but caches, leases and free values. -/
theorem ReadAt.slot {u v : State} {pa n : Nat} {bs : List Byte} (h : ReadAt u pa n bs v) : v.slot = u.slot := by
  obtain ⟨w, -, -, hv, -, hme⟩ := h
  have hi : v.issue = u.issue := by rw [hv]
  rw [State.slot, hi, hme]
  rfl

theorem ReadAt.issue {u v : State} {pa n : Nat} {bs : List Byte} (h : ReadAt u pa n bs v) : v.issue = u.issue := by
  obtain ⟨w, -, -, hv, -⟩ := h
  rw [hv]

theorem ReadAt.pts_le {u v : State} {pa n : Nat} {bs : List Byte} (h : ReadAt u pa n bs v) : u.me.pts ≤ v.me.pts := by
  obtain ⟨w, -, -, -, -, hme⟩ := h
  rw [hme]
  exact Nat.le_max_left _ _

theorem ReadAt.part {u v : State} {pa n : Nat} {bs : List Byte} (h : ReadAt u pa n bs v) : v.part = u.part := by
  obtain ⟨w, -, -, -, -, hme⟩ := h
  rw [State.part, hme]
  rfl

theorem ReadAt.length {u v : State} {pa n : Nat} {bs : List Byte} (h : ReadAt u pa n bs v) : bs.length = n := by
  obtain ⟨w, -, rfl, -⟩ := h
  simp

@[simp] theorem State.me_raise (s : State) (t : Nat) : (s.raise s.issue.lid t).me = s.me.raise t := State.core_setCore_self s _ _

@[simp] theorem State.slot_raise (s : State) (t : Nat) : (s.raise s.issue.lid t).slot = s.slot := by
  rw [State.slot, State.me_raise]
  rfl

@[simp] theorem State.issue_raise (s : State) (l t : Nat) : (s.raise l t).issue = s.issue := rfl

/-- A raised clock translates alike. -/
theorem translatesAs_raise (s : State) (t : Nat) : TranslatesAs s.issue.lid (s.raise s.issue.lid t) s := by
  refine ⟨?_, rfl, rfl, rfl, rfl, rfl⟩
  show _ = (s.raise s.issue.lid t).me.queue
  rw [State.me_raise]
  rfl

/-- A state taken back to one whose memory and errors are the same, and whose core runs in the same queue, translates alike. -/
theorem translatesAs_backTo {l : Nat} {s s0 : State} (hq : (s0.core l).queue = (s.core l).queue) (hm : s0.mem = s.mem)
    (hb : s0.bad = s.bad) :
    TranslatesAs l s (s.backTo s0) := ⟨hq, hm, hb, rfl, rfl, rfl⟩

@[simp] theorem factorEntry_raise (s : State) (t d : Nat) : (s.raise s.issue.lid t).factorEntry d = s.factorEntry d := by
  simp only [State.factorEntry, State.a, State.g, State.slot_raise]

/-! ### The checks of an entry and the call (R150) -/

/-- The range of a factor record (R91). -/
theorem poolCheck_range (p : Word) (o n : Nat) : poolCheck p o 4 n =
    if o % 4 ≠ 0 then some (.align, u64 o) else if o < hndEnd p ∨ 0x6000 < o + n then some (.poolRange, u64 o) else none := by
  have h := inPool_toNat p n (Int.natCast_nonneg o)
  have hw : w64 (o : Int) = u64 o := by simp [w64, u64]
  simp only [Int.toNat_natCast] at h
  unfold poolCheck
  simp only [hw, Int.toNat_natCast, h]
  congr 1
  · exact propext (by omega)
  · congr 1
    exact propext (by omega)

/-- How `ftype` ends once its entry is there (R150): a trap of the state `s0` before the loads, or the call of the handler `h` from the
state `v` after them. -/
def FactorEnds (out : Out) (d k o : Nat) (p : Word) (next : DWord) (h : Nat) (bs : List Byte) (s0 v : State) : Prop :=
  let nv := leNat (bs.take 2)
  let sz := leNat ((bs.drop 2).take 2)
  if nv < 1 ∨ 64 < nv ∨ sz % 4 ≠ 0 ∨ sz < 4 ∨ 4096 < sz ∨ h % 2 ≠ 0 ∨ leNat (bs.drop 4) ≠ 0 then
    out = trap .slot (u64 (6 * 2 ^ 32 + k)) (v.backTo s0)
  else if o % 4 ≠ 0 then out = trap .align (u64 o) (v.backTo s0)
  else if o < hndEnd p ∨ 0x6000 < o + sz then out = trap .poolRange (u64 o) (v.backTo s0)
  else u64 h ≠ END → ∃ t, out = .next t ∧ Z (t.g d) = nv ∧ t.a 7 = next ∧ Went v v.me v.slot [d] [7] (u64 h) v t

theorem ftypeGot_ends {d n k o h : Nat} {p : Word} {next : DWord} {bs : List Byte} {s0 v : State} (hk : Z (v.g d) = k) (ho : Z (v.g n) = o)
    (hp : v.part = p) (hn : v.next = next) (hh : leNat ((v.slot.half.getD []).take 8) = h)
    (hc : leNat (((v.slot.half.getD []).drop 8).take 8) ≤ v.me.pts) : FactorEnds (ftypeGot d n s0 bs v) d k o p next h bs s0 v := by
  subst hp hn
  unfold FactorEnds ftypeGot
  intro nv sz
  dsimp only
  rw [hk, ho, hh, poolCheck_range]
  by_cases h1 : nv < 1 ∨ 64 < nv ∨ sz % 4 ≠ 0 ∨ sz < 4 ∨ 4096 < sz ∨ h % 2 ≠ 0 ∨ leNat (bs.drop 4) ≠ 0
  · rw [if_pos h1, if_pos h1]
  rw [if_neg h1, if_neg h1]
  by_cases h2 : o % 4 ≠ 0
  · rw [if_pos h2, if_pos h2]
  rw [if_neg h2, if_neg h2]
  by_cases h3 : o < hndEnd v.part ∨ 0x6000 < o + sz
  · rw [if_pos h3, if_pos h3]
  rw [if_neg h3, if_neg h3]
  intro hend
  have hask : v.askClock = v.me.pts := Nat.max_eq_left hc
  have hnv : nv < 2 ^ 32 := by
    simp only [not_or] at h1
    omega
  have hraise : (v.raise v.issue.lid v.askClock).me = v.me := by
    rw [hask, State.me_raise, Core.raise, Nat.max_self]
  refine ⟨_, rfl, ?_, ?_, went_finish hend rfl rfl (fun l hl => ?_) ?_ (fun j hj => ?_) ?_ ⟨fun j hj => ?_, fun j hj => ?_⟩⟩
  · rw [State.g, State.slot_finish _ hend]
    simp only [State.slot_wra, State.slot_wr, Slot.wra_regs, Slot.wr, Map.get_set_self]
    exact Nat.mod_eq_of_lt hnv
  · rw [State.a, State.slot_finish _ hend]
    simp [Slot.wra]
  · exact (State.core_setCore_ne _ _ hl).trans ((State.core_setCore_ne _ _ hl).trans (State.core_setCore_ne v _ hl))
  · simp only [State.wra, State.wr, State.me_setSlot, State.issue_setSlot, hraise]
    exact (onlySlots_setSlot _ _ _).trans (onlySlots_setSlot _ _ _)
  · simp only [State.wra, State.wr, State.me_setSlot, State.issue_setSlot, hraise]
    exact (Core.slot_setSlot_ne _ _ hj).trans (Core.slot_setSlot_ne _ _ hj)
  · rw [State.slot_wra, State.slot_wr, State.slot_raise]
    rfl
  · rw [State.g_wra, State.g_wr, if_neg (by simpa using hj), State.g, State.slot_raise]
    rfl
  · rw [State.a_wra, if_neg (by simpa using hj), State.a_wr, State.a, State.slot_raise]
    rfl

/-! ### Where a load ends in its step -/

theorem State.resolve_snd_congr {l va : Nat} {acc : Acc} {s t : State} (h : TranslatesAs l s t) :
    (t.resolve l va acc).2 = (s.resolve l va acc).2  := by
  rw [State.resolve_congr h (Prod.eta (s.resolve l va acc)).symm]

theorem State.loadsNow_iff (s : State) (va : DWord) (n : Nat) : s.loadsNow va n = true ↔ s.prompt = true ∧ va.toNat % n = 0 ∧
    ∃ pa, (s.resolve s.issue.lid va.toNat .rd).2 = .ok (.memory pa) ∧ s.badIn pa n = false := by
  unfold State.loadsNow
  rw [Bool.and_eq_true, Bool.and_eq_true, beq_iff_eq, and_assoc]
  refine and_congr_right fun _ => and_congr_right fun _ => ?_
  split
  · next pa h => simp [h]
  · next h =>
    refine iff_of_false Bool.false_ne_true ?_
    rintro ⟨pa, h', -⟩
    exact h pa h'

/-- States that translate alike have the same loads end in their step. -/
theorem State.loadsNow_congr {s t : State} (h : TranslatesAs s.issue.lid s t) (hi : t.issue = s.issue) (hp : t.prompt = s.prompt)
    (va : DWord) (n : Nat) : t.loadsNow va n = s.loadsNow va n := by
  have hb : ∀ pa, t.badIn pa n = s.badIn pa n := fun pa => by rw [State.badIn, State.badIn, h.bad]
  rw [Bool.eq_iff_iff, State.loadsNow_iff, State.loadsNow_iff, hi, hp, State.resolve_snd_congr h]
  simp only [hb]

/-- Translation leaves the errors of memory. -/
theorem State.badIn_resolve {l va : Nat} {acc : Acc} {s u : State} {r : Except Cause Place} (h : s.resolve l va acc = (u, r)) (pa n : Nat) :
    u.badIn pa n = s.badIn pa n := by
  rw [State.resolve_frame h]
  rfl

theorem ftypeHigh_loads {d n l pa : Nat} {va : DWord} {s0 s u : State} (hl : s.issue.lid = l) (hv : s.factorEntry d + 8 = va)
    (ha : va.toNat % 8 = 0) (hp : s.prompt = true) (hr : s.resolve l va.toNat .rd = (u, .ok (.memory pa))) (hb : u.badIn pa 8 = false) :
    ftypeHigh d n s0 s = homeThen (.ftype d n) va pa (.load 8) (ftypeGot d n s0) u := by
  subst hl hv
  have hload : s.loadsNow (s.factorEntry d + 8) 8 = true :=
    (State.loadsNow_iff s _ _).2 ⟨hp, ha, pa, congrArg Prod.snd hr, (State.badIn_resolve hr pa 8).symm.trans hb⟩
  unfold ftypeHigh
  dsimp only
  rw [if_pos hload]
  exact accessThen_memory _ rfl ha hr

theorem ftypeHigh_stops {d n : Nat} {va : DWord} {s0 s : State} (hv : s.factorEntry d + 8 = va) (h : s.loadsNow va 8 = false) :
    ftypeHigh d n s0 s = accessThen (.ftype d n) va 8 (.load 8) (ftypeGot d n s0) (s.backTo s0) := by
  subst hv
  unfold ftypeHigh
  dsimp only
  rw [h, if_neg Bool.false_ne_true]

/-! ### The two loads -/

section
variable {d n : Nat} {s : State} (hacc : s.accepts 1 = true)
include hacc

theorem exec_ftype_first (h : s.slot.half = none) :
    exec (.ftype d n) s = accessThen (.ftype d n) (s.factorEntry d) 8 (.load 8) (ftypeLow d n s) s := by
  have he : execFtype d n s = _ := inGroup_of_accepts hacc
  refine Eq.trans he ?_
  rw [h]
  rfl

theorem exec_ftype_second {lo : List Byte} (h : s.slot.half = some lo) :
    exec (.ftype d n) s = ftypeHigh d n s (s.raise s.issue.lid s.askClock) := by
  have he : execFtype d n s = _ := inGroup_of_accepts hacc
  refine Eq.trans he ?_
  rw [h]
  rfl

/-- The doubleword that `ftype` loads next. -/
def State.factorNext (s : State) (d : Nat) : DWord := s.factorEntry d + if s.slot.half = none then 0#64 else 8

/-- An `ftype` whose next load does not end in its step makes that access from the state it is in. -/
theorem exec_ftype_stops (h : s.loadsNow (s.factorNext d) 8 = false) :
    ∃ k, exec (.ftype d n) s = accessThen (.ftype d n) (s.factorNext d) 8 (.load 8) k s := by
  unfold State.factorNext at *
  cases hh : s.slot.half with
  | none =>
    rw [if_pos rfl, BitVec.add_zero]
    exact ⟨_, exec_ftype_first hacc hh⟩
  | some lo =>
    rw [hh, if_neg (by simp)] at h
    rw [if_neg (by simp)]
    have hr := State.loadsNow_congr (s := s.raise s.issue.lid s.askClock) (t := s) (translatesAs_raise s s.askClock) rfl rfl
      (s.factorEntry d + 8) 8
    exact ⟨_, (exec_ftype_second hacc hh).trans (ftypeHigh_stops (by rw [factorEntry_raise]) (hr.symm.trans h))⟩

end

end Sys2Proof.Machine
end

section
/-! PROOF. Factor dispatch (R150): the four clauses, by what has been loaded. -/

namespace Sys2Proof.Machine

/-- A number below 256^n is read back from its n bytes. -/
theorem leNat_leBytes (v n : Nat) : leNat (leBytes v n) = v % 256 ^ n := by
  induction n generalizing v with
  | zero => simp [leBytes, leNat, Nat.mod_one]
  | succ n ih =>
    rw [leBytes, leNat, ih, BitVec.toNat_ofNat, show 256 ^ (n + 1) = 256 * 256 ^ n from Nat.pow_succ']
    exact Nat.mod_mul.symm

@[simp] theorem length_leBytes (v n : Nat) : (leBytes v n).length = n := by
  induction n generalizing v with
  | zero => rfl
  | succ n ih => simp [leBytes, ih]

theorem factorNext_eq {s : State} {d k : Nat} (hk : k = Z (s.g d)) :
    s.factorNext d = w64 ((s.a 6).toNat + 16 * k + if s.slot.half = none then 0 else 8) := by
  subst hk
  unfold State.factorNext State.factorEntry
  split
  · simp
  · simp [w64, BitVec.ofInt_add]

theorem factorNext_first {s : State} {d : Nat} (h : s.slot.half = none) : s.factorNext d = s.factorEntry d := by
  rw [State.factorNext, if_pos h, BitVec.add_zero]

theorem factorNext_second {s : State} {d : Nat} {lo : List Byte} (h : s.slot.half = some lo) : s.factorNext d = s.factorEntry d + 8 := by
  rw [State.factorNext, h, if_neg (by simp)]

/-! ### An access that does not end in its step -/

/-- R257: an odd address traps before any load. -/
theorem ftype_misaligned {d n : Nat} {s : State} (hacc : s.accepts 1 = true) (ha : (s.factorNext d).toNat % 8 ≠ 0) :
    Traps (.ftype d n) s .align (s.factorNext d) := by
  have hno : s.loadsNow (s.factorNext d) 8 = false := by
    rw [Bool.eq_false_iff, ne_eq, State.loadsNow_iff]
    exact fun h => ha h.2.1
  obtain ⟨k, hk⟩ := exec_ftype_stops (n := n) hacc hno
  exact hk.trans (accessThen_misaligned _ _ ha)

section
variable {d n : Nat} {s u : State} (hacc : s.accepts 1 = true) (ha : (s.factorNext d).toNat % 8 = 0)
include hacc ha

/-- R258: the failure of a translation. -/
theorem ftype_error {c : Cause} (hr : s.resolve s.issue.lid (s.factorNext d).toNat .rd = (u, .error c)) :
    exec (.ftype d n) s = trap c (s.factorNext d) u := by
  have hno : s.loadsNow (s.factorNext d) 8 = false := by
    rw [Bool.eq_false_iff, ne_eq, State.loadsNow_iff, hr]
    simp
  obtain ⟨k, hk⟩ := exec_ftype_stops (n := n) hacc hno
  exact hk.trans (accessThen_error _ rfl ha hr)

/-- R277: an uncorrectable sector. -/
theorem ftype_bad {pa : Nat} (hr : s.resolve s.issue.lid (s.factorNext d).toNat .rd = (u, .ok (.memory pa)))
    (hp : u.prompt = true) (hb : u.badIn pa 8 = true) : exec (.ftype d n) s = trap .memErr (s.factorNext d) u.report := by
  have hno : s.loadsNow (s.factorNext d) 8 = false := by
    rw [Bool.eq_false_iff, ne_eq, State.loadsNow_iff, hr]
    rintro ⟨-, -, pa', hpa, hb'⟩
    cases hpa
    rw [← State.badIn_resolve hr, hb] at hb'
    cases hb'
  obtain ⟨k, hk⟩ := exec_ftype_stops (n := n) hacc hno
  exact hk.trans ((accessThen_memory _ rfl ha hr).trans (homeThen_bad _ rfl hp hb))

/-- R264: a load under way, with the clock that it asks for. -/
theorem ftype_waits {pa : Nat} (hr : s.resolve s.issue.lid (s.factorNext d).toNat .rd = (u, .ok (.memory pa)))
    (hp : u.prompt = false) : Runs (.ftype d n) s fun t => (∃ q : HomeReq, t.reqs = s.reqs ++ [q] ∧ q.lid = s.issue.lid ∧
      q.slot = s.issue.slot ∧ q.pa = pa ∧ q.op = .load 8 ∧ q.answer = none ∧
      q.clock = max s.me.pts (leNat (((s.slot.half.getD []).drop 8).take 8))) ∧
      ∃ w, t.slot = { s.slot with wait := some w, pc := s.issue.start } ∧ w.instr = .ftype d n := by
  have hu := State.resolve_frame hr
  have hno : s.loadsNow (s.factorNext d) 8 = false := by
    rw [Bool.eq_false_iff, ne_eq, State.loadsNow_iff]
    rintro ⟨hp', -⟩
    rw [hu] at hp
    exact absurd (hp.symm.trans hp') Bool.false_ne_true
  obtain ⟨k, hk⟩ := exec_ftype_stops (n := n) hacc hno
  obtain ⟨t, q, w, ht, hq, hlid, hslot, hpa, hop, hans, hclock, hw, hi⟩ :=
    homeThen_waits (i := .ftype d n) (va := s.factorNext d) (pa := pa) 8 k rfl hp
  rw [hu] at hq hlid hslot hclock hw
  exact ⟨t, hk.trans ((accessThen_memory _ rfl ha hr).trans ht), ⟨q, hq, hlid, hslot, hpa, hop, hans, hclock⟩, w, hw, hi⟩

end

/-! ### The second load -/

/-- Where the second load ends in its step, `ftype` ends as its entry says (R150): from a state `r` whose `half` is there, with `s0`
the state before the loads. -/
theorem ftypeHigh_ends {d n k o h l pa : Nat} {p : Word} {next va : DWord} {b : List Byte} {s0 r u : State} (hl : r.issue.lid = l)
    (hv : r.factorEntry d + 8 = va) (ha : va.toNat % 8 = 0) (hp : r.prompt = true)
    (hr : r.resolve l va.toNat .rd = (u, .ok (.memory pa))) (hb : u.badIn pa 8 = false) (hf : Fits u (u.me.pts + u.leaseOf l))
    (hk : Z (r.g d) = k) (ho : Z (r.g n) = o) (hpart : r.part = p) (hn : r.next = next) (hh : r.slot.half = some b)
    (hlo : leNat (b.take 8) = h) (hc : leNat ((b.drop 8).take 8) ≤ r.me.pts) :
    ∃ bs v, ReadAt u pa 8 bs v ∧ FactorEnds (ftypeHigh d n s0 r) d k o p next h bs s0 v := by
  have hu := State.resolve_frame hr
  have hui : u.issue = r.issue := by rw [hu]; rfl
  have hup : u.prompt = r.prompt := by rw [hu]; rfl
  have hum : u.me = r.me := by rw [hu]; rfl
  obtain ⟨bs, v, hread, hgo⟩ := homeThen_load (pa := pa) 8 (hup.trans hp) hb (by rw [hui, hl]; exact hf)
  have hslot : v.slot = r.slot := by rw [hread.slot, State.slot, hum, hui]; rfl
  refine ⟨bs, v, hread, ?_⟩
  rw [ftypeHigh_loads hl hv ha hp hr hb, hgo]
  refine ftypeGot_ends ?_ ?_ ?_ ?_ ?_ ?_
  · rw [State.g, hslot]; exact hk
  · rw [State.g, hslot]; exact ho
  · rw [hread.part, State.part, hum]; exact hpart
  · rw [State.next, hread.issue, hui]; exact hn
  · rw [hslot, hh]; exact hlo
  · rw [hslot, hh]
    exact hc.trans (hum ▸ hread.pts_le)

/-! ### Both loads -/

/-- The state in which an `ftype` keeps what the load of its entry's first doubleword has brought (R59). -/
def State.keepsHalf (s : State) (b : List Byte) : State := s.setSlot { s.slot with half := some b }

theorem ftypeLow_eq {d n : Nat} {s v : State} {lo : List Byte} (h : lo.length = 8) :
    ftypeLow d n s lo v = ftypeHigh d n (s.keepsHalf (lo ++ leBytes v.me.pts 8)) (v.keepsHalf (lo ++ leBytes v.me.pts 8)) := by
  have hpad : padTo (lo.take 8) 8 = lo := by simp [padTo, List.take_of_length_le h.le, h]
  unfold ftypeLow
  rw [hpad]
  rfl

end Sys2Proof.Machine
end

section
/-! PROOF. Factor dispatch (R150): from the first load to the end. -/

namespace Sys2Proof.Machine

theorem State.slot_keepsHalf (s : State) (b : List Byte) : (s.keepsHalf b).slot = { s.slot with half := some b } := State.slot_setSlot s _

theorem State.me_keepsHalf (s : State) (b : List Byte) :
    (s.keepsHalf b).me = s.me.setSlot s.issue.slot { s.slot with half := some b } := State.me_setSlot s _

theorem State.g_keepsHalf (s : State) (b : List Byte) (n : Nat) : (s.keepsHalf b).g n = s.g n := by rw [State.g, State.slot_keepsHalf]; rfl

theorem State.factorEntry_keepsHalf (s : State) (b : List Byte) (d : Nat) : (s.keepsHalf b).factorEntry d = s.factorEntry d := by
  simp only [State.factorEntry, State.g_keepsHalf, State.a, State.slot_keepsHalf]

/-- `v` is the state after the load of the first doubleword `lo` of an entry from `s`, which was read at `pa`. -/
structure FirstLoad (s v : State) (lo : List Byte) : Prop where
  frame : v = { s with lines := v.lines, teams := v.teams, free := v.free, queues := v.queues, dev := v.dev, cores := v.cores }
  core : v.me = { s.me with pts := v.me.pts, l1 := v.me.l1 }
  length : lo.length = 8

theorem FirstLoad.of_readAt {s u v : State} {va pa : Nat} {lo : List Byte} {r : Except Cause Place}
    (hr : s.resolve s.issue.lid va .rd = (u, r)) (h : ReadAt u pa 8 lo v) : FirstLoad s v lo := by
  have hu := State.resolve_frame hr
  have hum : u.me = s.me := by rw [hu]; rfl
  have hlen := h.length
  obtain ⟨w, -, -, hv, -, hme⟩ := h
  refine ⟨?_, ?_, hlen⟩
  · rw [hv, hu]; rfl
  · rw [hme, hum]

section
variable {s v : State} {lo : List Byte} (h : FirstLoad s v lo) (b : List Byte)
include h

theorem FirstLoad.issue : v.issue = s.issue := by rw [h.frame]

theorem FirstLoad.slot : v.slot = s.slot := by
  rw [State.slot, h.issue, h.core]
  rfl

/-- The state before the loads, with what the TLBs hold and the errors reported after the first, translates as the state after it. -/
theorem FirstLoad.translatesAs : TranslatesAs s.issue.lid (v.keepsHalf b) ((v.keepsHalf b).backTo (s.keepsHalf b)) := by
  refine translatesAs_backTo ?_ ?_ ?_
  · have hs : ((s.keepsHalf b).core s.issue.lid).queue = s.me.queue :=
      (congrArg Core.queue (s.me_keepsHalf b)).trans rfl
    have hv : ((v.keepsHalf b).core v.issue.lid).queue = v.me.queue :=
      (congrArg Core.queue (v.me_keepsHalf b)).trans rfl
    rw [h.issue] at hv
    rw [hs, hv, h.core]
  · show s.mem = v.mem
    rw [h.frame]
  · show s.bad = v.bad
    rw [h.frame]

end

/-- R150: from an entry's first doubleword on: the trap of the second load from before both, or the end of the form. -/
theorem ftype_after_first {d n k o : Nat} {s v : State} {lo : List Byte} {eb : DWord} (h : FirstLoad s v lo)
    (hk : k = Z (s.g d)) (ho : o = Z (s.g n)) (hb : s.factorEntry d + 8 = eb) (ha : eb.toNat % 8 = 0) (hp : s.prompt = true) :
    let kept (x : State) : State := x.keepsHalf (lo ++ leBytes v.me.pts 8)
    let out := ftypeHigh d n (kept s) (kept v)
    (∀ w c, (kept v).resolve s.issue.lid eb.toNat .rd = (w, .error c) →
      ∃ x, out = trap c eb x ∧ x = { kept s with free := x.free, queues := x.queues, dev := x.dev }) ∧
    ∀ w pb, (kept v).resolve s.issue.lid eb.toNat .rd = (w, .ok (.memory pb)) →
      (w.badIn pb 8 = true → ∃ x, out = trap .memErr eb x ∧ x = { kept s with free := x.free, queues := x.queues, dev := x.dev }) ∧
      (w.badIn pb 8 = false → v.me.pts < 2 ^ 64 → Fits w (w.me.pts + w.leaseOf s.issue.lid) →
        ∃ bs x, ReadAt w pb 8 bs x ∧ FactorEnds out d k o s.me.part s.next (leNat lo) bs (kept s) x) := by
  intro kept out
  have hv : (kept v).factorEntry d + 8 = eb := by
    rw [State.factorEntry_keepsHalf, State.factorEntry, State.a, State.g, h.slot]
    exact hb
  have hl : (kept v).issue.lid = s.issue.lid := congrArg Issue.lid h.issue
  have htr := h.translatesAs (lo ++ leBytes v.me.pts 8)
  refine ⟨fun w c hw => ?_, fun w pb hw => ⟨fun hbad => ?_, fun hbad hlt hf => ?_⟩⟩
  · have hno : (kept v).loadsNow eb 8 = false := by
      rw [Bool.eq_false_iff, ne_eq, State.loadsNow_iff, hl, hw]
      simp
    exact ⟨_, (ftypeHigh_stops hv hno).trans (accessThen_error _ rfl ha (State.resolve_congr htr hw)), rfl⟩
  · have hno : (kept v).loadsNow eb 8 = false := by
      rw [Bool.eq_false_iff, ne_eq, State.loadsNow_iff, hl, hw]
      rintro ⟨-, -, pa', hpa, hb'⟩
      cases hpa
      rw [← State.badIn_resolve hw, hbad] at hb'
      cases hb'
    have hbad' : (w.backTo ((kept v).backTo (kept s))).badIn pb 8 = true := by
      rw [← hbad, State.badIn_resolve hw]
      show s.badIn pb 8 = v.badIn pb 8
      rw [h.frame]
      rfl
    exact ⟨_, (ftypeHigh_stops hv hno).trans ((accessThen_memory _ rfl ha (State.resolve_congr htr hw)).trans
      (homeThen_bad _ rfl hp hbad')), rfl⟩
  · have hpv : (kept v).prompt = true := by
      show v.prompt = true
      rw [h.frame]
      exact hp
    have hg : ∀ j, (kept v).g j = s.g j := fun j => by rw [State.g_keepsHalf, State.g, h.slot]; rfl
    refine ftypeHigh_ends hl hv ha hpv hw hbad hf ?_ ?_ ?_ ?_ (congrArg Slot.half (v.slot_keepsHalf _)) ?_ ?_
    · rw [hg, hk]
    · rw [hg, ho]
    · rw [State.part, v.me_keepsHalf]
      show v.me.part = s.me.part
      rw [h.core]
    · show v.next = s.next
      rw [State.next, h.issue]
      rfl
    · rw [List.take_left' h.length]
    · rw [List.drop_left' h.length, List.take_of_length_le (length_leBytes _ _).le, leNat_leBytes,
      Nat.mod_eq_of_lt (show v.me.pts < 256 ^ 8 from hlt)]
      exact (congrArg Core.pts (v.me_keepsHalf _)).ge

/-- R150: an entry whose first doubleword is there. -/
theorem ftype_second_ends {d n k o pa : Nat} {s u : State} {lo : List Byte} {ea : DWord} (hacc : s.accepts 1 = true)
    (hk : k = Z (s.g d)) (ho : o = Z (s.g n)) (hv : s.factorEntry d + 8 = ea) (ha : ea.toNat % 8 = 0) (hlo : s.slot.half = some lo)
    (hp : u.prompt = true)
    (hr : (s.raise s.issue.lid (leNat ((lo.drop 8).take 8))).resolve s.issue.lid ea.toNat .rd = (u, .ok (.memory pa)))
    (hb : u.badIn pa 8 = false) (hf : Fits u (u.me.pts + u.leaseOf s.issue.lid)) :
    ∃ bs v, ReadAt u pa 8 bs v ∧ FactorEnds (exec (.ftype d n) s) d k o s.me.part s.next (leNat (lo.take 8)) bs s v := by
  have hu := State.resolve_frame hr
  have hraise : s.raise s.issue.lid s.askClock = s.raise s.issue.lid (leNat ((lo.drop 8).take 8)) := by
    rw [State.askClock, hlo]
    show s.setMe { s.me with pts := max s.me.pts (max s.me.pts _) } = _
    rw [← Nat.max_assoc, Nat.max_self]
    rfl
  rw [exec_ftype_second hacc hlo, hraise]
  have hp' : s.prompt = true := by rw [← hp, hu]; rfl
  refine ftypeHigh_ends rfl (by rw [factorEntry_raise, hv]) ha hp' hr hb hf ?_ ?_ ?_ rfl (by rw [State.slot_raise]; exact hlo) rfl ?_
  · rw [State.g, State.slot_raise, hk]; rfl
  · rw [State.g, State.slot_raise, ho]; rfl
  · rw [State.part, State.me_raise]; rfl
  · rw [State.me_raise]
    exact Nat.le_max_right _ _

/-- R150, R264: factor dispatch. -/
theorem factorDispatch : Part.FactorDispatch := by
  intro d n k o s ea hacc hk ho hea ends
  have hnext : s.factorNext d = ea := (factorNext_eq hk).trans hea.symm
  subst hnext
  refine ⟨fun h => ftype_misaligned hacc h, fun u ha => ⟨fun c hr => ftype_error hacc ha hr, fun pa hr =>
    ⟨fun hp => ftype_waits hacc ha hr hp, fun hp hb => ftype_bad hacc ha hr hp hb⟩⟩, fun u pa lo ha hlo hp hr hb hf => ?_,
    fun u pa ha hno hp hr hb hf => ?_⟩
  · exact ftype_second_ends hacc hk ho (factorNext_second hlo).symm ha hlo hp hr hb hf
  · have hu := State.resolve_frame hr
    have hi : u.issue = s.issue := by rw [hu]; rfl
    have hp' : s.prompt = true := by rw [← hp, hu]; rfl
    obtain ⟨lo, v, hread, hgo⟩ := homeThen_load (pa := pa) 8 hp hb (by rw [hi]; exact hf)
    have hfirst := FirstLoad.of_readAt hr hread
    have he := factorNext_first (d := d) hno
    have hexec : exec (.ftype d n) s = ftypeLow d n s lo v := by
      rw [exec_ftype_first hacc hno, ← he, accessThen_memory _ rfl ha hr, hgo]
    rw [ftypeLow_eq hfirst.length] at hexec
    have ha' : (s.factorNext d + 8).toNat % 8 = 0 := by bv_omega
    obtain ⟨h1, h2⟩ := ftype_after_first (n := n) hfirst hk ho (by rw [he]) ha' hp'
    refine ⟨lo, v, hread, fun w c hw _ => ?_, fun w pb hw => ?_⟩
    · rw [hexec]
      exact h1 w c hw
    · show _ ∧ (_ → _ → _ → ∃ bs x, ReadAt w pb 8 bs x ∧ FactorEnds (exec (.ftype d n) s) d k o s.me.part s.next (leNat lo) bs _ x)
      rw [hexec]
      exact h2 w pb hw

/-- Settles O18: the window's forms change the core as R147 to R149 say, and `ftype` ends as its entry says after the loads of R150. -/
theorem convergenceAndFactors : Obligations.ConvergenceAndFactors := ⟨convergence, factorDispatch⟩

end Sys2Proof.Machine
end

section
/-! PROOF. The dispatcher (R155, R158, R160): which entry it takes, into which slot, and what a dispatched task starts with. -/

namespace Sys2Proof.Machine

/-! ### The entry taken -/

/-- R158: the entry taken is of its sort, none of a higher level is, and none of its level comes before it. -/
theorem pickEntry_spec {sort : QEntry → Bool} {q : List QEntry} {e : QEntry} (h : pickEntry sort q = some e) :
    e.level < 4 ∧ sort e = true ∧ (∀ x ∈ q, sort x = true → x.level < 4 → x.level ≤ e.level) ∧
      ∃ ls rs, q = ls ++ e :: rs ∧ ∀ x ∈ ls, sort x = true → x.level ≠ e.level := by
  obtain ⟨hi, v, lo, hsplit, hv, hnone⟩ := List.findSome?_eq_some_iff.1 h
  obtain ⟨hse, ls, rs, hq, hls⟩ := List.find?_eq_some_iff_append.1 hv
  rw [Bool.and_eq_true, beq_iff_eq] at hse
  obtain ⟨hsort, rfl⟩ := hse
  have hmem : ∀ u, u < 4 ↔ u ∈ hi ++ e.level :: lo := fun u => by
    rw [← hsplit]
    simp only [List.mem_cons, List.not_mem_nil, or_false]
    omega
  refine ⟨(hmem _).2 (by simp), hsort, fun x hx hsx hx4 => ?_, ls, rs, hq, fun x hx hsx heq => ?_⟩
  · have hdec : (hi ++ e.level :: lo).Pairwise (· > ·) := by rw [← hsplit]; decide
    rcases List.mem_append.1 ((hmem _).1 hx4) with hhi | hlo
    · have := List.find?_eq_none.1 (hnone _ hhi) x hx
      simp [hsx] at this
    · rcases List.mem_cons.1 hlo with heq | hlo
      · exact heq.le
      · exact ((List.pairwise_cons.1 (List.pairwise_append.1 hdec).2.1).1 _ hlo).le
  · have := hls x hx
    simp [hsx, heq] at this

/-! ### The run queue -/

/-- A pending node that enters the queue changes queue and nodes alone (R170). -/
theorem Core.settleNodes_eq (c : Core) : ∃ q ns, c.settleNodes = { c with runq := q, nodes := ns } := by
  unfold Core.settleNodes
  split
  · split
    · exact ⟨_, _, rfl⟩
    · exact ⟨_, _, rfl⟩
  · exact ⟨_, _, rfl⟩

/-- A dispatch changes the queue, its nodes and its count alone (R160). -/
theorem Core.dequeue_eq (c : Core) (e : QEntry) : ∃ q ns, c.dequeue e = { c with runq := q, nodes := ns, age := (c.age + 1) % 256 } := by
  obtain ⟨q, ns, h⟩ := Core.settleNodes_eq { c with
    runq := if (c.age + 1) % 256 = 0 then ageQueue (c.runq.erase e) else c.runq.erase e, age := (c.age + 1) % 256 }
  exact ⟨q, ns, h⟩

/-- Where nothing ages and no node is pending, a dispatch takes its entry out of the queue. -/
theorem Core.runq_dequeue {c : Core} (e : QEntry) (hage : (c.age + 1) % 256 ≠ 0) (hn : ∀ n, n < 32 → (c.node n).pend = false) :
    (c.dequeue e).runq = c.runq.erase e := by
  have hfind : ((List.range 32).find? fun n => (c.node n).pend) = none :=
    List.find?_eq_none.2 fun n h => by simp [hn n (List.mem_range.1 h)]
  unfold Core.dequeue Core.settleNodes
  dsimp only
  rw [if_neg hage]
  have hnode : ∀ n, Core.node { c with runq := c.runq.erase e, age := (c.age + 1) % 256 } n = c.node n := fun _ => rfl
  simp only [hnode, hfind]

/-! ### The slot taken -/

theorem partC_le (p : Word) : partC p ≤ 4 := by
  have : bits p.toNat 30 2 < 4 := Nat.mod_lt _ (by decide)
  unfold partC
  omega

theorem Core.lt_of_mem_freeSlots {c : Core} {k : Nat} (h : k ∈ c.freeSlots) : k < 4 :=
  Nat.lt_of_lt_of_le (List.mem_range.1 (List.mem_filter.1 h).1) (partC_le _)

/-- One of several slots is one of them, and only the free values change (log entry 4). -/
theorem State.pickSlot_spec (s : State) {ks : List Nat} (h : ks ≠ []) :
    ∃ f j, j ∈ ks ∧ s.pickSlot ks = ({ s with free := f }, j) := by
  unfold State.pickSlot
  split
  · exact ⟨_, _, List.mem_singleton_self _, rfl⟩
  · have hlt : (s.choose ks.length).2 < ks.length := Nat.mod_lt _ (List.length_pos_iff.2 h)
    refine ⟨_, _, ?_, rfl⟩
    rw [List.getD_eq_getElem _ _ hlt]
    exact List.getElem_mem hlt

/-- The state in which an entry has left core l's queue, with these free values and serials used. -/
def State.taking (s : State) (l : Nat) (e : QEntry) (free serial : Nat) : State :=
  { s.setCore l ((s.core l).dequeue e) with free := free, serial := serial }

/-- Where the dispatcher has a task and a free slot, it dispatches that task into one. -/
theorem execTaskDispatch_eq {s : State} {l : Nat} {e : QEntry} (he : (s.core l).nextTask = some e) (hf : (s.core l).freeSlots ≠ []) :
    ∃ f, ∃ k ∈ (s.core l).freeSlots, execTaskDispatch l s = .next ((s.taking l e f s.serial).dispatchTo l k e) := by
  obtain ⟨k0, ks, hks⟩ := List.exists_cons_of_ne_nil hf
  obtain ⟨f, k, hk, hpick⟩ := s.pickSlot_spec hf
  refine ⟨f, k, hk, ?_⟩
  unfold execTaskDispatch
  rw [hks] at hpick
  rw [he, hks]
  dsimp only
  rw [hpick]
  rfl

/-! ### The task's registers -/

section
variable (x : Slot) (o : Origin) (serial prio : Nat) (start : DWord) (args : Map Word)

/-- R155: the arguments are the first four general registers. -/
theorem Slot.get_regs_dispatch (n : Nat) :
    Map.get 0 (x.dispatch o serial prio start args).regs n = if n < 4 then Map.get 0 args n else Map.get 0 x.regs n :=
  Map.get_copy4 0 x.regs args n

/-- R155: a7 holds END. -/
theorem Slot.get_aregs_dispatch (n : Nat) :
    Map.get 0 (x.dispatch o serial prio start args).aregs n = if n = 7 then END else Map.get 0 x.aregs n :=
  Map.get_set 0 x.aregs 7 n END

/-- R190: STAT has its priority field alone. -/
theorem Slot.stat_dispatch : Z (x.dispatch o serial prio start args).stat = 8 * prio % 2 ^ 32 := BitVec.toNat_ofNat _ _

theorem Slot.inh_dispatch : statInh (x.dispatch o serial prio start args).stat = 0 := by
  have h := x.stat_dispatch o serial prio start args
  unfold Z at h
  unfold statInh bits
  omega

end

/-! ### The dispatch -/

section
variable (s : State) (l f n : Nat) (e : QEntry)

/-- Taking an entry leaves every context. -/
theorem State.slotAt_taking (j : Nat) : (s.taking l e f n).slotAt l j = s.slotAt l j := by
  obtain ⟨q, ns, h⟩ := (s.core l).dequeue_eq e
  show Core.slot (State.core (s.setCore l _) l) j = _
  rw [State.core_setCore_self, h]
  rfl

theorem State.dispatchTo_of_ne_service (k : Nat) (h : e.kind ≠ .service) : (s.taking l e f n).dispatchTo l k e =
    (s.taking l e f (n + 1)).setSlotAt l k ((s.slotAt l k).dispatch e.kind.origin n e.level e.start e.args) := by
  rw [← s.slotAt_taking l f n e k]
  unfold State.dispatchTo
  rw [if_neg h]
  dsimp only
  split
  · next hk _ => exact absurd hk h
  · rfl

theorem State.dispatchTo_service (k : Nat) {x : Flit} (h : e.kind = .service) (hx : e.flit = some x) : (s.taking l e f n).dispatchTo l k e =
    ((s.taking l e f (n + 1)).setSlotAt l k ((s.slotAt l k).dispatch .service n e.level e.start [])).takeTrap l k (u32 Cause.soft.code)
      (u64 (x.w0.toNat + 2 ^ 32 * (x.w1.toNat % 2 ^ 16))) END := by
  rw [← s.slotAt_taking l f n e k]
  unfold State.dispatchTo
  rw [if_pos h, h, hx]
  rfl

end

theorem OnlyContextAt.trans {l k : Nat} {x y : Slot} {s m t : State} (h : OnlyContextAt l k x s m) (h' : OnlyContextAt l k y m t) :
    OnlyContextAt l k y s t := by
  obtain ⟨hmod, hcores, honly, hslots, -, hmem⟩ := h
  obtain ⟨hmod', hcores', honly', hslots', hy, hmem'⟩ := h'
  refine ⟨?_, fun j hj => (hcores' j hj).trans (hcores j hj), honly.trans honly', fun j hj => (hslots' j hj).trans (hslots j hj), hy,
    fun a => (hmem' a).trans (hmem a)⟩
  unfold SameModule at *
  rw [hmod', hmod]

/-- What a dispatch leaves: every other context, every other core and memory. -/
theorem dispatch_frame {s t : State} {l f k n : Nat} {e : QEntry} {y : Slot} (h : OnlyContextAt l k y (s.taking l e f n) t) :
    t.slotAt l k = y ∧ (∀ j, j ≠ k → t.slotAt l j = s.slotAt l j) ∧ SameCores l s t ∧ SameMemory s t := by
  obtain ⟨-, hcores, -, hslots, hy, hmem⟩ := h
  exact ⟨hy, fun j hj => (hslots j hj).trans (s.slotAt_taking l f n e j), fun j hj => (hcores j hj).trans (State.core_setCore_ne s _ hj),
    hmem⟩

/-- R155, R158, R199: what the dispatcher takes and starts. -/
theorem taskDispatch : Part.TaskDispatch := by
  refine ⟨fun sort q e hq h => ?_, ?_, ?_⟩
  · obtain ⟨-, hs, hmax, ls, rs, hsplit, hls⟩ := pickEntry_spec h
    have hle : ∀ x ∈ q, sort x = true → x.level ≤ e.level := fun x hx hsx => hmax x hx hsx (hq x hx)
    refine ⟨ls, rs, hsplit, hs, hle, fun x hx hsx => lt_of_le_of_ne (hle x ?_ hsx) (hls x hx hsx)⟩
    rw [hsplit]
    exact List.mem_append_left _ hx
  · rintro l s c e f rfl he hk hf hfree
    obtain ⟨fr, k, hmem, hrun⟩ := execTaskDispatch_eq he hfree
    rw [s.dispatchTo_service l fr s.serial e k hk hf] at hrun
    have hx := (s.taking l e fr (s.serial + 1)).slotAt_setSlotAt_self l k ((s.slotAt l k).dispatch .service s.serial e.level e.start [])
    obtain ⟨y, hy, honly⟩ := entered_takeTrap (u32 Cause.soft.code) (u64 (f.w0.toNat + 2 ^ 32 * (f.w1.toNat % 2 ^ 16))) END
      (Core.lt_of_mem_freeSlots hmem) ((congrArg (statInh ·.stat) hx).trans (Slot.inh_dispatch ..))
    rw [hx] at hy
    obtain ⟨hty, hframe⟩ := dispatch_frame ((onlyContextAt_setSlotAt ..).trans honly)
    refine ⟨_, hrun, k, hmem, (s.slotAt l k).dispatch .service s.serial e.level e.start [], rfl, Slot.stat_dispatch ..,
      fun n => Slot.get_regs_dispatch (args := []) .., ?_, hframe⟩
    rw [hty]
    exact hy
  · rintro l s c e rfl he hk hfree
    obtain ⟨fr, k, hmem, hrun⟩ := execTaskDispatch_eq he hfree
    rw [s.dispatchTo_of_ne_service l fr s.serial e k hk] at hrun
    obtain ⟨hty, hframe⟩ := dispatch_frame (onlyContextAt_setSlotAt (s.taking l e fr (s.serial + 1)) l k
      ((s.slotAt l k).dispatch e.kind.origin s.serial e.level e.start e.args))
    refine ⟨_, hrun, k, hmem, ?_⟩
    rw [hty]
    exact ⟨rfl, rfl, ⟨_, rfl, rfl⟩, rfl, Slot.stat_dispatch .., fun n => Slot.get_regs_dispatch ..,
      fun n => Slot.get_aregs_dispatch .., hframe⟩

end Sys2Proof.Machine
end

section
/-! PROOF. Service requests (R199, R361), and what leaving the mesh does (R186). -/

namespace Sys2Proof.Machine

/-! ### Leaving the mesh -/

/-- A clock whose offset is stored as it stands calls for no rebase (R268). -/
theorem State.roomFor_eq {s : State} {t : Nat} (h : t - s.base < 2 ^ 32) : s.roomFor t = s := by
  unfold State.roomFor
  rw [if_neg (by omega)]

/-- The greatest of clocks that fit fits. -/
theorem foldl_max_lt {α : Type} {f : α → Nat} {b m : Nat} (ys : List α) {a : Nat} (ha : a - b < m) (h : ∀ y ∈ ys, f y - b < m) :
    ys.foldl (fun n y => max n (f y)) a - b < m := by
  induction ys generalizing a with
  | nil => exact ha
  | cons y ys ih =>
    have hy := h y List.mem_cons_self
    have hmax : max a (f y) - b < m := by omega
    exact ih hmax fun z hz => h z (List.mem_cons_of_mem y hz)

/-- A flit with its sender's clock of this moment (R115, R265). -/
def State.stamped (s : State) (y : InFlight) : InFlight := { y with flit := { y.flit with low := s.lowClock y.flit.src } }

/-- Where the senders' clocks fit their flits, stamping changes flits alone. -/
theorem State.restamp_eq {s : State} (p : InFlight → Bool) (h : Clocked s) :
    s.restamp p = { s with flight := s.flight.map fun y => if p y then s.stamped y else y } := by
  unfold State.restamp
  dsimp only
  rw [State.roomFor_eq (foldl_max_lt _ (by simp) fun y hy => h y (List.mem_filter.1 hy).1)]
  rfl

/-- Whether a flit in flight is injected when `x` leaves (R186), and carries a clock. -/
def State.freedBy (s : State) (x y : InFlight) : Bool :=
  State.injected { s with flight := s.flight.erase x } y && !s.injected y && s.clocked y

theorem State.freedBy_iff (s : State) (x y : InFlight) : s.freedBy x y = true ↔ s.injected y = false ∧
    State.injected { s with flight := s.flight.erase x } y = true ∧ y.flit.kind ≠ .bounce ∧ (s.core y.flit.src).queue ≠ none ∧
      (s.core y.flit.src).uid = y.uid := by
  unfold State.freedBy State.clocked
  rw [← Option.isSome_iff_ne_none]
  simp only [Bool.and_eq_true, Bool.not_eq_true', bne_iff_ne, beq_iff_eq, ne_eq]
  tauto

/-- R186, R265: where the senders' clocks fit their flits, a flit that leaves changes what is in flight alone. -/
theorem State.land_eq {s : State} (x : InFlight) (h : Clocked s) :
    ∃ fs g, s.land x = { s with flight := fs, goldenStamp := g } ∧ Freed s x fs := by
  refine ⟨_, _, State.restamp_eq _ fun y hy => h y (List.mem_of_mem_erase hy),
    fun y => if s.freedBy x y then s.stamped y else y, rfl, fun y _ => ?_⟩
  simp only [State.freedBy_iff]
  rfl

/-! ### The arrival of a request -/

/-- A core that no context waits to move takes its arrivals (R205). -/
theorem Core.moving_eq_false {c : Core} (h : Staying c) : c.moving = false := by
  rw [Core.moving, List.any_eq_false]
  intro k hk
  cases hw : (c.slot k).wait with
  | none => simp
  | some w =>
    have hno := h k (List.mem_range.1 hk) w hw
    cases hi : w.instr
    case migr d => exact absurd hi (hno d)
    all_goals simp [isMigr]

theorem State.arrivalHeld_eq_false {s : State} {f : Flit} (h : Staying (s.core f.dst)) : s.arrivalHeld f = false := by
  rw [State.arrivalHeld, Core.moving_eq_false h, Bool.false_and]

/-- An event of the module changes the device window and what the host is sent alone (R354). -/
theorem State.mevt_eq (s : State) (i : Nat) : ∃ m o, s.mevt i = { s with dev := { s.dev with mevt := m }, hostOut := o } := by
  unfold State.mevt
  split
  · exact ⟨s.dev.mevt, s.hostOut, rfl⟩
  · exact ⟨_, _, rfl⟩

/-- The queue entry of a service request (R121, R199). -/
def serviceEntry (f : Flit) (uid : Nat) : QEntry :=
  { kind := .service, level := 3, start := END, args := [], flit := some f, uid := uid, tag := 0, serial := 0 }

/-- A service request that arrives at a core of its launch. -/
theorem execServiceRequest_here {f : Flit} {s : State} {x : InFlight} (hk : f.kind = .system) (hc : f.cls = 0) (hf : f.ksf = 0x300)
    (hx : s.inFlight f = some x) (hh : s.arrivalHeld f = false) (hfate : s.fate f.dst (s.core f.dst).uid = .here) :
    execServiceRequest f s = if 64 ≤ (s.core f.dst).runq.length then .next (s.serviceLost x 6) else
      .next ((s.land x).setCore f.dst (((s.land x).core f.dst).enqueue (serviceEntry f (s.core f.dst).uid))) := by
  unfold execServiceRequest
  rw [whenOn_true (by rw [hk, hc, hf]; rfl)]
  simp only [hx, hh, hfate, Core.queueFull, decide_eq_true_eq, Bool.false_eq_true, if_false]
  rfl

/-- R121, R199, R361: a service request enters the queue or is dropped. -/
theorem serviceRequests : Part.ServiceRequests := by
  intro x f s c hf hkind hcls hksf hx hc hfate hstay hclk
  subst hc
  obtain ⟨fs, g, hland, hfreed⟩ := s.land_eq x hclk
  have hrun := execServiceRequest_here hkind hcls hksf hx (State.arrivalHeld_eq_false hstay) hfate
  rw [hland] at hrun
  split
  · next hfull =>
    rw [if_pos hfull] at hrun
    unfold State.serviceLost at hrun
    rw [hland] at hrun
    obtain ⟨m, o, hm⟩ := State.mevt_eq
      { s with flight := fs, goldenStamp := g, dev := { s.dev with svst := BitVec.ofNat 8 6 } } 6
    refine ⟨_, hrun, ?_⟩
    dsimp only
    rw [hm]
    exact ⟨rfl, hfreed, fun _ => rfl, fun _ => rfl⟩
  · next hfull =>
    rw [if_neg hfull] at hrun
    refine ⟨_, hrun, serviceEntry f (s.core f.dst).uid, rfl, rfl, rfl, ?_, hfreed, fun j hj => State.core_setCore_ne _ _ hj, fun _ => rfl⟩
    rw [State.core_setCore_self]
    rfl

end Sys2Proof.Machine
end

section
/-! PROOF. Pool atomics (R270, R282): what one does to the pool and its full bits. -/

namespace Sys2Proof.Machine

/-- Byte j of a number written in n bytes (R6). -/
theorem getD_leBytes (v : Nat) {n j : Nat} (h : j < n) : (leBytes v n).getD j 0 = BitVec.ofNat 8 (v / 256 ^ j) := by
  induction n generalizing v j with
  | zero => omega
  | succ n ih =>
    cases j with
    | zero => simp [leBytes]
    | succ j => rw [leBytes, List.getD_cons_succ, ih (v / 256) (by omega), Nat.div_div_eq_div_mul, Nat.pow_succ']

/-- The model's two's complement reading is the library's. -/
theorem sxInt_eq_toInt (raw : Nat) {w : Nat} (h : 0 < w) : sxInt raw w = (BitVec.ofNat w raw).toInt := by
  have hpow : 2 ^ w = 2 * 2 ^ (w - 1) := by rw [← Nat.pow_succ', Nat.succ_eq_add_one, Nat.sub_add_cancel h]
  rw [sxInt, if_neg (by omega), BitVec.toInt, BitVec.toNat_ofNat]
  by_cases hlt : raw % 2 ^ w < 2 ^ (w - 1)
  · rw [if_pos hlt, if_pos (by omega)]
  · rw [if_neg hlt, if_neg (by omega)]

/-- R282: the new value, operation by operation. -/
theorem atNew_spec (op : AtOp) {n : Nat} (hn : 0 < n) (old b c : Nat) : AtomicNew op n old b c (atNew op n old b c).1 := by
  have hless : ∀ x y, sLess n x y = true ↔ (BitVec.ofNat (8 * n) x).toInt < (BitVec.ofNat (8 * n) y).toInt := fun x y => by
    rw [sLess, sxInt_eq_toInt x (by omega), sxInt_eq_toInt y (by omega), decide_eq_true_eq]
  cases op with
  | add => rfl
  | and => exact Nat.testBit_and old b
  | or => exact Nat.testBit_or old b
  | xor => exact Nat.testBit_xor old b
  | min => simp only [AtomicNew, atNew, hless]
  | max => simp only [AtomicNew, atNew, hless]
  | minz => show (if b < old then b else old) = min old b; split <;> omega
  | maxz => show (if old < b then b else old) = max old b; split <;> omega
  | swp => rfl
  | cas => rfl
  | fadd => rfl

theorem poolAtomic_done (c : Core) (op : AtOp) (w : Bool) (o : Nat) (bs : List Byte) :
    PoolAtomicDone op (atomSize w) o bs c (c.poolAtomic op w o bs).1 := by
  have hn : 0 < atomSize w := by cases w <;> decide
  refine ⟨_, _, _, rfl, atNew_spec op hn _ _ _, fun a => ?_, fun k => ?_⟩
  · refine (Map.get_setList 0 (atBytes op (atomSize w) (leNat (Map.getList 0 c.pool o (atomSize w))) bs) c.pool o a).trans ?_
    rw [atBytes, length_leBytes]
    by_cases h : o ≤ a ∧ a < o + atomSize w
    · rw [if_pos h, if_pos h, getD_leBytes _ (by omega)]
    · rw [if_neg h, if_neg h]
  · refine (Map.get_setList false (List.replicate (atomSize w / 4) true) c.full (o / 4) k).trans ?_
    rw [List.length_replicate]
    by_cases h : o / 4 ≤ k ∧ k < o / 4 + atomSize w / 4
    · rw [if_pos h, if_pos h, List.getD_replicate _ (by omega)]
    · rw [if_neg h, if_neg h]

end Sys2Proof.Machine
end

section
/-! PROOF. What an instruction of a clause may change (R129, R130): its own registers, and pool, full bits and handles of its core. -/

namespace Sys2Proof.Machine

/-! ### The frame -/

/-- Of a core only its pool, full bits and handles changed. -/
def OnlyPool (c e : Core) : Prop := e = { c with pool := e.pool, full := e.full, handles := e.handles }

theorem OnlyPool.trans {c d e : Core} (h : OnlyPool c d) (h' : OnlyPool d e) : OnlyPool c e := by
  unfold OnlyPool at *
  rw [h', h]

theorem onlyPool_st (c : Core) (o n v : Nat) : OnlyPool c (c.st o n v) := rfl
theorem onlyPool_stw (c : Core) (o : Nat) (v : Word) : OnlyPool c (c.stw o v) := rfl
theorem onlyPool_stwFull (c : Core) (o : Nat) (v : Word) : OnlyPool c (c.stwFull o v) := rfl
theorem onlyPool_setFulls (c : Core) (o : Nat) (b : Bool) (k : Nat) : OnlyPool c (c.setFulls o b k) := rfl
theorem onlyPool_setHandle (c : Core) (h : Nat) (x : Handle) : OnlyPool c (c.setHandle h x) := rfl
theorem onlyPool_poolAtomic (c : Core) (op : AtOp) (w : Bool) (o : Nat) (bs : List Byte) : OnlyPool c (c.poolAtomic op w o bs).1 := rfl

/-- A clause's instructions have led from `s` to `t`: of the executing core pool, full bits and handles may have changed, of its
contexts the clause's own, and nothing else of the module. -/
structure ClauseFrame (s t : State) : Prop where
  module : SameModule s t
  cores : SameCores s.issue.lid s t
  core : t.me = { s.me with pool := t.me.pool, full := t.me.full, handles := t.me.handles, slots := t.me.slots }
  slots : SameSlots clauseSlot s.me t.me

theorem ClauseFrame.refl (s : State) : ClauseFrame s s := ⟨rfl, fun _ _ => rfl, rfl, fun _ _ => rfl⟩

theorem ClauseFrame.issue {s t : State} (h : ClauseFrame s t) : t.issue = s.issue := h.module.issue

theorem ClauseFrame.trans {s t u : State} (h : ClauseFrame s t) (h' : ClauseFrame t u) : ClauseFrame s u := by
  refine ⟨h.module.trans h'.module, fun j hj => ?_, ?_, fun j hj => (h'.slots j hj).trans (h.slots j hj)⟩
  · exact (h'.cores j (by rwa [h.issue])).trans (h.cores j hj)
  · rw [h'.core, h.core]

section
variable {s t : State} (h : ClauseFrame s t) (hs : s.issue.slot = clauseSlot)
include h

/-- A change of the core that is the clause's to make. -/
theorem ClauseFrame.setMe {c : Core} (hc : OnlyPool t.me c) : ClauseFrame s (t.setMe c) := by
  refine h.trans ⟨rfl, SameCores.setMe t c, ?_, ?_⟩
  · rw [State.me_setMe, hc]
  · rw [State.me_setMe, hc]
    exact fun _ _ => rfl

include hs

/-- A change of the clause's context. -/
theorem ClauseFrame.setSlot (x : Slot) : ClauseFrame s (t.setSlot x) := by
  refine h.trans ⟨rfl, SameCores.setMe t _, ?_, ?_⟩
  · rw [State.me_setSlot]
    rfl
  · rw [State.me_setSlot, h.issue, hs]
    exact sameSlots_setSlot _ _ _

theorem ClauseFrame.wr (n : Nat) (v : Word) : ClauseFrame s (t.wr n v) := h.setSlot hs _

theorem ClauseFrame.wrs (n : Nat) (vs : List Word) : ClauseFrame s (t.wrs n vs) := by
  induction vs generalizing n t with
  | nil => exact h
  | cons v vs ih => exact ih (h.wr hs n v) (n + 1)

/-- A clause has no FST. -/
theorem ClauseFrame.flags (fl : Nat) : ClauseFrame s (t.flags fl) := by
  rw [State.flags, if_pos (by rw [h.issue, hs])]
  exact h

/-- No address ends a clause as it ends a task. -/
theorem ClauseFrame.finish (pc : DWord) : ClauseFrame s (t.finish pc) := by
  have hend : ¬(pc = END ∧ t.issue.slot ≠ clauseSlot) := fun hp => hp.2 (by rw [h.issue, hs])
  unfold State.finish
  rw [if_neg hend]
  exact h.setSlot hs _

theorem ClauseFrame.wrOld (op : AtOp) (w : Bool) (d v : Nat) : ClauseFrame s (t.wrOld op w d v) := by
  unfold State.wrOld
  dsimp only
  cases w
  · exact (h.wr hs _ _).flags hs _
  · exact ((h.wr hs _ _).wr hs _ _).flags hs _

end

/-! ### The shapes of the subset's forms -/

/-- An outcome is a state that a clause's instruction may lead to. -/
def WithinClause (s : State) (o : Out) : Prop := ∀ t, o = .next t → ClauseFrame s t

section
variable {s : State} (hs : s.issue.slot = clauseSlot)
include hs

theorem withinClause_done {t : State} (h : ClauseFrame s t) : WithinClause s (done t) := by
  rintro u ⟨⟩
  exact h.finish hs _

theorem withinClause_doneWr {t : State} (h : ClauseFrame s t) (d : Nat) (v : Word) : WithinClause s (doneWr t d v) :=
  withinClause_done hs (h.wr hs d v)

/-- R131: a trap is noted in the clause's context alone. -/
theorem withinClause_trap (c : Cause) (v : DWord) : WithinClause s (trap c v s) := by
  rintro u ⟨⟩
  have htrap : s.takeTrap s.issue.lid s.issue.slot (u32 c.code) v s.issue.start =
      s.setSlot { s.slot with tcause := u32 c.code, tval := v } := if_pos hs
  rw [htrap]
  exact (ClauseFrame.refl s).setSlot hs _

/-- A form that checks a range of the pool first. -/
theorem withinClause_poolCheck {o : Int} {a n : Nat} {r : Out} (h : WithinClause s r) :
    WithinClause s (match poolCheck s.part o a n with
      | some (c, v) => trap c v s
      | none => r) := by
  split
  · exact withinClause_trap hs _ _
  · exact h

theorem withinClause_atPool {n r : Nat} {imm : Int} {f : Nat → Out} (h : ∀ o, WithinClause s (f o)) : WithinClause s (atPool n r imm s f) :=
  withinClause_poolCheck hs (h _)

theorem withinClause_onHandle {k : Nat} {p : Bool} {f : Handle → Out} (h : ∀ x, WithinClause s (f x)) :
    WithinClause s (onHandle k p s f) := by
  unfold onHandle
  dsimp only
  split
  · exact withinClause_trap hs _ _
  · exact h _

/-- The forms of the subset keep to it (R130). -/
theorem withinClause_meaning {i : Instr} {f : State → Out} (h : clauseMeaning i = some f) : WithinClause s (f s) := by
  have hr := ClauseFrame.refl s
  unfold clauseMeaning at h
  split at h <;> cases h
  -- the forms that compute from registers
  iterate 47 exact withinClause_doneWr hs hr _ _
  -- the pool and its full bits
  iterate 2 exact withinClause_atPool hs fun o => withinClause_doneWr hs hr _ _
  · exact withinClause_atPool hs fun o => withinClause_done hs (hr.setMe (onlyPool_st ..))
  · exact withinClause_atPool hs fun o => withinClause_done hs (hr.wrs hs _ _)
  · exact withinClause_atPool hs fun o => withinClause_done hs (hr.setMe
      ((((onlyPool_stw ..).trans (onlyPool_stw ..)).trans (onlyPool_stw ..)).trans (onlyPool_stw ..)))
  · exact withinClause_atPool hs fun o => withinClause_done hs (hr.setMe (onlyPool_stwFull ..))
  · exact withinClause_poolCheck hs (withinClause_done hs (hr.setMe (onlyPool_setFulls ..)))
  · exact withinClause_atPool hs fun o => withinClause_doneWr hs hr _ _
  -- the handles
  · refine withinClause_onHandle hs fun x => ?_
    split
    · exact withinClause_doneWr hs (hr.setMe (onlyPool_setHandle ..)) _ _
    · exact withinClause_doneWr hs hr _ _
  iterate 2 exact withinClause_onHandle hs fun x => withinClause_doneWr hs (hr.setMe (onlyPool_setHandle ..)) _ _
  · exact withinClause_onHandle hs fun x => withinClause_doneWr hs hr _ _

/-- So does an atomic on the core's own pool. -/
theorem withinClause_localAtomic (op : AtOp) (w : Bool) (d n : Nat) (imm : Int) : WithinClause s (localAtomic op w d n imm s) :=
  withinClause_poolCheck hs (withinClause_done hs (((ClauseFrame.refl s).setMe (onlyPool_poolAtomic ..)).wrOld hs op w d _))

theorem withinClause_step {i : Instr} {f : State → Out} (h : clauseStep i s = some f) : WithinClause s (f s) := by
  unfold clauseStep at h
  split at h
  · next hm => cases h; exact withinClause_meaning hs hm
  · split at h
    · split at h
      · cases h; exact withinClause_localAtomic hs _ _ _ _ _
      · cases h
    · cases h

end

/-! ### The instructions of a clause in order (R129, R131) -/

theorem runClause_nil (s : State) (n m : Nat) : s.runClause n m [] = (s, none) := by unfold State.runClause; rfl

/-- A clause ends where its words encode nothing, or nothing of the subset. -/
theorem runClause_error {s : State} {n m : Nat} {ws : List Nat} {e : Reject} (hw : ws ≠ []) (h : decodeWords ws = .error e) :
    s.runClause (n + 1) m ws = (s, some (7, 0, m)) := by
  obtain ⟨w, ws, rfl⟩ := List.exists_cons_of_ne_nil hw
  unfold State.runClause
  rw [h]

section
variable {s : State} {n m : Nat} {ws rest : List Nat} {i : Instr} (hw : ws ≠ []) (h : decodeWords ws = .ok (i, rest))
include hw h

/-- R130, R131: a clause stops before a form that it may not hold. -/
theorem runClause_outside (hout : i.fits 16 (partH s.part) = false ∨ clauseStep i s = none) :
    s.runClause (n + 1) m ws = (s, some (7, 0, m)) := by
  rw [State.runClause, h]
  · dsimp only
    split
    · rfl
    · next hin =>
      rw [hout.resolve_left fun hf => hin (.inr hf)]
  · exact hw

/-- Where a form of the subset ends in a state, the clause goes on from it, or stops before the form with the cause that it noted. -/
theorem runClause_next (hfit : i.fits 16 (partH s.part) = true) (hpages : clausePages (ws.take (ws.length - rest.length)) = true)
    {f : State → Out} {t : State} (hf : clauseStep i s = some f) (ht : f s = .next t) : s.runClause (n + 1) m ws =
      if t.slot.tcause.toNat = 0 then t.runClause n (m + 1) rest else (s, some (8, t.slot.tcause.toNat, m)) := by
  rw [State.runClause, h]
  · dsimp only
    rw [if_neg (by simp [hfit, hpages]), hf]
    dsimp only
    rw [ht]
  · exact hw

/-- A clause stays in its state, or goes on from one to which its next form leads. -/
theorem runClause_fst : (s.runClause (n + 1) m ws).1 = s ∨
    ∃ f t, clauseStep i s = some f ∧ f s = .next t ∧ s.runClause (n + 1) m ws = t.runClause n (m + 1) rest := by
  rw [State.runClause, h]
  · dsimp only
    split
    · exact .inl rfl
    · cases hf : clauseStep i s with
      | none => exact .inl rfl
      | some f =>
        dsimp only
        cases ht : f s with
        | next t =>
          dsimp only
          split
          · exact .inr ⟨f, t, rfl, ht, rfl⟩
          · exact .inl rfl
        | fault => exact .inl rfl
        | refused => exact .inl rfl
  · exact hw

end

/-- The state in which a clause has ended is within its frame. -/
theorem runClause_frame {s : State} (n m : Nat) (ws : List Nat) (hs : s.issue.slot = clauseSlot) :
    ClauseFrame s (s.runClause n m ws).1 := by
  induction n generalizing s m ws with
  | zero =>
    cases ws with
    | nil => rw [runClause_nil]; exact .refl s
    | cons w ws => unfold State.runClause; exact .refl s
  | succ n ih =>
    by_cases hw : ws = []
    · rw [hw, runClause_nil]; exact .refl s
    cases hd : decodeWords ws with
    | error e => rw [runClause_error hw hd]; exact .refl s
    | ok p =>
      rcases runClause_fst (n := n) (m := m) hw hd with hstay | ⟨f, t, hf, ht, hgo⟩
      · rw [hstay]; exact .refl s
      · have hframe := withinClause_step hs hf t ht
        rw [hgo]
        exact hframe.trans (ih (m + 1) p.2 (by rw [hframe.issue, hs]))

end Sys2Proof.Machine
end

section
/-! PROOF. The clause subset (R130): which forms a clause may hold, and a remote pool atomic that names its own core. -/

namespace Sys2Proof.Machine

/-- A form of the subset has the meaning that it has elsewhere. -/
theorem clauseMeaning_eq_exec {i : Instr} {f : State → Out} (h : clauseMeaning i = some f) : f = exec i := by
  unfold clauseMeaning at h
  split at h <;> cases h <;> rfl

/-- A remote pool atomic is of the subset where it names the core that runs the clause. -/
theorem clauseStep_poolAtomic {i : Instr} {op : AtOp} {w : Bool} {d n r : Nat} {imm : Int} (s : State) (h : i.poolAtomic = some (op, w, d))
    (hf : Instr.poolFields i = some (n, r, imm)) :
    clauseStep i s = if Z (s.g r) % 2 ^ 20 = s.issue.lid then some (localAtomic op w d n imm) else none := by
  have hnone : clauseMeaning i = none := by
    unfold Instr.poolAtomic at h
    split at h
    iterate 11 rfl
    cases h
  have hbits : bits (Z (s.g r)) 0 20 = Z (s.g r) % 2 ^ 20 := by simp [bits]
  unfold clauseStep
  rw [hnone, h, hf, ← hbits]

/-! ### The atomic on the core's own pool -/

/-- n bytes make a number below 256^n. -/
theorem leNat_lt (bs : List Byte) : leNat bs < 256 ^ bs.length := by
  induction bs with
  | nil => simp [leNat]
  | cons b bs ih =>
    have := b.isLt
    rw [leNat, List.length_cons, Nat.pow_succ']
    omega

/-- A clause has no FST, so an atomic's old value is all that is written. -/
theorem State.wrOld_clause {s : State} (hs : s.issue.slot = clauseSlot) (op : AtOp) (w : Bool) (d v : Nat) :
    s.wrOld op w d v = if w then s.wrPair (atomReg op w d) v else s.wr (atomReg op w d) (u32 v) := by
  unfold State.wrOld State.flags
  dsimp only
  rw [if_pos]
  cases w <;> exact hs

theorem State.me_wrOld {s : State} (hs : s.issue.slot = clauseSlot) (op : AtOp) (w : Bool) (d v : Nat) :
    OnlySlots s.me (s.wrOld op w d v).me := by
  rw [State.wrOld_clause hs]
  cases w
  · exact State.me_setSlot s _ ▸ onlySlots_setSlot _ _ _
  · exact (State.me_setSlot s _ ▸ onlySlots_setSlot _ _ _ : OnlySlots s.me (s.wr _ _).me).trans
      (State.me_setSlot (s.wr _ _) _ ▸ onlySlots_setSlot _ _ _)

/-- The state after a clause's atomic on the pool at o, before its completion. -/
def State.afterLocal (s : State) (op : AtOp) (w : Bool) (d o : Nat) : State :=
  (s.setMe (s.me.poolAtomic op w o (s.atomOperand op w d)).1).wrOld op w d (leNat (Map.getList 0 s.me.pool o (atomSize w)))

theorem localAtomic_align {op : AtOp} {w : Bool} {d n : Nat} {imm o : Int} {s : State} (ho : o = Z (s.g n) + imm)
    (h : o % atomSize w ≠ 0) : localAtomic op w d n imm s = trap .align (w64 o) s := by
  subst ho
  unfold localAtomic poolCheck
  dsimp only
  rw [if_pos h]

theorem localAtomic_range {op : AtOp} {w : Bool} {d n : Nat} {imm o : Int} {s : State} (ho : o = Z (s.g n) + imm)
    (ha : o % atomSize w = 0) (h : o < 0 ∨ 0x6000 < o + atomSize w ∨ o < hndEnd s.me.part) :
    localAtomic op w d n imm s = trap .poolRange (w64 o) s := by
  subst ho
  have hout : (Z (s.g n) : Int) + imm < 0 ∨ inPool s.part ((Z (s.g n) : Int) + imm).toNat (atomSize w) = false := by
    by_cases hneg : (Z (s.g n) : Int) + imm < 0
    · exact .inl hneg
    · exact .inr ((inPool_toNat s.part (atomSize w) (Int.not_lt.1 hneg)).2 (h.resolve_left hneg))
  unfold localAtomic poolCheck
  dsimp only
  rw [if_neg (not_not.2 ha), if_pos hout]

theorem localAtomic_done {op : AtOp} {w : Bool} {d n : Nat} {imm o : Int} {s : State} (ho : o = Z (s.g n) + imm)
    (ha : o % atomSize w = 0) (h0 : 0 ≤ o) (h1 : o + atomSize w ≤ 0x6000) (h2 : hndEnd s.me.part ≤ o) :
    localAtomic op w d n imm s = done (s.afterLocal op w d o.toNat) := by
  subst ho
  have hin : ¬((Z (s.g n) : Int) + imm < 0 ∨ inPool s.part ((Z (s.g n) : Int) + imm).toNat (atomSize w) = false) := by
    rw [inPool_toNat s.part (atomSize w) h0]
    show ¬(_ ∨ _ ∨ _ < (hndEnd s.me.part : Int))
    omega
  unfold localAtomic poolCheck
  dsimp only
  rw [if_neg (not_not.2 ha), if_neg hin]
  rfl

/-- R282: a word's old value is read back from its register. -/
theorem State.g_afterLocal {s : State} (hs : s.issue.slot = clauseSlot) (op : AtOp) (d o : Nat) :
    Z ((s.afterLocal op false d o).g d) = leNat (Map.getList 0 s.me.pool o 4) := by
  have hlt := leNat_lt (Map.getList 0 s.me.pool o 4)
  rw [Map.length_getList] at hlt
  have hreg : atomReg op false d = d := if_neg (by simp)
  rw [State.afterLocal, State.wrOld_clause (s := s.setMe _) hs, hreg, if_neg Bool.false_ne_true, State.g_wr, if_pos rfl]
  exact Nat.mod_eq_of_lt hlt

/-- R130, R282: the state after it. -/
theorem localAtomic_spec {op : AtOp} {w : Bool} {d o : Nat} {s : State} (hs : s.issue.slot = clauseSlot) (hn : s.next ≠ END) :
    ∃ t c, done (s.afterLocal op w d o) = .next t ∧ PoolAtomicDone op (atomSize w) o (s.atomOperand op w d) s.me c ∧
      t.me = { c with slots := t.me.slots } ∧ (∀ k, k < 4 → t.slotAt s.issue.lid k = s.slotAt s.issue.lid k) ∧
      SameCores s.issue.lid s t ∧ (w = false → Z (t.g d) = leNat (Map.getList 0 s.me.pool o 4)) := by
  have hframe : ClauseFrame s (s.afterLocal op w d o) :=
    ((ClauseFrame.refl s).setMe (onlyPool_poolAtomic s.me op w o (s.atomOperand op w d))).wrOld hs op w d _
  have hnext : (s.afterLocal op w d o).next = s.next := by rw [State.next, hframe.issue]; rfl
  have hdone := hframe.finish hs s.next
  refine ⟨_, _, congrArg (fun pc => (.next (State.finish _ pc) : Out)) hnext, poolAtomic_done s.me op w o (s.atomOperand op w d), ?_,
    fun k hk => ?_, hdone.cores, fun hw => ?_⟩
  · have hme := State.me_wrOld (s := s.setMe (s.me.poolAtomic op w o (s.atomOperand op w d)).1) hs op w d
      (leNat (Map.getList 0 s.me.pool o (atomSize w)))
    rw [State.me_setMe] at hme
    exact hme.trans (State.me_finish _ hn)
  · have hk4 := hdone.slots k (by unfold clauseSlot; omega)
    rw [State.me, hdone.issue] at hk4
    exact hk4
  · subst hw
    rw [State.g, State.slot_finish _ hn]
    exact State.g_afterLocal hs op d o

/-- R130: the clause subset, and R61, R129, R131: the clause's instructions in order. -/
theorem clauseSubset : Part.ClauseSubset := by
  refine ⟨fun i f h => clauseMeaning_eq_exec h, fun d n h z t imm => ?_, ?_, ?_⟩
  · simp only [List.forall_mem_cons, List.not_mem_nil, false_imp_iff, implies_true, and_true]
    and_intros
    iterate 59 rfl
    all_goals exact fun _ => rfl
  · rintro i op w d n r imm s z o hi hf rfl ho hs hn
    have hstep := clauseStep_poolAtomic s hi hf
    refine ⟨fun h => hstep.trans (if_neg h), fun h => ⟨_, hstep.trans (if_pos h), fun ha => localAtomic_align ho ha,
      fun ha hr => localAtomic_range ho ha hr, fun ha h0 h1 h2 => ?_⟩⟩
    obtain ⟨t, c, ht, hspec⟩ := localAtomic_spec (op := op) (w := w) (d := d) (o := o.toNat) hs hn
    exact ⟨t, c, (localAtomic_done ho ha h0 h1 h2).trans ht, hspec⟩
  · intro s n m ws rest i e
    refine ⟨runClause_nil s n m, fun hw hd => runClause_error hw hd, fun hw hd hout => runClause_outside hw hd hout,
      fun hw hd hfit hpages f t hf ht => ⟨fun hc => ?_, fun hc => ?_⟩⟩
    · rw [runClause_next hw hd hfit hpages hf ht, if_pos (show t.slot.tcause.toNat = 0 by rw [hc]; rfl)]
    · rw [runClause_next hw hd hfit hpages hf ht, if_neg fun h0 : t.slot.tcause.toNat = 0 => hc (BitVec.eq_of_toNat_eq h0)]
      rfl

end Sys2Proof.Machine
end

section
/-! PROOF. The execution of clauses and remote pool atomics (R127, R129 to R131, R270). -/

namespace Sys2Proof.Machine

/-! ### The answer to a request -/

/-- The reply of core l to a request, as it stands in flight (R270, R271). -/
def State.answerTo (s : State) (l : Nat) (f : Flit) (uid tag serial : Nat) (w0 w1 : Word) : InFlight :=
  { flit := { dst := f.src, src := l, kind := .reply, pri := f.pri, cls := 1, ksf := tag / 16 * 2 ^ 14 + tag % 16 * 2 ^ 10,
              low := s.lowClock l, w0 := w0, w1 := w1, w2 := 0, w3 := 0, w4 := 0 },
    team := some (l / 8), uid := uid, stamp := s.stamp, tag := tag, serial := serial }

/-- Where the core's clock fits a flit, its reply changes what is in flight alone. -/
theorem State.replyFlit_eq {s : State} {l : Nat} (f : Flit) (uid tag serial : Nat) (w0 w1 : Word) (h : (s.core l).pts - s.base < 2 ^ 32) :
    s.replyFlit { f with dst := l } uid tag serial w0 w1 =
      { s with flight := s.flight ++ [s.answerTo l f uid tag serial w0 w1], stamp := s.stamp + 1 } := by
  unfold State.replyFlit State.emit State.emitFrom
  dsimp only
  rw [State.roomFor_eq h]
  rfl

/-! ### A clause -/

/-- The state in which core l's dispatcher starts a clause from core `src` (R129). -/
def State.startClause (s : State) (l src : Nat) : State :=
  { s.setCore l ((s.core l).setSlot clauseSlot { Slot.empty with st := .ready, regs := Map.set 0 [] 0 (u32 src) }) with
    issue := ⟨l, clauseSlot, 0, 0, 0, false, none⟩ }

/-- The state once the clause that has led to `u` is over and its entry gone. -/
def State.endClause (s u : State) (l : Nat) (e : QEntry) : State :=
  { u.setCore l (((u.core l).setSlot clauseSlot Slot.empty).dequeue e) with issue := s.issue }

theorem execClauseExecute_eq {s : State} {l : Nat} {e : QEntry} {f : Flit} (ho : (s.core l).open_ = true)
    (he : pickEntry QEntry.isClause (s.core l).runq = some e) (hf : e.flit = some f) (hk : e.kind = .clause) :
    execClauseExecute l s =
      let r := (s.startClause l f.src).runClause 10 0 (clauseWords f)
      let t := (s.endClause r.1 l e).replyFlit { f with dst := l } e.uid e.tag e.serial 0 0
      .next (match r.2 with
        | none => t
        | some (st, cause, m) => t.bounceClause l f e st cause m) := by
  unfold execClauseExecute
  dsimp only
  rw [if_pos ho, he]
  dsimp only
  rw [hk, hf]
  rfl

section
variable {s : State} {l : Nat} (e : QEntry) {u : State} {src : Nat} (h : ClauseFrame (s.startClause l src) u)
include h

/-- What a clause leaves of its core. -/
theorem ClauseFrame.core_start : u.core l = { s.core l with
    pool := (u.core l).pool, full := (u.core l).full, handles := (u.core l).handles, slots := (u.core l).slots } := by
  have hcore := h.core
  have hl : u.issue.lid = l := by rw [h.issue]; rfl
  rw [State.me, hl] at hcore
  have hme : (s.startClause l src).me = (s.core l).setSlot clauseSlot { Slot.empty with st := .ready, regs := Map.set 0 [] 0 (u32 src) } :=
    State.core_setCore_self s l _
  rw [hme] at hcore
  exact hcore

theorem ClauseFrame.slots_start (k : Nat) (hk : k < 4) : (u.core l).slot k = s.slotAt l k := by
  have hne : k ≠ clauseSlot := by unfold clauseSlot; omega
  have hslot := h.slots k hne
  have hl : u.issue.lid = l := by rw [h.issue]; rfl
  have hme : (s.startClause l src).me = (s.core l).setSlot clauseSlot { Slot.empty with st := .ready, regs := Map.set 0 [] 0 (u32 src) } :=
    State.core_setCore_self s l _
  rw [State.me, hl, hme, Core.slot_setSlot_ne _ _ hne] at hslot
  exact hslot

/-- The module once a clause is over: its queue, its pool, its full bits and its handles may have changed, and no context. -/
theorem endClause_core : ∃ q ns, (s.endClause u l e).core l = { s.core l with
    pool := (u.core l).pool, full := (u.core l).full, handles := (u.core l).handles, runq := q, nodes := ns,
      age := ((s.core l).age + 1) % 256,
    slots := ((u.core l).setSlot clauseSlot Slot.empty).slots } := by
  obtain ⟨q, ns, hd⟩ := ((u.core l).setSlot clauseSlot Slot.empty).dequeue_eq e
  refine ⟨q, ns, ?_⟩
  show State.core (u.setCore l _) l = _
  rw [State.core_setCore_self, hd, h.core_start]
  rfl

theorem endClause_runq (hage : ((s.core l).age + 1) % 256 ≠ 0) (hn : ∀ n, n < 32 → ((s.core l).node n).pend = false) :
    ((s.endClause u l e).core l).runq = (s.core l).runq.erase e := by
  show (State.core (u.setCore l _) l).runq = _
  rw [State.core_setCore_self]
  have hc := h.core_start
  have hq : ((u.core l).setSlot clauseSlot Slot.empty).runq = (s.core l).runq := by rw [hc]; rfl
  have ha : ((u.core l).setSlot clauseSlot Slot.empty).age = (s.core l).age := by rw [hc]; rfl
  have hns : ∀ n, ((u.core l).setSlot clauseSlot Slot.empty).node n = (s.core l).node n := fun n => by rw [hc]; rfl
  rw [Core.runq_dequeue e (by rwa [ha]) fun n hlt => by rw [hns]; exact hn n hlt, hq]

theorem endClause_slots (k : Nat) (hk : k < 4) : (s.endClause u l e).slotAt l k = s.slotAt l k := by
  obtain ⟨q, ns, hc⟩ := endClause_core e h
  have hne : k ≠ clauseSlot := by unfold clauseSlot; omega
  rw [State.slotAt, hc]
  exact (Core.slot_setSlot_ne (u.core l) Slot.empty hne).trans (h.slots_start k hk)

theorem endClause_cores : SameCores l s (s.endClause u l e) := fun j hj =>
  (State.core_setCore_ne u _ hj).trans ((h.cores j hj).trans (State.core_setCore_ne s _ hj))

/-- Nothing of the module but its cores is a clause's to change. -/
theorem endClause_module : SameModule s (s.endClause u l e) := by
  have hm := h.module
  unfold SameModule at *
  unfold State.endClause
  rw [hm]
  rfl

end

/-- The state to which a clause has led is within its frame. -/
theorem startClause_frame {s u : State} {l src n m : Nat} {ws : List Nat} {r : Option (Nat × Nat × Nat)}
    (hr : (s.startClause l src).runClause n m ws = (u, r)) : ClauseFrame (s.startClause l src) u := by
  have h := runClause_frame (s := s.startClause l src) n m ws rfl
  rwa [hr] at h

/-- R127, R129, R131: the reply to a clause is in flight, and after it the bounce of one that was stopped. -/
theorem clauseRuns {l : Nat} {s u : State} {e : QEntry} {f : Flit} {r : Option (Nat × Nat × Nat)} (ho : (s.core l).open_ = true)
    (hp : (s.core l).pts - s.base < 2 ^ 32) (he : pickEntry QEntry.isClause (s.core l).runq = some e) (hf : e.flit = some f)
    (hk : e.kind = .clause) (hr : (s.startClause l f.src).runClause 10 0 (clauseWords f) = (u, r)) :
    ∃ t y, exec (.clauseExecute l) s = .next t ∧ y = (s.endClause u l e).answerTo l f e.uid e.tag e.serial 0 0 ∧
      t = { s.endClause u l e with flight := t.flight, stamp := t.stamp } ∧
      match r with
      | none => t.flight = s.flight ++ [y]
      | some (st, cause, m) => ∃ b, t.flight = s.flight ++ [y, b] ∧ b.tag = e.tag ∧ b.serial = e.serial ∧
        b.flit = bounceOf f st cause m := by
  have h := startClause_frame hr
  have hm := endClause_module e h
  have hflight : (s.endClause u l e).flight = s.flight := by rw [hm]
  have hpts : ((s.endClause u l e).core l).pts - (s.endClause u l e).base < 2 ^ 32 := by
    obtain ⟨q, ns, hc⟩ := endClause_core e h
    rw [hc, hm]
    exact hp
  have hrun := execClauseExecute_eq ho he hf hk
  rw [hr] at hrun
  dsimp only at hrun
  rw [State.replyFlit_eq f _ _ _ _ _ hpts, hflight] at hrun
  refine ⟨_, _, hrun, rfl, ?_⟩
  cases r with
  | none => exact ⟨rfl, rfl⟩
  | some p => exact ⟨rfl, ⟨bounceOf f p.1 p.2.1 p.2.2, _, _, _, _, _⟩, List.append_assoc _ _ _, rfl, rfl, rfl⟩

/-! ### A remote pool atomic -/

theorem execRemoteAtomicExecute_eq {s : State} {l : Nat} {e : QEntry} {f : Flit} {op : AtOp} {w : Bool} {o : Nat} {bs : List Byte}
    (ho : (s.core l).open_ = true) (he : pickEntry QEntry.isClause (s.core l).runq = some e) (hf : e.flit = some f) (hk : e.kind = .atomic)
    (hreq : poolRequest f = (op, w, o, bs)) : execRemoteAtomicExecute l s =
      let s1 := s.raise l (s.clockOf f)
      let r := (s1.core l).poolAtomic op w o bs
      .next ((s1.setCore l (r.1.dequeue e)).replyFlit { f with dst := l } e.uid e.tag e.serial
        (u32 (leNat r.2)) (u32 (leNat r.2 / 2 ^ 32))) := by
  unfold execRemoteAtomicExecute
  dsimp only
  rw [if_pos ho, he]
  dsimp only
  rw [hk, hf]
  dsimp only
  rw [hreq]

/-- R270: the reply to a remote pool atomic is in flight, and the atomic has been done on the pool. -/
theorem atomicRuns {l : Nat} {s : State} {e : QEntry} {f : Flit} {op : AtOp} {w : Bool} {o : Nat} {bs : List Byte}
    (ho : (s.core l).open_ = true) (hp : (s.core l).pts - s.base < 2 ^ 32)
    (he : pickEntry QEntry.isClause (s.core l).runq = some e) (hf : e.flit = some f) (hk : e.kind = .atomic)
    (hreq : poolRequest f = (op, w, o, bs)) : ∃ t y, exec (.remoteAtomicExecute l) s = .next t ∧ t.flight = s.flight ++ [y] ∧
      y.flit.kind = .reply ∧ y.flit.dst = f.src ∧ y.tag = e.tag ∧ y.flit.w0 = u32 (leNat (Map.getList 0 (s.core l).pool o (atomSize w))) ∧
      SameCores l s t ∧ SameMemory s t ∧ ∃ q ns, t.core l =
        { (((s.core l).raise (s.base + Z f.low)).poolAtomic op w o bs).1 with
          runq := q, nodes := ns, age := ((s.core l).age + 1) % 256 } := by
  have hrun := execRemoteAtomicExecute_eq ho he hf hk hreq
  have hraise : (s.raise l (s.clockOf f)).core l = (s.core l).raise (s.base + Z f.low) := State.core_setCore_self s l _
  dsimp only at hrun
  rw [hraise] at hrun
  obtain ⟨q, ns, hd⟩ := (((s.core l).raise (s.base + Z f.low)).poolAtomic op w o bs).1.dequeue_eq e
  rw [hd] at hrun
  have hlow := f.low.isLt
  rw [State.replyFlit_eq f _ _ _ _ _ (by
    rw [State.core_setCore_self]
    show max (s.core l).pts (s.base + Z f.low) - s.base < 2 ^ 32
    unfold Z
    omega)] at hrun
  exact ⟨_, _, hrun, rfl, rfl, rfl, rfl, rfl, fun j hj => (State.core_setCore_ne _ _ hj).trans (State.core_setCore_ne s _ hj), fun _ => rfl,
    q, ns, State.core_setCore_self _ _ _⟩

/-- R129 to R131, R270: what the dispatcher executes itself. -/
theorem clauseExecution : Part.ClauseExecution := by
  rintro l s c e f rfl ho hp he hf
  refine ⟨fun hk => ?_, fun hk => ?_⟩
  · cases hr : (s.startClause l f.src).runClause 10 0 (clauseWords f) with
    | mk u r =>
    have h := startClause_frame hr
    obtain ⟨t, y, hrun, hy, ht, hfl⟩ := clauseRuns ho hp he hf hk hr
    have hm := endClause_module e h
    obtain ⟨q, ns, hc⟩ := endClause_core e h
    have hcore : ∀ j, t.core j = (s.endClause u l e).core j := fun j => by rw [ht]; rfl
    have hslot : ∀ k, t.slotAt l k = (s.endClause u l e).slotAt l k := fun k => by rw [State.slotAt, hcore]; rfl
    refine ⟨t, hrun, by rw [ht]; rfl, ?_, by rw [ht, hm], ?_⟩
    · subst hy
      cases r with
      | none => exact ⟨_, hfl, _, List.mem_singleton_self _, rfl, rfl, rfl, rfl, rfl⟩
      | some p =>
        obtain ⟨b, hb, -⟩ := hfl
        exact ⟨_, hb, _, List.mem_cons_self, rfl, rfl, rfl, rfl, rfl⟩
    · rintro s0 u' r' rfl hr'
      cases hr.symm.trans hr'
      refine ⟨by rw [hcore, hc], by rw [hcore, hc], by rw [hcore, hc], fun k hk' => (hslot k).trans (endClause_slots e h k hk'),
        fun j hj => (hcore j).trans (endClause_cores e h j hj), fun ha hn => by rw [hcore]; exact endClause_runq e h ha hn, ?_, ?_⟩
      · rintro rfl
        rw [hfl]
        simp
      · rintro st cause m rfl
        obtain ⟨b, hb, hspec⟩ := hfl
        rw [hb]
        exact ⟨by simp, b, by simp, hspec⟩
  · obtain ⟨op, w, o, bs, hreq⟩ : ∃ op w o bs, poolRequest f = (op, w, o, bs) := ⟨_, _, _, _, rfl⟩
    obtain ⟨t, y, hrun, hfl, hkind, hdst, htag, hw0, hcores, hmem, q, ns, hcore⟩ := atomicRuns ho hp he hf hk hreq
    refine ⟨t, hrun, y, op, w, o, bs, hreq, hfl, hkind, hdst, htag, hw0, ?_, ⟨_, poolAtomic_done (s.core l) op w o bs, ?_, ?_⟩, ?_,
      fun k => ?_, hcores, hmem⟩
    · exact (congrArg Core.pool hcore :)
    · exact (congrArg Core.pool hcore :)
    · exact (congrArg Core.full hcore :)
    · exact (congrArg Core.pts hcore :)
    · exact (congrArg (Core.slot · k) hcore :)

/-- Settles O15: each of the four parts follows from what its operation does to the queue, the slot or the pool. -/
theorem dispatching : Obligations.Dispatching := ⟨taskDispatch, serviceRequests, clauseExecution, clauseSubset⟩

end Sys2Proof.Machine
end

section
/-! PROOF. Integer and immediate forms (R80 to R87): what each operation of the model gives, in the terms of the rules. -/

namespace Sys2Proof.Machine

/-! ### Words and integers -/

theorem w32_Z (a : Word) : w32 (Z a) = a := by simp [w32, Z]

theorem w32_S (a : Word) : w32 (S a) = a := BitVec.ofInt_toInt

theorem w32_add (x y : Int) : w32 (x + y) = w32 x + w32 y := BitVec.ofInt_add x y

theorem w32_sub (x y : Int) : w32 (x - y) = w32 x - w32 y := by
  rw [eq_sub_iff_add_eq, ← w32_add, Int.sub_add_cancel]

theorem w32_mul (x y : Int) : w32 (x * y) = w32 x * w32 y := BitVec.ofInt_mul x y

/-- The signed value of a truncation that changes nothing. -/
theorem S_w32 {x : Int} (h : -2 ^ 31 ≤ x) (h' : x < 2 ^ 31) : S (w32 x) = x := BitVec.toInt_ofInt_eq_self (by decide) h h'

theorem S_bounds (a : Word) : -2 ^ 31 ≤ S a ∧ S a < 2 ^ 31 := ⟨BitVec.le_toInt a, BitVec.toInt_lt⟩

/-- The unsigned value of a truncation that changes nothing. -/
theorem Z_u32 {n : Nat} (h : n < 2 ^ 32) : Z (u32 n) = n := toNat_u32 h

theorem Z_lt (a : Word) : Z a < 2 ^ 32 := a.isLt

theorem Z_w32 {x : Int} (h : 0 ≤ x) (h' : x < 2 ^ 32) : (Z (w32 x) : Int) = x := by
  obtain ⟨n, rfl⟩ := Int.eq_ofNat_of_zero_le h
  rw [w32, BitVec.ofInt_natCast]
  exact congrArg _ (Z_u32 (by omega))

/-! ### Shifts (R81) -/

theorem shlW_eq (a b : Word) : shlW a b = w32 (Z a * 2 ^ (Z b % 32)) := by
  apply BitVec.eq_of_toNat_eq
  have hcast : ((Z a : Int) * 2 ^ (Z b % 32)) = ((Z a * 2 ^ (Z b % 32) : Nat) : Int) := by push_cast; rfl
  rw [hcast, w32, BitVec.ofInt_natCast, BitVec.toNat_ofNat, shlW, BitVec.toNat_shiftLeft, Nat.shiftLeft_eq]
  rfl

theorem Z_shrW (a b : Word) : Z (shrW a b) = Z a / 2 ^ (Z b % 32) := by
  rw [Z, shrW, BitVec.toNat_ushiftRight, Nat.shiftRight_eq_div_pow]
  rfl

theorem sraW_eq (a b : Word) : sraW a b = w32 (S a / 2 ^ (Z b % 32)) := by
  rw [← w32_S (sraW a b), S, sraW, BitVec.toInt_sshiftRight, Int.shiftRight_eq_div_pow]
  push_cast
  rfl

theorem getLsbD_rorW (a b : Word) {i : Nat} (h : i < 32) : (rorW a b).getLsbD i = a.getLsbD ((i + Z b) % 32) := by
  have hs : sham b % 32 = sham b := Nat.mod_mod _ _
  have hlt : sham b < 32 := Nat.mod_lt _ (by decide)
  rw [rorW, BitVec.getLsbD_rotateRight, hs]
  by_cases hi : i < 32 - sham b
  · rw [decide_eq_true hi, cond_true]
    congr 1
    unfold sham at *
    omega
  · rw [decide_eq_false hi, cond_false, decide_eq_true h, Bool.true_and]
    congr 1
    unfold sham at *
    omega

/-! ### Division (R82) -/

/-- Truncation toward zero divides the magnitudes. -/
theorem tdiv_eq_sign_mul (a b : Int) : a.tdiv b = a.sign * b.sign * (a.natAbs / b.natAbs) := by
  have hpos (m n : Nat) : (m : Int).tdiv n = m / n := Int.tdiv_eq_ediv_of_nonneg (Int.natCast_nonneg m)
  obtain ⟨m, rfl | rfl⟩ := Int.eq_nat_or_neg a <;> obtain ⟨n, rfl | rfl⟩ := Int.eq_nat_or_neg b <;>
    rcases m.eq_zero_or_pos with rfl | hm <;> rcases n.eq_zero_or_pos with rfl | hn <;>
    simp [Int.neg_tdiv, Int.tdiv_neg, Int.sign_natCast_of_ne_zero, *, Nat.ne_of_gt]

theorem S_eq_zero {b : Word} : S b = 0 ↔ b = 0#32 := by
  refine ⟨fun h => ?_, fun h => h ▸ rfl⟩
  rw [← w32_S b, h]; rfl

theorem Z_eq_zero {b : Word} : (Z b : Int) = 0 ↔ b = 0#32 := by
  refine ⟨fun h => ?_, fun h => h ▸ rfl⟩
  rw [← w32_Z b, h]; rfl

/-- Division of two integers that stand for words, of which the divisor is zero exactly where its word is. -/
theorem divRem_eq (x : Int) {y : Int} (a : Word) {b : Word} (hy : y = 0 ↔ b = 0#32) :
    (divRem x y a).1 = (if b = 0 then 0xFFFFFFFF#32 else w32 (x.tdiv y)) ∧
    (divRem x y a).2 = (if b = 0 then a else w32 (x - x.tdiv y * y)) := by
  unfold divRem
  by_cases hb : b = 0
  · rw [if_pos (hy.2 hb), if_pos hb, if_pos hb]
    exact ⟨rfl, rfl⟩
  · rw [if_neg (mt hy.1 hb), if_neg hb, if_neg hb]
    exact ⟨rfl, rfl⟩

/-! ### Counts and reversals (R83) -/

theorem clzFrom_spec (v : Word) (n : Nat) : clzFrom v n ≤ n ∧ (∀ i, i < clzFrom v n → v.getLsbD (n - 1 - i) = false) ∧
    (clzFrom v n < n → v.getLsbD (n - 1 - clzFrom v n) = true) := by
  induction n with
  | zero => simp [clzFrom]
  | succ n ih =>
    obtain ⟨hle, hlow, htop⟩ := ih
    rw [clzFrom]
    split
    · next h => exact ⟨Nat.zero_le _, fun i hi => absurd hi (Nat.not_lt_zero _), fun _ => h⟩
    · next h =>
      refine ⟨by omega, fun i hi => ?_, fun hi => ?_⟩
      · cases i with
        | zero => simpa using h
        | succ i => rw [← hlow i (by omega)]; congr 1; omega
      · rw [← htop (by omega)]; congr 1; omega

theorem clz_spec (v : Word) : Z (u32 (clzFrom v 32)) ≤ 32 ∧ (∀ i, i < Z (u32 (clzFrom v 32)) → v.getLsbD (31 - i) = false) ∧
    (Z (u32 (clzFrom v 32)) < 32 → v.getLsbD (31 - Z (u32 (clzFrom v 32))) = true) := by
  have hspec := clzFrom_spec v 32
  rwa [Z_u32 (by omega)]

theorem ctzFrom_spec (v : Word) (k n : Nat) : ctzFrom v k n ≤ n ∧ (∀ i, i < ctzFrom v k n → v.getLsbD (k + i) = false) ∧
    (ctzFrom v k n < n → v.getLsbD (k + ctzFrom v k n) = true) := by
  induction n generalizing k with
  | zero => simp [ctzFrom]
  | succ n ih =>
    obtain ⟨hle, hlow, htop⟩ := ih (k + 1)
    rw [ctzFrom]
    split
    · next h => exact ⟨Nat.zero_le _, fun i hi => absurd hi (Nat.not_lt_zero _), fun _ => h⟩
    · next h =>
      refine ⟨by omega, fun i hi => ?_, fun hi => ?_⟩
      · cases i with
        | zero => simpa using h
        | succ i => rw [← hlow i (by omega)]; congr 1; omega
      · rw [← htop (by omega)]; congr 1; omega

theorem ctz_spec (v : Word) : Z (u32 (ctzFrom v 0 32)) ≤ 32 ∧ (∀ i, i < Z (u32 (ctzFrom v 0 32)) → v.getLsbD i = false) ∧
    (Z (u32 (ctzFrom v 0 32)) < 32 → v.getLsbD (Z (u32 (ctzFrom v 0 32))) = true) := by
  have hspec := ctzFrom_spec v 0 32
  simp only [Nat.zero_add] at hspec
  rwa [Z_u32 (by omega)]

theorem popTo_eq (v : Word) (n : Nat) : popTo v n = ((List.range n).filter fun i => v.getLsbD i).length := by
  induction n with
  | zero => rfl
  | succ n ih =>
    rw [popTo, ih, List.range_succ, List.filter_append, List.length_append, Nat.add_comm]
    cases h : v.getLsbD n <;> simp [h]

theorem popTo_le (v : Word) (n : Nat) : popTo v n ≤ n := by
  rw [popTo_eq]
  exact (List.length_filter_le _ _).trans_eq List.length_range

theorem Z_popTo (v : Word) : Z (u32 (popTo v 32)) = ((List.range 32).filter fun i => v.getLsbD i).length := by
  have hle := popTo_le v 32
  rw [Z_u32 (by omega), popTo_eq]

theorem two_pow_dvd_brevTo (v : Word) {n : Nat} (hn : n ≤ 32) : 2 ^ (32 - n) ∣ brevTo v n := by
  induction n with
  | zero => exact Nat.dvd_zero _
  | succ n ih =>
    have hstep : 32 - n = 31 - n + 1 := by omega
    have hrest : 2 ^ (31 - n) ∣ brevTo v n := (Nat.pow_dvd_pow 2 (by omega)).trans (ih (by omega))
    rw [brevTo, Nat.add_sub_add_right 31 1 n]
    refine Nat.dvd_add ?_ hrest
    split
    · exact Nat.dvd_refl _
    · exact Nat.dvd_zero _

/-- The low n bits stand reversed in bits 31 down to 32 − n. -/
theorem testBit_brevTo (v : Word) {n i : Nat} (hn : n ≤ 32) (hi : i < 32) :
    (brevTo v n).testBit i = (decide (32 - n ≤ i) && v.getLsbD (31 - i)) := by
  induction n with
  | zero => simp [brevTo, Nat.not_le.2 hi]
  | succ n ih =>
    have hrest := ih (by omega)
    obtain ⟨m, hm⟩ := two_pow_dvd_brevTo v (n := n) (by omega)
    have hlt : (if v.getLsbD n then 2 ^ (31 - n) else 0) < 2 ^ (32 - n) := by
      split
      · exact Nat.pow_lt_pow_right (by decide) (by omega)
      · exact Nat.two_pow_pos _
    rw [hm, Nat.testBit_two_pow_mul] at hrest
    rw [brevTo, Nat.add_comm, hm, Nat.testBit_two_pow_mul_add _ hlt]
    rcases Nat.lt_trichotomy i (31 - n) with hlow | hnew | hhigh
    · rw [if_pos (by omega), decide_eq_false (by omega), Bool.false_and]
      split
      · exact Nat.testBit_two_pow_of_ne (by omega)
      · exact Nat.zero_testBit i
    · have hback : 31 - i = n := by omega
      rw [if_pos (by omega), decide_eq_true (by omega), Bool.true_and, hback, hnew]
      split
      · next h => rw [Nat.testBit_two_pow_self, h]
      · next h => rw [Nat.zero_testBit, Bool.eq_false_iff.2 h]
    · rw [decide_eq_true (by omega), Bool.true_and] at hrest
      rw [if_neg (by omega), hrest, decide_eq_true (by omega), Bool.true_and]

theorem getLsbD_brevTo (v : Word) {i : Nat} (hi : i < 32) : (u32 (brevTo v 32)).getLsbD i = v.getLsbD (31 - i) := by
  rw [u32, BitVec.getLsbD_ofNat, decide_eq_true hi, Bool.true_and, testBit_brevTo v (Nat.le_refl _) hi]
  simp

/-! ### Extension and saturation (R83, R85) -/

theorem S_sext32 (v : Nat) {n : Nat} (hn : 0 < n) (hn' : n ≤ 4) : S (sext32 v n) = (BitVec.ofNat (8 * n) v).toInt := by
  have hpow : (2 : Int) ^ (8 * n - 1) ≤ 2 ^ 31 := pow_le_pow_right₀ (by decide) (by omega)
  have hlo := BitVec.le_toInt (BitVec.ofNat (8 * n) v)
  have hhi := BitVec.toInt_lt (x := BitVec.ofNat (8 * n) v)
  rw [sext32, sxInt_eq_toInt v (by omega), S_w32 (by omega) (by omega)]

theorem S_sextB (a : Word) : S (sext32 (Z a) 1) = (a.setWidth 8).toInt := S_sext32 (Z a) (by decide) (by decide)
theorem S_sextH (a : Word) : S (sext32 (Z a) 2) = (a.setWidth 16).toInt := S_sext32 (Z a) (by decide) (by decide)

theorem S_clampI {lo hi : Int} (v : Int) (hlo : -2 ^ 31 ≤ lo) (h : lo ≤ hi) (hhi : hi < 2 ^ 31) : S (clampI lo hi v) = min (max v lo) hi := by
  rw [clampI, S_w32 (by split <;> omega) (by split <;> omega)]
  omega

theorem Z_clampI {hi : Int} (v : Int) (h : 0 ≤ hi) (hhi : hi < 2 ^ 32) : (Z (clampI 0 hi v) : Int) = min (max v 0) hi := by
  rw [clampI, Z_w32 (by split <;> omega) (by split <;> omega)]
  omega

/-! ### Sums, bits, selections and comparisons (R81) -/

theorem add_eq_w32 (a b : Word) : a + b = w32 (Z a + Z b) := by rw [w32_add, w32_Z, w32_Z]
theorem sub_eq_w32 (a b : Word) : a - b = w32 ((Z a : Int) - Z b) := by rw [w32_sub, w32_Z, w32_Z]
theorem mul_eq_w32 (a b : Word) : a * b = w32 (Z a * Z b) := by rw [w32_mul, w32_Z, w32_Z]

theorem Z_mul_high (a b : Word) : Z (u32 (Z a * Z b / 2 ^ 32)) = Z a * Z b / 2 ^ 32 :=
  Z_u32 (Nat.div_lt_of_lt_mul (Nat.mul_lt_mul'' (Z_lt a) (Z_lt b)))

theorem getLsbD_andn (a b : Word) {i : Nat} (h : i < 32) : (a &&& ~~~b).getLsbD i = (a.getLsbD i && !b.getLsbD i) := by
  rw [BitVec.getLsbD_and, BitVec.getLsbD_not, decide_eq_true h, Bool.true_and]

/-- The smaller of two words in an order that a linear order on their values gives. -/
theorem map_ite_lt_min {α : Type} [LinearOrder α] (f : Word → α) (a b : Word) [Decidable (f b < f a)] :
    f (if f b < f a then b else a) = min (f a) (f b) := by
  split
  · next h => exact (min_eq_right h.le).symm
  · next h => exact (min_eq_left (not_lt.1 h)).symm

theorem map_ite_lt_max {α : Type} [LinearOrder α] (f : Word → α) (a b : Word) [Decidable (f a < f b)] :
    f (if f a < f b then b else a) = max (f a) (f b) := by
  split
  · next h => exact (max_eq_right h.le).symm
  · next h => exact (max_eq_left (not_lt.1 h)).symm

theorem flagW_decide (p : Prop) [Decidable p] : flagW (decide p) = if p then 1 else 0 := by
  by_cases hp : p <;> simp [flagW, hp]

/-! ### The integer register forms -/

/-- R80: a T form writes its operation's result of operands A and B. -/
theorem WritesG.of_aluT {i : Instr} {s : State} {d n : Nat} {t : Option Nat} {f : Word → Word → Word} {a b : Word} {V : Word → Prop}
    (h : s.next ≠ END) (ha : a = t.elim (s.g d) fun _ => s.g n) (hb : b = t.elim (s.g n) s.g) (hV : V (f a b))
    (he : exec i s = aluT f d n t s) : WritesG i s d V := by
  refine .of_doneWr h he ?_
  rw [State.opA_eq_elim, State.opB_eq_elim, ← ha, ← hb]
  exact hV

/-- R83: a single-operand form writes its operation's result. -/
theorem WritesG.of_alu1 {i : Instr} {s : State} {d n : Nat} {f : Word → Word} {a : Word} {V : Word → Prop} (h : s.next ≠ END)
    (ha : a = s.g n) (hV : V (f a)) (he : exec i s = alu1 f d n s) : WritesG i s d V :=
  .of_doneWr h he (ha ▸ hV)

/-- R80, R81: every form writes its operation. -/
theorem integerArithmetic : Sys2Proof.Part.IntegerArithmetic := by
  intro d n t s h a b ha hb
  exact ⟨.of_aluT h ha hb (add_eq_w32 a b) rfl, .of_aluT h ha hb (sub_eq_w32 a b) rfl, .of_aluT h ha hb (mul_eq_w32 a b) rfl,
    .of_aluT (f := fun a b => w32 (S a * S b / 2 ^ 32)) h ha hb rfl rfl,
    .of_aluT (f := fun a b => u32 (Z a * Z b / 2 ^ 32)) h ha hb (Z_mul_high a b) rfl,
    .of_aluT (f := (· &&& ·)) h ha hb (fun _ => BitVec.getLsbD_and) rfl,
    .of_aluT (f := (· ||| ·)) h ha hb (fun _ => BitVec.getLsbD_or) rfl,
    .of_aluT (f := (· ^^^ ·)) h ha hb (fun _ => BitVec.getLsbD_xor) rfl,
    .of_aluT (f := (· &&& ~~~ ·)) h ha hb (fun _ hi => getLsbD_andn a b hi) rfl,
    .of_aluT h ha hb (shlW_eq a b) rfl,
    .of_aluT h ha hb (Z_shrW a b) rfl, .of_aluT h ha hb (sraW_eq a b) rfl,
    .of_aluT (f := rorW) h ha hb (fun _ hi => getLsbD_rorW a b hi) rfl,
    .of_aluT (f := fun a b => if S b < S a then b else a) h ha hb (map_ite_lt_min S a b) rfl,
    .of_aluT (f := fun a b => if S a < S b then b else a) h ha hb (map_ite_lt_max S a b) rfl,
    .of_aluT (f := fun a b => if Z b < Z a then b else a) h ha hb (map_ite_lt_min Z a b) rfl,
    .of_aluT (f := fun a b => if Z a < Z b then b else a) h ha hb (map_ite_lt_max Z a b) rfl,
    .of_aluT (f := fun a b => flagW (S a < S b)) h ha hb (flagW_decide _) rfl,
    .of_aluT (f := fun a b => flagW (Z a < Z b)) h ha hb (flagW_decide _) rfl,
    .of_aluT (f := fun a b => flagW (a = b)) h ha hb (flagW_decide _) rfl,
    .of_aluT (f := fun a b => flagW (a ≠ b)) h ha hb ((flagW_decide _).trans (ite_not ..)) rfl⟩

/-- R82: the signed and the unsigned forms write quotient and remainder. -/
theorem division : Sys2Proof.Part.Division := by
  intro d n t s h a b ha hb q qz hq hqz
  rw [← tdiv_eq_sign_mul] at hq
  rw [← Int.tdiv_eq_ediv_of_nonneg (Int.natCast_nonneg _)] at hqz
  subst hq hqz
  obtain ⟨hdiv, hrem⟩ := divRem_eq (S a) a (S_eq_zero (b := b))
  obtain ⟨hdivz, hremz⟩ := divRem_eq (Z a) a (Z_eq_zero (b := b))
  exact ⟨.of_aluT (f := fun a b => (divRem (S a) (S b) a).1) h ha hb hdiv rfl,
    .of_aluT (f := fun a b => (divRem (S a) (S b) a).2) h ha hb hrem rfl,
    .of_aluT (f := fun a b => (divRem (Z a) (Z b) a).1) h ha hb hdivz rfl,
    .of_aluT (f := fun a b => (divRem (Z a) (Z b) a).2) h ha hb hremz rfl⟩

theorem Z_zext (a : Word) {k : Nat} (hk : k ≤ 32) : Z (u32 (Z a % 2 ^ k)) = Z a % 2 ^ k :=
  Z_u32 ((Nat.mod_lt _ (Nat.two_pow_pos k)).trans_le (Nat.pow_le_pow_right (by decide) hk))

/-- R83, R85: every form writes its operation. -/
theorem singleOperand : Sys2Proof.Part.SingleOperand := by
  intro d n s h a ha
  exact ⟨.of_alu1 (f := fun v => u32 (clzFrom v 32)) h ha (clz_spec a) rfl, .of_alu1 (f := fun v => u32 (ctzFrom v 0 32)) h ha (ctz_spec a) rfl,
    .of_alu1 (f := fun v => u32 (popTo v 32)) h ha (Z_popTo a) rfl,
    .of_alu1 (f := fun v => u32 (brevTo v 32)) h ha (fun _ hi => getLsbD_brevTo a hi) rfl,
    .of_alu1 (f := fun v => sext32 (Z v) 1) h ha (S_sextB a) rfl, .of_alu1 (f := fun v => sext32 (Z v) 2) h ha (S_sextH a) rfl,
    .of_alu1 (f := fun v => u32 (Z v % 2 ^ 8)) h ha (Z_zext a (by decide)) rfl,
    .of_alu1 (f := fun v => u32 (Z v % 2 ^ 16)) h ha (Z_zext a (by decide)) rfl,
    .of_alu1 (f := fun v => clampI (-128) 127 (S v)) h ha (S_clampI (S a) (by decide) (by decide) (by decide)) rfl,
    .of_alu1 (f := fun v => clampI (-32768) 32767 (S v)) h ha (S_clampI (S a) (by decide) (by decide) (by decide)) rfl,
    .of_alu1 (f := fun v => clampI 0 255 (S v)) h ha (Z_clampI (S a) (by decide) (by decide)) rfl,
    .of_alu1 (f := fun v => clampI 0 65535 (S v)) h ha (Z_clampI (S a) (by decide) (by decide)) rfl,
    .of_alu1 (f := id) h ha rfl rfl⟩

/-- Settles O1: every form ends with one register write, whose value is that of its operation. -/
theorem integerForms : Obligations.IntegerForms := ⟨integerArithmetic, division, singleOperand⟩

/-! ### Immediate and address forms (R84, R87) -/

/-- R84: every form writes its operation on its register and its immediate. -/
theorem immediateForms : Sys2Proof.Part.ImmediateForms := by
  intro d imm s h a ha
  subst ha
  exact ⟨.of_doneWr h rfl rfl, .of_doneWr (v := s.g d + w32 imm) h rfl (by rw [w32_add, w32_Z]),
    .of_doneWr (v := s.g d &&& w32 imm) h rfl fun _ => BitVec.getLsbD_and,
    .of_doneWr (v := s.g d ||| w32 imm) h rfl fun _ => BitVec.getLsbD_or,
    .of_doneWr (v := s.g d ^^^ w32 imm) h rfl fun _ => BitVec.getLsbD_xor,
    .of_doneWr (v := shlW (s.g d) (w32 imm)) h rfl (shlW_eq _ _), .of_doneWr (v := shrW (s.g d) (w32 imm)) h rfl (Z_shrW _ _),
    .of_doneWr (v := sraW (s.g d) (w32 imm)) h rfl (sraW_eq _ _),
    .of_doneWr (v := flagW (S (s.g d) < imm)) h rfl (flagW_decide _)⟩

/-- R87: every form writes its address, or half of one. -/
theorem addressRegisters : Sys2Proof.Part.AddressRegisters := by
  intro d n imm s h
  exact ⟨.of_done h rfl, .of_done h rfl, .of_done h rfl, .of_done h rfl,
    .of_doneWr (v := u32 (s.a n).toNat) h rfl (BitVec.toNat_ofNat _ _),
    .of_doneWr (v := u32 ((s.a n).toNat / 2 ^ 32)) h rfl (Z_u32 (Nat.div_lt_of_lt_mul (s.a n).isLt)), .of_done h rfl, .of_done h rfl⟩

/-- Settles O2: every form ends with one register write, whose value is that of its operation. -/
theorem immediateAndAddressForms : Obligations.ImmediateAndAddressForms := ⟨immediateForms, addressRegisters⟩

end Sys2Proof.Machine
end

section
/-! PROOF. Control flow (R88 to R90): jumps, calls, branches and the loop. -/

namespace Sys2Proof.Machine

/-- A call through a register: the link is written where the target is even. -/
theorem runs_callr {n : Nat} {s : State} (h : (s.a n).toNat % 2 = 0) (hp : s.a n ≠ END) :
    Runs (.callr n) s fun t => t.a 7 = s.next ∧ Completed [] [7] (s.a n) s t :=
  ⟨_, show exec (.callr n) s = .next ((s.wra 7 s.next).finish (s.a n)) from if_neg (by omega), completed_wra s 7 s.next hp⟩

theorem jumpsAndCalls : Sys2Proof.Part.JumpsAndCalls := by
  rintro n imm s dest rfl
  exact ⟨fun h => ⟨⟨_, rfl, completed_finish s h⟩, _, rfl, completed_wra s 7 s.next h⟩,
    fun h hp => ⟨.of_jumpTo rfl h hp, runs_callr h hp⟩,
    fun h => ⟨.of_jumpTo (f := id) rfl h, .of_jumpTo (f := fun s => s.wra 7 s.next) rfl h⟩,
    fun h hp => .of_jumpTo rfl h hp, fun h => .of_jumpTo (f := id) rfl h⟩

/-- R89, R90: a branch goes to its target where its condition holds, else on. -/
theorem Runs.of_branch {i : Instr} {s : State} {imm : Int} {dest : DWord} {p : Prop} [Decidable p] (hd : dest = s.target imm) (h : dest ≠ END)
    (hn : s.next ≠ END) (he : exec i s = branch (decide p) imm s) : Runs i s (Completed [] [] (if p then dest else s.next) s) := by
  by_cases hp : p
  · rw [if_pos hp]
    refine ⟨_, he.trans ?_, completed_finish s h⟩
    rw [branch, if_pos (decide_eq_true hp), hd]
  · rw [if_neg hp]
    refine ⟨_, he.trans ?_, completed_finish s hn⟩
    rw [branch, if_neg (by simpa using hp), done]

/-- R90: `loop` counts down, and goes on past its last round. -/
theorem runs_loop {d : Nat} {s : State} {imm : Int} {dest : DWord} (hd : dest = s.target imm) (h : dest ≠ END) (hn : s.next ≠ END) :
    Runs (.loop d imm) s fun t => t.g d = w32 ((Z (s.g d) : Int) - 1) ∧
      Completed [d] [] (if Z (s.g d) = 1 then s.next else dest) s t := by
  have hcount : s.g d - 1 = w32 ((Z (s.g d) : Int) - 1) := sub_eq_w32 (s.g d) 1
  have hlast : s.g d - 1 = 0 ↔ Z (s.g d) = 1 := by rw [sub_eq_zero, ← BitVec.toNat_inj]; rfl
  rw [← hcount]
  by_cases hz : Z (s.g d) = 1
  · rw [if_pos hz]
    refine ⟨_, show exec (.loop d imm) s = .next ((s.wr d (s.g d - 1)).finish s.next) from ?_, completed_wr s d _ hn⟩
    exact if_neg (by simpa using hlast.2 hz)
  · rw [if_neg hz]
    refine ⟨_, show exec (.loop d imm) s = .next ((s.wr d (s.g d - 1)).finish dest) from ?_, completed_wr s d _ h⟩
    rw [hd]
    exact if_pos (decide_eq_true (mt hlast.1 hz))

theorem branches : Sys2Proof.Part.Branches := by
  intro d n imm s dest hd h hn
  have hne {p : Prop} [Decidable p] : (if p then s.next else dest) = if ¬p then dest else s.next := (ite_not ..).symm
  refine ⟨.of_branch hd h hn rfl, ?_, .of_branch hd h hn rfl, .of_branch (p := S (s.g n) ≤ S (s.g d)) hd h hn rfl, .of_branch hd h hn rfl,
    .of_branch (p := Z (s.g n) ≤ Z (s.g d)) hd h hn rfl, .of_branch hd h hn rfl, ?_, runs_loop hd h hn⟩
  · rw [hne]
    exact .of_branch (p := s.g d ≠ s.g n) hd h hn rfl
  · rw [hne]
    exact .of_branch (p := s.g d ≠ 0) hd h hn rfl

/-- Settles O3: jumps and branches end at their target with the link or the count written, an odd target traps first. -/
theorem controlFlow : Obligations.ControlFlow := ⟨jumpsAndCalls, branches⟩

end Sys2Proof.Machine
end

section
/-! PROOF. The frame of an instruction that writes several registers, and of one that waits (R58, R98). -/

namespace Sys2Proof.Machine

/-! ### Registers written before the completion -/

/-- On the way from `s` to `t` the executing context's general registers `ds` were written, and nothing else. -/
structure Wrote (ds : List Nat) (s t : State) : Prop where
  module : SameModule s t
  cores : SameCores s.issue.lid s t
  core : OnlySlots s.me t.me
  slots : SameSlots s.issue.slot s.me t.me
  registers : OnlyRegisters s.slot t.slot
  others : SameRegisters ds [] s t

theorem Wrote.refl (ds : List Nat) (s : State) : Wrote ds s s :=
  ⟨.refl s, fun _ _ => rfl, rfl, fun _ _ => rfl, rfl, fun _ _ => rfl, fun _ _ => rfl⟩

theorem Wrote.issue {ds : List Nat} {s t : State} (h : Wrote ds s t) : t.issue = s.issue := h.module.issue

/-- One more register written. -/
theorem Wrote.wr {ds : List Nat} {s t : State} (h : Wrote ds s t) {n : Nat} (hn : n ∈ ds) (v : Word) : Wrote ds s (t.wr n v) where
  module := h.module.trans rfl
  cores k hk := (SameCores.setMe t _ k (by rwa [h.issue])).trans (h.cores k hk)
  core := by
    rw [State.wr, State.me_setSlot]
    exact h.core.trans (onlySlots_setSlot _ _ _)
  slots j hj := by
    rw [State.wr, State.me_setSlot, Core.slot_setSlot_ne _ _ (by rwa [h.issue])]
    exact h.slots j hj
  registers := by
    rw [State.slot_wr]
    exact h.registers.trans rfl
  others := by
    refine ⟨fun j hj => ?_, fun j hj => (State.a_wr t n j v).trans (h.others.2 j hj)⟩
    rw [State.g_wr, if_neg (ne_of_mem_of_not_mem hn hj).symm, h.others.1 j hj]

/-- Consecutive registers written. -/
theorem Wrote.wrs {ds : List Nat} {s t : State} (h : Wrote ds s t) {n : Nat} {vs : List Word} (hn : ∀ i, i < vs.length → n + i ∈ ds) :
    Wrote ds s (t.wrs n vs) := by
  induction vs generalizing n t with
  | nil => exact h
  | cons v vs ih =>
    refine ih (h.wr (hn 0 (by simp)) v) fun i hi => ?_
    have := hn (i + 1) (by simpa using hi)
    rwa [Nat.add_assoc, Nat.add_comm 1 i]

/-- The completion after registers written in a state `s` that stands for `s₀` with a change of the module, the core or the context. -/
theorem Wrote.went {m : State} {c : Core} {x : Slot} {ds : List Nat} {s₀ s t : State} {pc : DWord} (h : Wrote ds s t) (hpc : pc ≠ END)
    (hi : m.issue = s₀.issue) (hm : SameModule m s) (hk : SameCores s₀.issue.lid s₀ s) (hc : OnlySlots c s.me)
    (hs : SameSlots s₀.issue.slot s₀.me s.me) (hx : OnlyRegisters x s.slot) (hg : SameRegisters ds [] s₀ s) :
    Went m c x ds [] pc s₀ (t.finish pc) := by
  have hj : s.issue = s₀.issue := hm.issue.trans hi
  exact went_finish hpc hi (hm.trans h.module) (fun k hk' => (h.cores k (by rwa [hj])).trans (hk k hk')) (hc.trans h.core)
    (fun j hj' => (h.slots j (by rwa [hj])).trans (hs j hj')) (hx.trans h.registers)
    ⟨fun n hn => (h.others.1 n hn).trans (hg.1 n hn), fun n hn => (h.others.2 n hn).trans (hg.2 n hn)⟩

/-- The completion after registers written and nothing else. -/
theorem Wrote.completed {ds : List Nat} {s t : State} {pc : DWord} (h : Wrote ds s t) (hpc : pc ≠ END) :
    Completed ds [] pc s (t.finish pc) :=
  have hw := h.went hpc rfl (.refl s) (fun _ _ => rfl) (c := s.me) rfl (fun _ _ => rfl) (x := s.slot) rfl ⟨fun _ _ => rfl, fun _ _ => rfl⟩
  ⟨hw, hw.1.memory⟩

@[simp] theorem State.g_finish (s : State) {pc : DWord} (h : pc ≠ END) (n : Nat) : (s.finish pc).g n = s.g n := by simp [State.g, h]

/-- What consecutive register writes leave in a register. -/
theorem State.g_wrs (s : State) (n j : Nat) (vs : List Word) :
    (s.wrs n vs).g j = if n ≤ j ∧ j < n + vs.length then vs.getD (j - n) 0 else s.g j := by
  induction vs generalizing s n with
  | nil => rw [if_neg (by simp)]; rfl
  | cons v vs ih =>
    rw [State.wrs, ih, State.g_wr, List.length_cons]
    rcases Nat.lt_trichotomy j n with hlt | heq | hgt
    · rw [if_neg (by omega), if_neg (by omega), if_neg (by omega)]
    · rw [if_neg (by omega), if_pos heq, if_pos (by omega), heq, Nat.sub_self, List.getD_cons_zero]
    · rw [if_neg (Nat.ne_of_gt hgt)]
      have hsub : j - n = j - (n + 1) + 1 := by omega
      rw [hsub, List.getD_cons_succ]
      exact if_congr (by omega) rfl rfl

@[simp] theorem State.next_wrs (s : State) (n : Nat) (vs : List Word) : (s.wrs n vs).next = s.next := by
  induction vs generalizing s n with
  | nil => rfl
  | cons v vs ih => exact ih (s.wr n v) (n + 1)

/-- All that an instruction does that writes consecutive registers and completes. -/
theorem done_wrs (s : State) {n : Nat} {vs : List Word} {ds : List Nat} (h : s.next ≠ END) (hn : ∀ i, i < vs.length → n + i ∈ ds) :
    ∃ t, done (s.wrs n vs) = .next t ∧ Completed ds [] s.next s t ∧ ∀ i, i < vs.length → t.g (n + i) = vs.getD i 0 := by
  refine ⟨_, rfl, ?_, fun i hi => ?_⟩
  · rw [State.next_wrs]
    exact ((Wrote.refl ds s).wrs hn).completed h
  · rw [State.next_wrs, State.g_finish _ h, State.g_wrs, if_pos (by omega), Nat.add_sub_cancel_left]

/-! ### Waiting (R98) -/

/-- A wait changes its context, and may open the run queue (R157). -/
theorem State.me_waiting (s : State) (poll keep counts : Bool) (i : Instr) : ∃ b w, (s.waiting poll keep counts i).me =
    { s.me.setSlot s.issue.slot { s.slot with wait := some w, pc := s.issue.start } with entryOver := b } ∧
      w.instr = i ∧ w.start = s.issue.start ∧ w.sbuf = s.slot.sbuf :=
  ⟨_, ⟨poll, keep, i, s.issue.start, s.issue.length, s.issue.word, s.issue.stepping, s.issue.since.getD s.stamp, s.slot.sbuf⟩,
    State.me_setMe s _, rfl, rfl, rfl⟩

/-- An instruction that ends in a wait, which is tried again. -/
theorem Waits.of_block {i : Instr} {s : State} (he : exec i s = block i s) : Waits i s := by
  obtain ⟨b, w, hme, hinstr, hstart, hsbuf⟩ := s.me_waiting true false true i
  refine ⟨_, he, rfl, fun k hk => State.core_setCore_ne s _ hk, ?_, fun j hj => ?_, w, ?_, hinstr, hstart, hsbuf⟩
  · rw [hme]
    rfl
  · rw [hme]
    exact Core.slot_setSlot_ne s.me _ hj
  · exact (congrArg (Core.slot · s.issue.slot) hme).trans (Core.slot_setSlot_self s.me _ _)

end Sys2Proof.Machine
end

section
/-! PROOF. The pool and its full bits (R91 to R96): what is loaded, what is stored, and when a form waits. -/

namespace Sys2Proof.Machine

/-! ### Values in the pool -/

theorem Core.ld_lt (c : Core) (o n : Nat) : c.ld o n < 256 ^ n := by
  have h := leNat_lt (Map.getList 0 c.pool o n)
  rwa [Map.length_getList] at h

/-- A number of at most four bytes of the pool, as a word. -/
theorem Core.Z_ld (c : Core) (o : Nat) {n : Nat} (h : n ≤ 4) : Z (u32 (c.ld o n)) = leNat (Map.getList 0 c.pool o n) :=
  Z_u32 ((c.ld_lt o n).trans_le (Nat.pow_le_pow_right (by decide) h))

theorem Core.Z_ldw (c : Core) (o : Nat) : Z (c.ldw o) = leNat (Map.getList 0 c.pool o 4) := c.Z_ld o (Nat.le_refl 4)

/-- The bytes of a word stored in the pool. -/
theorem Core.poolWritten_st (c : Core) (o n : Nat) (v : Word) : PoolWritten c.pool (c.st o n (Z v)).pool o n (byteOf v) := by
  intro a
  rw [Core.st, Map.get_setList, length_leBytes]
  by_cases h : o ≤ a ∧ a < o + n
  · rw [if_pos h, if_pos h, getD_leBytes _ (by omega), byteOf]
  · rw [if_neg h, if_neg h]

/-- Two adjacent ranges written one after the other. -/
theorem PoolWritten.append {p q r : Map Byte} {o n k : Nat} {b e : Nat → Byte} (h : PoolWritten p q o n b)
    (h' : PoolWritten q r (o + n) k e) : PoolWritten p r o (n + k) fun i => if i < n then b i else e (i - n) := by
  intro a
  rw [h' a, h a]
  dsimp only
  by_cases h2 : o + n ≤ a ∧ a < o + n + k
  · have hsub : a - (o + n) = a - o - n := by omega
    rw [if_pos h2, if_pos (by omega), if_neg (by omega), hsub]
  · rw [if_neg h2]
    by_cases h1 : o ≤ a ∧ a < o + n
    · rw [if_pos h1, if_pos (by omega), if_pos (by omega)]
    · rw [if_neg h1, if_neg (by omega)]

theorem PoolWritten.congr {p q : Map Byte} {o n : Nat} {b e : Nat → Byte} (h : PoolWritten p q o n b) (hb : ∀ i, i < n → b i = e i) :
    PoolWritten p q o n e := by
  intro a
  rw [h a]
  by_cases ha : o ≤ a ∧ a < o + n
  · rw [if_pos ha, if_pos ha, hb _ (by omega)]
  · rw [if_neg ha, if_neg ha]

/-- The pool with the four lanes of quad d stored from o on (R94). -/
def State.quadStored (s : State) (d o : Nat) : Core :=
  (((s.me.stw o (s.lane d 0)).stw (o + 4) (s.lane d 1)).stw (o + 8) (s.lane d 2)).stw (o + 12) (s.lane d 3)

theorem State.quadStored_eq (s : State) (d o : Nat) : s.quadStored d o = { s.me with pool := (s.quadStored d o).pool } := by
  simp only [State.quadStored, Core.stw, Core.st]

theorem State.poolWritten_quad (s : State) (d o : Nat) :
    PoolWritten s.me.pool (s.quadStored d o).pool o 16 fun i => byteOf (s.g (4 * d + i / 4)) (i % 4) := by
  have h01 := (s.me.poolWritten_st o 4 (s.lane d 0)).append (Core.poolWritten_st _ (o + 4) 4 (s.lane d 1))
  have h012 := h01.append (Core.poolWritten_st _ (o + 8) 4 (s.lane d 2))
  refine (h012.append (Core.poolWritten_st _ (o + 12) 4 (s.lane d 3))).congr fun i hi => ?_
  interval_cases i <;> rfl

/-! ### Loads (R92 to R94) -/

theorem exec_ldp (z d n : Nat) (imm : Int) (s : State) : exec (.ldp z d n imm) s = execLdp z d n imm s := rfl
theorem exec_ldpBS (z d n : Nat) (imm : Int) (s : State) : exec (.ldpBS z d n imm) s = execLdpBS z d n imm s := rfl
theorem exec_ldpq (d n : Nat) (imm : Int) (s : State) : exec (.ldpq d n imm) s = execLdpq d n imm s := rfl

theorem poolLoads : Sys2Proof.Part.PoolLoads := by
  intro z d n imm s h
  refine ⟨.of_atPool (exec_ldp z d n imm s) fun o he hz => ?_, .of_atPool (exec_ldpBS z d n imm s) fun o he hz => ?_,
    .of_atPool (exec_ldpq d n imm s) fun o he => ?_⟩
  · exact .of_doneWr h he (s.me.Z_ld o (Nat.pow_le_pow_right (by decide) hz))
  · exact .of_doneWr h he (S_sext32 _ (Nat.two_pow_pos z) ((Nat.pow_le_pow_right (by decide) hz).trans (by decide)))
  · have hin : ∀ i, i < 4 → 4 * d + i ∈ [4 * d, 4 * d + 1, 4 * d + 2, 4 * d + 3] := fun i hi => by interval_cases i <;> simp
    obtain ⟨t, hdone, ht, hg⟩ := done_wrs s (vs := [s.me.ldw o, s.me.ldw (o + 4), s.me.ldw (o + 8), s.me.ldw (o + 12)]) h hin
    refine ⟨t, he.trans hdone, ht, fun i hi => ?_⟩
    rw [hg i hi]
    interval_cases i <;> exact Core.Z_ldw ..

/-! ### Stores and full bits (R92 to R96) -/

/-- A form that ends with a change of the pool and the full bits. -/
theorem Runs.of_setPool {i : Instr} {s : State} {c : Core} (h : s.next ≠ END) (he : exec i s = done (s.setMe c))
    (hc : c = { s.me with pool := c.pool, full := c.full }) : Runs i s (WentPool c.pool c.full [] s) := by
  have hw := went_setMe s c h (by rw [hc])
  exact ⟨_, he, hc ▸ hw, hw.1.memory⟩

/-- A form that ends with bytes of the pool written. -/
theorem Runs.of_poolWritten {i : Instr} {s : State} {c : Core} {o n : Nat} {b : Nat → Byte} (h : s.next ≠ END) (he : exec i s = done (s.setMe c))
    (hc : c = { s.me with pool := c.pool }) (hb : PoolWritten s.me.pool c.pool o n b) :
    Runs i s fun t => ∃ p, WentPool p s.me.full [] s t ∧ PoolWritten s.me.pool p o n b := by
  obtain ⟨t, ht, hw⟩ := Runs.of_setPool h he (by rw [hc])
  rw [show c.full = s.me.full by rw [hc]] at hw
  exact ⟨t, ht, c.pool, hw, hb⟩

theorem Runs.mono {i : Instr} {s : State} {P Q : State → Prop} (h : Runs i s P) (hpq : ∀ t, P t → Q t) : Runs i s Q :=
  let ⟨t, he, hp⟩ := h
  ⟨t, he, hpq t hp⟩

theorem exec_stp (z d n : Nat) (imm : Int) (s : State) : exec (.stp z d n imm) s = execStp z d n imm s := rfl
theorem exec_stpq (d n : Nat) (imm : Int) (s : State) : exec (.stpq d n imm) s = execStpq d n imm s := rfl

theorem poolStores : Sys2Proof.Part.PoolStores := by
  intro z d n imm s h
  refine ⟨.of_atPool (exec_stp z d n imm s) fun o he => ?_, .of_atPool (exec_stpq d n imm s) fun o he => ?_⟩
  · exact .of_poolWritten h he rfl (s.me.poolWritten_st o _ (s.g d))
  · exact .of_poolWritten h he (s.quadStored_eq d o) (s.poolWritten_quad d o)

/-- The full bits of a range of words. -/
theorem Core.get_setFulls (c : Core) (o k w : Nat) (b : Bool) :
    Map.get false (c.setFulls o b k).full w = if o / 4 ≤ w ∧ w < o / 4 + k then b else Map.get false c.full w := by
  rw [Core.setFulls, Map.get_setList, List.length_replicate]
  by_cases h : o / 4 ≤ w ∧ w < o / 4 + k
  · rw [if_pos h, if_pos h, List.getD_replicate _ (by omega)]
  · rw [if_neg h, if_neg h]

/-- A pool with a word and its full bit stored. -/
theorem Core.get_stwFull (c : Core) (o w : Nat) (v : Word) :
    Map.get false (c.stwFull o v).full w = if w = o / 4 then true else Map.get false c.full w :=
  Map.get_set false c.full (o / 4) w true

/-- R91: the check of a range. -/
theorem poolCheck_eq (p : Word) (o : Int) (al n : Nat) : poolCheck p o al n = if o % al ≠ 0 then some (.align, w64 o)
    else if o < 0 ∨ 0x6000 < o + n ∨ o < hndEnd p then some (.poolRange, w64 o) else none := by
  unfold poolCheck
  by_cases h : o < 0
  · simp only [h, true_or]
  · simp only [h, false_or, inPool_toNat p n (Int.not_lt.1 h)]

theorem exec_ldps (d n : Nat) (imm : Int) (s : State) : exec (.ldps d n imm) s = execLdps d n imm s := rfl
theorem exec_stpf (d n : Nat) (imm : Int) (s : State) : exec (.stpf d n imm) s = execStpf d n imm s := rfl
theorem exec_tstf (d n : Nat) (imm : Int) (s : State) : exec (.tstf d n imm) s = execTstf d n imm s := rfl
theorem exec_sete (d n : Nat) (imm : Int) (s : State) : exec (.sete d n imm) s = execSete d n imm s := rfl

/-- R91, R96: `sete` of no words checks one. -/
theorem exec_sete_eq {d n k : Nat} {imm o : Int} {s : State} (hk : Z (s.g d) = k) (ho : Z (s.g n) + imm = o) : exec (.sete d n imm) s =
    if o % (4 : Nat) ≠ 0 then trap .align (w64 o) s
    else if o < 0 ∨ 0x6000 < o + (4 * max k 1 : Nat) ∨ o < hndEnd s.me.part then trap .poolRange (w64 o) s
    else done (s.setMe (s.me.setFulls o.toNat false k)) := by
  have hcount : (4 * if k = 0 then 1 else k) = 4 * max k 1 := by split <;> omega
  rw [exec_sete, execSete]
  rw [hk, ho, hcount, poolCheck_eq, State.part]
  by_cases ha : o % (4 : Nat) ≠ 0
  · rw [if_pos ha, if_pos ha]
  rw [if_neg ha, if_neg ha]
  by_cases hr : o < 0 ∨ 0x6000 < o + (4 * max k 1 : Nat) ∨ o < hndEnd s.me.part
  · rw [if_pos hr, if_pos hr]
  · rw [if_neg hr, if_neg hr]

theorem fullBits : Sys2Proof.Part.FullBits := by
  intro d n imm s h
  have hsete := exec_sete_eq (d := d) (n := n) (imm := imm) (s := s) rfl rfl
  refine ⟨.of_atPool (exec_ldps d n imm s) fun o he => ⟨fun hf => ?_, fun hf => ?_⟩, .of_atPool (exec_stpf d n imm s) fun o he => ?_,
    .of_atPool (exec_tstf d n imm s) fun o he => ?_, fun ha => ?_, fun ha hr => ?_, fun o ho ha hlo hhi => ?_⟩
  · exact .of_doneWr h (he.trans (if_pos hf)) (s.me.Z_ldw o)
  · exact .of_block (he.trans (if_neg (by simp [Core.isFull, hf])))
  · exact (Runs.of_setPool h he rfl).mono fun t ht => ⟨_, _, ht, s.me.poolWritten_st o 4 (s.g d), fun w => s.me.get_stwFull o w (s.g d)⟩
  · exact .of_doneWr h he rfl
  · rwa [if_pos (by exact_mod_cast ha)] at hsete
  · rwa [if_neg (by omega), if_pos (by omega)] at hsete
  · rw [if_neg (by omega), if_neg (by omega), ← ho, Int.toNat_natCast] at hsete
    exact (Runs.of_setPool h hsete rfl).mono fun t ht => ⟨_, ht, fun w => s.me.get_setFulls o (Z (s.g d)) w false⟩

/-- Settles O4: each form by its check, then by what it loads or stores. -/
theorem poolForms : Obligations.PoolForms := ⟨poolLoads, poolStores, fullBits⟩

end Sys2Proof.Machine
end

section
/-! PROOF. Ring handles (R99 to R103): the bind word, and how the producer and consumer forms move a record's counts. -/

namespace Sys2Proof.Machine

/-! ### Records and counts (R99) -/

theorem Core.handle_setHandle (c : Core) (h j : Nat) (x : Handle) :
    Map.get Handle.empty (c.setHandle h x).handles j = if j = h then x else c.handle j := Map.get_set Handle.empty c.handles h j x

theorem countDiff_eq (a b : Word) : countDiff a b = (a - b).toNat := by rw [countDiff, ← sub_eq_w32]; rfl

theorem Handle.ready_eq (x : Handle) : x.ready = countDiff x.pub x.head := (countDiff_eq _ _).symm
theorem Handle.used_eq (x : Handle) : x.used = countDiff x.rsv x.head := (countDiff_eq _ _).symm
theorem Handle.entry_eq (x : Handle) (i : Word) : x.entry i = entryAt x i := rfl
theorem Handle.count_eq (x : Handle) : x.count = 2 ^ x.rlog := rfl

/-- Published entries not taken back, as a word. -/
theorem Handle.Z_ready (x : Handle) : Z (u32 x.ready) = countDiff x.pub x.head := by
  rw [Handle.ready, u32_toNat, countDiff_eq]; rfl

/-! ### The shapes of the handle forms -/

/-- R100: PROT before anything else, on an unbound handle and, for a producer form, on a mailbox. -/
theorem HandleForm.of_onHandle {h : Nat} {producer : Prop} {b : Bool} {i : Instr} {s : State} {P : Prop} {f : Handle → Out}
    (hb : (b = true) = producer) (he : exec i s = onHandle h b s f) (hP : exec i s = f (s.me.handle h) → P) : HandleForm h producer i s P := by
  subst hb
  exact ⟨fun hp => he.trans (if_pos hp), fun hbnd hmbx => hP (he.trans (if_neg (by simpa [hbnd] using hmbx)))⟩

/-- A form that ends with a record and bytes of the pool changed. -/
theorem Runs.of_setHandle {i : Instr} {s : State} {c : Core} {h : Nat} {y : Handle} (hn : s.next ≠ END)
    (he : exec i s = done (s.setMe (c.setHandle h y))) (hc : c = { s.me with pool := c.pool }) : Runs i s (WentHandle h y c.pool [] s) := by
  have hw := went_setMe s (c.setHandle h y) hn (by rw [hc]; rfl)
  refine ⟨_, he, ⟨(c.setHandle h y).handles, ?_, fun j => ?_⟩, hw.1.memory⟩
  · have hcore : c.setHandle h y = { s.me with handles := (c.setHandle h y).handles, pool := c.pool } := by rw [hc]; rfl
    exact hcore ▸ hw
  · rw [Core.handle_setHandle]
    rw [hc]
    rfl

/-- A form that ends with a record changed and a register written. -/
theorem Runs.of_setHandle_wr {i : Instr} {s : State} {h d : Nat} {y : Handle} {v : Word} (hn : s.next ≠ END)
    (he : exec i s = doneWr (s.setMe (s.me.setHandle h y)) d v) : Runs i s fun t => t.g d = v ∧ WentHandle h y s.me.pool [d] s t := by
  obtain ⟨hg, hw⟩ := went_setMe_wr s (s.me.setHandle h y) d v hn rfl
  exact ⟨_, he, hg, ⟨_, hw, (s.me.handle_setHandle h · y)⟩, hw.1.memory⟩

/-! ### Binding (R101) -/

theorem exec_hbind (d h : Nat) (s : State) : exec (.hbind d h) s = execHbind d h s := rfl

/-- R101: the checks of the bind word of a ring. -/
theorem bindCheck_ring (p gd : Word) {b l e : Nat} (hb : b = Z gd % 2 ^ 16) (hl : l = Z gd / 2 ^ 16 % 2 ^ 8)
    (he : e = 4 * 2 ^ (Z gd / 2 ^ 24 % 4)) : bindCheck p gd false =
    if 2 ^ 26 ≤ Z gd ∨ 10 < l then some (.illegal, u64 (Z gd))
    else if b % e ≠ 0 then some (.align, u64 b)
    else if b < hndEnd p ∨ 0x6000 < b + e * 2 ^ l then some (.poolRange, u64 b)
    else none := by
  have hfield : bits (Z gd) 0 16 = b := by rw [hb, bits, Nat.pow_zero, Nat.div_one]
  have hillegal : (Z gd / 2 ^ 26 ≠ 0 ∨ 10 < l) ↔ (2 ^ 26 ≤ Z gd ∨ 10 < l) := by omega
  have hrange : inPool p b (e * 2 ^ l) = false ↔ b < hndEnd p ∨ 0x6000 < b + e * 2 ^ l := by
    rw [inPool, decide_eq_false_iff_not]
    omega
  have hl' : bits (Z gd) 16 8 = l := hl.symm
  have he' : 4 * 2 ^ bits (Z gd) 24 2 = e := he.symm
  unfold bindCheck
  simp only [hfield, hl', he', hillegal, hrange, Bool.false_eq_true, false_and, if_false]

theorem handleBind : Sys2Proof.Part.HandleBind := by
  intro d h s b l e hn hb hl he
  have hexec := exec_hbind d h s
  unfold execHbind at hexec
  rw [bindCheck_ring s.part (s.g d) hb hl he] at hexec
  have hset (y : Handle) (hd : exec (.hbind d h) s = done (s.setMe (s.me.setHandle h y))) :
      Runs (.hbind d h) s (WentHandle h y s.me.pool [] s) := .of_setHandle hn hd rfl
  by_cases h1 : (s.me.handle h).mbx = true
  · rw [if_pos h1] at hexec ⊢; exact hexec
  rw [if_neg h1] at hexec ⊢
  by_cases h2 : s.g d = 0xFFFFFFFF#32
  · rw [if_pos h2] at hexec ⊢; exact hset _ hexec
  rw [if_neg h2] at hexec ⊢
  by_cases h3 : 2 ^ 26 ≤ Z (s.g d) ∨ 10 < l
  · rw [if_pos h3] at hexec ⊢; exact hexec
  rw [if_neg h3] at hexec ⊢
  by_cases h4 : b % e ≠ 0
  · rw [if_pos h4] at hexec ⊢; exact hexec
  rw [if_neg h4] at hexec ⊢
  by_cases h5 : b < hndEnd s.me.part ∨ 0x6000 < b + e * 2 ^ l
  · rw [if_pos h5]; exact hexec.trans (by rw [State.part, if_pos h5])
  rw [if_neg h5]
  have hrecord : bindRecord (s.g d) false = ⟨true, false, Z (s.g d) / 2 ^ 24 % 4, b, l, 0, 0, 0⟩ := by
    rw [hb, hl, bindRecord]
    simp [bits]
  rw [← hrecord]
  exact hset _ (hexec.trans (by rw [State.part, if_neg h5]))

/-! ### Producer forms (R102) -/

theorem exec_hadv (d h : Nat) (s : State) : exec (.hadv d h) s = execHadv d h s := rfl
theorem exec_hpub (d h : Nat) (s : State) : exec (.hpub d h) s = execHpub d h s := rfl
theorem exec_hst (d h : Nat) (s : State) : exec (.hst d h) s = execHst d h s := rfl

theorem handleProducers : Sys2Proof.Part.HandleProducers := by
  rintro d h s x hn rfl
  have hprod : (true = true) = True := eq_true rfl
  refine ⟨.of_onHandle hprod (exec_hadv d h s) fun he => ?_, .of_onHandle hprod (exec_hpub d h s) fun he => ?_,
    .of_onHandle hprod (exec_hst d h s) fun he => ⟨fun hfree => ?_, fun hfull => ?_⟩⟩
  · rw [Handle.used_eq, Handle.count_eq] at he
    by_cases hfree : countDiff (s.me.handle h).rsv (s.me.handle h).head < 2 ^ (s.me.handle h).rlog
    · rw [if_pos hfree] at he
      simp only [if_pos hfree]
      exact .of_setHandle_wr hn he
    · rw [if_neg hfree] at he
      simp only [if_neg hfree]
      obtain ⟨t, hdone, hg, ht⟩ := doneWr_spec s d _ hn
      exact ⟨t, he.trans hdone, hg, ht⟩
  · exact (Runs.of_setHandle_wr hn he).mono fun t ⟨hg, ht⟩ => ⟨by rw [hg, countDiff_eq]; rfl, ht⟩
  · rw [Handle.used_eq, Handle.count_eq, if_pos hfree] at he
    exact (Runs.of_setHandle hn he rfl).mono fun t ht => ⟨_, ht, s.me.poolWritten_st _ 4 (s.g d)⟩
  · rw [Handle.used_eq, Handle.count_eq, if_neg (Nat.not_lt.2 hfull)] at he
    exact .of_block he

/-! ### Consumer forms (R103) -/

theorem exec_hwait (d h : Nat) (s : State) : exec (.hwait d h) s = execHwait d h s := rfl
theorem exec_hld (d h : Nat) (s : State) : exec (.hld d h) s = execHld d h s := rfl
theorem exec_hfree (d h : Nat) (s : State) : exec (.hfree d h) s = execHfree d h s := rfl
theorem exec_hcnt (d h : Nat) (s : State) : exec (.hcnt d h) s = execHcnt d h s := rfl

theorem handleConsumers : Sys2Proof.Part.HandleConsumers := by
  rintro d h s x hn rfl
  have hcons : (false = true) = False := eq_false Bool.false_ne_true
  refine ⟨.of_onHandle hcons (exec_hwait d h s) fun he => ?_, .of_onHandle hcons (exec_hld d h s) fun he => ?_,
    .of_onHandle hcons (exec_hfree d h s) fun he => ?_, .of_onHandle hcons (exec_hcnt d h s) fun he => ?_⟩
  · rw [Handle.ready_eq] at he
    exact ⟨fun hr => .of_doneWr hn (he.trans (if_neg hr)) rfl, fun hr => .of_block (he.trans (if_pos hr))⟩
  · rw [Handle.ready_eq] at he
    refine ⟨fun hr => ?_, fun hr => .of_block (he.trans (if_pos hr))⟩
    exact (Runs.of_setHandle_wr hn (he.trans (if_neg hr))).mono fun t ⟨hg, ht⟩ => ⟨by rw [hg]; exact Core.Z_ldw .., ht⟩
  · have hmin : (if Z (s.g d) < (s.me.handle h).ready then Z (s.g d) else (s.me.handle h).ready) =
        min (Z (s.g d)) (countDiff (s.me.handle h).pub (s.me.handle h).head) := by
      rw [Handle.ready_eq]
      split <;> omega
    rw [hmin] at he
    exact (Runs.of_setHandle_wr hn he).mono fun t ⟨hg, ht⟩ =>
      ⟨by rw [hg]; exact Z_u32 (Nat.lt_of_le_of_lt (Nat.min_le_left _ _) (Z_lt _)), ht⟩
  · exact .of_doneWr hn he (Handle.Z_ready _)

/-- Settles O5: each form by its checks, then by the record it leaves. -/
theorem handleForms : Obligations.HandleForms := ⟨handleBind, handleProducers, handleConsumers⟩

end Sys2Proof.Machine
end

section
/-! PROOF. Launch records (R75, R176, R179, R180): what a record's check reads, the status it ends with, and the launch it makes. -/

namespace Sys2Proof.Machine

/-! ### The handler table -/

/-- A table read through a queue's page table has led from `s` to `u`: errors may have been counted and free values used. -/
def TableRead (s u : State) : Prop := u = { s with free := u.free, dev := { s.dev with uerr := u.dev.uerr } }

theorem TableRead.refl (s : State) : TableRead s s := rfl

theorem TableRead.trans {s u v : State} (h : TableRead s u) (h' : TableRead u v) : TableRead s v := by
  unfold TableRead at *
  rw [h', h]

theorem TableRead.queue {s u : State} (h : TableRead s u) (q : Nat) : u.queue q = s.queue q := by
  rw [h]
  rfl

theorem State.tableByte_read (s : State) (root va : Nat) : TableRead s (s.tableByte root va).1 := by
  unfold State.tableByte
  dsimp only
  generalize (if va / 2 ^ 63 = 1 ∧ bits va 50 13 = s.dev.mnum then va % 2 ^ 50 else va) = a
  split
  · rfl
  · split
    · split <;> rfl
    · split
      · split <;> rfl
      · rfl
      · rfl

theorem State.tableBytes_read (s : State) (root va n : Nat) : TableRead s (s.tableBytes root va n).1 := by
  induction n generalizing s va with
  | zero => rfl
  | succ n ih =>
    have hfirst := s.tableByte_read root va
    unfold State.tableBytes
    cases hb : s.tableByte root va with
    | mk u b =>
      rw [hb] at hfirst
      cases b with
      | none => exact hfirst
      | some b =>
        have hrest := ih u ((va + 1) % 2 ^ 64)
        dsimp only
        cases hbs : u.tableBytes root ((va + 1) % 2 ^ 64) n with
        | mk v bs =>
          rw [hbs] at hrest
          cases bs <;> exact hfirst.trans hrest

/-- Entry i of a handler table. -/
def tableEntry (tb : List Byte) (i : Nat) : Nat := leNat ((tb.drop (8 * i)).take 8)

theorem tableEntries_eq (tb : List Byte) (n : Nat) : tableEntries tb n = (List.range n).map (tableEntry tb) := by
  induction n generalizing tb with
  | zero => rfl
  | succ n ih =>
    rw [tableEntries, ih, List.range_succ_eq_map, List.map_cons, List.map_map]
    refine congrArg₂ _ rfl (List.map_congr_left fun i _ => ?_)
    rw [tableEntry, List.drop_drop, Function.comp_apply, tableEntry, Nat.mul_succ, Nat.add_comm]

/-- One of the first n entries of a handler table is odd and not all ones (R180 BADREC). -/
def BadTable (tb : List Byte) (n : Nat) : Prop := ∃ i, i < n ∧ tableEntry tb i % 2 = 1 ∧ tableEntry tb i ≠ 2 ^ 64 - 1

theorem badTable_iff {tb : List Byte} {n : Nat} :
    ((tableEntries tb n).any fun a => a % 2 == 1 && a != 2 ^ 64 - 1) = true ↔ BadTable tb n := by
  simp only [tableEntries_eq, List.any_map, List.any_eq_true, List.mem_range, Function.comp_apply, Bool.and_eq_true, beq_iff_eq,
    bne_iff_ne, BadTable]

/-! ### The checks of a record (R180) -/

/-- The launch's range is not one of the module's (R180 BADRANGE). -/
def State.NoRange (s : State) (la : Launch) : Prop :=
  s.dev.tcnt < la.tcnt ∨ la.fteamAsked ≠ 0xFFFFFFFF ∧ (s.dev.tcnt < la.fteamAsked + la.tcnt ∨
    ∃ t ∈ s.dev.fenced, la.fteamAsked ≤ t ∧ t < la.fteamAsked + la.tcnt)

/-- The attachment has not accepted a feature group that the launch uses, or its slice needs one that it does not name (R180 FEATURE). -/
def State.NoGroup (s : State) (la : Launch) : Prop :=
  (∃ i, la.fset.testBit i = true ∧ s.dev.accept.getLsbD i = false) ∨ la.slice ≠ 0 ∧ la.fset.testBit 4 = false

theorem and_ne_self_iff (a b : Nat) : a &&& b ≠ a ↔ ∃ i, a.testBit i = true ∧ b.testBit i = false := by
  rw [ne_eq, ← not_iff_not, not_not]
  constructor
  · rintro h ⟨i, ha, hb⟩
    have := congrArg (Nat.testBit · i) h
    simp [ha, hb] at this
  · intro h
    refine Nat.eq_of_testBit_eq fun i => ?_
    cases ha : a.testBit i with
    | false => simp [ha]
    | true =>
      cases hb : b.testBit i with
      | false => exact absurd ⟨i, ha, hb⟩ h
      | true => simp [ha, hb]

theorem bits_one_eq_zero (v i : Nat) : bits v i 1 = 0 ↔ v.testBit i = false := by
  rw [bits, Nat.testBit_eq_decide_div_mod_eq, decide_eq_false_iff_not]
  omega

theorem noRange_iff {s : State} {la : Launch} : (s.dev.tcnt < la.tcnt ∨ (la.fteamAsked ≠ 0xFFFFFFFF ∧
    (s.dev.tcnt < la.fteamAsked + la.tcnt ∨ (s.dev.fenced.any fun t => la.fteamAsked ≤ t && t < la.fteamAsked + la.tcnt) = true))) ↔
      s.NoRange la := by
  simp only [List.any_eq_true, Bool.and_eq_true, decide_eq_true_iff, State.NoRange]

theorem noGroup_iff {s : State} {la : Launch} :
    (la.fset &&& s.dev.accept.toNat ≠ la.fset ∨ (la.slice ≠ 0 ∧ bits la.fset 4 1 = 0)) ↔ s.NoGroup la := by
  rw [and_ne_self_iff, bits_one_eq_zero]
  rfl

theorem TableRead.noRange_iff {s u : State} {la : Launch} (h : TableRead s u) : u.NoRange la ↔ s.NoRange la := by
  rw [h]
  rfl

theorem TableRead.noGroup_iff {s u : State} {la : Launch} (h : TableRead s u) : u.NoGroup la ↔ s.NoGroup la := by
  rw [h]
  rfl

section
variable {s u : State} {q : Nat} {bs tb : List Byte} {la : Launch}

theorem recordStatus_badPart (h : partOk la.part = false) : s.recordStatus q bs la = (s, .error 1) := by
  rw [State.recordStatus, if_pos h]

variable (hp : partOk la.part = true)
include hp

theorem recordStatus_badRecord (h : badRecord bs la = true) : s.recordStatus q bs la = (s, .error 2) := by
  rw [State.recordStatus, if_neg (by simp [hp]), if_pos h]

variable (hb : badRecord bs la = false)
include hb

theorem recordStatus_noTable (h : s.tableBytes (s.queue q).ptroot.toNat (imgNat bs 8 8) (8 * imgNat bs 0x30 2) = (u, none)) :
    s.recordStatus q bs la = (u, .error 2) := by
  rw [State.recordStatus, if_neg (by simp [hp]), if_neg (by simp [hb])]
  simp only [h]

/-- R180: the checks that follow the handler table, in their order, where the record asks for no restore. -/
theorem recordStatus_table (ht : s.tableBytes (s.queue q).ptroot.toNat (imgNat bs 8 8) (8 * imgNat bs 0x30 2) = (u, some tb)) :
    let answers (r : Except Nat (List Nat)) : Prop := s.recordStatus q bs la = (u, r)
    let n := imgNat bs 0x30 2
    (BadTable tb n → answers (.error 2)) ∧
    (¬BadTable tb n → (u.NoRange la → answers (.error 3)) ∧ (¬u.NoRange la → u.NoGroup la → answers (.error 4)) ∧
      (¬u.NoRange la → ¬u.NoGroup la → (u.queue q).launch ≠ none → answers (.error 5)) ∧
      (¬u.NoRange la → ¬u.NoGroup la → (u.queue q).launch = none → la.restore = false → answers (.ok (tableEntries tb n)))) := by
  dsimp only
  generalize hr : s.recordStatus q bs la = r
  rw [State.recordStatus, if_neg (by simp [hp]), if_neg (by simp [hb])] at hr
  simp only [ht] at hr
  refine ⟨fun h => ?_, fun h => ?_⟩
  · exact hr.symm.trans (if_pos (badTable_iff.2 h))
  rw [if_neg (mt badTable_iff.1 h)] at hr
  refine ⟨fun hrange => ?_, fun hrange hgroup => ?_, fun hrange hgroup hq => ?_, fun hrange hgroup hq hres => ?_⟩
  · exact hr.symm.trans (if_pos (noRange_iff.2 hrange))
  all_goals rw [if_neg (mt noRange_iff.1 hrange)] at hr
  · exact hr.symm.trans (if_pos (noGroup_iff.2 hgroup))
  all_goals rw [if_neg (mt noGroup_iff.1 hgroup)] at hr
  · exact hr.symm.trans (if_pos (Option.isSome_iff_ne_none.2 hq))
  · exact hr.symm.trans ((if_neg (by simp [hq])).trans (if_neg (by simp [hres])))

end
/-! ### Fields of a record (R179) -/

theorem imgNat_lt (bs : List Byte) (o n : Nat) : imgNat bs o n < 256 ^ n :=
  (leNat_lt _).trans_le (Nat.pow_le_pow_right (by decide) (List.length_take_le _ _))

theorem toNat_imgW (bs : List Byte) (o : Nat) : Z (imgW bs o) = imgNat bs o 4 := Z_u32 (imgNat_lt bs o 4)

theorem toNat_imgD (bs : List Byte) (o : Nat) : (imgD bs o).toNat = imgNat bs o 8 := Nat.mod_eq_of_lt (imgNat_lt bs o 8)

/-- R180 BADREC: the limits of a record's fields. -/
theorem badRecord_iff (bs : List Byte) (uid n arrived : Nat) (restore : Bool) :
    badRecord bs (launchOfRecord bs uid n arrived restore []) = true ↔ imgNat bs 0 8 % 128 ≠ 0 ∨ imgNat bs 0x10 4 % 2 = 1 ∨
      imgNat bs 0x1C 4 = 0 ∨ imgNat bs 0x1C 4 ≤ imgNat bs 0x20 4 ∨ 64 < imgNat bs 0x30 2 ∨ imgNat bs 0x33 1 ≠ 0 ∨ imgNat bs 0x3E 2 ≠ 0 ∨
      8 ≤ imgNat bs 0x32 1 ∨ 2 ^ 16 < imgNat bs 0x38 4 := by
  simp only [badRecord, Bool.or_eq_true, bne_iff_ne, beq_iff_eq, decide_eq_true_eq]
  simp only [launchOfRecord, toNat_imgD]
  tauto

/-! ### What a record does -/

/-- The state in which queue q has counted one more record (R176). -/
def State.sequenced (s : State) (q : Nat) : State := s.setQueue q { s.queue q with seq := (s.queue q).seq + 1, rst := false }

/-- The launch of a record on queue q. -/
def State.recordLaunch (s : State) (q : Nat) (bs : List Byte) : Launch :=
  launchOfRecord bs s.serial (Z ((s.queue q).seq + 1)) s.stamp (s.queue q).rst []

/-- The state in which a launch waits in the arbiter. -/
def State.arbitrates (s : State) (q : Nat) (la : Launch) : State :=
  { s.setQueue q { s.queue q with launch := some la } with serial := s.serial + 1, stamp := s.stamp + 1 }

theorem State.queue_arbitrates (s : State) (q : Nat) (la : Launch) : (s.arbitrates q la).queue q = { s.queue q with launch := some la } :=
  State.queue_setQueue_self s q _

theorem leNat_leBytes4 {v : Nat} (h : v < 2 ^ 32) : leNat (leBytes v 4) = v := (leNat_leBytes v 4).trans (Nat.mod_eq_of_lt h)

/-- A record on queue q, the n-th, is refused with a status (R176, R180): its completion record and a message leave for the host, and the
queue counts it. -/
def RecordRefused (q n st : Nat) (s t : State) : Prop :=
  Z (t.queue q).seq = n ∧ (t.queue q).launch = (s.queue q).launch ∧
    (∃ rec : List Byte, t.hostOut = s.hostOut ++ [.data ((((s.queue q).cpla).toNat + 32 * (n % 256)) % 2 ^ 64) rec, .msix q] ∧
      rec.length = 32 ∧ leNat (rec.take 4) = n ∧ leNat ((rec.drop 4).take 4) = st) ∧ (∀ l, t.core l = s.core l) ∧ SameMemory s t

section
variable {q : Nat} {bs : List Byte} {s u : State} (hq : q < 64) (hlen : bs.length = 64) (hrdy : s.dev.fwRdy = true)
include hq hlen hrdy

theorem exec_launchRecord_refused {st : Nat} (h : (s.sequenced q).recordStatus q bs (s.recordLaunch q bs) = (u, .error st)) :
    exec (.launchRecord q bs) s = .next (u.complete q (Z ((s.queue q).seq + 1)) st 0xFFFFFFFF DoneRec.zero) := by
  show execLaunchRecord q bs s = _
  rw [execLaunchRecord, whenOn_true (decide_eq_true hq), if_neg (by simp [hlen, hrdy])]
  dsimp only
  split
  · next v st' heq => cases h.symm.trans heq; rfl
  · next v hs heq => cases h.symm.trans heq

theorem exec_launchRecord_taken {hs : List Nat} (h : (s.sequenced q).recordStatus q bs (s.recordLaunch q bs) = (u, .ok hs)) :
    exec (.launchRecord q bs) s = .next (u.arbitrates q { s.recordLaunch q bs with htab := hs }) := by
  show execLaunchRecord q bs s = _
  rw [execLaunchRecord, whenOn_true (decide_eq_true hq), if_neg (by simp [hlen, hrdy])]
  dsimp only
  split
  · next v st heq => cases h.symm.trans heq
  · next v hs' heq => cases h.symm.trans heq; rfl

omit hq hlen hrdy in
/-- R176: a completion record starts with its sequence number and its status. -/
theorem State.hostOut_complete (u : State) (q n st f : Nat) (r : DoneRec) : ∃ rest : List Byte, rest.length = 24 ∧
    (u.complete q n st f r).hostOut = u.hostOut ++ [.data ((((u.queue q).cpla).toNat + 32 * (n % 256)) % 2 ^ 64)
      (leBytes n 4 ++ (leBytes st 4 ++ rest)), .msix q] :=
  ⟨leBytes (r.err + r.code * 2 ^ 8) 4 ++ leBytes r.count 4 ++ leBytes r.res.toNat 4 ++ leBytes r.cores 4 ++ leBytes f 4 ++ leBytes 0 4,
    by simp, by simp only [State.complete, List.append_assoc]⟩

/-- R176: the completion record of a refusal. -/
theorem runs_launchRecord_refused {st : Nat} (h : (s.sequenced q).recordStatus q bs (s.recordLaunch q bs) = (u, .error st))
    (hu : TableRead (s.sequenced q) u) (hst : st < 2 ^ 32) :
    Runs (.launchRecord q bs) s (RecordRefused q (Z ((s.queue q).seq + 1)) st s) := by
  have hqu : u.queue q = { s.queue q with seq := (s.queue q).seq + 1, rst := false } := by
    rw [hu]
    exact State.queue_setQueue_self ..
  have hn : Z ((s.queue q).seq + 1) < 2 ^ 32 := Z_lt _
  obtain ⟨rest, hrest, hout⟩ := u.hostOut_complete q (Z ((s.queue q).seq + 1)) st 0xFFFFFFFF DoneRec.zero
  refine ⟨_, exec_launchRecord_refused hq hlen hrdy h, congrArg (Z ·.seq) hqu, congrArg (·.launch) hqu,
    ⟨leBytes (Z ((s.queue q).seq + 1)) 4 ++ (leBytes st 4 ++ rest), hout.trans ?_, ?_, ?_, ?_⟩,
    fun l => ?_, fun a => ?_⟩
  · rw [hqu, hu]
    rfl
  · simp [hrest]
  · rw [List.take_left' (length_leBytes _ 4), leNat_leBytes4 hn]
  · rw [List.drop_left' (length_leBytes _ 4), List.take_left' (length_leBytes _ 4), leNat_leBytes4 hst]
  · show u.core l = _
    rw [hu]
    rfl
  · show u.byte a = _
    rw [hu]
    rfl

end

/-- The launch that the n-th record of queue q makes waits in the arbiter (R179), with its handlers. -/
theorem runs_launchRecord_taken {q : Nat} {bs : List Byte} {s u : State} (hq : q < 64) (hlen : bs.length = 64) (hrdy : s.dev.fwRdy = true)
    {hs : List Nat} (h : (s.sequenced q).recordStatus q bs (s.recordLaunch q bs) = (u, .ok hs)) (hu : TableRead (s.sequenced q) u) :
    Runs (.launchRecord q bs) s fun t => Z (t.queue q).seq = Z ((s.queue q).seq + 1) ∧ t.hostOut = s.hostOut ∧
      (t.queue q).launch = some { s.recordLaunch q bs with htab := hs } := by
  have hseq : (u.queue q).seq = (s.queue q).seq + 1 := by
    rw [hu]
    exact congrArg (·.seq) (State.queue_setQueue_self s q _)
  refine ⟨_, exec_launchRecord_taken hq hlen hrdy h, ?_, ?_, ?_⟩
  · rw [State.queue_arbitrates, ← hseq]
  · show u.hostOut = _
    rw [hu]
    rfl
  · rw [State.queue_arbitrates]

/-- R75, R76, R179, R180. -/
theorem launchRecords : Sys2Proof.Part.LaunchRecords := by
  rintro q bs s n hq hlen hrdy rfl
  intro field refused
  have hbad (u : State) (hu : TableRead (s.sequenced q) u) (st : Nat) (hst : st < 2 ^ 32)
      (h : (s.sequenced q).recordStatus q bs (s.recordLaunch q bs) = (u, .error st)) : Runs (.launchRecord q bs) s (refused st) :=
    runs_launchRecord_refused hq hlen hrdy h hu hst
  have hlimits := badRecord_iff bs s.serial (Z ((s.queue q).seq + 1)) s.stamp (s.queue q).rst
  refine ⟨fun hp => hbad _ (.refl _) 1 (by decide) (recordStatus_badPart hp),
    fun hp hf => hbad _ (.refl _) 2 (by decide) (recordStatus_badRecord hp (hlimits.2 hf)), ?_, fun hs hok => ?_⟩
  · intro hp h0 h10 h20 h30 h33 h3E h32 h38 table first teams noRange noGroup
    have hgood : badRecord bs (s.recordLaunch q bs) = false := by
      rw [Bool.eq_false_iff, ne_eq, State.recordLaunch, hlimits]
      simp only [not_or, not_not, not_le, not_lt]
      exact ⟨h0, Nat.mod_two_ne_one.2 h10, Nat.ne_of_gt (Nat.zero_lt_of_lt h20), h20, h30, h33, h3E, h32, h38⟩
    have hroot : ((s.sequenced q).queue q).ptroot = (s.queue q).ptroot := congrArg (·.ptroot) (State.queue_setQueue_self s q _)
    have htable {r : State × Option (List Byte)} (hu : table = r) :
        (s.sequenced q).tableBytes ((s.sequenced q).queue q).ptroot.toNat (imgNat bs 8 8) (8 * imgNat bs 0x30 2) = r := hroot ▸ hu
    have hread {r : State × Option (List Byte)} (hu : table = r) : TableRead (s.sequenced q) r.1 := hu ▸ State.tableBytes_read ..
    refine ⟨fun u hu => hbad u (hread hu) 2 (by decide) (recordStatus_noTable hp hgood (htable hu)), fun u tb hu => ?_⟩
    intro handler
    obtain ⟨hbadTable, hchecked⟩ := recordStatus_table hp hgood (htable hu)
    refine ⟨fun hh => hbad u (hread hu) 2 (by decide) (hbadTable hh), fun hh => ?_⟩
    obtain ⟨hrange, hgroup, hbusy, hok⟩ := hchecked fun ⟨i, hi, hodd, hne⟩ => (hh i hi).elim (fun h => absurd (h.symm.trans hodd) (by decide)) hne
    have hr : u.NoRange (s.recordLaunch q bs) ↔ noRange := (hread hu).noRange_iff
    have hg : u.NoGroup (s.recordLaunch q bs) ↔ noGroup := (hread hu).noGroup_iff
    have hq' : (u.queue q).launch = (s.queue q).launch := by
      rw [(hread hu).queue]
      exact congrArg (·.launch) (State.queue_setQueue_self s q _)
    rw [hr] at hrange hgroup hbusy hok
    rw [hg] at hgroup hbusy hok
    rw [hq'] at hbusy hok
    refine ⟨fun h => hbad u (hread hu) 3 (by decide) (hrange h), fun h h' => hbad u (hread hu) 4 (by decide) (hgroup h h'),
      fun h h' h'' => hbad u (hread hu) 5 (by decide) (hbusy h h' h''), fun h h' h'' hrst => ?_⟩
    obtain ⟨t, ht, -, hout, hla⟩ := runs_launchRecord_taken hq hlen hrdy (hok h h' h'' hrst) (hread hu)
    exact ⟨t, ht, hout, _, hla, rfl, rfl, tableEntries_eq ..⟩
  · obtain ⟨t, ht, hseq, hout, hla⟩ := runs_launchRecord_taken hq hlen hrdy hok (.refl _)
    exact ⟨t, ht, hseq, hout, _, hla, rfl, rfl, toNat_imgD bs 0, rfl, toNat_imgW bs 0x14, rfl, rfl, rfl, rfl, toNat_imgD bs 0x28, rfl, rfl,
      rfl, rfl⟩

end Sys2Proof.Machine
end

section
/-! PROOF. Placement (R78, R155, R182, R183, R290): the core, the range and the objects that placing a launch leaves. -/

namespace Sys2Proof.Machine

/-! ### Tables with entries left out -/

theorem Map.get_of_not_mem {α : Type} {d : α} {m : Map α} {k : Nat} (h : k ∉ m.map Prod.fst) : Map.get d m k = d :=
  (Map.get_eq_or_mem d m k).resolve_right fun hm => h (List.mem_map_of_mem hm)

/-- A table of which only the entries are kept whose values `p` holds of. -/
theorem Map.get_filter {α : Type} {d : α} {m : Map α} (p : α → Bool) (h : (m.map Prod.fst).Nodup) (k : Nat) :
    Map.get d (m.filter fun e => p e.2) k = if p (Map.get d m k) then Map.get d m k else d := by
  induction m with
  | nil => exact (ite_self d).symm
  | cons e m ih =>
    obtain ⟨hnew, hrest⟩ := List.nodup_cons.1 h
    rw [List.filter_cons, Map.get_cons]
    by_cases hk : e.1 = k
    · rw [if_pos hk]
      by_cases hp : p e.2 = true
      · rw [if_pos hp, Map.get_cons, if_pos hk, if_pos hp]
      · rw [if_neg hp, if_neg hp]
        refine Map.get_of_not_mem fun hm => hnew ?_
        obtain ⟨x, hx, hxk⟩ := List.mem_map.1 hm
        exact List.mem_map.2 ⟨x, (List.mem_filter.1 hx).1, hxk.trans hk.symm⟩
    · rw [if_neg hk, ← ih hrest]
      split
      · rw [Map.get_cons, if_neg hk]
      · rfl

/-- A table of equal values. -/
theorem Map.get_map_const {α : Type} (d x : α) (ks : List Nat) (k : Nat) :
    Map.get d (ks.map fun i => (i, x)) k = if k ∈ ks then x else d := by
  induction ks with
  | nil => rfl
  | cons i ks ih =>
    rw [List.map_cons, Map.get_cons, ih]
    by_cases hi : i = k
    · rw [if_pos hi, if_pos (List.mem_cons.2 (.inl hi.symm))]
    · rw [if_neg hi]
      exact if_congr (by simp [Ne.symm hi]) rfl rfl

theorem ite_ne_default {α : Type} [DecidableEq α] (d x : α) : (if decide (x ≠ d) then x else d) = x := by
  by_cases h : x = d <;> simp [h]

/-! ### A placed core (R78, R183) -/

/-- A context of a placed core before its entry task is dispatched. -/
def placedSlot (la : Launch) : Slot := { Slot.empty with tvec := u64 (la.rvec.toNat / 2 * 2) }

theorem placedCore_slot (s : State) (q : Nat) (la : Launch) (i k j : Nat) (hk : k < partC la.part) :
    (placedCore s q la i k).slot j =
      if j = k then (placedSlot la).dispatch .entry s.serial 0 (la.image + u64 la.entry)
        (argWords (u32 la.fteam) (u32 la.tcnt) (u32 la.args.toNat) (u32 (la.args.toNat / 2 ^ 32)))
      else if j < partC la.part then placedSlot la else Slot.empty := by
  have hslots (j : Nat) : Map.get Slot.empty (((List.range (partC la.part)).map fun i => (i, placedSlot la)).filter fun e => e.2 ≠ Slot.empty) j
      = if j < partC la.part then placedSlot la else Slot.empty := by
    rw [Map.get_filter (fun x => decide (x ≠ Slot.empty)) (by simp [Function.comp_def, List.nodup_range]), Map.get_map_const]
    exact (ite_ne_default _ _).trans (if_congr List.mem_range rfl rfl)
  refine (Core.slot_setSlot _ _ _ _).trans ?_
  by_cases hj : j = k
  · rw [if_pos hj, if_pos hj]
    refine congrArg (Slot.dispatch · _ _ _ _ _) ((hslots k).trans (if_pos hk))
  · rw [if_neg hj, if_neg hj]
    exact hslots j

/-! ### The range (R182, R183) -/

theorem State.placeTeams_frame (s : State) (la : Launch) (n : Nat) : ∃ ts, s.placeTeams la n = { s with teams := ts } := by
  induction n with
  | zero => exact ⟨s.teams, rfl⟩
  | succ n ih =>
    obtain ⟨ts, h⟩ := ih
    exact ⟨_, by rw [State.placeTeams, h]; rfl⟩

/-- One more core placed: its entry task is in one of its contexts (log entry 4). -/
theorem State.placeCores_succ (s : State) (q : Nat) (la : Launch) (n : Nat) : ∃ f k u, k < partC la.part ∧
    s.placeCores q la (n + 1) = { (s.placeCores q la n).setCore (8 * la.fteam + n) (placedCore u q la n k) with
      free := f, serial := (s.placeCores q la n).serial + 1 } := by
  have hne : List.range (partC la.part) ≠ [] := by simp [partC]
  obtain ⟨f, k, hk, hpick⟩ := (s.placeCores q la n).pickSlot_spec hne
  refine ⟨f, k, { s.placeCores q la n with free := f }, List.mem_range.1 hk, ?_⟩
  rw [State.placeCores, hpick]
  rfl

theorem State.placeCores_frame (s : State) (q : Nat) (la : Launch) (n : Nat) : ∃ cs f k,
    s.placeCores q la n = { s with cores := cs, free := f, serial := k } := by
  induction n with
  | zero => exact ⟨s.cores, s.free, s.serial, rfl⟩
  | succ n ih =>
    obtain ⟨cs, f, k, h⟩ := ih
    obtain ⟨f', _, _, -, h'⟩ := s.placeCores_succ q la n
    exact ⟨_, f', _, by rw [h', h]; rfl⟩

theorem State.core_placeCores (s : State) (q : Nat) (la : Launch) (n : Nat) :
    (∀ i, i < n → ∃ k u, k < partC la.part ∧ (s.placeCores q la n).core (8 * la.fteam + i) = placedCore u q la i k) ∧
    ∀ l, l < 8 * la.fteam ∨ 8 * la.fteam + n ≤ l → (s.placeCores q la n).core l = s.core l := by
  induction n with
  | zero => exact ⟨fun i hi => absurd hi (Nat.not_lt_zero i), fun _ _ => rfl⟩
  | succ n ih =>
    obtain ⟨hplaced, hother⟩ := ih
    obtain ⟨f, k, u, hk, h⟩ := s.placeCores_succ q la n
    have hcore (l : Nat) : (s.placeCores q la (n + 1)).core l =
        if l = 8 * la.fteam + n then placedCore u q la n k else (s.placeCores q la n).core l := by
      rw [h]
      exact State.core_setCore (s.placeCores q la n) (8 * la.fteam + n) l (placedCore u q la n k)
    refine ⟨fun i hi => ?_, fun l hl => ?_⟩
    · rw [hcore]
      by_cases hin : i = n
      · exact ⟨k, u, hk, by rw [if_pos (by omega), hin]⟩
      · rw [if_neg (by omega)]
        exact hplaced i (by omega)
    · rw [hcore, if_neg (by omega)]
      exact hother l (by omega)

/-! ### The placement (R182, R183, R290) -/

theorem exec_launchPlacement {s : State} {q f : Nat} {la : Launch} (h : s.placeable false = [(q, la)]) (hf : s.rangeFor la = some f) :
    exec .launchPlacement s = .next (s.place q la f) := by
  show execLaunchPlacement s = _
  unfold execLaunchPlacement
  rw [h]
  simp only [List.isEmpty_nil, if_true, List.getD_cons_zero, hf]

theorem State.rangeFor_asked {s : State} {la : Launch} (ha : la.fteamAsked ≠ 0xFFFFFFFF) (h : s.rangeFree la.fteamAsked la.tcnt = true) :
    s.rangeFor la = some la.fteamAsked := by
  rw [State.rangeFor, if_pos ha, if_pos h]

/-- The state in which a launch's cores have been placed. -/
def State.inRange (s : State) (q : Nat) (la : Launch) (f : Nat) : State :=
  let u := s.setQueue q { s.queue q with
    launch := some (la.capture (s.queue q) f), lcvres := 0, lcvcnt := 0, lcvwin := 0xFFFFFFFF, run := 0, stl := false }
  (u.placeTeams (la.capture (s.queue q) f) la.tcnt).placeCores q (la.capture (s.queue q) f) (8 * la.tcnt)

theorem State.place_eq (s : State) (q : Nat) (la : Launch) (f : Nat) :
    s.place q la f = { s.inRange q la f with stamp := (s.inRange q la f).stamp + 1 }.freeObjects := rfl

theorem State.inRange_frame (s : State) (q : Nat) (la : Launch) (f : Nat) : ∃ cs ts fr k, s.inRange q la f =
    { s.setQueue q { s.queue q with
        launch := some (la.capture (s.queue q) f), lcvres := 0, lcvcnt := 0, lcvwin := 0xFFFFFFFF, run := 0, stl := false } with
      cores := cs, teams := ts, free := fr, serial := k } := by
  unfold State.inRange
  dsimp only
  obtain ⟨ts, ht⟩ := State.placeTeams_frame _ _ _
  obtain ⟨cs, fr, k, h⟩ := State.placeCores_frame _ q _ _
  exact ⟨cs, ts, fr, k, by rw [h, ht]⟩

/-- The cores of the range are placed, and every other core is as it was. -/
theorem State.core_inRange (s : State) (q : Nat) (la : Launch) (f : Nat) :
    (∀ i, i < 8 * la.tcnt → ∃ k u, k < partC la.part ∧
      (s.inRange q la f).core (8 * f + i) = placedCore u q (la.capture (s.queue q) f) i k) ∧
    ∀ l, l < 8 * f ∨ 8 * (f + la.tcnt) ≤ l → (s.inRange q la f).core l = s.core l := by
  obtain ⟨hplaced, hother⟩ := State.core_placeCores _ q (la.capture (s.queue q) f) (8 * la.tcnt)
  refine ⟨hplaced, fun l hl => (hother l (hl.imp_right fun h => ?_)).trans ?_⟩
  · rwa [Nat.mul_add] at h
  · obtain ⟨ts, h⟩ := State.placeTeams_frame _ _ _
    rw [h]
    rfl

/-- Whether an object outlives a placement (R290). -/
def Obj.survives : Obj → Bool
  | .barrier _ => false
  | _ => true

/-- R290: a slot with a group keeps it, and every other slot is free. -/
theorem State.obj_freeObjects {s t : State} (ht : t.objects = s.objects) (h : (s.objects.map Prod.fst).Nodup) (n : Nat) :
    (∀ g, s.obj n = .group g → t.freeObjects.obj n = .group g) ∧ ((∀ g, s.obj n ≠ .group g) → t.freeObjects.obj n = .free) := by
  have hobj : t.freeObjects.obj n = if (s.obj n).survives then s.obj n else .free := by
    rw [State.obj, State.freeObjects, ht]
    exact Map.get_filter Obj.survives h n
  cases ho : s.obj n <;> simp [hobj, ho, Obj.survives]

theorem get_argWords (a b c d : Word) {n : Nat} (h : n < 4) : Map.get 0 (argWords a b c d) n = [a, b, c, d].getD n 0 := by
  rw [argWords, Map.get_setList, if_pos ⟨Nat.zero_le n, by simpa using h⟩, Nat.sub_zero]

/-- The two words of a double word (R6). -/
theorem split_double (v : DWord) : Z (u32 v.toNat) + 2 ^ 32 * Z (u32 (v.toNat / 2 ^ 32)) = v.toNat := by
  rw [Z_u32 (Nat.div_lt_of_lt_mul v.isLt), Z, u32, BitVec.toNat_ofNat]
  exact Nat.mod_add_div ..

/-- R78, R155, R183: a placed core, field by field. -/
theorem placedCore_spec (u : State) (q : Nat) (la : Launch) (i k : Nat) (hk : k < partC la.part) (c : Core) (hc : c = placedCore u q la i k) :
    c.queue = some q ∧ c.uid = la.uid ∧ c.index = i ∧ c.part = la.part ∧ c.pool = [] ∧ c.full = [] ∧ c.handles = [] ∧ c.runq = [] ∧
      c.nodes = [] ∧ c.csent = 0 ∧ c.crecv = 0 ∧ c.pts = 0 ∧ c.entryOver = false ∧ c.exited = false ∧ ∃ k, k < partC la.part ∧
      (c.slot k).st = .ready ∧ (c.slot k).pc = la.image + u64 la.entry ∧ Map.get 0 (c.slot k).regs 0 = u32 la.fteam ∧
      Map.get 0 (c.slot k).regs 1 = u32 la.tcnt ∧
      Z (Map.get 0 (c.slot k).regs 2) + 2 ^ 32 * Z (Map.get 0 (c.slot k).regs 3) = la.args.toNat ∧
      Map.get 0 (c.slot k).aregs 7 = END ∧ (c.slot k).stat = 0 ∧ (c.slot k).fst = 0 ∧
      (∀ j, j < partC la.part → (c.slot j).tvec.toNat = la.rvec.toNat / 2 * 2) ∧ ∀ j, j ≠ k → (c.slot j).task = none := by
  subst hc
  have hslot := fun j => placedCore_slot u q la i k j hk
  have hentry := (hslot k).trans (if_pos rfl)
  have htvec : (u64 (la.rvec.toNat / 2 * 2)).toNat = la.rvec.toNat / 2 * 2 := Nat.mod_eq_of_lt (by have := la.rvec.isLt; omega)
  have hreg (n : Nat) (hn : n < 4) := (congrArg (fun x => Map.get 0 x.regs n) hentry).trans
    ((Slot.get_regs_dispatch ..).trans ((if_pos hn).trans (get_argWords _ _ _ _ hn)))
  refine ⟨rfl, rfl, rfl, rfl, rfl, rfl, rfl, rfl, rfl, rfl, rfl, rfl, rfl, rfl, k, hk, ?_, ?_, hreg 0 (by decide), hreg 1 (by decide), ?_,
    ?_, ?_, ?_, fun j hj => ?_, fun j hj => ?_⟩
  · rw [hentry]; rfl
  · rw [hentry]; rfl
  · rw [hreg 2 (by decide), hreg 3 (by decide)]
    exact split_double la.args
  · rw [hentry]; rfl
  · rw [hentry]; rfl
  · rw [hentry]; rfl
  · rw [hslot]
    split
    · exact htvec
    · exact htvec
  · rw [hslot, if_neg hj]
    split <;> rfl

/-- R78, R155, R182, R183, R290: the placement of a launch into the range that it asks for. -/
theorem launchPlacement : Sys2Proof.Part.LaunchPlacement := by
  intro q la s hwait hask hfree hpart
  obtain ⟨cs, ts, fr, k, hframe⟩ := s.inRange_frame q la la.fteamAsked
  obtain ⟨hplaced, hother⟩ := s.core_inRange q la la.fteamAsked
  refine ⟨_, exec_launchPlacement hwait (State.rangeFor_asked hask hfree), ?_⟩
  rw [State.place_eq]
  refine ⟨⟨la.capture (s.queue q) la.fteamAsked, ?_, rfl, rfl, rfl, rfl, rfl, rfl⟩, fun i hi c hc => ?_, fun hnodup n => ?_, fun l hl => ?_,
    fun a => ?_⟩
  · show ((s.inRange q la la.fteamAsked).queue q).launch = _
    rw [hframe]
    exact congrArg (·.launch) (State.queue_setQueue_self s q _)
  · obtain ⟨k, u, hk, hcore⟩ := hplaced i hi
    exact placedCore_spec u q (la.capture (s.queue q) la.fteamAsked) i k hk c (hc.trans hcore)
  · have hobjects : (s.inRange q la la.fteamAsked).objects = s.objects := by rw [hframe]; rfl
    exact State.obj_freeObjects hobjects hnodup n
  · exact hother l hl
  · show (s.inRange q la la.fteamAsked).byte a = _
    rw [hframe]
    rfl

/-- Settles O25: a record by its checks in their order, a placement by the cores that it makes. -/
theorem launching : Obligations.Launching := ⟨launchRecords, launchPlacement⟩

end Sys2Proof.Machine
end

section
/-! PROOF. Objects and barriers (R290 to R292, R297 to R299): the operand, what a form does to its barrier, and the frame of its completion. -/

namespace Sys2Proof.Machine

/-! ### The object operand (R291) -/

theorem State.objRef_align {s : State} {va : DWord} (h : va.toNat % 64 ≠ 0) : s.objRef va = (s, .fails .align) := if_pos h

theorem State.objRef_error {s u : State} {va : DWord} {c : Cause} (ha : va.toNat % 64 = 0)
    (h : s.resolve s.issue.lid va.toNat .rd = (u, .error c)) : s.objRef va = (u, .fails c) := by
  rw [State.objRef, if_neg (not_not.2 ha), h]

theorem State.objRef_ok {s u : State} {va : DWord} {p : Place} (ha : va.toNat % 64 = 0)
    (h : s.resolve s.issue.lid va.toNat .rd = (u, .ok p)) : s.objRef va = (u, objPlace p) := by
  rw [State.objRef, if_neg (not_not.2 ha), h]

/-- The operand's translation leaves all that a translation leaves. -/
theorem State.objRef_frame {s u : State} {va : DWord} {r : ObjRef} (h : s.objRef va = (u, r)) : u = u.backTo s := by
  by_cases ha : va.toNat % 64 = 0
  · obtain ⟨v, e, hr⟩ : ∃ v e, s.resolve s.issue.lid va.toNat .rd = (v, e) := ⟨_, _, rfl⟩
    cases e with
    | error c =>
      rw [State.objRef_error ha hr] at h
      cases h
      exact State.resolve_frame hr
    | ok p =>
      rw [State.objRef_ok ha hr] at h
      cases h
      exact State.resolve_frame hr
  · rw [State.objRef_align ha] at h
    cases h
    rfl

theorem exec_bjoin (d n : Nat) (s : State) : exec (.bjoin d n) s = objectForm (.bjoin d n) d n .join s := rfl
theorem exec_binit (d n : Nat) (s : State) : exec (.binit d n) s = objectForm (.binit d n) d n .init s := rfl
theorem exec_bqry (d n : Nat) (s : State) : exec (.bqry d n) s = objectForm (.bqry d n) d n (fun _ => .query) s := rfl
theorem exec_gform (d n : Nat) (s : State) : exec (.gform d n) s = execGform d n s := rfl

theorem objectForm_fails {i : Instr} {d n : Nat} {op : Word → BarOp} {s u : State} {c : Cause} (h : s.objRef (s.a n) = (u, .fails c)) :
    objectForm i d n op s = trap c (s.a n) u := by
  rw [objectForm, h]

/-- A form whose operand names no object traps with the cause. -/
theorem exec_object_fails {i : Instr} {d n : Nat} {s u : State} {c : Cause} (hi : i ∈ [.bjoin d n, .binit d n, .bqry d n, .gform d n])
    (h5 : s.accepts 5 = true) (h : s.objRef (s.a n) = (u, .fails c)) : exec i s = trap c (s.a n) u := by
  rcases List.mem_cons.1 hi with rfl | hi
  · exact (exec_bjoin d n s).trans (objectForm_fails h)
  rcases List.mem_cons.1 hi with rfl | hi
  · exact (exec_binit d n s).trans (objectForm_fails h)
  rcases List.mem_cons.1 hi with rfl | hi
  · exact (exec_bqry d n s).trans (objectForm_fails h)
  rw [List.mem_singleton.1 hi, exec_gform, execGform, inGroup_of_accepts h5]
  dsimp only
  rw [h]

theorem objectOperands : Sys2Proof.Part.ObjectOperands := by
  intro d n s u va r i hva hi h5
  subst hva
  refine ⟨fun ha => exec_object_fails hi h5 (State.objRef_align ha), fun ha hr => ⟨?_, ?_, ?_, ?_⟩⟩
  · rintro c rfl
    exact exec_object_fails hi h5 (State.objRef_error ha hr)
  · rintro a (rfl | rfl) <;> exact exec_object_fails hi h5 (State.objRef_ok ha hr)
  · rintro a rfl hbig
    refine exec_object_fails hi h5 ((State.objRef_ok ha hr).trans ?_)
    rw [objPlace, if_pos (by omega)]
  · rintro a rfl hsmall
    rw [State.objRef_ok ha hr, objPlace, if_neg (by omega)]

/-! ### The end of a form -/

/-- How a form on an object of this module ends with what the object answers. -/
def BarRes.ends (r : BarRes) (i : Instr) (d : Nat) (va : DWord) (s : State) : Out :=
  match r with
  | .illegal => trap .illegal (u64 (Z (s.g d))) s
  | .feature => trap .feature va s
  | .refused k => barrierTrap k va s
  | .waits => block i s
  | .gives x y t => done (((s.raise s.issue.lid t).wrOpt d x).wrOpt (d + 1) y)

theorem objectForm_here {i : Instr} {d n k : Nat} {op : Word → BarOp} {s u v : State} {r : BarRes} (h : s.objRef (s.a n) = (u, .here k))
    (hr : u.barrier k u.dev.mnum u.issue.lid u.me.pts (u.accepts 5) (op (u.g d)) = (v, r)) :
    objectForm i d n op s = r.ends i d (s.a n) v := by
  rw [objectForm, h]
  dsimp only
  rw [hr]
  cases r <;> rfl

/-- A form has left slot k with `o` and every other slot as it was. -/
def SlotIs (k : Nat) (o : Obj) (s t : State) : Prop := t.obj k = o ∧ ∀ j, j ≠ k → t.obj j = s.obj j

/-- A form has completed after the translation that led to `u`, with clock p of its object, and has changed objects and registers `ds`. -/
def WentAt (ds : List Nat) (p : Nat) (s u t : State) : Prop :=
  Went { u with objects := t.objects } { u.me with pts := max u.me.pts p } u.slot ds [] s.next s t ∧ SameMemory s t

theorem SlotIs.same {s u : State} (hu : u = u.backTo s) (k : Nat) : SlotIs k (u.obj k) s u :=
  ⟨rfl, fun j _ => by rw [hu, State.backTo]; rfl⟩

theorem SlotIs.set {s u : State} (hu : u = u.backTo s) (k : Nat) (o : Obj) : SlotIs k o s (u.setObj k o) := by
  refine ⟨(Map.get_set Obj.free u.objects k k o).trans (if_pos rfl), fun j hj => ?_⟩
  exact ((Map.get_set Obj.free u.objects k j o).trans (if_neg hj)).trans ((SlotIs.same hu k).2 j hj)

/-- What is left after the clock was raised, registers were written, and the form completed. -/
theorem Wrote.wentAt {ds : List Nat} {s u v t : State} {p : Nat} (h : s.next ≠ END) (hu : u = u.backTo s)
    (hv : v = { u with objects := v.objects }) (ht : Wrote ds (v.raise s.issue.lid p) t) :
    (t.finish s.next).objects = v.objects ∧ WentAt ds p s u (t.finish s.next) := by
  have hcores : v.cores = s.cores := by rw [hv, hu, State.backTo]
  have hissue : v.issue = s.issue := by rw [hv, hu, State.backTo]
  have hcore : ∀ l, v.core l = s.core l := fun l => congrArg (Map.get Core.empty · l) hcores
  have hme : (v.raise s.issue.lid p).me = { s.me with pts := max s.me.pts p } := by
    rw [State.raise, State.me, State.setCore_issue, hissue, State.core_setCore_self, hcore]
    rfl
  have hume : u.me = s.me := by rw [hu]; rfl
  have huslot : u.slot = s.slot := by rw [hu]; rfl
  have hslot : (v.raise s.issue.lid p).slot = s.slot := by
    rw [State.slot, hme]
    exact congrArg (fun i : Issue => s.me.slot i.slot) hissue
  have hw : Went v { u.me with pts := max u.me.pts p } u.slot ds [] s.next s (t.finish s.next) := by
    refine ht.went h hissue rfl (fun k hk => ?_) ?_ ?_ ?_ ⟨fun n _ => ?_, fun n _ => ?_⟩
    · exact (State.core_setCore_ne v _ hk).trans (hcore k)
    · rw [hme, hume]
      rfl
    · rw [hme]
      exact fun _ _ => rfl
    · rw [hslot, huslot]
      rfl
    · rw [State.g, hslot, State.g]
    · rw [State.a, hslot, State.a]
  have hobj : (t.finish s.next).objects = v.objects := by rw [hw.1]
  refine ⟨hobj, ?_, fun a => ?_⟩
  · rwa [hobj, ← hv]
  · rw [hw.1.memory a, hv, hu]
    rfl

end Sys2Proof.Machine
end

section
/-! PROOF. The barrier forms on an object of this module (R292, R297 to R299). -/

namespace Sys2Proof.Machine

/-! ### What an object answers -/

/-- R299: the top bit of gd asks for an arrival. -/
theorem getLsbD_31 (v : Word) : v.getLsbD 31 = decide (2 ^ 31 ≤ Z v) := by
  exact (BitVec.msb_eq_getLsbD_last v).symm.trans (BitVec.msb_eq_decide v)

section
variable {s : State} {n m c t : Nat} {fab : Bool} {v : Word}

theorem State.joinObj_none (h : ∀ b, s.obj n ≠ .barrier b) :
    s.joinObj n m c t fab v = (s, if 2 ^ 31 ≤ Z v then .refused 1 else .gives (some 0) (some 2) 0) := by
  rw [State.joinObj, getLsbD_31]
  split
  · next b hb => exact absurd hb (h b)
  · simp only [decide_eq_true_eq]
    split <;> rfl

theorem State.queryObj_free (h : s.obj n = .free) : s.queryObj n fab = (s, .gives (some 0) (some 0xFFFFFFFF) 0) := by
  rw [State.queryObj, h]

theorem State.queryObj_group {g : Group} (h : s.obj n = .group g) :
    s.queryObj n fab = (s, .gives (some (u32 g.epoch)) (some (u32 (2 ^ 31 + g.live.length))) 0) := by
  rw [State.queryObj, h]

theorem State.initObj_group {g : Group} (h : s.obj n = .group g) : s.initObj n m c fab v = (s, .refused 1) := by
  rw [State.initObj, h]

theorem State.initObj_eq (h : ∀ g, s.obj n ≠ .group g) : s.initObj n m c fab v =
    if v = 0xFFFFFFFF#32 then (s.setObj n .free, .gives (some 0) none 0)
    else if initOk (Z v) = false then (s, .illegal)
    else if 5 ≤ bits (Z v) 24 3 ∧ fab = false then (s, .feature)
    else (s.setObj n (.barrier ((s.obj n).init (Z v) m c)), .gives (some (u32 ((s.obj n).init (Z v) m c).phase)) none 0) := by
  rw [State.initObj]
  split
  · next g hg => exact absurd hg (h g)
  · rfl

variable {b : Barrier} (hb : s.obj n = .barrier b)
include hb

theorem State.joinObj_feature (hs : 5 ≤ b.scope) : s.joinObj n m c t false v = (s, .feature) := by
  simp [State.joinObj, hb, hs]

theorem State.queryObj_feature (hs : 5 ≤ b.scope) : s.queryObj n false = (s, .feature) := by
  simp [State.queryObj, hb, hs]

variable (hs : 5 ≤ b.scope → fab = true)
include hs

theorem State.queryObj_barrier : s.queryObj n fab = (s, .gives (some (u32 b.phase)) (some (u32 (b.count - b.arr))) 0) := by
  rw [State.queryObj, hb]
  exact if_neg fun h => by simp [hs h.1] at h

theorem State.joinObj_barrier : s.joinObj n m c t fab v =
    if 2 ^ 31 ≤ Z v then
      if 2 ^ 31 < Z v then (s, .illegal)
      else if s.inScope b m c = false then (s, .refused 2)
      else (s.setObj n (.barrier (b.arrive t)), .gives (some (u32 b.phase)) (some 0) 0)
    else if b.phase = Z v then (s, .waits)
    else (s, .gives (some (u32 b.phase)) (some (b.status (Z v))) b.pclk) := by
  have hlt := v.isLt
  rw [State.joinObj, hb, getLsbD_31]
  dsimp only
  rw [if_neg fun h => by simp [hs h.1] at h]
  by_cases hv : 2 ^ 31 ≤ Z v
  · have hbits : bits v.toNat 0 31 ≠ 0 ↔ 2 ^ 31 < Z v := by
      simp only [bits, Z] at *
      omega
    rw [if_pos (decide_eq_true hv), if_pos hv, if_congr hbits rfl rfl]
  · rw [if_neg (by simpa using hv), if_neg hv]
    rfl

end

/-- R299: a value that names no barrier. -/
theorem initOk_eq_false {v : Nat} (hv : v < 2 ^ 32) :
    initOk v = false ↔ 2 ^ 27 ≤ v ∨ v / 2 ^ 20 % 16 ≠ 0 ∨ v % 2 ^ 20 = 0 ∨ v / 2 ^ 24 % 8 = 7 := by
  have h27 : bits v 27 5 = 0 ↔ ¬ 2 ^ 27 ≤ v := by
    simp only [bits]
    omega
  have h0 : bits v 0 20 = v % 2 ^ 20 := by simp [bits]
  have h : initOk v = true ↔ ¬ 2 ^ 27 ≤ v ∧ v / 2 ^ 20 % 16 = 0 ∧ v % 2 ^ 20 ≠ 0 ∧ v / 2 ^ 24 % 8 ≠ 7 := by
    simp only [initOk, Bool.and_eq_true, beq_iff_eq, bne_iff_ne, and_assoc, h27, h0]
    rfl
  rw [← Bool.not_eq_true, h]
  tauto

theorem initOk_of_fields {v : Nat} (hv : v < 2 ^ 32) (h27 : v < 2 ^ 27) (h20 : v / 2 ^ 20 % 16 = 0) (h0 : v % 2 ^ 20 ≠ 0)
    (h24 : v / 2 ^ 24 % 8 ≠ 7) : initOk v = true := by
  rw [← Bool.not_eq_false, initOk_eq_false hv]
  omega

theorem ne_ones_of_lt {v : Word} (h : Z v < 2 ^ 27) : v ≠ 0xFFFFFFFF#32 := by
  rintro rfl
  exact absurd h (by decide)

/-- R299: the fields of the barrier that `binit` makes, with the phase and the clock of the slot before it. -/
theorem Obj.init_eq {o : Obj} {v m c p t : Nat} (hg : ∀ g, o ≠ .group g) (hf : o = .free → p = 0 ∧ t = 0)
    (hb : ∀ b, o = .barrier b → p = (b.phase + 1) % 2 ^ 31 ∧ t = b.pclk) :
    o.init v m c = ⟨v % 2 ^ 20, 0, p, p, v / 2 ^ 24 % 8, (m, c), t, 0⟩ := by
  cases o with
  | free =>
    obtain ⟨rfl, rfl⟩ := hf rfl
    simp [Obj.init, bits]
  | barrier b =>
    obtain ⟨rfl, rfl⟩ := hb b rfl
    simp [Obj.init, bits]
  | group g => exact absurd rfl (hg g)

/-! ### Completing -/

section
variable {i : Instr} {d k p : Nat} {va : DWord} {s u v : State} {o : Obj} {x y : Word} (h : s.next ≠ END) (hu : u = u.backTo s)
  (hv : v = { u with objects := v.objects }) (hk : SlotIs k o s v)
include h hu hv hk

/-- The registers of a form's end, with the frame of its completion. -/
theorem finish_gives {ds : List Nat} {t : State} (he : exec i s = done t) (ht : Wrote ds (v.raise s.issue.lid p) t) :
    Runs i s fun w => (∀ j, w.g j = t.g j) ∧ SlotIs k o s w ∧ WentAt ds p s u w := by
  have hissue : v.issue = s.issue := by rw [hv, hu, State.backTo]
  have hnext : t.next = s.next := by rw [State.next, ht.issue]; exact congrArg (fun i : Issue => i.start + u64 i.length) hissue
  obtain ⟨hobj, hw⟩ := ht.wentAt h hu hv
  refine ⟨t.finish s.next, by rw [he, done, hnext], State.g_finish t h, ?_, hw⟩
  simpa only [SlotIs, State.obj, hobj] using hk

/-- A form that ends with two registers. -/
theorem Runs.of_gives (he : exec i s = (BarRes.gives (some x) (some y) p).ends i d va v) :
    Runs i s fun t => t.g d = x ∧ t.g (d + 1) = y ∧ SlotIs k o s t ∧ WentAt [d, d + 1] p s u t := by
  have hissue : v.issue = s.issue := by rw [hv, hu, State.backTo]
  have ht : Wrote [d, d + 1] (v.raise s.issue.lid p) (((v.raise s.issue.lid p).wr d x).wr (d + 1) y) :=
    ((Wrote.refl _ _).wr (by simp) x).wr (by simp) y
  rw [BarRes.ends, hissue] at he
  refine (finish_gives h hu hv hk he ht).mono fun w ⟨hg, hw⟩ => ⟨(hg d).trans ?_, (hg (d + 1)).trans ?_, hw⟩
  · exact (State.g_wr _ _ _ _).trans ((if_neg (by omega)).trans ((State.g_wr _ _ _ _).trans (if_pos rfl)))
  · exact (State.g_wr _ _ _ _).trans (if_pos rfl)

/-- A form that ends with one register. -/
theorem Runs.of_gives_one (he : exec i s = (BarRes.gives (some x) none p).ends i d va v) :
    Runs i s fun t => t.g d = x ∧ SlotIs k o s t ∧ WentAt [d] p s u t := by
  have hissue : v.issue = s.issue := by rw [hv, hu, State.backTo]
  have ht : Wrote [d] (v.raise s.issue.lid p) ((v.raise s.issue.lid p).wr d x) := (Wrote.refl _ _).wr (by simp) x
  rw [BarRes.ends, hissue] at he
  refine (finish_gives h hu hv hk he ht).mono fun w ⟨hg, hw⟩ => ⟨(hg d).trans ((State.g_wr _ _ _ _).trans (if_pos rfl)), hw⟩

end

/-! ### The three forms -/

section
variable {d n k : Nat} {s u v : State} {r : BarRes} (h : s.objRef (s.a n) = (u, .here k))
include h

theorem exec_bjoin_here (hr : u.joinObj k u.dev.mnum s.issue.lid s.me.pts (u.accepts 5) (s.g d) = (v, r)) :
    exec (.bjoin d n) s = r.ends (.bjoin d n) d (s.a n) v := by
  refine (exec_bjoin d n s).trans (objectForm_here h ?_)
  rw [← hr, State.objRef_frame h]
  rfl

theorem exec_binit_here (hr : u.initObj k u.dev.mnum s.issue.lid (u.accepts 5) (s.g d) = (v, r)) :
    exec (.binit d n) s = r.ends (.binit d n) d (s.a n) v := by
  refine (exec_binit d n s).trans (objectForm_here h ?_)
  rw [← hr, State.objRef_frame h]
  rfl

theorem exec_bqry_here (hr : u.queryObj k (u.accepts 5) = (v, r)) : exec (.bqry d n) s = r.ends (.bqry d n) d (s.a n) v :=
  (exec_bqry d n s).trans (objectForm_here h hr)

end

end Sys2Proof.Machine
end

section
/-! PROOF. R292, R297 to R299: each form by what its object answers. -/

namespace Sys2Proof.Machine

theorem barriers : Sys2Proof.Part.Barriers := by
  intro d n k v s u va h hva href hv
  subst hva hv
  dsimp only
  have hu := State.objRef_frame href
  have hg : u.g d = s.g d := by rw [hu]; rfl
  have hlt : Z (s.g d) < 2 ^ 32 := (s.g d).isLt
  have hsame : SlotIs k (u.obj k) s u := .same hu k
  refine ⟨fun hb => ⟨fun ha => ?_, fun ha => ?_⟩, fun ho => ?_, fun g hgr => ⟨?_, ?_⟩, fun b hb hs h5 => ⟨?_, ?_⟩,
    fun b hb hs => ⟨?_, ?_, ?_, ?_, ?_, ?_⟩,
    fun hng => ⟨fun hv => ?_, fun hne hbad => ?_, fun h27 h20 h0 h24 => ⟨fun h5 hacc => ?_, fun hacc p c hfree hbar => ?_⟩⟩⟩
  -- a slot without a barrier
  · exact exec_bjoin_here href ((State.joinObj_none hb).trans (by rw [if_pos ha]))
  · exact Runs.of_gives h hu rfl hsame (exec_bjoin_here href ((State.joinObj_none hb).trans (by rw [if_neg (by omega)])))
  · exact Runs.of_gives h hu rfl hsame (exec_bqry_here href (State.queryObj_free ho))
  · exact Runs.of_gives h hu rfl hsame (exec_bqry_here href (State.queryObj_group hgr))
  · exact exec_binit_here href (State.initObj_group hgr)
  -- a barrier whose scope needs a group that is not accepted
  · exact exec_bjoin_here href (h5 ▸ State.joinObj_feature hb hs)
  · exact exec_bqry_here href (h5 ▸ State.queryObj_feature hb hs)
  -- a barrier: its state, an arrival, a wait
  · exact Runs.of_gives h hu rfl hsame (exec_bqry_here href (State.queryObj_barrier hb hs))
  · intro ha
    rw [← hg]
    refine exec_bjoin_here (v := u) (r := .illegal) href ((State.joinObj_barrier hb hs).trans ?_)
    rw [if_pos ha.le, if_pos ha]
  · intro ha hout
    refine exec_bjoin_here (v := u) (r := .refused 2) href ((State.joinObj_barrier hb hs).trans ?_)
    rw [if_pos ha.ge, if_neg ha.le.not_gt, if_pos hout]
  · intro ha hin
    have he := exec_bjoin_here href ((State.joinObj_barrier hb hs).trans (by rw [if_pos ha.ge, if_neg ha.le.not_gt, if_neg (by simp [hin])]))
    exact (Runs.of_gives h hu rfl (SlotIs.set hu k _) he).mono fun t ⟨hd, hd1, ho, hw⟩ => ⟨hd, hd1, hw, ho⟩
  · intro ha heq
    refine exec_bjoin_here (v := u) (r := .waits) href ((State.joinObj_barrier hb hs).trans ?_)
    rw [if_neg (by omega), if_pos heq]
  · intro ha hne
    refine Runs.of_gives h hu rfl hsame (exec_bjoin_here href ((State.joinObj_barrier hb hs).trans ?_))
    rw [if_neg (by omega), if_neg hne]
    rfl
  -- `binit`: the slot freed, a value that names no barrier, a new barrier
  · have hall : s.g d = 0xFFFFFFFF#32 := BitVec.eq_of_toNat_eq hv
    refine Runs.of_gives_one h hu rfl (SlotIs.set hu k _) (exec_binit_here href ((State.initObj_eq hng).trans ?_))
    rw [if_pos hall]
  · have hall : s.g d ≠ 0xFFFFFFFF#32 := fun hv => hne (by rw [hv]; rfl)
    rw [← hg]
    refine exec_binit_here (v := u) (r := .illegal) href ((State.initObj_eq hng).trans ?_)
    rw [if_neg hall, if_pos ((initOk_eq_false hlt).2 hbad)]
  · have hok := initOk_of_fields hlt h27 h20 h0 h24
    refine exec_binit_here (v := u) (r := .feature) href ((State.initObj_eq hng).trans ?_)
    rw [if_neg (ne_ones_of_lt h27), if_neg (by simp [hok]), if_pos ⟨h5, hacc⟩]
  · have hok := initOk_of_fields hlt h27 h20 h0 h24
    have hinit := Obj.init_eq (v := Z (s.g d)) (m := u.dev.mnum) (c := s.issue.lid) hng hfree hbar
    have he := exec_binit_here href ((State.initObj_eq hng).trans (by
      rw [if_neg (ne_ones_of_lt h27), if_neg (by simp [hok]), if_neg fun h => by simp [hacc h.1] at h]))
    refine (Runs.of_gives_one h hu rfl (SlotIs.set hu k _) he).mono fun t ⟨hd, ho, hw⟩ => ⟨hd.trans ?_, hw, ?_⟩
    · rw [hinit]
    · rwa [hinit] at ho

end Sys2Proof.Machine
end

section
/-! PROOF. Waiters (R104, R297, R299): the oldest first, and what the end of a phase lets go on. -/

namespace Sys2Proof.Machine

/-! ### Order of age -/

/-- A list in order of age with one more entry behind those that are not younger. -/
def insertAge {α : Type} (age : α → Nat) (out : List α) (e : α) : List α :=
  (out.takeWhile fun f => age f ≤ age e) ++ e :: (out.dropWhile fun f => age f ≤ age e)

theorem oldestFirst_eq {α : Type} (age : α → Nat) (ws : List α) : oldestFirst age ws = ws.foldl (insertAge age) [] := rfl

section
variable {α : Type} {age : α → Nat}

theorem mem_insertAge {out : List α} {a e : α} : a ∈ insertAge age out e ↔ a = e ∨ a ∈ out := by
  have h : a ∈ out ↔ a ∈ out.takeWhile (fun f => age f ≤ age e) ++ out.dropWhile (fun f => age f ≤ age e) := by
    rw [List.takeWhile_append_dropWhile]
  rw [h, insertAge, List.mem_append, List.mem_cons, List.mem_append]
  tauto

theorem insertAge_cons (x : α) (xs : List α) (e : α) :
    insertAge age (x :: xs) e = if age x ≤ age e then x :: insertAge age xs e else e :: x :: xs := by
  by_cases h : age x ≤ age e <;> simp [insertAge, h]

theorem pairwise_insertAge {out : List α} {e : α} (h : out.Pairwise fun a b => age a ≤ age b) :
    (insertAge age out e).Pairwise fun a b => age a ≤ age b := by
  induction out with
  | nil => exact List.pairwise_singleton _ e
  | cons x xs ih =>
    obtain ⟨hx, hxs⟩ := List.pairwise_cons.1 h
    rw [insertAge_cons]
    split
    · next hle =>
      refine List.pairwise_cons.2 ⟨fun a ha => ?_, ih hxs⟩
      rcases mem_insertAge.1 ha with rfl | ha
      · exact hle
      · exact hx a ha
    · next hgt =>
      refine List.pairwise_cons.2 ⟨fun a ha => ?_, h⟩
      rcases List.mem_cons.1 ha with rfl | ha
      · omega
      · have := hx a ha
        omega

theorem mem_oldestFirst {ws : List α} {a : α} : a ∈ oldestFirst age ws ↔ a ∈ ws := by
  suffices h : ∀ out, a ∈ ws.foldl (insertAge age) out ↔ a ∈ out ∨ a ∈ ws by simpa [oldestFirst_eq] using h []
  induction ws with
  | nil => simp
  | cons w ws ih =>
    intro out
    rw [List.foldl_cons, ih, mem_insertAge, List.mem_cons]
    tauto

theorem pairwise_oldestFirst (ws : List α) : (oldestFirst age ws).Pairwise fun a b => age a ≤ age b := by
  suffices h : ∀ out : List α, out.Pairwise (fun a b => age a ≤ age b) →
      (ws.foldl (insertAge age) out).Pairwise fun a b => age a ≤ age b from
    h [] .nil
  induction ws with
  | nil => exact fun _ h => h
  | cons w ws ih => exact fun out h => ih _ (pairwise_insertAge h)

end

/-! ### Who is tried again (R104, R297) -/

theorem Core.mem_waiters {c : Core} {k : Nat} {w : Wait} : (k, w) ∈ c.waiters ↔
    k < 4 ∧ (c.slot k).wait = some w ∧ w.poll = true ∧ (c.slot k).st = .ready ∧ c.stops k = false := by
  rw [Core.waiters, mem_oldestFirst, List.mem_filterMap]
  constructor
  · rintro ⟨j, hj, h⟩
    split at h
    · next v hv =>
      split at h
      · next hon =>
        cases h
        simp only [Bool.and_eq_true, beq_iff_eq, Bool.not_eq_true'] at hon
        exact ⟨List.mem_range.1 hj, hv, hon.1.1, hon.1.2, hon.2⟩
      · cases h
    · cases h
  · rintro ⟨hk, hw, hpoll, hst, hstop⟩
    refine ⟨k, List.mem_range.2 hk, ?_⟩
    simp only [hw, hpoll, hst, hstop, beq_self_eq_true, Bool.not_false, Bool.and_true, if_true]

theorem onPhase_iff {i : Instr} : onPhase i = true ↔ ∃ d n, i = .bjoin d n := by
  unfold onPhase
  split
  · simp
  · next h => simpa using h

theorem State.mem_joiners {s : State} {l k : Nat} {w : Wait} : (l, k, w) ∈ s.joiners ↔
    (∃ c, (l, c) ∈ s.cores ∧ c.runs = true ∧ (k, w) ∈ c.waiters) ∧ ∃ d n, w.instr = .bjoin d n := by
  rw [State.joiners, mem_oldestFirst, List.mem_flatMap, ← onPhase_iff]
  constructor
  · rintro ⟨⟨j, c⟩, hc, h⟩
    split at h
    · next hr =>
      obtain ⟨v, hv, heq⟩ := List.mem_map.1 h
      cases heq
      obtain ⟨hv, hon⟩ := List.mem_filter.1 hv
      exact ⟨⟨c, hc, hr, hv⟩, hon⟩
    · simp at h
  · rintro ⟨⟨c, hc, hr, hv⟩, hon⟩
    refine ⟨(l, c), hc, ?_⟩
    rw [if_pos hr]
    exact List.mem_map.2 ⟨(k, w), List.mem_filter.2 ⟨hv, hon⟩, rfl⟩

/-! ### The first that can go on -/

section
variable {ex : Instr → State → Out} {s : State}

/-- Waiters that still wait are passed over. -/
theorem State.tryWaiters_append {ys : List (Nat × Nat × Wait)} (zs : List (Nat × Nat × Wait))
    (h : ∀ y ∈ ys, stillWaits y.1 y.2.1 y.2.2 (ex y.2.2.instr { s with issue := y.2.2.issue y.1 y.2.1 }) = true) :
    s.tryWaiters ex (ys ++ zs) = s.tryWaiters ex zs := by
  induction ys with
  | nil => rfl
  | cons y ys ih =>
    obtain ⟨hy, hys⟩ := List.forall_mem_cons.1 h
    exact (if_pos hy).trans (ih hys)

theorem State.tryWaiters_eq_none {ys : List (Nat × Nat × Wait)}
    (h : ∀ y ∈ ys, stillWaits y.1 y.2.1 y.2.2 (ex y.2.2.instr { s with issue := y.2.2.issue y.1 y.2.1 }) = true) :
    s.tryWaiters ex ys = none := by
  rw [← List.append_nil ys]
  exact State.tryWaiters_append [] h

/-- A waiter that can go on does. -/
theorem State.tryWaiters_cons {l k : Nat} {w : Wait} (zs : List (Nat × Nat × Wait))
    (h : stillWaits l k w (ex w.instr { s with issue := w.issue l k }) = false) :
    s.tryWaiters ex ((l, k, w) :: zs) = some (ex w.instr { s with issue := w.issue l k }) :=
  if_neg (by rw [h]; decide)

/-- Where no wait for a pool can end, the waits for a phase are tried (R297). -/
theorem State.awake_eq (h : ∀ e ∈ s.cores, e.2.runs = true → ∀ v ∈ e.2.waiters, onRing v.2.instr = true →
      stillWaits e.1 v.1 v.2 (ex v.2.instr { s with issue := v.2.issue e.1 v.1 }) = true) :
    s.awake ex = s.tryWaiters ex s.joiners := by
  unfold State.awake
  rw [List.findSome?_eq_none_iff.2]
  · rfl
  · intro e he
    split
    · next hr =>
      refine State.tryWaiters_eq_none fun y hy => ?_
      obtain ⟨v, hv, rfl⟩ := List.mem_map.1 hy
      obtain ⟨hv, hon⟩ := List.mem_filter.1 hv
      exact h e he hr v hv hon
    · rfl

end

/-- What a step does first (R297). -/
theorem step_awake {s : State} {o : Out} (h : s.awake exec = some o) : step s = o := by
  unfold step State.advance
  rw [h]

/-- A core whose oldest wait can end ends it (R104). -/
theorem issueOn_waiter {ex : Instr → State → Out} {s : State} {l k : Nat} {w : Wait} {ws : List (Nat × Wait)} (hruns : (s.core l).runs = true)
    (hhalt : (s.core l).allHalted = false)
    (hidle : ∀ j, j < 4 → (s.slotAt l j).stepDue = none ∧ (s.slotAt l j).takesNotice = false) (hw : (s.core l).waiters = (k, w) :: ws)
    (hgo : stillWaits l k w (ex w.instr (s.resume l k w)) = false) : s.issueOn ex l = some (ex w.instr (s.resume l k w)) := by
  have hstep : ((s.core l).turns.find? fun k => ((s.core l).slot k).st == .ready &&
      ((s.core l).slot k).stepDue.isSome && !(s.core l).stops k) = none :=
    List.find?_eq_none.2 fun j hj => by
      have := (hidle j (Core.lt_of_mem_turns hj)).1
      rw [State.slotAt] at this
      simp [this]
  have hnote : ((s.core l).turns.find? fun k => ((s.core l).slot k).takesNotice && !(s.core l).stops k) = none :=
    List.find?_eq_none.2 fun j hj => by
      have := (hidle j (Core.lt_of_mem_turns hj)).2
      rw [State.slotAt] at this
      simp [this]
  unfold State.issueOn
  simp only [hruns, hhalt, hstep, hnote, hw, List.map_cons, Bool.true_eq_false, Bool.false_eq_true, if_false]
  rw [State.tryWaiters_cons _ hgo]
  rfl

/-! ### Replies that go out -/

/-- From `s` to `t` packets were sent, and nothing else was done. -/
def SentOut (s t : State) : Prop := t = { s with transit := t.transit, links := t.links, linkOut := t.linkOut }

theorem SentOut.refl (s : State) : SentOut s s := rfl

theorem SentOut.trans {s t u : State} (h : SentOut s t) (h' : SentOut t u) : SentOut s u := by
  unfold SentOut at *
  rw [h', h]

theorem SentOut.pump (s : State) (l : LinkId) : SentOut s (s.pump l) := by
  unfold State.pump
  dsimp only
  split <;> rfl

theorem SentOut.sendOn (s : State) (l : LinkId) (ch : Nat) (bs : List (List Byte)) : SentOut s (s.sendOn l ch bs) :=
  SentOut.trans (t := s.setLink l { s.link l with txq := (s.link l).txq ++ [(ch, bs)] }) rfl (.pump _ l)

theorem SentOut.answer (s : State) (p : Packet) : SentOut s (s.answer p) := by
  unfold State.answer
  split
  · rfl
  · unfold State.sendPacket
    cases s.route p.dmod none with
    | none => exact .refl s
    | some r => exact .sendOn s r.1 _ _

theorem SentOut.foldl {α : Type} {f : State → α → State} (h : ∀ s a, SentOut s (f s a)) (as : List α) (s : State) :
    SentOut s (as.foldl f s) := by
  induction as generalizing s with
  | nil => exact .refl s
  | cons a as ih => exact (h s a).trans (ih _)

/-! ### Waiters of other modules (R297) -/

theorem State.farReady_iff {s : State} {w : Nat × Packet} {v : Word} (hop : barOpOf w.2 = .join v) :
    s.farReady w = true ↔ ∀ b, s.obj w.1 = .barrier b → b.phase ≠ Z v := by
  rw [State.farReady, hop]
  cases s.obj w.1 with
  | barrier b => simp [Z]
  | free => simp
  | group g => simp

theorem exec_barrierCompletion_eq (m k p c : Nat) (s : State) : exec (.barrierCompletion m k p c) s = execBarrierCompletion m k p c s := rfl

theorem exec_barrierCompletion {s : State} {m k p c : Nat} (hm : m = s.dev.mnum) (hp : s.phaseOf k = (p, c)) :
    exec (.barrierCompletion m k p c) s = .next ((s.farWaits.filter fun w => w.1 == k && s.farReady w).foldl
      (fun s w => s.answer (objectAnswer w.2 (s.barrier k w.2.smod w.2.core w.2.clock true (barOpOf w.2)).2))
      { s with farWaits := s.farWaits.filter fun w => !(w.1 == k && s.farReady w) }) :=
  have hon : (m == s.dev.mnum && s.phaseOf k == (p, c)) = true := by rw [hm, hp]; simp
  (exec_barrierCompletion_eq m k p c s).trans (whenOn_true hon)

theorem objectAnswer_both (q : Packet) (x y : Word) (t : Nat) : objectAnswer q (.gives (some x) (some y) t) =
    Packet.reply q 7 0 t (leBytes 3 4 ++ leBytes (Z x) 4 ++ leBytes (Z y) 4) := rfl

/-- R299: what a waiter of another module is answered once its phase is over. -/
theorem State.join_over {s : State} {n m c t : Nat} {v : Word} (hv : v.getLsbD 31 = false) :
    (∀ b, s.obj n = .barrier b → b.phase ≠ Z v → (s.barrier n m c t true (.join v)).2 =
      .gives (some (u32 b.phase)) (some (b.status (Z v))) b.pclk) ∧
    ((∀ b, s.obj n ≠ .barrier b) → (s.barrier n m c t true (.join v)).2 = .gives (some 0) (some 2) 0) := by
  have hlt : ¬ 2 ^ 31 ≤ Z v := of_decide_eq_false ((getLsbD_31 v).symm.trans hv)
  refine ⟨fun b hb hne => ?_, fun hb => ?_⟩
  · rw [State.barrier, State.joinObj_barrier hb (fun _ => rfl), if_neg hlt, if_neg hne]
  · rw [State.barrier, State.joinObj_none hb, if_neg hlt]

/-- R297, R299: the phase goes to the waiters of other modules. -/
theorem barrierCompletions (m k p c : Nat) (s : State) (hm : m = s.dev.mnum) (hp : s.phaseOf k = (p, c)) :
    Runs (.barrierCompletion m k p c) s fun t => t.farWaits = s.farWaits.filter (fun w => !(w.1 == k && s.farReady w)) ∧
      t.cores = s.cores ∧ t.objects = s.objects ∧ SameMemory s t := by
  have hsent := SentOut.foldl (fun s w => SentOut.answer s
    (objectAnswer w.2 (s.barrier k w.2.smod w.2.core w.2.clock true (barOpOf w.2)).2))
    (s.farWaits.filter fun w => w.1 == k && s.farReady w) { s with farWaits := s.farWaits.filter fun w => !(w.1 == k && s.farReady w) }
  refine ⟨_, exec_barrierCompletion hm hp, ?_⟩
  rw [hsent]
  exact ⟨rfl, rfl, rfl, fun _ => rfl⟩

/-! ### The waiter that goes on -/

/-- R297, R299: a `bjoin` whose phase is over completes on its core's next issue. -/
theorem issueOn_bjoin {l k d n o : Nat} {s u : State} {w : Wait} {ws : List (Nat × Wait)} {b : Barrier} (hruns : (s.core l).runs = true)
    (hhalt : (s.core l).allHalted = false) (hidle : ∀ j, j < 4 → (s.slotAt l j).stepDue = none ∧ (s.slotAt l j).takesNotice = false)
    (hw : (s.core l).waiters = (k, w) :: ws) (hi : w.instr = .bjoin d n) (hend : w.start + u64 w.length ≠ END)
    (hv : Z (Map.get 0 (s.slotAt l k).regs d) < 2 ^ 31) (href : (s.resume l k w).objRef (Map.get 0 (s.slotAt l k).aregs n) = (u, .here o))
    (hb : u.obj o = .barrier b) (hs : 5 ≤ b.scope → u.accepts 5 = true) (hne : b.phase ≠ Z (Map.get 0 (s.slotAt l k).regs d)) :
    ∃ t, s.issueOn exec l = some (.next t) ∧ (t.slotAt l k).wait = none ∧ (t.slotAt l k).pc = w.start + u64 w.length ∧
      Map.get 0 (t.slotAt l k).regs d = u32 b.phase ∧ (t.core l).pts = max (s.core l).pts b.pclk := by
  obtain ⟨-, -, -, -, hbarrier, -⟩ := barriers d n o _ (s.resume l k w) u _ hend rfl href rfl
  obtain ⟨-, -, -, -, -, hover⟩ := hbarrier b hb hs
  obtain ⟨t, ht, hd, -, -, ⟨hmod, -, hcore, -, -, -, hpc, hwait, -, -⟩, -⟩ := hover hv hne
  have hu := State.objRef_frame href
  have hissue : t.issue = w.issue l k := by rw [hmod, hu]; rfl
  have hslot : t.slotAt l k = t.slot := by rw [State.slot, State.me, hissue]; rfl
  have hpts : (t.core l).pts = t.me.pts := by rw [State.me, hissue]; rfl
  have hexec : exec w.instr (s.resume l k w) = .next t := by rw [hi]; exact ht
  refine ⟨t, ?_, ?_, ?_, ?_, ?_⟩
  · rw [issueOn_waiter hruns hhalt hidle hw, hexec]
    rw [hexec, stillWaits, hslot, hwait]
  · rw [hslot, hwait]
  · rw [hslot, hpc]
    rfl
  · rw [hslot]
    exact hd
  · rw [hpts, hcore, hu]
    rfl

theorem barrierWaiters : Sys2Proof.Part.BarrierWaiters := by
  refine ⟨fun c => ⟨pairwise_oldestFirst _, fun k w => Core.mem_waiters⟩, fun s => ?_, ?_, fun m k p c s hm hp => ?_⟩
  · refine ⟨pairwise_oldestFirst _, fun l k w => State.mem_joiners, fun ys l k w zs hj hys hgo hring => step_awake ?_⟩
    simp only [Bool.not_eq_false', Bool.not_eq_true'] at hys hgo hring
    rw [State.awake_eq hring, hj, State.tryWaiters_append _ hys, State.tryWaiters_cons _ hgo]
  · exact fun l k d n o s u w ws b hruns hhalt hidle hw hi hend hv href hb hs hne => issueOn_bjoin hruns hhalt hidle hw hi hend hv href hb hs hne
  · refine ⟨barrierCompletions m k p c s hm hp, fun w _ hk v hop => hk ▸ State.farReady_iff hop, fun w v hw hop hv => ?_⟩
    have he := exec_barrierCompletion hm hp
    obtain ⟨-, hw'⟩ := List.mem_filter.1 (hw ▸ List.mem_singleton_self w)
    simp only [Bool.and_eq_true, beq_iff_eq] at hw'
    obtain ⟨rfl, hready⟩ := hw'
    rw [hw, List.foldl_cons, List.foldl_nil, hop] at he
    have hover := State.join_over (s := { s with farWaits := s.farWaits.filter fun x => !(x.1 == w.1 && s.farReady x) }) (n := w.1)
      (m := w.2.smod) (c := w.2.core) (t := w.2.clock) hv
    refine ⟨fun b hb => ?_, fun hb => ?_⟩
    · rw [hover.1 b hb ((State.farReady_iff hop).1 hready b hb), objectAnswer_both] at he
      exact he
    · rw [hover.2 hb, objectAnswer_both] at he
      exact he

/-- Settles O41: the operand, then each form by what its object answers, then the waiters in order of age. -/
theorem barrierForms : Obligations.BarrierForms := ⟨objectOperands, barriers, barrierWaiters⟩

end Sys2Proof.Machine
end

section
/-! PROOF. What an instruction has done to its module, core, context and registers before it completes, one change after another. -/

namespace Sys2Proof.Machine

/-- What leads from `s` to `u` within one instruction: the module is `m` but for its cores, the executing core is `c` but for its
contexts, the executing context is `x` but for its registers and progress, of the registers only `ds` and `as` changed, and no other core
or context did. -/
structure Effect (m : State) (c : Core) (x : Slot) (ds as : List Nat) (s u : State) : Prop where
  issue : u.issue = s.issue
  module : SameModule m u
  cores : SameCores s.issue.lid s u
  core : OnlySlots c u.me
  slots : SameSlots s.issue.slot s.me u.me
  context : OnlyRegisters x u.slot
  registers : SameRegisters ds as s u

theorem Effect.refl (ds as : List Nat) (s : State) : Effect s s.me s.slot ds as s s :=
  ⟨rfl, rfl, fun _ _ => rfl, rfl, fun _ _ => rfl, rfl, fun _ _ => rfl, fun _ _ => rfl⟩

section
variable {m : State} {c : Core} {x : Slot} {ds as : List Nat} {s u : State} (h : Effect m c x ds as s u)
include h

theorem Effect.next : u.next = s.next := by rw [State.next, h.issue]; rfl

theorem Effect.me_eq : u.me = { c with slots := u.me.slots } := h.core

/-- The module changes beside its cores. -/
theorem Effect.setModule {n v : State} (hi : v.issue = u.issue) (hc : v.cores = u.cores) (hm : SameModule n v) : Effect n c x ds as s v := by
  have hcore : ∀ l, v.core l = u.core l := fun l => by rw [State.core, hc]; rfl
  have hme : v.me = u.me := by rw [State.me, hi, hcore]; rfl
  have hslot : v.slot = u.slot := by rw [State.slot, hme, hi]; rfl
  refine ⟨hi.trans h.issue, hm, fun k hk => (hcore k).trans (h.cores k hk), by rw [hme]; exact h.core, by rw [hme]; exact h.slots,
    by rw [hslot]; exact h.context, fun n hn => ?_, fun n hn => ?_⟩
  · rw [State.g, hslot]; exact h.registers.1 n hn
  · rw [State.a, hslot]; exact h.registers.2 n hn

/-- The core changes beside its contexts. -/
theorem Effect.setMe {e : Core} (he : e.slots = u.me.slots) : Effect m e x ds as s (u.setMe e) := by
  have hslot : (u.setMe e).slot = u.slot := by
    rw [State.slot, State.me_setMe, Core.slot, he]; rfl
  refine ⟨h.issue, h.module.trans rfl, fun k hk => (SameCores.setMe u e k (by rwa [h.issue])).trans (h.cores k hk), ?_, fun j hj => ?_,
    by rw [hslot]; exact h.context, fun n hn => ?_, fun n hn => ?_⟩
  · rw [State.me_setMe]; rfl
  · rw [State.me_setMe, Core.slot, he]; exact h.slots j hj
  · rw [State.g, hslot]; exact h.registers.1 n hn
  · rw [State.a, hslot]; exact h.registers.2 n hn

/-- The context is replaced by one with registers that `ds` and `as` allow. -/
theorem Effect.setContext {y z : Slot} (hz : OnlyRegisters y z) (hg : ∀ n, n ∉ ds → Map.get 0 z.regs n = u.g n)
    (ha : ∀ n, n ∉ as → Map.get 0 z.aregs n = u.a n) : Effect m c y ds as s (u.setSlot z) := by
  refine ⟨h.issue, h.module.trans rfl, fun k hk => (SameCores.setMe u _ k (by rwa [h.issue])).trans (h.cores k hk), ?_, fun j hj => ?_, ?_,
    fun n hn => ?_, fun n hn => ?_⟩
  · rw [State.me_setSlot]; exact h.core.trans (onlySlots_setSlot _ _ _)
  · rw [State.me_setSlot, Core.slot_setSlot_ne _ _ (by rwa [h.issue])]; exact h.slots j hj
  · rw [State.slot_setSlot]; exact hz
  · rw [State.g, State.slot_setSlot, hg n hn]; exact h.registers.1 n hn
  · rw [State.a, State.slot_setSlot, ha n hn]; exact h.registers.2 n hn

/-- The context changes beside its registers. -/
theorem Effect.setSlot {y : Slot} (hg : y.regs = u.slot.regs) (ha : y.aregs = u.slot.aregs) : Effect m c y ds as s (u.setSlot y) :=
  h.setContext rfl (fun n _ => by rw [hg]; rfl) (fun n _ => by rw [ha]; rfl)

theorem Effect.wr {n : Nat} (hn : n ∈ ds) (v : Word) : Effect m c x ds as s (u.wr n v) := by
  refine h.setContext (h.context.trans rfl) (fun j hj => ?_) fun _ _ => rfl
  rw [Slot.wr, Map.get_set_ne _ _ _ (ne_of_mem_of_not_mem hn hj).symm]; rfl

theorem Effect.wra {n : Nat} (hn : n ∈ as) (v : DWord) : Effect m c x ds as s (u.wra n v) := by
  refine h.setContext (h.context.trans rfl) (fun _ _ => rfl) fun j hj => ?_
  rw [Slot.wra, Map.get_set_ne _ _ _ (ne_of_mem_of_not_mem hn hj).symm]; rfl

/-- Flags are set in FST, outside a clause (R40, R130). -/
theorem Effect.flags (fl : Nat) (hs : s.issue.slot < 4) : Effect m c { x with fst := x.fst ||| u32 (fl % 32) } ds as s (u.flags fl) := by
  rw [State.flags_of_slot fl (by rwa [h.issue])]
  refine h.setContext ?_ (fun _ _ => rfl) fun _ _ => rfl
  have hx := h.context
  unfold OnlyRegisters at *
  rw [hx]
  rfl

/-- The instruction completes. -/
theorem Effect.went (hn : s.next ≠ END) : Went m c x ds as s.next s (u.finish s.next) :=
  went_finish hn (h.module.issue.symm.trans h.issue) h.module h.cores h.core h.slots h.context h.registers

/-- An instruction that ends so, with what its last state but one held. -/
theorem Effect.runs {i : Instr} (hn : s.next ≠ END) (he : exec i s = done u) : Runs i s fun t =>
    Went m c x ds as s.next s t ∧ OnlySlots u.me t.me ∧ OnlyRegisters u.slot t.slot ∧ (∀ n, t.g n = u.g n) ∧ ∀ n, t.a n = u.a n := by
  refine ⟨_, he, ?_⟩
  rw [h.next]
  exact ⟨h.went hn, State.me_finish u hn, by rw [State.slot_finish u hn]; rfl, State.g_finish u hn,
    fun n => by rw [State.a, State.slot_finish u hn]; rfl⟩

end

/-! ### The low bits of a field -/

theorem bits_zero_eq_mod (x k : Nat) : bits x 0 k = x % 2 ^ k := by rw [bits, Nat.pow_zero, Nat.div_one]

/-! ### General registers after other changes -/

@[simp] theorem State.g_flags (s : State) (fl n : Nat) : (s.flags fl).g n = s.g n := by
  unfold State.flags
  split
  · rfl
  · simp [State.g, Slot.flags]

/-- A change of the core beside its contexts leaves the executing one. -/
theorem State.slot_setMe (s : State) {e : Core} (he : e.slots = s.me.slots) : (s.setMe e).slot = s.slot := by
  rw [State.slot, State.me_setMe, Core.slot, he]; rfl

end Sys2Proof.Machine
end

section
/-! PROOF. The Gaussian forms (R132 to R137): each ends with its pair written and the flags of its steps. -/

namespace Sys2Proof.Machine

/-- A form of two registers written and the flags of its steps. -/
theorem WritesP.of_doneP {i : Instr} {s : State} {d : Nat} {r : Word × Word × Nat} (hn : s.next ≠ END) (hs : s.issue.slot < 4)
    (he : exec i s = doneP s d r) : WritesP i s d r := by
  have h := (((Effect.refl [d, d + 1] [] s).wr (n := d) (by simp) r.1).wr (n := d + 1) (by simp) r.2.1).flags r.2.2 hs
  refine (h.runs hn he).mono fun t ⟨hw, _, _, hg, _⟩ => ⟨?_, ?_, hw, hw.1.memory⟩
  · rw [hg, State.g_flags, State.g_wr, if_neg (by omega), State.g_wr, if_pos rfl]
  · rw [hg, State.g_flags, State.g_wr, if_pos rfl]

/-- R137: the residual, with no step where a precision is zero. -/
theorem residual_eq (ld hd ls hs : Word) : residual ld hd ls hs =
    if (fval ld).isZero ∨ (fval ls).isZero then (0x7F800000#32, 0)
    else ((fSub .ne (fDiv .ne hd ld).1 (fDiv .ne hs ls).1).1 &&& 0x7FFFFFFF#32,
      (fDiv .ne hd ld).2 ||| (fDiv .ne hs ls).2 ||| (fSub .ne (fDiv .ne hd ld).1 (fDiv .ne hs ls).1).2) := by
  simp only [residual, Bool.or_eq_true]

/-- Settles O16: every form is of the group of R132 and ends with its rounded steps written. -/
theorem gaussianForms : Obligations.GaussianForms := by
  rintro d n s hn hs hacc ld hd ls hes dm rfl rfl rfl rfl rfl add sub mul div
  refine ⟨.of_doneP hn hs (inGroup_of_accepts hacc : execGcomb d n s = _), .of_doneP hn hs (inGroup_of_accepts hacc : execGsplit d n s = _), ?_, ?_,
    .of_doneP hn hs (inGroup_of_accepts hacc : execGmean d n s = _), .of_doneP hn hs (inGroup_of_accepts hacc : execGinfo d n s = _), ?_⟩
  · rintro e tl th nl nh rfl rfl rfl rfl rfl
    exact .of_doneP hn hs (inGroup_of_accepts hacc : execGdamp d n s = _)
  · rintro sm p q lo t u v w ho rfl rfl rfl rfl rfl rfl rfl rfl rfl
    exact .of_doneP hn hs (inGroup_of_accepts hacc : execGlin d n s = _)
  · rintro a b r rfl rfl rfl
    rw [← residual_eq]
    exact .of_doneF hn hs (inGroup_of_accepts hacc : execGresd d n s = _)

end Sys2Proof.Machine
end

section
/-! PROOF. Flits at their destination (R121 to R123, R127, R186, R208): what leaves the mesh, what a refusal sends back, and what the rows
of R121 come to. -/

namespace Sys2Proof.Machine

/-! ### The first rows of R121 -/

/-- A core that runs a launch, by the rows that look at it. -/
theorem State.fate_launched {s : State} {c q : Nat} (uid : Nat) (hc : c < 8 * s.dev.tcnt) (hq : (s.core c).queue = some q) :
    s.fate c uid = if (s.core c).uid ≠ uid then .bounce 9 else if (s.core c).exited then .bounce 2
      else if (s.core c).swapped then .spill q else (s.core c).forward.elim .here .forward := by
  unfold State.fate
  dsimp only
  rw [if_neg (Nat.not_le.2 hc), hq]
  dsimp only
  cases (s.core c).forward <;> rfl

/-- R121: the fates of a flit, row by row. -/
theorem flitFates : Part.FlitFates := by
  intro s c uid q
  refine ⟨fun hc => if_pos hc, fun hc hq => ?_, fun hc hq => ?_⟩
  · unfold State.fate
    dsimp only
    rw [if_neg (Nat.not_le.2 hc), hq]
  · rw [State.fate_launched uid hc hq]
    refine ⟨fun hu => if_pos hu, fun hu => ?_⟩
    rw [if_neg (not_not.2 hu)]
    refine ⟨fun he => if_pos he, fun he => ?_⟩
    rw [he, if_neg Bool.false_ne_true]
    refine ⟨fun hs => if_pos hs, fun hs => ?_⟩
    rw [hs, if_neg Bool.false_ne_true]
    exact ⟨fun t ht => by rw [ht]; rfl, fun hf => by rw [hf]; rfl⟩

/-! ### Leaving the mesh -/

/-- On the way from `s` to `u` flit `x` has left the mesh, and of the cores its destination alone may have changed. -/
structure Left (x : InFlight) (s u : State) : Prop where
  module : SameModule { s with flight := u.flight, goldenStamp := u.goldenStamp } u
  freed : Freed s x u.flight
  cores : SameCores x.flit.dst s u

/-- Where the senders' clocks fit their flits, a flit that leaves changes no core. -/
theorem left_land {s : State} (x : InFlight) (h : Clocked s) : Left x s (s.land x) ∧ ∀ l, (s.land x).core l = s.core l := by
  obtain ⟨fs, g, hland, hfreed⟩ := s.land_eq x h
  rw [hland]
  exact ⟨⟨rfl, hfreed, fun _ _ => rfl⟩, fun _ => rfl⟩

section
variable {x : InFlight} {s u : State} (h : Left x s u)
include h

theorem Left.setCore (c : Core) : Left x s (u.setCore x.flit.dst c) :=
  ⟨h.module.trans rfl, h.freed, fun j hj => (State.core_setCore_ne u c hj).trans (h.cores j hj)⟩

theorem Left.base : u.base = s.base := by rw [h.module]

theorem Left.memory : SameMemory s u := h.module.memory

/-- The flit ends there. -/
theorem Left.landed {c : Core} (hc : u.core x.flit.dst = c) : Landed x c s u := ⟨h.module, h.freed, h.cores, hc, h.memory⟩

end

/-- R127: a refused flit goes back as a bounce, and its destination is as it was. -/
theorem bounced_bounce {s : State} (x : InFlight) (st cause count : Nat) (h : Clocked s) :
    Bounced x st cause count s (s.bounce x st cause count) := by
  obtain ⟨fs, g, hland, hfreed⟩ := s.land_eq x h
  have hrouter : s.bouncer x.flit = (if x.flit.dst < 8 * s.dev.tcnt then x.flit.dst else x.flit.src) / 8 := by
    unfold State.bouncer
    split <;> rfl
  unfold State.bounce
  rw [hland]
  exact ⟨rfl, fun _ => rfl, fun _ => rfl, _, fs, hfreed, rfl, congrArg some hrouter, rfl⟩

/-! ### The arrival of a counted flit -/

/-- A core that a context waits to move holds its arrivals (R205). -/
theorem Core.moving_of_not_staying {c : Core} (h : ¬Staying c) : c.moving = true := by
  unfold Staying at h
  push Not at h
  obtain ⟨k, hk, w, hw, d, hd⟩ := h
  refine List.any_eq_true.2 ⟨k, List.mem_range.2 hk, ?_⟩
  rw [hw]
  dsimp only
  rw [hd]
  rfl

/-- A core that no snapshot cut holds logs no flit (R210). -/
theorem State.logFlit_free {s : State} {c : Nat} (x : InFlight) (k : State → Out) (h : (s.core c).cut.holding = false) :
    s.logFlit c x k = k s := by
  unfold State.logFlit
  dsimp only
  rw [h]
  rfl

section
variable {f : Flit} {rows : Core → Option Nat} {refuse : State → InFlight → Nat → State} {take : State → InFlight → State} {s : State}
  {x : InFlight} (hx : s.inFlight f = some x)
include hx

theorem arrive_held (h : s.arrivalHeld f = true) : arrive f rows refuse take s = .next s := by
  unfold arrive
  rw [hx]
  dsimp only
  rw [if_pos h]

variable (hheld : s.arrivalHeld f = false) (hcut : (s.core f.dst).cut.holding = false)
include hheld hcut

/-- One of the first rows refuses it. -/
theorem arrive_bounced {st : Nat} (h : s.fate f.dst x.uid = .bounce st) : arrive f rows refuse take s = .next (refuse s x st) := by
  unfold arrive
  rw [hx]
  dsimp only
  rw [hheld, if_neg Bool.false_ne_true, h]
  exact State.logFlit_free x _ hcut

variable (hfate : s.fate f.dst x.uid = .here)
include hfate

/-- One of the later rows refuses it. -/
theorem arrive_refused {st : Nat} (h : rows (s.core f.dst) = some st) : arrive f rows refuse take s = .next (refuse s x st) := by
  unfold arrive
  rw [hx]
  dsimp only
  rw [hheld, if_neg Bool.false_ne_true, hfate]
  dsimp only
  rw [State.logFlit_free x _ hcut, h]

/-- It is delivered. -/
theorem arrive_taken (h : rows (s.core f.dst) = none) : arrive f rows refuse take s = .next (take ((s.land x).countIn f.dst x) x) := by
  unfold arrive
  rw [hx]
  dsimp only
  rw [hheld, if_neg Bool.false_ne_true, hfate]
  dsimp only
  rw [State.logFlit_free x _ hcut, h]

end

/-- A core that has counted a flit and heard its clock (R122, R208). -/
def Core.counting (c : Core) (t : Nat) : Core := { c with crecv := c.crecv + 1, pts := max c.pts t }

/-- R122, R208: a counted flit that leaves the mesh at its destination is counted there and raises the clock. -/
theorem left_hear {s : State} {x : InFlight} (hcount : x.flit.counted = true) (h : Clocked s) :
    Left x s (((s.land x).countIn x.flit.dst x).hear x.flit) ∧
      (((s.land x).countIn x.flit.dst x).hear x.flit).core x.flit.dst = (s.core x.flit.dst).counting (s.base + Z x.flit.low) := by
  obtain ⟨hleft, hcore⟩ := left_land x h
  have hin : (s.land x).countIn x.flit.dst x =
      (s.land x).setCore x.flit.dst { s.core x.flit.dst with crecv := (s.core x.flit.dst).crecv + 1 } := by
    unfold State.countIn
    dsimp only
    rw [if_pos hcount, hcore]
  rw [hin]
  refine ⟨(hleft.setCore _).setCore _, ?_⟩
  rw [State.hear, State.raise, State.core_setCore_self, State.core_setCore_self, State.clockOf]
  rw [State.setCore_base, hleft.base]
  rfl

end Sys2Proof.Machine
end

section
/-! PROOF. Delivery of data flits, calls and clauses (R115, R121 to R123, R205). -/

namespace Sys2Proof.Machine

/-! ### A flit in a mailbox (R123) -/

theorem Flit.length_bytes (f : Flit) : f.bytes.length = 32 := by simp [Flit.bytes]

/-- A data flit, a call and a clause are counted (R208). -/
theorem Flit.counted_of_code {f : Flit} (h : f.kind.code ≤ 2) : f.counted = true := by
  rw [Flit.counted, countedKind, decide_eq_true h, Bool.true_or]

/-- The mailbox rows of R121. -/
theorem Core.mailboxRow_eq (c : Core) (h : Nat) : c.mailboxRow h =
    if (c.handle h).bnd = false ∨ (c.handle h).mbx = false then some 3
    else if 2 ^ (c.handle h).rlog ≤ countDiff (c.handle h).rsv (c.handle h).head then some 4 else none := by
  rw [← Handle.count_eq, ← Handle.used_eq]
  rfl

section
variable (c : Core) (h : Nat) (f : Flit)

theorem Core.poolWritten_deposit :
    PoolWritten c.pool (c.deposit h f).pool (entryAt (c.handle h) (c.handle h).rsv) 32 fun i => f.bytes.getD i 0 := by
  intro a
  rw [← Flit.length_bytes f]
  exact Map.get_setList 0 f.bytes c.pool _ a

theorem Core.full_deposit (w : Nat) : Map.get false (c.deposit h f).full w =
    if entryAt (c.handle h) (c.handle h).rsv / 4 ≤ w ∧ w < entryAt (c.handle h) (c.handle h).rsv / 4 + 8 then true else Map.get false c.full w :=
  (c.stBytes _ f.bytes).get_setFulls _ 8 w true

theorem Core.handles_deposit (j : Nat) : Map.get Handle.empty (c.deposit h f).handles j =
    if j = h then { c.handle h with rsv := (c.handle h).rsv + 1, pub := (c.handle h).pub + 1 } else c.handle j :=
  Core.handle_setHandle ((c.stBytes _ f.bytes).setFulls _ true 8) h j _

end

/-! ### Data flits -/

theorem exec_dataDelivery {f : Flit} (hk : f.kind = .data) (s : State) : exec (.dataDelivery f) s =
    arrive f (·.mailboxRow f.ksf) plainBounce (fun u _ => (u.hear f).setCore f.dst (((u.hear f).core f.dst).deposit f.ksf f)) s :=
  whenOn_true (by rw [hk]; rfl)

/-- R115, R121 to R123, R205: a data flit is held, refused or delivered. -/
theorem dataDelivery : Part.DataDelivery := by
  rintro x f s c h rfl hk hx rfl rfl hcut hclk
  have he := exec_dataDelivery hk s
  refine ⟨fun hmove => ?_, fun hstay hfate => ?_, fun st hstay hfate => ?_⟩
  · have hheld : s.arrivalHeld x.flit = true := by rw [State.arrivalHeld, Core.moving_of_not_staying hmove, hk]; rfl
    exact ⟨s, he.trans (arrive_held hx hheld), rfl⟩
  · have hheld := State.arrivalHeld_eq_false hstay
    have hrow := (s.core x.flit.dst).mailboxRow_eq x.flit.ksf
    by_cases hmbx : ((s.core x.flit.dst).handle x.flit.ksf).bnd = false ∨ ((s.core x.flit.dst).handle x.flit.ksf).mbx = false
    · rw [if_pos hmbx] at hrow ⊢
      exact ⟨_, he.trans (arrive_refused hx hheld hcut hfate hrow), bounced_bounce x 3 0 0 hclk⟩
    rw [if_neg hmbx] at hrow ⊢
    by_cases hfull : 2 ^ ((s.core x.flit.dst).handle x.flit.ksf).rlog ≤
        countDiff ((s.core x.flit.dst).handle x.flit.ksf).rsv ((s.core x.flit.dst).handle x.flit.ksf).head
    · rw [if_pos hfull] at hrow ⊢
      exact ⟨_, he.trans (arrive_refused hx hheld hcut hfate hrow), bounced_bounce x 4 0 0 hclk⟩
    rw [if_neg hfull] at hrow ⊢
    obtain ⟨hleft, hcore⟩ := left_hear (x := x) (Flit.counted_of_code (by rw [hk]; decide)) hclk
    refine ⟨_, he.trans (arrive_taken hx hheld hcut hfate hrow), _, _, _, (hleft.setCore _).landed ?_,
      Core.poolWritten_deposit _ x.flit.ksf x.flit, Core.full_deposit _ x.flit.ksf x.flit, Core.handles_deposit _ x.flit.ksf x.flit⟩
    rw [State.core_setCore_self, hcore]
    rfl
  · exact ⟨_, he.trans (arrive_bounced hx (State.arrivalHeld_eq_false hstay) hcut hfate), bounced_bounce x st 0 0 hclk⟩

/-! ### Calls and clauses -/

theorem fullRow_eq (c : Core) : fullRow c = if 64 ≤ c.runq.length then some 6 else none := by
  unfold fullRow Core.queueFull
  simp only [decide_eq_true_eq]

/-- What a flit of the run queue does at a core of its launch that takes it now (R121): a full queue refuses it, else its entry is the
queue's last. -/
theorem queued_or_bounced {i : Instr} {x : InFlight} {s : State} (entry : InFlight → QEntry) (hx : s.inFlight x.flit = some x)
    (hheld : s.arrivalHeld x.flit = false) (hcut : (s.core x.flit.dst).cut.holding = false) (hfate : s.fate x.flit.dst x.uid = .here)
    (hclk : Clocked s) (hcount : x.flit.counted = true)
    (he : exec i s = arrive x.flit fullRow plainBounce (fun u y => (u.hear x.flit).setCore x.flit.dst
      (((u.hear x.flit).core x.flit.dst).enqueue (entry y))) s) :
    (64 ≤ (s.core x.flit.dst).runq.length → Runs i s (Bounced x 6 0 0 s)) ∧
    (¬64 ≤ (s.core x.flit.dst).runq.length → Runs i s (Landed x { s.core x.flit.dst with
      crecv := (s.core x.flit.dst).crecv + 1, pts := max (s.core x.flit.dst).pts (s.base + Z x.flit.low),
      runq := (s.core x.flit.dst).runq ++ [entry x] } s)) := by
  have hrow := fullRow_eq (s.core x.flit.dst)
  refine ⟨fun hfull => ?_, fun hfree => ?_⟩
  · rw [if_pos hfull] at hrow
    exact ⟨_, he.trans (arrive_refused hx hheld hcut hfate hrow), bounced_bounce x 6 0 0 hclk⟩
  · rw [if_neg hfree] at hrow
    obtain ⟨hleft, hcore⟩ := left_hear hcount hclk
    refine ⟨_, he.trans (arrive_taken hx hheld hcut hfate hrow), (hleft.setCore _).landed ?_⟩
    rw [State.core_setCore_self, hcore]
    rfl

/-- The entry of a call whose handler is at `a`. -/
def callEntry (f : Flit) (a : Nat) (x : InFlight) : QEntry :=
  { kind := .call, level := f.pri, start := u64 a, args := argWords f.w0 f.w1 f.w2 f.w3, flit := some f, uid := x.uid, tag := x.tag,
    serial := x.serial }

/-- The entry of a clause. -/
def clauseEntry (f : Flit) (x : InFlight) : QEntry :=
  { kind := .clause, level := f.pri, start := 0, args := [], flit := some f, uid := x.uid, tag := x.tag, serial := x.serial }

theorem exec_callDelivery_none {f : Flit} {s : State} (hk : f.kind = .call) (hh : s.handler f.dst f.ksf = none) :
    exec (.callDelivery f) s = arrive f (fun _ => some 5) plainBounce (fun s _ => s) s := by
  refine (whenOn_true (by rw [hk]; rfl) : execCallDelivery f s = _).trans ?_
  rw [hh]

theorem exec_callDelivery_some {f : Flit} {s : State} {a : Nat} (hk : f.kind = .call) (hh : s.handler f.dst f.ksf = some a) :
    exec (.callDelivery f) s = arrive f fullRow plainBounce
      (fun u y => (u.hear f).setCore f.dst (((u.hear f).core f.dst).enqueue (callEntry f a y))) s := by
  refine (whenOn_true (by rw [hk]; rfl) : execCallDelivery f s = _).trans ?_
  rw [hh]
  rfl

theorem exec_clauseDelivery {f : Flit} (hk : f.kind = .clause) (s : State) : exec (.clauseDelivery f) s = arrive f fullRow plainBounce
    (fun u y => (u.hear f).setCore f.dst (((u.hear f).core f.dst).enqueue (clauseEntry f y))) s :=
  whenOn_true (by rw [hk]; rfl)

/-- R121 to R123: calls and clauses enter the run queue or are bounced. -/
theorem callAndClauseDelivery : Part.CallAndClauseDelivery := by
  rintro x f s c rfl hx rfl hfate hcut hstay hclk
  have hheld := State.arrivalHeld_eq_false hstay
  refine ⟨fun hk => ⟨fun hh => ?_, fun a hh => ?_⟩, fun hk => ?_⟩
  · exact ⟨_, (exec_callDelivery_none hk hh).trans (arrive_refused hx hheld hcut hfate rfl), bounced_bounce x 5 0 0 hclk⟩
  · obtain ⟨hbounce, htake⟩ := queued_or_bounced (callEntry x.flit a) hx hheld hcut hfate hclk (Flit.counted_of_code (by rw [hk]; decide))
      (exec_callDelivery_some hk hh)
    split
    · next hfull => exact hbounce hfull
    · next hfree =>
      have hargs : ∀ n, n < 4 → Map.get 0 (callEntry x.flit a x).args n = [x.flit.w0, x.flit.w1, x.flit.w2, x.flit.w3].getD n 0 :=
        fun n hn => get_argWords _ _ _ _ hn
      exact (htake hfree).mono fun t ht => ⟨_, ht, rfl, rfl, rfl, rfl, hargs 0 (by decide), hargs 1 (by decide), hargs 2 (by decide),
        hargs 3 (by decide)⟩
  · obtain ⟨hbounce, htake⟩ := queued_or_bounced (clauseEntry x.flit) hx hheld hcut hfate hclk (Flit.counted_of_code (by rw [hk]; decide))
      (exec_clauseDelivery hk s)
    split
    · next hfull => exact hbounce hfull
    · next hfree => exact (htake hfree).mono fun t ht => ⟨_, ht, rfl, rfl, rfl⟩

/-- Settles O11: a flit at a core of its launch is held, refused by a row of R121, or ends there. -/
theorem deliveries : Obligations.Deliveries := ⟨dataDelivery, callAndClauseDelivery⟩

end Sys2Proof.Machine
end

section
/-! PROOF. Returning bounces (R122, R128), the flit that a mailbox gives (R125), and golden epochs (R187). -/

namespace Sys2Proof.Machine

/-! ### A bounce at its sender (R128) -/

/-- A core that has counted a bounce. -/
def Core.counted (c : Core) : Core := { c with crecv := c.crecv + 1 }

/-- A core that has lost a bounce (R128): BLOST stays at its greatest value. -/
def Core.lostBounce (c : Core) : Core := { c with blost := if c.blost = 0xFFFFFFFF#32 then c.blost else c.blost + 1 }

theorem Core.takeBounce_none {c : Core} (f : Flit) (h : c.bmbx = none) : c.takeBounce f = c.lostBounce := by
  unfold Core.takeBounce
  dsimp only
  split
  · rfl
  · next hk => rw [h] at hk; cases hk

theorem Core.takeBounce_some {c : Core} {k : Nat} (f : Flit) (h : c.bmbx = some k) :
    c.takeBounce f = if (c.mailboxRow k).isSome then c.lostBounce else c.deposit k f := by
  unfold Core.takeBounce
  dsimp only
  split
  · next hk => rw [h] at hk; cases hk
  · next hk => cases h.symm.trans hk; rfl

/-- The bounce of a data flit or a call, at a core of its launch: it settles no request, so all that it does there is count and be taken. -/
theorem execBounceDelivery_here {f : Flit} {s : State} {x : InFlight} (hk : f.kind = .bounce) (hx : s.inFlight f = some x)
    (hfate : s.fate f.dst x.uid = .here) (hb : bits (Z f.low) 16 3 < 2) : execBounceDelivery f s =
      let u := (s.land x).setCore f.dst ((s.land x).core f.dst).counted
      .next (u.setCore f.dst ((u.core f.dst).takeBounce f)) := by
  have hcount : countedKind (bits f.low.toNat 16 3) 0 (bits f.low.toNat 0 16) = true := by
    unfold Z at hb
    rw [countedKind, decide_eq_true (by omega), Bool.true_or]
  have hclause : ¬bits f.low.toNat 16 3 = 2 := Nat.ne_of_lt hb
  have hatomic : ¬(bits f.low.toNat 16 3 = 7 ∧ bits f.low.toNat 8 8 = 4) := fun h => by
    unfold Z at hb
    omega
  unfold execBounceDelivery
  rw [whenOn_true (by rw [hk]; rfl), hx]
  dsimp only
  rw [hfate]
  dsimp only
  rw [if_pos hcount, if_neg hclause, if_neg hatomic]
  rfl

/-- R122, R128: a bounce goes into the bounce mailbox or is lost. -/
theorem bounceDelivery : Part.BounceDelivery := by
  rintro x f s c rfl hk hx rfl hfate hb hclk
  obtain ⟨hleft, hcore⟩ := left_land x hclk
  have he : exec (.bounceDelivery x.flit) s = _ := execBounceDelivery_here hk hx hfate hb
  dsimp only at he
  rw [State.core_setCore_self, hcore] at he
  have hland := (hleft.setCore (s.core x.flit.dst).counted).setCore ((s.core x.flit.dst).counted.takeBounce x.flit)
  have hend := hland.landed (State.core_setCore_self _ _ _)
  have hlost : (s.core x.flit.dst).counted.takeBounce x.flit = (s.core x.flit.dst).counted.lostBounce →
      Runs (.bounceDelivery x.flit) s (Landed x (s.core x.flit.dst).counted.lostBounce s) := fun h => ⟨_, he, h ▸ hend⟩
  refine ⟨fun hnone => hlost (Core.takeBounce_none _ hnone), fun h hsome hrow => hlost ?_, fun h hsome hrow => ⟨_, he, ?_⟩⟩
  · have hrow' : (s.core x.flit.dst).counted.mailboxRow h = some 4 := hrow
    rw [Core.takeBounce_some (c := (s.core x.flit.dst).counted) _ hsome, hrow']
    rfl
  · have hrow' : (s.core x.flit.dst).counted.mailboxRow h = none := hrow
    refine ⟨?_, hland.freed, hland.cores, hland.memory⟩
    rw [State.core_setCore_self, Core.takeBounce_some (c := (s.core x.flit.dst).counted) _ hsome, hrow']
    rfl

/-! ### The head of a mailbox (R125) -/

theorem exec_mfs_rvh (d : Nat) (s : State) : exec (.mfs 2 d 0x02D) s = takeFlit 2 d s := by
  rw [exec_mfs, execMfs, onSpecial_of_reaches fun h => absurd h.2 (by decide)]
  rfl

section
variable (s : State) (d m : Nat)

/-- The context with the flit at the head of mailbox `m` in its receive registers. -/
def State.receiving : Slot :=
  let o := entryAt (s.me.handle m) (s.me.handle m).head
  { s.slot with
    rv := Map.setList 0 [] 0 [s.me.ldw (o + 12), s.me.ldw (o + 16), s.me.ldw (o + 20), s.me.ldw (o + 24), s.me.ldw (o + 28)],
    rvh := u64 (s.me.ld o 8) }

/-- The state with that flit taken out of the mailbox, before the completion. -/
def State.flitTaken : State :=
  ((s.setMe (s.me.setHandle m { s.me.handle m with head := (s.me.handle m).head + 1 })).setSlot (s.receiving m)).wra d (s.receiving m).rvh

theorem effect_flitTaken : Effect s (s.me.setHandle m { s.me.handle m with head := (s.me.handle m).head + 1 }) (s.receiving m) [] [d] s
    (s.flitTaken d m) := by
  have hset := (Effect.refl [] [d] s).setMe (e := s.me.setHandle m { s.me.handle m with head := (s.me.handle m).head + 1 }) rfl
  have hslot := s.slot_setMe (e := s.me.setHandle m { s.me.handle m with head := (s.me.handle m).head + 1 }) rfl
  exact (hset.setSlot (y := s.receiving m) (by rw [hslot]; rfl) (by rw [hslot]; rfl)).wra (by simp) _

/-- The receive registers hold the flit's header and its payload words. -/
theorem State.receiving_holds : (s.receiving m).rvh.toNat = leNat (Map.getList 0 s.me.pool (entryAt (s.me.handle m) (s.me.handle m).head) 8) ∧
    ∀ i, i < 5 → Z (Map.get 0 (s.receiving m).rv i) =
      leNat (Map.getList 0 s.me.pool (entryAt (s.me.handle m) (s.me.handle m).head + 12 + 4 * i) 4) := by
  refine ⟨Nat.mod_eq_of_lt (s.me.ld_lt _ 8), fun i hi => ?_⟩
  have hlen : i < 0 + [s.me.ldw 0, s.me.ldw 0, s.me.ldw 0, s.me.ldw 0, s.me.ldw 0].length := by simpa using hi
  refine (congrArg Z ((Map.get_setList 0 _ [] 0 i).trans (if_pos ⟨Nat.zero_le i, hlen⟩))).trans ?_
  interval_cases i <;> exact Core.Z_ldw ..

end

theorem takeFlit_nil {s : State} (x d : Nat) (h : s.me.inboxes = []) : takeFlit x d s = trap .prot 0x02D s := by
  unfold takeFlit
  dsimp only
  rw [h]

/-- The lowest mailbox that has a flit gives it; where none has one, the instruction waits. -/
theorem takeFlit_eq {s : State} (x d : Nat) (h : s.me.inboxes ≠ []) : takeFlit x d s =
    (s.me.inboxes.find? fun k => decide (1 ≤ (s.me.handle k).ready)).elim (block (.mfs x d 0x02D) s) fun m => done (s.flitTaken d m) := by
  obtain ⟨b, bs, hb⟩ := List.exists_cons_of_ne_nil h
  unfold takeFlit
  dsimp only
  rw [hb]
  dsimp only
  cases List.find? (fun k => decide (1 ≤ (s.me.handle k).ready)) (b :: bs) with
  | none => rfl
  | some m =>
    dsimp only
    rw [s.slot_setMe (e := s.me.setHandle m _) rfl]
    rfl

/-- R125: what `mfs ad, %rvh` does, by what the mailboxes hold. -/
theorem flitTake : Part.FlitTake := by
  intro d s hn
  have he := exec_mfs_rvh d s
  have hempty (l : List Nat) (h : ∀ k ∈ l, countDiff (s.me.handle k).pub (s.me.handle k).head = 0) :
      l.find? (fun k => decide (1 ≤ (s.me.handle k).ready)) = none :=
    List.find?_eq_none.2 fun k hk => by rw [Handle.ready_eq, h k hk]; decide
  refine ⟨fun h => he.trans (takeFlit_nil 2 d h), fun h hall => ?_, ?_⟩
  · refine .of_block (he.trans ?_)
    rw [takeFlit_eq 2 d h, hempty _ hall]
    rfl
  · rintro m o x ls rs hbox hls rfl hm rfl
    have hready : decide (1 ≤ (s.me.handle m).ready) = true := by
      rw [Handle.ready_eq, decide_eq_true_eq]
      omega
    rw [takeFlit_eq 2 d (by rw [hbox]; simp), hbox, List.find?_append, hempty ls hls, Option.none_or, List.find?_cons_of_pos (p := fun k => decide (1 ≤ (s.me.handle k).ready)) hready] at he
    obtain ⟨hhead, hwords⟩ := s.receiving_holds m
    have hme := (effect_flitTaken s d m).me_eq
    have hslot := (effect_flitTaken s d m).context
    refine ((effect_flitTaken s d m).runs hn he).mono fun t ⟨hw, hcore, hctx, _, ha⟩ => ?_
    have hav : t.a d = (s.receiving m).rvh := (ha d).trans ((State.a_wra _ d d _).trans (if_pos rfl))
    have hhs : t.me.handles = (s.me.setHandle m { s.me.handle m with head := (s.me.handle m).head + 1 }).handles := by rw [hcore, hme]
    have hh (j : Nat) : t.me.handle j = if j = m then { s.me.handle m with head := (s.me.handle m).head + 1 } else s.me.handle j := by
      rw [Core.handle, hhs, Core.handle_setHandle]
    have hrv : t.slot.rv = (s.receiving m).rv := by rw [hctx, hslot]
    have hrvh : t.slot.rvh = (s.receiving m).rvh := by rw [hctx, hslot]
    refine ⟨by rw [hav, hhead], fun i hi => by rw [hrv, hwords i hi], by rw [hrvh, hav], by rw [hh, if_pos rfl], fun j hj => by rw [hh, if_neg hj], ?_⟩
    rw [hhs, hrv, hrvh]
    exact hw

/-! ### Golden epochs (R187) -/

/-- The least stamp of the flits of a list that `p` accepts, as a fold that starts with the first of them finds it. -/
theorem foldl_earliest {g : Option Nat → InFlight → Option Nat} {p : InFlight → Bool} (hskip : ∀ b y, p y = false → g b y = b)
    (hfirst : ∀ y, p y = true → g none y = some y.stamp) (hlater : ∀ n y, p y = true → g (some n) y = some (min n y.stamp))
    (ys : List InFlight) : ys.foldl g none = ((ys.filter p).map (·.stamp)).min? := by
  have hfrom (n : Nat) (ys : List InFlight) : ys.foldl g (some n) = some (((ys.filter p).map (·.stamp)).foldl min n) := by
    induction ys generalizing n with
    | nil => rfl
    | cons y ys ih =>
      cases hp : p y with
      | true => rw [List.foldl_cons, hlater n y hp, ih, List.filter_cons_of_pos hp]; rfl
      | false => rw [List.foldl_cons, hskip _ y hp, ih, List.filter_cons_of_neg (by simp [hp])]
  induction ys with
  | nil => rfl
  | cons y ys ih =>
    cases hp : p y with
    | true => rw [List.foldl_cons, hfirst y hp, hfrom, List.filter_cons_of_pos hp]; rfl
    | false => rw [List.foldl_cons, hskip _ y hp, ih, List.filter_cons_of_neg (by simp [hp])]

/-- R187: the golden flit of an epoch is the one with the least stamp that its router has injected. -/
theorem execGoldenEpoch_eq (s : State) : execGoldenEpoch s = .next { s with
    goldenRouter := (s.goldenRouter + 1) % 131072,
    goldenStamp := ((s.flight.filter fun y => y.team == some ((s.goldenRouter + 1) % 131072) && s.injected y).map (·.stamp)).min? } := by
  unfold execGoldenEpoch
  dsimp only
  rw [foldl_earliest (p := fun y => y.team == some ((s.goldenRouter + 1) % 131072) && s.injected y)]
  · intro b y hp
    rw [if_neg fun h => by simp [h.1, h.2] at hp]
  · intro y hp
    rw [if_pos (by simpa using hp)]
  · intro n y hp
    rw [if_pos (by simpa using hp)]

/-- R186: whether a router has injected a flit. -/
theorem State.injected_iff (s : State) {x : InFlight} {r : Nat} (h : x.team = some r) :
    s.injected x = true ↔ ∃ y ∈ (s.flight.filter fun z => z.team == some r).take 16, y.stamp = x.stamp := by
  unfold State.injected
  rw [h]
  simp only [List.any_eq_true, beq_iff_eq]

/-- R186: a router that has flits has injected the first of them. -/
theorem State.exists_injected {s : State} {x : InFlight} {r : Nat} (hx : x ∈ s.flight) (h : x.team = some r) :
    ∃ y ∈ s.flight, y.team = some r ∧ s.injected y = true := by
  have hmem : x ∈ s.flight.filter fun z => z.team == some r := List.mem_filter.2 ⟨hx, by rw [h, beq_self_eq_true]⟩
  obtain ⟨y, ys, hy⟩ := List.exists_cons_of_ne_nil (List.ne_nil_of_mem hmem)
  have hin : y ∈ s.flight.filter fun z => z.team == some r := by rw [hy]; exact List.mem_cons_self
  obtain ⟨hfl, hteam⟩ := List.mem_filter.1 hin
  rw [beq_iff_eq] at hteam
  exact ⟨y, hfl, hteam, (s.injected_iff hteam).2 ⟨y, by rw [hy]; exact List.mem_cons_self, rfl⟩⟩

/-- R187: golden epochs. -/
theorem goldenEpochs : Part.GoldenEpochs := by
  rintro s r rfl
  refine ⟨_, execGoldenEpoch_eq s, rfl, fun n hmin => ?_, ?_, fun x hx => s.injected_iff hx⟩
  · obtain ⟨hn, hle⟩ := List.min?_eq_some_iff.1 hmin
    obtain ⟨x, hx, hstamp⟩ := List.mem_map.1 hn
    simp only [List.mem_filter, Bool.and_eq_true, beq_iff_eq] at hx
    obtain ⟨hfl, hteam, hinj⟩ := hx
    refine ⟨⟨x, hfl, hteam, hinj, hstamp⟩, fun y hy hyt hyi => hle _ (List.mem_map.2 ⟨y, List.mem_filter.2 ⟨hy, ?_⟩, rfl⟩)⟩
    rw [hyt, hyi, beq_self_eq_true]
    rfl
  · rw [List.min?_eq_none_iff, List.map_eq_nil_iff, List.filter_eq_nil_iff]
    refine ⟨fun hno y hy hp => ?_, fun hno x hx hteam => ?_⟩
    · simp only [Bool.and_eq_true, beq_iff_eq] at hp
      exact hno y hy hp.1
    · obtain ⟨y, hy, hyt, hyi⟩ := State.exists_injected hx hteam
      exact hno y hy (by rw [hyt, hyi, beq_self_eq_true]; rfl)

/-- Settles O27: a flit's fate by the rows of R121, a bounce by its mailbox, a mailbox by its head, and an epoch by the least stamp. -/
theorem meshTraffic : Obligations.MeshTraffic := ⟨flitFates, bounceDelivery, flitTake, goldenEpochs⟩

end Sys2Proof.Machine
end

section
/-! PROOF. Sending (R115 to R120, R186, R208, R265, R271): what the injection port takes, and what a sending form leaves. -/

namespace Sys2Proof.Machine

/-! ### The port (R119) -/

theorem State.portOpen_iff (s : State) (l : Nat) (counted : Bool) : s.portOpen l counted = true ↔ PortFree s l counted := by
  unfold State.portOpen PortFree
  cases counted <;> simp [and_assoc]

/-- An instruction that ends in a wait for the port, which is tried again. -/
theorem Waits.of_blockAside {i : Instr} {s : State} (he : exec i s = blockAside i s) : Waits i s := by
  obtain ⟨b, w, hme, hinstr, hstart, hsbuf⟩ := s.me_waiting true false false i
  refine ⟨_, he, rfl, fun k hk => State.core_setCore_ne s _ hk, ?_, fun j hj => ?_, w, ?_, hinstr, hstart, hsbuf⟩
  · rw [hme]
    rfl
  · rw [hme]
    exact Core.slot_setSlot_ne s.me _ hj
  · exact (congrArg (Core.slot · s.issue.slot) hme).trans (Core.slot_setSlot_self s.me _ _)

/-! ### Injection (R119, R208) -/

/-- The core has counted a flit that it sends (R208). -/
def Core.sending (c : Core) : Core := { c with csent := c.csent + 1 }

/-- A flit of the executing core in flight, on a credit of its router, with the clock of this moment (R119, R265). -/
def State.outgoing (s : State) (f : Flit) (tag serial : Nat) : InFlight :=
  ⟨{ f with low := u32 (s.me.pts - s.base) }, some (s.issue.lid / 8), s.me.uid, s.stamp, tag, serial⟩

/-- The module with a flit of the executing core in flight, and `next` as the serial of its next request. -/
def State.sending (s : State) (f : Flit) (tag serial next : Nat) : State :=
  { s with flight := s.flight ++ [s.outgoing f tag serial], stamp := s.stamp + 1, serial := next }

/-- A counted flit is taken by the port: it is in flight, and its core has counted it. -/
theorem State.inject_eq {s : State} {f : Flit} (h : f.counted = true) (tag serial : Nat) : s.inject s.issue.lid f tag serial =
    (s.sending f tag serial s.serial).setMe s.me.sending := by
  unfold State.inject
  dsimp only
  rw [if_pos h]
  unfold State.launchFlit State.lowClock
  rw [State.core_setCore_self]
  rfl

section
variable {m : State} {c : Core} {x : Slot} {ds as : List Nat} {s u : State} (h : Effect m c x ds as s u)
include h

/-- A counted flit leaves within an instruction that has changed its contexts alone. -/
theorem Effect.inject {f : Flit} (hc : f.counted = true) (tag serial : Nat) (hm : SameModule s u) (hcore : OnlySlots s.me u.me) :
    Effect (s.sending f tag serial s.serial) s.me.sending x ds as s (u.inject s.issue.lid f tag serial) := by
  have hinj := State.inject_eq (s := u) hc tag serial
  rw [h.issue] at hinj
  rw [hinj]
  have hsend := h.setModule (n := u.sending f tag serial u.serial) (v := u.sending f tag serial u.serial) rfl rfl rfl
  have hset := hsend.setMe (e := u.me.sending) rfl
  have hmodule : SameModule (s.sending f tag serial s.serial) (u.sending f tag serial u.serial) := by
    unfold SameModule State.sending State.outgoing
    rw [hcore, hm]
  refine ⟨hset.issue, hmodule.trans hset.module, hset.cores, ?_, hset.slots, hset.context, hset.registers⟩
  refine OnlySlots.trans ?_ hset.core
  rw [hcore]
  rfl

end

/-- What a sending form leaves once its flit is in flight. -/
theorem runs_sent {i : Instr} {s u : State} {f g : Flit} {tag serial next : Nat} {x : Slot} (hn : s.next ≠ END) (he : exec i s = done u)
    (h : Effect (s.sending f tag serial next) s.me.sending x [] [] s u)
    (hg : { f with low := u32 (s.me.pts - s.base) } = g) : Runs i s (Sent g 1 x s) :=
  (h.runs hn he).mono fun _ ⟨hw, _⟩ => ⟨⟨tag, serial, next, hg ▸ hw⟩, hw.1.memory⟩

/-! ### The shapes of the sending forms -/

section
variable {i : Instr} {f : Flit} {s : State} (k : State → Out)

theorem sendThen_free (hc : f.counted = true) (h : PortFree s s.issue.lid true) :
    sendThen i f s k = k (s.inject s.issue.lid f s.issue.slot s.serial) := by
  unfold sendThen
  rw [hc, if_pos ((s.portOpen_iff _ _).2 h)]

theorem sendThen_held (hc : f.counted = true) (h : ¬PortFree s s.issue.lid true) : sendThen i f s k = blockAside i s := by
  unfold sendThen
  rw [hc, if_neg fun ho => h ((s.portOpen_iff _ _).1 ho)]

/-- The lowest free request entry is the one that a form takes (R271). -/
theorem Slot.freeEntry_eq_some {x : Slot} {e : Nat} (h : FreeEntry x e) : x.freeEntry = some e := by
  obtain ⟨hlt, hfree, hmin⟩ := h
  refine List.find?_range_eq_some.2 ⟨?_, List.mem_range.2 hlt, fun j hj => ?_⟩
  · rw [hfree]; rfl
  · rw [Bool.not_eq_true', Option.isNone_eq_false_iff, Option.isSome_iff_ne_none]
    exact hmin j hj

theorem Slot.freeEntry_eq_none {x : Slot} (h : ∀ e, e < 16 → Map.get none x.entries e ≠ none) : x.freeEntry = none :=
  List.find?_eq_none.2 fun e he => by simpa using h e (List.mem_range.1 he)

/-- The state with a clause flit in flight and its request entry taken (R118, R271). -/
def State.clauseSent (s : State) (f : Flit) (e : Nat) : State :=
  { (s.setSlot (s.slot.take e (.clause f.dst) s.serial (s.levelOf s.issue.lid f.dst))).inject s.issue.lid f (s.issue.slot * 16 + e) s.serial with
    serial := s.serial + 1 }

theorem sendClause_full (h : ∀ e, e < 16 → Map.get none s.slot.entries e ≠ none) : sendClause i f s k = block i s := by
  unfold sendClause
  rw [Slot.freeEntry_eq_none h]

variable {e : Nat} (hf : FreeEntry s.slot e)
include hf

theorem sendClause_free (h : PortFree s s.issue.lid true) : sendClause i f s k = k (s.clauseSent f e) := by
  unfold sendClause
  rw [Slot.freeEntry_eq_some hf]
  dsimp only
  rw [if_pos ((s.portOpen_iff _ _).2 h)]
  rfl

theorem sendClause_held (h : ¬PortFree s s.issue.lid true) : sendClause i f s k = blockAside i s := by
  unfold sendClause
  rw [Slot.freeEntry_eq_some hf]
  dsimp only
  rw [if_neg fun ho => h ((s.portOpen_iff _ _).1 ho)]

end

theorem effect_inject (s : State) {f : Flit} (hc : f.counted = true) : 
    Effect (s.sending f s.issue.slot s.serial s.serial) s.me.sending s.slot [] [] s (s.inject s.issue.lid f s.issue.slot s.serial) :=
  (Effect.refl [] [] s).inject hc _ _ rfl rfl

theorem effect_clauseSent (s : State) {f : Flit} (hc : f.counted = true) (e : Nat) :
    Effect (s.sending f (s.issue.slot * 16 + e) s.serial (s.serial + 1)) s.me.sending
      (s.slot.take e (.clause f.dst) s.serial (s.levelOf s.issue.lid f.dst)) [] [] s (s.clauseSent f e) := by
  have hset := (Effect.refl [] [] s).setSlot (y := s.slot.take e (.clause f.dst) s.serial (s.levelOf s.issue.lid f.dst)) rfl rfl
  have hinj := hset.inject hc (s.issue.slot * 16 + e) s.serial rfl hset.core
  have hm := hinj.module
  refine hinj.setModule rfl rfl ?_
  unfold SameModule at *
  unfold State.clauseSent
  rw [hm]
  rfl

/-! ### `msg` and `callm` -/

theorem State.flitTo_low (s : State) (d : Word) (k : FlitKind) (ksf : Nat) (w0 w1 w2 w3 w4 : Word) :
    { s.flitTo d k ksf w0 w1 w2 w3 w4 with low := u32 (s.me.pts - s.base) } =
      flitOf s k (Z d % 2 ^ 20) (statPri s.slot.stat) ksf w0 w1 w2 w3 w4 := by
  have hdst : bits d.toNat 0 20 = Z d % 2 ^ 20 := bits_zero_eq_mod _ 20
  rw [← hdst]
  rfl

/-- A form that sends one flit and completes sends it or waits for the port. -/
theorem sends_or_waits {i : Instr} {s : State} {f g : Flit} (hn : s.next ≠ END) (hc : f.counted = true)
    (he : exec i s = sendThen i f s done) (hg : { f with low := u32 (s.me.pts - s.base) } = g) :
    (PortFree s s.issue.lid true → Runs i s (Sent g 1 s.slot s)) ∧ (¬PortFree s s.issue.lid true → Waits i s) :=
  ⟨fun h => runs_sent hn (he.trans (sendThen_free done hc h)) (effect_inject s hc) hg,
    fun h => .of_blockAside (he.trans (sendThen_held done hc h))⟩

theorem exec_msg (d k : Nat) (s : State) : exec (.msg d k) s = execMsg d k s := rfl
theorem exec_callm (d k : Nat) (s : State) : exec (.callm d k) s = execCallm d k s := rfl
theorem exec_mcast (d k : Nat) (s : State) : exec (.mcast d k) s = execMcast d k s := rfl

/-! ### The copies of a multicast (R120) -/

/-- The copies beyond the first are in flight in the order of their destinations, and the core has counted each. -/
theorem Effect.copies {m : State} {c : Core} {x : Slot} {ds as : List Nat} {s u : State} (h : Effect m c x ds as s u) (uid : Nat) (f : Flit)
    (n : Nat) : ∃ fs : List InFlight,
      Effect { m with flight := m.flight ++ fs, stamp := m.stamp + n } { c with csent := c.csent + n } x ds as s
        (u.copies s.issue.lid uid f n) ∧
      fs.length = n ∧ ∀ i, i < n → fs[i]?.map (·.flit) = some { f with dst := f.dst + i + 1, low := u32 (c.pts - m.base) } := by
  induction n with
  | zero => exact ⟨[], by rw [List.append_nil]; exact h, rfl, fun i hi => absurd hi (Nat.not_lt_zero i)⟩
  | succ n ih =>
    obtain ⟨fs, ih, hlen, hfs⟩ := ih
    generalize hw : u.copies s.issue.lid uid f n = w at ih
    have hlid : s.issue.lid = w.issue.lid := by rw [ih.issue]
    have hcore : w.core s.issue.lid = w.me := by rw [hlid]; rfl
    have hlow : w.lowClock s.issue.lid = u32 (c.pts - m.base) := by
      rw [State.lowClock, hcore, ih.core, ih.module]
    have hcopies : u.copies s.issue.lid uid f (n + 1) = (w.setMe { w.me with csent := w.me.csent + 1 }).launchFlit
        { f with dst := f.dst + n + 1, low := u32 (c.pts - m.base) } none uid 0 0 := by
      rw [State.copies, hw, hcore, hlow, hlid]
      rfl
    rw [hcopies]
    have hcsent : w.me.csent + 1 = c.csent + (n + 1) := by rw [ih.core]; rfl
    refine ⟨fs ++ [⟨{ f with dst := f.dst + n + 1, low := u32 (c.pts - m.base) }, none, uid, m.stamp + n, 0, 0⟩], ?_, by simp [hlen],
      fun i hi => ?_⟩
    · have hset := ih.setMe (e := { w.me with csent := w.me.csent + 1 }) rfl
      have hsend := hset.setModule (v := (w.setMe { w.me with csent := w.me.csent + 1 }).launchFlit
        { f with dst := f.dst + n + 1, low := u32 (c.pts - m.base) } none uid 0 0)
        (n := { m with
          flight := m.flight ++ (fs ++ [⟨{ f with dst := f.dst + n + 1, low := u32 (c.pts - m.base) }, none, uid, m.stamp + n, 0, 0⟩]),
          stamp := m.stamp + (n + 1) }) rfl rfl ?_
      · refine { hsend with core := OnlySlots.trans ?_ hsend.core }
        rw [ih.core]
        rfl
      · have hm := hset.module
        unfold SameModule at *
        unfold State.launchFlit
        rw [hm, ← List.append_assoc]
        rfl
    · rcases Nat.lt_succ_iff_lt_or_eq.1 hi with hlt | heq
      · rw [List.getElem?_append_left (by omega), hfs i hlt]
      · rw [heq, ← hlen, List.getElem?_append_right (Nat.le_refl _), Nat.sub_self]
        rfl

end Sys2Proof.Machine
end

section
/-! PROOF. The sending forms (R115, R116, R118 to R120, R208, R271). -/

namespace Sys2Proof.Machine

/-! ### `msg`, `callm` and `mcast` -/

theorem execMcast_eq {d k n dst : Nat} {s : State} (hdst : dst = Z (s.g d) % 2 ^ 20) (hn : n = Z (s.g d) / 2 ^ 20) : execMcast d k s =
    if 2 ^ 20 ≤ dst + n then trap .illegal (u64 (Z (s.g d))) s
    else sendThen (.mcast d k) (s.flitTo (s.g d) .data k (s.sd 0) (s.sd 1) (s.sd 2) (s.sd 3) (s.sd 4)) s fun u =>
      done (u.copies u.issue.lid u.me.uid (s.flitTo (s.g d) .data k (s.sd 0) (s.sd 1) (s.sd 2) (s.sd 3) (s.sd 4)) n) := by
  have hbits : bits (Z (s.g d)) 0 20 = dst := by rw [hdst, bits_zero_eq_mod]
  rw [hn]
  unfold execMcast
  dsimp only
  rw [hbits]

/-- R120, R208: the copies of a multicast are in flight with consecutive destinations, each counted. -/
theorem runs_mcast {d k n : Nat} {s : State} {f : Flit} (hn : s.next ≠ END) (hc : f.counted = true) (hfree : PortFree s s.issue.lid true)
    (he : exec (.mcast d k) s = sendThen (.mcast d k) f s fun u => done (u.copies u.issue.lid u.me.uid f n)) :
    Runs (.mcast d k) s fun t => t.me.csent = s.me.csent + n + 1 ∧ SameCores s.issue.lid s t ∧ SameMemory s t ∧ AtPc s.next s t ∧
      ∃ fs : List InFlight, t.flight = s.flight ++ fs ∧ fs.length = n + 1 ∧
        ∀ i, i < n + 1 → fs[i]?.map (·.flit) = some { f with dst := f.dst + i, low := u32 (s.me.pts - s.base) } := by
  have hsend := effect_inject s hc
  rw [sendThen_free _ hc hfree, hsend.issue] at he
  obtain ⟨fs, heff, hlen, hfs⟩ := hsend.copies (s.inject s.issue.lid f s.issue.slot s.serial).me.uid f n
  refine (heff.runs hn he).mono fun t ⟨⟨hmod, hcores, hcore, _, _, _, hpc⟩, _⟩ => ⟨?_, hcores, hmod.memory, hpc,
    s.outgoing f s.issue.slot s.serial :: fs, ?_, ?_, ?_⟩
  · rw [hcore]
    show s.me.csent + 1 + n = _
    omega
  · rw [hmod]
    exact List.append_assoc s.flight _ fs
  · simp [hlen]
  · intro i hi
    cases i with
    | zero => rfl
    | succ i => exact hfs i (by omega)

/-- R115, R116, R119, R120: the three forms. -/
theorem messageSends : Part.MessageSends := by
  rintro d k s dst pri n hn hdst hnum rfl w rfl
  have hflit (kind : FlitKind) (w0 w1 w2 w3 w4 : Word) : _ = flitOf s kind dst (statPri s.slot.stat) k w0 w1 w2 w3 w4 :=
    hdst ▸ s.flitTo_low (s.g d) kind k w0 w1 w2 w3 w4
  have hmsg := sends_or_waits hn rfl (exec_msg d k s) (hflit .data _ _ _ _ _)
  have hcallm := sends_or_waits hn rfl (exec_callm d k s) (hflit .call _ _ _ _ _)
  have hmcast := (exec_mcast d k s).trans (execMcast_eq hdst hnum)
  have hdata : ∀ w0 w1 w2 w3 w4 : Word, (s.flitTo (s.g d) .data k w0 w1 w2 w3 w4).counted = true := fun _ _ _ _ _ => rfl
  refine ⟨fun hfree => ⟨hmsg.1 hfree, hcallm.1 hfree, fun hr => ?_⟩, fun hheld => ⟨hmsg.2 hheld, hcallm.2 hheld, fun hr => ?_⟩, fun hr => ?_⟩
  · rw [if_neg (by omega)] at hmcast
    refine (runs_mcast hn (hdata _ _ _ _ _) hfree hmcast).mono fun t ⟨hsent, hcores, hmem, hpc, fs, hfl, hlen, hfs⟩ =>
      ⟨hsent, hcores, hmem, hpc, fs, hfl, hlen, fun i hi => (hfs i hi).trans ?_⟩
    have hd : (s.flitTo (s.g d) .data k (s.sd 0) (s.sd 1) (s.sd 2) (s.sd 3) (s.sd 4)).dst = dst := congrArg Flit.dst (hflit .data 0 0 0 0 0)
    rw [hd]
    rfl
  · rw [if_neg (by omega)] at hmcast
    exact .of_blockAside (hmcast.trans (sendThen_held _ (hdata _ _ _ _ _) hheld))
  · rw [if_pos hr] at hmcast
    exact hmcast

/-! ### A write of SDH (R118) -/

/-- A header with the sender's core as its SRC. -/
def State.ownHeader (s : State) (h : Nat) : Nat := h / 2 ^ 44 * 2 ^ 44 + s.issue.lid * 2 ^ 24 + h % 2 ^ 24

/-- The flit of a header and the send payload registers. -/
def State.headerFlit (s : State) (h : Nat) : Flit := Flit.ofHeader (s.ownHeader h) 0 (s.sd 0) (s.sd 1) (s.sd 2) (s.sd 3) (s.sd 4)

theorem exec_mts_sdh (d : Nat) (s : State) : exec (.mts 2 d 0x025) s = sendHeader 2 d s := by
  rw [exec_mts, execMts, onSpecial_of_reaches fun h => absurd h.2 (by decide)]
  rfl

theorem sendHeader_eq {x d h k f : Nat} {s : State} (hh : h = (s.a d).toNat) (hk : k = h / 2 ^ 21 % 8) (hf : f = h % 2 ^ 16) :
    sendHeader x d s =
      if 3 ≤ k then trap .prot (u64 h) s
      else if h / 2 ^ 16 % 8 ≠ 0 ∨ k = 0 ∧ 16 ≤ f ∨ k = 2 ∧ (f < 1 ∨ 10 < f) then trap .illegal (u64 h) s
      else
        let sent (u : State) : Out := done (u.setSlot { u.slot with sdh := u64 (s.ownHeader h) })
        if k = 2 then sendClause (.mts x d 0x025) (s.headerFlit h) s sent else sendThen (.mts x d 0x025) (s.headerFlit h) s sent := by
  have hkind : bits h 21 3 = k := hk.symm
  have hksf : bits h 0 16 = f := by rw [hf, bits_zero_eq_mod]
  have hcls : bits h 16 3 = h / 2 ^ 16 % 8 := rfl
  unfold sendHeader
  dsimp only
  rw [← hh, hkind, hksf, hcls, ite_or, ite_or]
  rfl

/-- The kind that a header may send (R116, R118). -/
def sendKind (k : Nat) : FlitKind := if k = 0 then .data else if k = 1 then .call else .clause

/-- R116: the flit that a header without CLASS makes. -/
theorem State.headerFlit_low {s : State} {h k f : Nat} (hh : h < 2 ^ 64) (hk : k = h / 2 ^ 21 % 8) (hf : f = h % 2 ^ 16)
    (hl : s.issue.lid < 2 ^ 20) (hk3 : k < 3) (hcls : h / 2 ^ 16 % 8 = 0) :
    { s.headerFlit h with low := u32 (s.me.pts - s.base) } =
      flitOf s (sendKind k) (h / 2 ^ 44) (h / 2 ^ 19 % 4) f (s.sd 0) (s.sd 1) (s.sd 2) (s.sd 3) (s.sd 4) := by
  have hdst : bits (s.ownHeader h) 44 20 = h / 2 ^ 44 := by unfold bits State.ownHeader; omega
  have hsrc : bits (s.ownHeader h) 24 20 = s.issue.lid := by unfold bits State.ownHeader; omega
  have hkind : bits (s.ownHeader h) 21 3 = k := by unfold bits State.ownHeader; omega
  have hpri : bits (s.ownHeader h) 19 2 = h / 2 ^ 19 % 4 := by unfold bits State.ownHeader; omega
  have hclass : bits (s.ownHeader h) 16 3 = 0 := by unfold bits State.ownHeader; omega
  have hksf : bits (s.ownHeader h) 0 16 = f := by unfold bits State.ownHeader; omega
  have hcode : FlitKind.ofCode k = sendKind k := by interval_cases k <;> rfl
  unfold State.headerFlit Flit.ofHeader flitOf
  rw [hdst, hsrc, hkind, hpri, hclass, hksf, hcode]

theorem sendKind_counted (k : Nat) : (sendKind k).code ≤ 2 := by
  unfold sendKind
  split
  · decide
  · split <;> decide

/-- The written header stands in the context once its flit has left (R118). -/
theorem Effect.setSdh {m : State} {c : Core} {x : Slot} {ds as : List Nat} {s u : State} (h : Effect m c x ds as s u) (v : DWord) :
    Effect m c { x with sdh := v } ds as s (u.setSlot { u.slot with sdh := v }) := by
  refine h.setContext ?_ (fun _ _ => rfl) fun _ _ => rfl
  have hx := h.context
  unfold OnlyRegisters at *
  rw [hx]

/-- R118: a write of SDH. -/
theorem headerSend : Part.HeaderSend := by
  intro d s h k f hn hh hk hf hl w hw
  subst hw
  have he := (exec_mts_sdh d s).trans (sendHeader_eq hh hk hf)
  by_cases h3 : 3 ≤ k
  · rw [if_pos h3] at he ⊢
    exact he
  rw [if_neg h3] at he ⊢
  by_cases hill : h / 2 ^ 16 % 8 ≠ 0 ∨ k = 0 ∧ 16 ≤ f ∨ k = 2 ∧ (f < 1 ∨ 10 < f)
  · rw [if_pos hill] at he ⊢
    exact he
  rw [if_neg hill] at he ⊢
  have hcls : h / 2 ^ 16 % 8 = 0 := by
    by_contra hne
    exact hill (.inl hne)
  have hflit := s.headerFlit_low (by rw [hh]; exact (s.a d).isLt) hk hf hl (Nat.lt_of_not_le h3) hcls
  have hcount : (s.headerFlit h).counted = true := by
    refine Flit.counted_of_code ?_
    have hkind : (s.headerFlit h).kind = sendKind k := (congrArg Flit.kind hflit :)
    rw [hkind]
    exact sendKind_counted k
  have hdst : (s.headerFlit h).dst = h / 2 ^ 44 := (congrArg Flit.dst hflit :)
  refine ⟨fun hk2 => ⟨fun hfree => ?_, fun hheld => ?_⟩, fun hk2 => ⟨fun hfull => ?_, fun e hentry => ⟨fun hfree => ?_, fun hheld => ?_⟩⟩⟩
  · rw [if_neg hk2, sendThen_free _ hcount hfree] at he
    have hkind : sendKind k = if k = 0 then .data else .call := by unfold sendKind; split <;> [rfl; rw [if_pos (by omega)]]
    rw [hkind] at hflit
    exact runs_sent hn he ((effect_inject s hcount).setSdh _) hflit
  · rw [if_neg hk2, sendThen_held _ hcount hheld] at he
    exact .of_blockAside he
  · rw [if_pos hk2, sendClause_full _ hfull] at he
    exact .of_block he
  · rw [if_pos hk2, sendClause_free _ hentry hfree] at he
    rw [hk2] at hflit
    have heff := (effect_clauseSent s hcount e).setSdh (u64 (s.ownHeader h))
    rw [hdst] at heff
    obtain ⟨t, ht, hsent⟩ := runs_sent hn he heff hflit
    exact ⟨t, ht, _, hsent⟩
  · rw [if_pos hk2, sendClause_held _ hentry hheld] at he
    exact .of_blockAside he

/-! ### Clauses (R120, R271) -/

/-- Bytes are those of their number (R6). -/
theorem leBytes_leNat (bs : List Byte) : leBytes (leNat bs) bs.length = bs := by
  induction bs with
  | nil => rfl
  | cons b bs ih =>
    have hlt := b.isLt
    have hdiv : (b.toNat + 256 * leNat bs) / 256 = leNat bs := by omega
    have hbyte : BitVec.ofNat 8 (b.toNat + 256 * leNat bs) = b := by
      apply BitVec.eq_of_toNat_eq
      rw [BitVec.toNat_ofNat]
      omega
    rw [List.length_cons, leNat, leBytes, hdiv, ih, hbyte]

/-- Word j of a list of bytes, the lowest byte first. -/
def wordAt (bs : List Byte) (j : Nat) : Word := u32 (leNat ((bs.drop (4 * j)).take 4))

theorem leBytes_wordAt {bs : List Byte} {j : Nat} (h : 4 * j + 4 ≤ bs.length) :
    leBytes (wordAt bs j).toNat 4 = (bs.drop (4 * j)).take 4 := by
  have hlen : ((bs.drop (4 * j)).take 4).length = 4 := by rw [List.length_take, List.length_drop]; omega
  have hlt := leNat_lt ((bs.drop (4 * j)).take 4)
  rw [hlen] at hlt
  have hbytes := leBytes_leNat ((bs.drop (4 * j)).take 4)
  rw [hlen] at hbytes
  rw [wordAt, toNat_u32 hlt, hbytes]

/-- R116: five words carry twenty bytes as they stand. -/
theorem payload_words {f : Flit} {bs : List Byte} (h : bs.length = 20) (h0 : f.w0 = wordAt bs 0) (h1 : f.w1 = wordAt bs 1)
    (h2 : f.w2 = wordAt bs 2) (h3 : f.w3 = wordAt bs 3) (h4 : f.w4 = wordAt bs 4) : f.payload = bs := by
  have hsplit (n : Nat) : (bs.drop n).take 4 ++ bs.drop (n + 4) = bs.drop n := by rw [← List.drop_drop, List.take_append_drop]
  have hpayload : f.payload = leBytes f.w0.toNat 4 ++ (leBytes f.w1.toNat 4 ++ (leBytes f.w2.toNat 4 ++ (leBytes f.w3.toNat 4 ++
      leBytes f.w4.toNat 4))) := by
    rw [Flit.payload, Flit.bytes]
    simp only [List.append_assoc]
    rw [← List.append_assoc (leBytes f.header 8), List.drop_left' (by simp)]
  have hlast : (bs.drop 16).take 4 = bs.drop 16 := List.take_of_length_le (by rw [List.length_drop]; omega)
  rw [hpayload, h0, h1, h2, h3, h4, leBytes_wordAt (by omega), leBytes_wordAt (by omega), leBytes_wordAt (by omega),
    leBytes_wordAt (by omega), leBytes_wordAt (by omega)]
  show (bs.drop 0).take 4 ++ ((bs.drop 4).take 4 ++ ((bs.drop 8).take 4 ++ ((bs.drop 12).take 4 ++ (bs.drop 16).take 4))) = bs
  rw [hlast, hsplit 12, hsplit 8, hsplit 4, hsplit 0, List.drop_zero]

/-- The pool bytes that a clause flit carries, filled up to the payload. -/
def Core.clauseBytes (c : Core) (o n : Nat) : List Byte := padTo (Map.getList 0 c.pool o (2 * n)) 20

theorem Core.length_clauseBytes (c : Core) (o : Nat) {n : Nat} (hn : n ≤ 10) : (c.clauseBytes o n).length = 20 := by
  rw [Core.clauseBytes, padTo, List.length_append, Map.length_getList, List.length_replicate]
  omega

theorem Core.getD_clauseBytes (c : Core) (o i : Nat) {n : Nat} :
    (c.clauseBytes o n).getD i 0 = if i < 2 * n then Map.get 0 c.pool (o + i) else 0 := by
  rw [Core.clauseBytes, padTo]
  split
  · next hi => rw [List.getD_append _ _ _ _ (by rwa [Map.length_getList]), Map.getD_getList 0 c.pool o hi]
  · next hi =>
    rw [List.getD_append_right _ _ _ _ (by rw [Map.length_getList]; omega)]
    generalize i - (Map.getList 0 c.pool o (2 * n)).length = j
    by_cases hj : j < 20 - (Map.getList 0 c.pool o (2 * n)).length
    · rw [List.getD_replicate _ hj]
    · rw [List.getD_eq_default _ _ (by rw [List.length_replicate]; omega)]

/-- The flit of a clause form, before its clock is stamped. -/
def State.clauseFlit (s : State) (d n o : Nat) : Flit :=
  let bs := s.me.clauseBytes o n
  s.flitTo (s.g d) .clause n (wordAt bs 0) (wordAt bs 1) (wordAt bs 2) (wordAt bs 3) (wordAt bs 4)

theorem exec_clause_eq {d r n o : Nat} {s : State} (ho : o = Z (s.g r)) : exec (.clause d r n) s =
    if o % 2 ≠ 0 then trap .align (u64 o) s
    else if o < hndEnd s.me.part ∨ 0x6000 < o + 2 * n then trap .poolRange (u64 o) s
    else sendClause (.clause d r n) (s.clauseFlit d n o) s done := by
  have hodd : (o : Int) % (2 : Nat) ≠ 0 ↔ o % 2 ≠ 0 := by omega
  have hout : ((o : Int) < 0 ∨ 0x6000 < (o : Int) + (2 * n : Nat) ∨ (o : Int) < hndEnd s.part) ↔
      (o < hndEnd s.me.part ∨ 0x6000 < o + 2 * n) := by
    rw [State.part]
    omega
  have hval : w64 (o : Int) = u64 o := BitVec.ofInt_natCast 64 o
  have he : exec (.clause d r n) s = execClause d r n s := rfl
  unfold execClause at he
  dsimp only at he
  rw [← ho, poolCheck_eq] at he
  simp only [hodd, hout, hval] at he
  rw [he]
  by_cases h1 : o % 2 ≠ 0
  · rw [if_pos h1, if_pos h1]
  rw [if_neg h1, if_neg h1]
  by_cases h2 : o < hndEnd s.me.part ∨ 0x6000 < o + 2 * n
  · rw [if_pos h2, if_pos h2]
  · rw [if_neg h2, if_neg h2]
    rfl

/-- R120, R271: a clause flit carries words of the pool and takes a request entry. -/
theorem clauseSends : Part.ClauseSends := by
  intro d r n o s hn ho hn10
  have he := exec_clause_eq (d := d) (n := n) ho
  by_cases h1 : o % 2 ≠ 0
  · rw [if_pos h1] at he ⊢
    exact he
  rw [if_neg h1] at he ⊢
  by_cases h2 : o < hndEnd s.me.part ∨ 0x6000 < o + 2 * n
  · rw [if_pos h2] at he ⊢
    exact he
  rw [if_neg h2] at he ⊢
  refine ⟨fun hfull => .of_block (he.trans (sendClause_full _ hfull)), fun e hentry =>
    ⟨fun hheld => .of_blockAside (he.trans (sendClause_held _ hentry hheld)), fun hfree => ?_⟩⟩
  have hflit := s.flitTo_low (s.g d) .clause n (wordAt (s.me.clauseBytes o n) 0) (wordAt (s.me.clauseBytes o n) 1)
    (wordAt (s.me.clauseBytes o n) 2) (wordAt (s.me.clauseBytes o n) 3) (wordAt (s.me.clauseBytes o n) 4)
  have hdst : (s.clauseFlit d n o).dst = Z (s.g d) % 2 ^ 20 := (congrArg Flit.dst hflit :)
  have heff := effect_clauseSent s (f := s.clauseFlit d n o) rfl e
  rw [hdst] at heff
  obtain ⟨t, ht, hsent⟩ := runs_sent hn (he.trans (sendClause_free _ hentry hfree)) heff hflit
  refine ⟨t, ht, _, _, hsent, rfl, fun i hi => ?_⟩
  rw [payload_words (s.me.length_clauseBytes o hn10) rfl rfl rfl rfl rfl, Core.getD_clauseBytes]

end Sys2Proof.Machine
end

section
/-! PROOF. Mailboxes (R124): binding, unbinding, and the choice of the bounce mailbox. -/

namespace Sys2Proof.Machine

/-! ### Binding -/

theorem exec_mbind (d h : Nat) (s : State) : exec (.mbind d h) s = execMbind d h s := rfl

/-- R124: the checks of the bind word of a mailbox, whose entries are of 32 bytes. -/
theorem bindCheck_mailbox (p gd : Word) {v b l : Nat} (hv : v = Z gd) (hb : b = v % 2 ^ 16) (hl : l = v / 2 ^ 16 % 2 ^ 8) :
    bindCheck p gd true =
      if 2 ^ 26 ≤ v ∨ 10 < l ∨ v / 2 ^ 24 % 4 ≠ 3 then some (.illegal, u64 v)
      else if b % 32 ≠ 0 then some (.align, u64 b)
      else if b < hndEnd p ∨ 0x6000 < b + 32 * 2 ^ l then some (.poolRange, u64 b)
      else none := by
  subst hv
  have hbase : bits (Z gd) 0 16 = b := by rw [hb, bits_zero_eq_mod]
  have hlen : bits (Z gd) 16 8 = l := hl.symm
  have hsize : bits (Z gd) 24 2 = Z gd / 2 ^ 24 % 4 := rfl
  have hwide : (Z gd / 2 ^ 26 ≠ 0 ∨ 10 < l) ↔ (2 ^ 26 ≤ Z gd ∨ 10 < l) := by omega
  unfold bindCheck
  simp only [hbase, hlen, hsize, hwide, true_and]
  by_cases h1 : 2 ^ 26 ≤ Z gd ∨ 10 < l
  · rw [if_pos h1, if_pos (c := 2 ^ 26 ≤ Z gd ∨ 10 < l ∨ _) (h1.imp_right .inl)]
  rw [if_neg h1]
  by_cases h2 : Z gd / 2 ^ 24 % 4 ≠ 3
  · rw [if_pos h2, if_pos (c := 2 ^ 26 ≤ Z gd ∨ 10 < l ∨ _) (.inr (.inr h2))]
  rw [if_neg h2, if_neg (c := 2 ^ 26 ≤ Z gd ∨ 10 < l ∨ _) (by tauto), not_not.1 h2]
  have hrange : inPool p b (4 * 2 ^ 3 * 2 ^ l) = false ↔ b < hndEnd p ∨ 0x6000 < b + 32 * 2 ^ l := by
    rw [inPool, decide_eq_false_iff_not]
    omega
  simp only [hrange]
  rfl

/-- R124: the record that an accepted bind word makes. -/
theorem bindRecord_mailbox (gd : Word) {v b l : Nat} (hv : v = Z gd) (hb : b = v % 2 ^ 16) (hl : l = v / 2 ^ 16 % 2 ^ 8)
    (h : v / 2 ^ 24 % 4 = 3) : bindRecord gd true = ⟨true, true, 3, b, l, 0, 0, 0⟩ := by
  subst hv
  have hbase : bits (Z gd) 0 16 = b := by rw [hb, bits_zero_eq_mod]
  have hlen : bits (Z gd) 16 8 = l := hl.symm
  have hsize : bits (Z gd) 24 2 = 3 := h
  rw [bindRecord, hbase, hlen, hsize]

/-- An unbound mailbox is the bounce mailbox no longer. -/
theorem runs_unbind {i : Instr} {s : State} {h : Nat} (hn : s.next ≠ END)
    (he : exec i s = done (s.setMe { s.me.setHandle h Handle.empty with bmbx := if s.me.bmbx = some h then none else s.me.bmbx })) :
    Runs i s fun t => t.me.handle h = Handle.empty ∧ t.me.bmbx = (if s.me.bmbx = some h then none else s.me.bmbx) ∧
      (∀ j, j ≠ h → t.me.handle j = s.me.handle j) ∧
      Went s { s.me with handles := t.me.handles, bmbx := t.me.bmbx } s.slot [] [] s.next s t := by
  obtain ⟨t, ht, hw, -⟩ := Sets.of_setMe hn he rfl
  have hcore := hw.2.2.1
  have hhs : t.me.handles = (s.me.setHandle h Handle.empty).handles := by rw [hcore]
  have hbm : t.me.bmbx = if s.me.bmbx = some h then none else s.me.bmbx := by rw [hcore]
  have hh (j : Nat) : t.me.handle j = if j = h then Handle.empty else s.me.handle j := by
    rw [Core.handle, hhs, Core.handle_setHandle]
  refine ⟨t, ht, by rw [hh, if_pos rfl], hbm, fun j hj => by rw [hh, if_neg hj], ?_⟩
  rw [hhs, hbm]
  exact hw

/-! ### The bounce mailbox -/

theorem exec_bnc (d h : Nat) (s : State) : exec (.bnc d h) s =
    if s.g d = 0xFFFFFFFF#32 then doneWr (s.setMe { s.me with bmbx := none }) d ((s.me.bmbx.map u32).getD 0xFFFFFFFF#32)
    else if (s.me.handle h).bnd = false ∨ (s.me.handle h).mbx = false then trap .prot (u64 h) s
    else doneWr (s.setMe { s.me with bmbx := some h }) d ((s.me.bmbx.map u32).getD 0xFFFFFFFF#32) := by
  refine (show exec (.bnc d h) s = execBnc d h s from rfl).trans ?_
  unfold execBnc
  dsimp only
  cases s.me.bmbx <;> rfl

/-- A form that writes the former bounce mailbox and sets another. -/
theorem runs_setBounce {i : Instr} {s : State} {d : Nat} {b : Option Nat} {v : Word} (hn : s.next ≠ END)
    (he : exec i s = doneWr (s.setMe { s.me with bmbx := b }) d v) :
    Runs i s fun t => t.g d = v ∧ Went s { s.me with bmbx := b } s.slot [d] [] s.next s t :=
  (Runs.of_setMe_doneWr hn he rfl).mono fun _ ⟨hv, hw, _⟩ => ⟨hv, hw⟩

/-- R124: `mbind` and `bnc`. -/
theorem mailboxes : Part.Mailboxes := by
  rintro d h s x v b l hn rfl hv hb hl
  refine ⟨?_, ?_⟩
  · have he := exec_mbind d h s
    unfold execMbind at he
    dsimp only at he
    rw [bindCheck_mailbox s.part (s.g d) hv hb hl] at he
    by_cases h1 : (s.me.handle h).bnd = true ∧ (s.me.handle h).mbx = false
    · rw [if_pos h1] at he ⊢
      exact he
    rw [if_neg h1] at he ⊢
    by_cases h2 : s.g d = 0xFFFFFFFF#32
    · rw [if_pos h2] at he ⊢
      exact runs_unbind hn he
    rw [if_neg h2] at he ⊢
    by_cases h3 : 2 ^ 26 ≤ v ∨ 10 < l ∨ v / 2 ^ 24 % 4 ≠ 3
    · rw [if_pos h3] at he ⊢
      exact he
    rw [if_neg h3] at he ⊢
    by_cases h4 : b % 32 ≠ 0
    · rw [if_pos h4] at he ⊢
      exact he
    rw [if_neg h4] at he ⊢
    by_cases h5 : b < hndEnd s.me.part ∨ 0x6000 < b + 32 * 2 ^ l
    · rw [if_pos h5]
      exact he.trans (by rw [State.part, if_pos h5])
    rw [if_neg h5, ← bindRecord_mailbox (s.g d) hv hb hl (by tauto)]
    exact .of_setHandle hn (he.trans (by rw [State.part, if_neg h5])) rfl
  · have he := exec_bnc d h s
    dsimp only
    by_cases h1 : s.g d = 0xFFFFFFFF#32
    · rw [if_pos h1] at he ⊢
      exact runs_setBounce hn he
    rw [if_neg h1] at he ⊢
    by_cases h2 : (s.me.handle h).bnd = false ∨ (s.me.handle h).mbx = false
    · rw [if_pos h2] at he ⊢
      exact he
    · rw [if_neg h2] at he ⊢
      exact runs_setBounce hn he

/-- Settles O10: a form takes its trap, waits, or leaves its flit in flight; a mailbox by its bind word. -/
theorem messageForms : Obligations.MessageForms := ⟨messageSends, headerSend, clauseSends, mailboxes⟩

end Sys2Proof.Machine
end

section
/-! PROOF. The variable records of the pool: the checks of R139, in their order. -/

namespace Sys2Proof.Machine

/-! ### The slots that a form names or reads -/

/-- The slots of a record of n slots that a form checks: slot i of a slot form, and every slot of `belief` (R139). -/
def readSlots (b : Option Nat) (i n : Nat) : List Nat := if b.isSome then [i] else List.range n

theorem mem_readSlots (b : Option Nat) (i n k : Nat) : k ∈ readSlots b i n ↔ if b.isSome = true then k = i else k < n := by
  cases b <;> simp [readSlots]

/-- The first slot with a property is the one that is found. -/
theorem find?_readSlots {b : Option Nat} {i n k : Nat} {p : Nat → Bool} (hk : k ∈ readSlots b i n) (hp : p k = true)
    (hfirst : ∀ j, j < k → j ∈ readSlots b i n → p j = false) : (readSlots b i n).find? p = some k := by
  cases b with
  | some v =>
    obtain rfl := List.mem_singleton.1 hk
    exact List.find?_cons_of_pos hp
  | none =>
    have hn := List.mem_range.1 hk
    refine List.find?_range_eq_some.2 ⟨hp, hk, fun j hj => ?_⟩
    rw [hfirst j hj (List.mem_range.2 (hj.trans hn))]
    rfl

/-! ### The checks -/

theorem Core.ld_eq (c : Core) (o n : Nat) : c.ld o n = leNat (Map.getList 0 c.pool o n) := rfl

theorem inPool_eq_false (part : Word) (a m : Nat) : inPool part a m = false ↔ a < hndEnd part ∨ 0x6000 < a + m := by
  rw [inPool, decide_eq_false_iff_not]
  omega

theorem any_outside (part : Word) (l : List Nat) (f : Nat → Nat) :
    l.any (fun k => !inPool part (f k) 16) = true ↔ ∃ k, k ∈ l ∧ (f k < hndEnd part ∨ 0x6000 < f k + 16) := by
  rw [List.any_eq_true]
  simp only [Bool.not_eq_true', inPool_eq_false]

/-- R139: the checks over the fields SBASE, SCNT and VFLG of the record. -/
theorem recordCheck_eq (part : Word) (c : Core) (o : Nat) (b : Option Nat) {sb n fl i : Nat} (hsb : sb = c.ld (o + 0x14) 2)
    (hn : n = c.ld (o + 0x16) 2) (hfl : fl = c.ld (o + 0x1C) 4) (hi : i = b.getD 0 % 2 ^ 16) :
    recordCheck part c o b =
      if o % 32 ≠ 0 then some (.align, u64 o)
      else if o < hndEnd part ∨ 0x6000 < o + 32 then some (.poolRange, u64 o)
      else if sb % 16 ≠ 0 then some (.align, u64 o)
      else if 0x6000 < sb + 16 * n ∨ ∃ k, k ∈ readSlots b i n ∧ (sb + 16 * k < hndEnd part ∨ 0x6000 < sb + 16 * k + 16) then
        some (.poolRange, u64 o)
      else if fl % 2 = 0 then some (.slot, u64 (2 ^ 32 + o))
      else if 4 ≤ fl then some (.slot, u64 (2 * 2 ^ 32 + o))
      else if b.isSome = true ∧ n ≤ i then some (.slot, u64 (3 * 2 ^ 32 + i))
      else match (readSlots b i n).find? fun k => c.ld (sb + 16 * k + 12) 4 / 2 ^ 24 % 2 ^ 7 != 0 with
        | some k => some (.slot, u64 (4 * 2 ^ 32 + (sb + 16 * k)))
        | none => if b.getD 0 / 2 ^ 24 % 2 ^ 8 = 0 then none else some (.slot, u64 (5 * 2 ^ 32 + b.getD 0)) := by
  subst hsb hn hfl
  have hhigh : bits (c.vflg o) 2 30 ≠ 0 ↔ 4 ≤ c.ld (o + 0x1C) 4 := by
    have hlt := c.ld_lt (o + 0x1C) 4
    rw [bits, Core.vflg]
    omega
  unfold recordCheck
  simp only [bits_zero_eq_mod, hhigh, inPool_eq_false, ← hi, any_outside, Nat.one_mul, ite_not, Nat.pow_one] <;> rfl

/-- R139: each failed check has its trap, in the order of the rule. -/
theorem recordChecks : Part.RecordChecks := by
  intro part c o b
  dsimp only
  simp only [← mem_readSlots, ← Core.ld_eq]
  have he := recordCheck_eq part c o b rfl rfl rfl rfl
  refine ⟨fun h => by rw [he, if_pos h], fun h1 h => ?_, fun h1 h2 h => ?_, fun h1 h2 h3 h => ?_, fun h1 h2 h3 h4 => ?_⟩
  · rw [he, if_neg (not_not.2 h1), if_pos h]
  · rw [he, if_neg (not_not.2 h1), if_neg h2, if_pos h]
  · rw [he, if_neg (not_not.2 h1), if_neg h2, if_neg (not_not.2 h3), if_pos h]
  rw [if_neg (not_not.2 h1), if_neg h2, if_neg (not_not.2 h3), if_neg h4] at he
  refine ⟨fun h5 => by rw [he, if_pos h5], fun h5 h6 => ?_, fun h5 h6 h7 h8 => ?_, fun h5 h6 h7 => ?_⟩
  · rw [he, if_neg (by omega), if_pos h6]
  · rw [he, if_neg (by omega), if_neg (by omega), if_pos ⟨h7, h8⟩]
  rw [if_neg (by omega), if_neg (by omega), if_neg fun h => Nat.not_le.2 (h7 h.1) h.2] at he
  refine ⟨fun k hk ho hf => ?_, fun h => ?_⟩
  · rw [he, find?_readSlots (p := fun k => c.ld (c.ld (o + 0x14) 2 + 16 * k + 12) 4 / 2 ^ 24 % 2 ^ 7 != 0) hk
      (bne_iff_ne.2 ho) fun j hj hm => bne_eq_false_iff_eq.2 (not_not.1 (hf j hj hm))]
  · rw [he, List.find?_eq_none.2 fun k hk => by simpa using h k hk]

end Sys2Proof.Machine
end

section
/-! PROOF. The slot forms (R139 to R144): the words of a record that a form reads and writes, and the status it leaves. -/

namespace Sys2Proof.Machine

/-! ### Words of the pool -/

theorem poolWord_congr {p q : Map Byte} {o : Nat} (h : ∀ a, o ≤ a → a < o + 4 → Map.get 0 q a = Map.get 0 p a) : poolWord q o = poolWord p o := by
  rw [poolWord, poolWord, Map.getList_congr 0 4 h]

theorem Core.poolWord_stw_self (c : Core) (o : Nat) (v : Word) : poolWord (c.stw o v).pool o = v := by
  have hlen : (leBytes v.toNat 4).length = 4 := length_leBytes _ 4
  have hget := Map.getList_setList 0 (leBytes v.toNat 4) c.pool o
  rw [hlen] at hget
  rw [poolWord, Core.stw, Core.st, hget, leNat_leBytes4 v.isLt, u32_toNat]

/-- A byte that a stored word does not cover. -/
theorem Core.get_stw_ne (c : Core) {o a : Nat} (v : Word) (h : a < o ∨ o + 4 ≤ a) :
    Map.get 0 (c.stw o v).pool a = Map.get 0 c.pool a := by
  rw [Core.stw, Core.st, Map.get_setList, length_leBytes, if_neg (by omega)]

theorem Core.poolWord_stw_ne (c : Core) {o a : Nat} (v : Word) (h : a + 4 ≤ o ∨ o + 4 ≤ a) :
    poolWord (c.stw o v).pool a = poolWord c.pool a :=
  poolWord_congr fun _ _ _ => c.get_stw_ne v (by omega)

theorem Core.ldw_eq (c : Core) (o : Nat) : c.ldw o = poolWord c.pool o := rfl

/-- Of a core only the pool's bytes changed. -/
def OnlyBytes (c e : Core) : Prop := e = { c with pool := e.pool }

theorem OnlyBytes.refl (c : Core) : OnlyBytes c c := rfl

theorem OnlyBytes.stw {c e : Core} (h : OnlyBytes c e) (o : Nat) (v : Word) : OnlyBytes c (e.stw o v) := by
  unfold OnlyBytes at *
  rw [h]
  rfl

theorem OnlyBytes.full_eq {c e : Core} (h : OnlyBytes c e) : e.full = c.full := by rw [h]

theorem OnlyBytes.setFulls_eq {c e : Core} (h : OnlyBytes c e) (o : Nat) (b : Bool) (k : Nat) :
    e.setFulls o b k = { c with pool := (e.setFulls o b k).pool, full := (e.setFulls o b k).full } := by
  rw [h]
  rfl

/-- A bit of a word of the pool. -/
theorem Core.bits_ld_one (c : Core) (o : Nat) {i : Nat} (h : i < 32) : bits (c.ld o 4) i 1 = 1 ↔ (poolWord c.pool o).getLsbD i = true := by
  change _ ↔ (u32 (c.ld o 4)).getLsbD i = true
  rw [u32, BitVec.getLsbD_ofNat, decide_eq_true h, Bool.true_and, Nat.testBit_eq_decide_div_mod_eq, decide_eq_true_iff]
  rfl

/-! ### The fields of a slot -/

theorem Core.retired_eq (c : Core) (p : Nat) : c.retired p = (poolWord c.pool (p + 12)).getLsbD 31 :=
  Bool.eq_iff_iff.2 (beq_iff_eq.trans (c.bits_ld_one (p + 12) (by decide)))

theorem Core.epoch_eq (c : Core) (p : Nat) : c.epoch p = Z (poolWord c.pool (p + 12)) / 2 ^ 16 % 2 ^ 8 :=
  congrArg (bits · 16 8) (c.Z_ldw (p + 12)).symm

theorem Core.version_eq (c : Core) (p : Nat) : c.ld (p + 8) 4 = Z (poolWord c.pool (p + 8)) := (c.Z_ldw (p + 8)).symm

/-! ### The shape of a slot form -/

theorem slotForm_trap {d n o : Nat} {f : Nat → Nat → Nat → State → Out} {s : State} {c : Cause} {v : DWord} (hacc : s.accepts 1 = true)
    (ho : o = Z (s.g n)) (h : recordCheck s.me.part s.me o (some (Z (s.g (d + 3)))) = some (c, v)) : slotForm d n f s = trap c v s := by
  subst ho
  refine (inGroup_of_accepts hacc).trans ?_
  dsimp only
  rw [State.part, h]

theorem slotForm_run {d n o q b : Nat} {f : Nat → Nat → Nat → State → Out} {s : State} (hacc : s.accepts 1 = true) (ho : o = Z (s.g n))
    (hb : b = Z (s.g (d + 3))) (hq : q = leNat (Map.getList 0 s.me.pool (o + 0x14) 2) + 16 * (b % 2 ^ 16))
    (h : recordCheck s.me.part s.me o (some b) = none) : slotForm d n f s = f o q (b / 2 ^ 16 % 2 ^ 8) s := by
  subst ho hb hq
  refine (inGroup_of_accepts hacc).trans ?_
  dsimp only
  rw [State.part, h, bits_zero_eq_mod]
  rfl

/-! ### The status of a slot form -/

theorem Effect.noFlags {m : State} {c : Core} {x : Slot} {ds as : List Nat} {s u : State} (h : Effect m c x ds as s u) :
    Effect m c { x with fst := x.fst ||| u32 (0 % 32) } ds as s u := by
  have hx : x.fst ||| u32 (0 % 32) = x.fst := BitVec.or_zero
  rwa [hx]

theorem Effect.status {i : Instr} {p : Map Byte} {f : Map Bool} {d st fl : Nat} {s u : State}
    (h : Effect s { s.me with pool := p, full := f } { s.slot with fst := s.slot.fst ||| u32 (fl % 32) } [d + 3] [] s u) (hn : s.next ≠ END)
    (he : exec i s = doneSt u d st) : Runs i s (WentStatus p f (d + 3) st fl s) :=
  ((h.wr (List.mem_singleton_self _) (u32 st)).runs hn he).mono fun t ⟨hw, _, _, hg, _⟩ =>
    ⟨by rw [hg, State.g_wr, if_pos rfl], hw, hw.1.memory⟩

/-- A slot form that leaves its status alone. -/
theorem Runs.of_doneSt {i : Instr} {d st : Nat} {s : State} (hn : s.next ≠ END) (he : exec i s = doneSt s d st) :
    Runs i s (WentStatus s.me.pool s.me.full (d + 3) st 0 s) :=
  (Effect.refl [d + 3] [] s).noFlags.status hn he

theorem effect_pool {s : State} {c : Core} {f : Map Bool} (ds : List Nat) (hc : c = { s.me with pool := c.pool, full := f }) :
    Effect s { s.me with pool := c.pool, full := f } s.slot ds [] s (s.setMe c) :=
  (congrArg (Effect s · s.slot ds [] s (s.setMe c)) hc).mp ((Effect.refl ds [] s).setMe (congrArg Core.slots hc :))

/-- A slot form that changes the pool and its full bits. -/
theorem Runs.of_setMe_doneSt {i : Instr} {d st : Nat} {s : State} {c : Core} {f : Map Bool} (hn : s.next ≠ END)
    (hc : c = { s.me with pool := c.pool, full := f }) (he : exec i s = doneSt (s.setMe c) d st) : Runs i s (WentStatus c.pool f (d + 3) st 0 s) :=
  (effect_pool _ hc).noFlags.status hn he

/-- A slot form that changes the pool and its full bits by rounded steps. -/
theorem Runs.of_flags_doneSt {i : Instr} {d st fl : Nat} {s : State} {c : Core} {f : Map Bool} (hn : s.next ≠ END) (hs : s.issue.slot < 4)
    (hc : c = { s.me with pool := c.pool, full := f }) (he : exec i s = doneSt ((s.setMe c).flags fl) d st) :
    Runs i s (WentStatus c.pool f (d + 3) st fl s) :=
  ((effect_pool _ hc).flags fl hs).status hn he

end Sys2Proof.Machine
end

section
/-! PROOF. Delivery to a slot, reading, retiring and activating it (R139 to R144). -/

namespace Sys2Proof.Machine

/-! ### Delivery (R140, R141) -/

theorem exec_slput (d n : Nat) (s : State) : exec (.slput d n) s = execSlput d n s := rfl

/-- R141: the core with a message written to the slot at p and the belief of the record at o moved. -/
def Core.delivered (c : Core) (o p : Nat) (bl bh l h v : Word) : Core :=
  ((((c.stw (o + 8) bl).stw (o + 12) bh).stw p l).stw (p + 4) h).stw (p + 8) v

theorem Core.onlyBytes_delivered (c : Core) (o p : Nat) (bl bh l h v : Word) : OnlyBytes c (c.delivered o p bl bh l h v) :=
  (((((OnlyBytes.refl c).stw (o + 8) bl).stw (o + 12) bh).stw p l).stw (p + 4) h).stw (p + 8) v

/-- What a delivery leaves in the pool, of a slot apart from the record. -/
theorem Core.delivered_words (c : Core) {o p : Nat} (bl bh l h v : Word) (hp : o + 32 ≤ p ∨ p + 16 ≤ o) :
    poolWord (c.delivered o p bl bh l h v).pool (o + 8) = bl ∧ poolWord (c.delivered o p bl bh l h v).pool (o + 12) = bh ∧
      poolWord (c.delivered o p bl bh l h v).pool p = l ∧ poolWord (c.delivered o p bl bh l h v).pool (p + 4) = h ∧
      poolWord (c.delivered o p bl bh l h v).pool (p + 8) = v := by
  unfold Core.delivered
  refine ⟨?_, ?_, ?_, ?_, ?_⟩ <;> simp (disch := omega) only [Core.poolWord_stw_self, Core.poolWord_stw_ne]

theorem Core.delivered_get (c : Core) {o p a : Nat} (bl bh l h v : Word) (ho : a < o + 8 ∨ o + 16 ≤ a) (hp : a < p ∨ p + 12 ≤ a) :
    Map.get 0 (c.delivered o p bl bh l h v).pool a = Map.get 0 c.pool a := by
  unfold Core.delivered
  simp (disch := omega) only [Core.get_stw_ne]

/-- R141: the rounded steps of a delivery, over the words that the record and the slot held. -/
theorem Core.slput_eq (c : Core) (o p : Nat) (l h v : Word) {m : Word × Word × Nat} {dl dh bl bh : Word × Nat}
    (hm : m = if (poolWord c.pool (o + 0x1C)).getLsbD 1 = true ∧ poolWord c.pool (p + 8) ≠ 0 then
      damped (poolWord c.pool (o + 0x10)) l h (poolWord c.pool p) (poolWord c.pool (p + 4)) else (l, h, 0))
    (hdl : dl = fSub .ne m.1 (poolWord c.pool p)) (hdh : dh = fSub .ne m.2.1 (poolWord c.pool (p + 4)))
    (hbl : bl = fAdd .ne (poolWord c.pool (o + 8)) dl.1) (hbh : bh = fAdd .ne (poolWord c.pool (o + 12)) dh.1) :
    c.slput o p l h v = ((c.delivered o p bl.1 bh.1 m.1 m.2.1 v).setFulls p true 4, m.2.2 ||| dl.2 ||| dh.2 ||| bl.2 ||| bh.2) := by
  subst hdl hdh hbl hbh
  unfold Core.slput
  simp (disch := omega) only [Core.vflg, c.bits_ld_one (o + 0x1C) (i := 1) (by decide), Core.ldw_eq, ← hm, Core.poolWord_stw_ne]
  rfl

/-- R139 to R141: late messages by status, and the others delivered. -/
theorem slotDelivery : Part.SlotDelivery := by
  rintro d n o q s b w hn hs hacc ho hb rfl hq
  refine ⟨fun c v h => (slotForm_trap hacc ho (hb ▸ h) : execSlput d n s = _), fun h hp => ?_⟩
  have he := (exec_slput d n s).trans (slotForm_run hacc ho hb hq h)
  dsimp only at he ⊢
  rw [Core.retired_eq, Core.epoch_eq, Core.version_eq] at he
  by_cases h1 : (poolWord s.me.pool (q + 12)).getLsbD 31 = true
  · rw [if_pos h1] at he ⊢
    exact .of_setMe_doneWr hn he rfl
  rw [if_neg h1] at he ⊢
  by_cases h2 : Z (poolWord s.me.pool (q + 12)) / 2 ^ 16 % 2 ^ 8 ≠ b / 2 ^ 16 % 2 ^ 8
  · rw [if_pos h2] at he ⊢
    exact .of_setMe_doneWr hn he rfl
  rw [if_neg h2] at he ⊢
  by_cases h3 : Z (s.g (d + 2)) ≤ Z (poolWord s.me.pool (q + 8))
  · rw [if_pos h3] at he ⊢
    exact .of_doneSt hn he
  rw [if_neg h3] at he ⊢
  intro m dl dh bl bh hm hdl hdh hbl hbh
  rw [s.me.slput_eq o q _ _ _ hm hdl hdh hbl hbh] at he
  have hbytes := s.me.onlyBytes_delivered o q bl.1 bh.1 m.1 m.2.1 (s.g (d + 2))
  obtain ⟨hbelow, habove, hlow, hhigh, hver⟩ := s.me.delivered_words bl.1 bh.1 m.1 m.2.1 (s.g (d + 2)) hp
  refine (Runs.of_flags_doneSt hn hs (hbytes.setFulls_eq q true 4) he).mono fun t ht =>
    ⟨_, _, ht, hbelow, habove, hlow, hhigh, hver, fun a => s.me.delivered_get bl.1 bh.1 m.1 m.2.1 (s.g (d + 2)), fun k => ?_⟩
  rw [Core.get_setFulls, hbytes.full_eq]

/-! ### Reading, retiring and activating (R142 to R144) -/

theorem exec_slget (d n : Nat) (s : State) : exec (.slget d n) s = execSlget d n s := rfl
theorem exec_slret (d n : Nat) (s : State) : exec (.slret d n) s = execSlret d n s := rfl
theorem exec_slnew (d n : Nat) (s : State) : exec (.slnew d n) s = execSlnew d n s := rfl

/-- R142: the status of a slot in use whose epoch is the one asked for is 0. -/
theorem slotStatus_eq_zero (rtd : Bool) (ep e : Nat) : (if rtd = true then 2 else if ep ≠ e then 3 else 0) = 0 ↔ rtd = false ∧ ep = e := by
  cases rtd <;> by_cases h : ep = e <;> simp [h]

/-- R142: `slget` of a slot that has a version to give, or a status. -/
theorem runs_slget {d n p st : Nat} {s : State} (hn : s.next ≠ END)
    (he : exec (.slget d n) s = done (s.wrs d [s.me.ldw p, s.me.ldw (p + 4), s.me.ldw (p + 8), u32 st])) : Runs (.slget d n) s fun t =>
    Completed [d, d + 1, d + 2, d + 3] [] s.next s t ∧ t.g d = poolWord s.me.pool p ∧ t.g (d + 1) = poolWord s.me.pool (p + 4) ∧
      t.g (d + 2) = poolWord s.me.pool (p + 8) ∧ t.g (d + 3) = u32 st := by
  obtain ⟨t, ht, hc, hg⟩ := done_wrs s (n := d) (vs := [s.me.ldw p, s.me.ldw (p + 4), s.me.ldw (p + 8), u32 st])
    (ds := [d, d + 1, d + 2, d + 3]) hn fun i hi => by
      have hi : i < 4 := hi
      interval_cases i <;> simp
  exact ⟨t, he.trans ht, hc, hg 0 (by simp), hg 1 (by simp), hg 2 (by simp), hg 3 (by simp)⟩

/-- R143: the core with the slot at p retired and the belief of the record at o moved. -/
def Core.retiredAt (c : Core) (o p : Nat) (bl bh : Word) : Core :=
  ((c.stw (o + 8) bl).stw (o + 12) bh).stw (p + 12) (poolWord c.pool (p + 12) ||| 0x80000000#32)

/-- R143: the rounded steps of a retirement, of a slot apart from the record. -/
theorem Core.slret_eq (c : Core) {o p : Nat} (hp : o + 32 ≤ p ∨ p + 16 ≤ o) {bl bh : Word × Nat}
    (hbl : bl = fSub .ne (poolWord c.pool (o + 8)) (poolWord c.pool p))
    (hbh : bh = fSub .ne (poolWord c.pool (o + 12)) (poolWord c.pool (p + 4))) :
    c.slret o p = (c.retiredAt o p bl.1 bh.1, bl.2 ||| bh.2) := by
  subst hbl hbh
  unfold Core.slret
  simp (disch := omega) only [Core.ldw_eq, Core.poolWord_stw_ne]
  rfl

theorem Core.retiredAt_words (c : Core) {o p : Nat} (bl bh : Word) (hp : o + 32 ≤ p ∨ p + 16 ≤ o) :
    poolWord (c.retiredAt o p bl bh).pool (o + 8) = bl ∧ poolWord (c.retiredAt o p bl bh).pool (o + 12) = bh ∧
      poolWord (c.retiredAt o p bl bh).pool (p + 12) = poolWord c.pool (p + 12) ||| 0x80000000#32 := by
  unfold Core.retiredAt
  refine ⟨?_, ?_, ?_⟩ <;> simp (disch := omega) only [Core.poolWord_stw_self, Core.poolWord_stw_ne]

theorem Core.retiredAt_get (c : Core) {o p a : Nat} (bl bh : Word) (ho : a < o + 8 ∨ o + 16 ≤ a) (hp : a < p + 12 ∨ p + 16 ≤ a) :
    Map.get 0 (c.retiredAt o p bl bh).pool a = Map.get 0 c.pool a := by
  unfold Core.retiredAt
  simp (disch := omega) only [Core.get_stw_ne]

/-- R45: the retired mark alone is set. -/
theorem bitSet_signMask (w : Word) : BitSet w (w ||| 0x80000000#32) 31 true := by
  intro j hj
  rw [BitVec.getLsbD_or, getLsbD_signMask hj]
  by_cases h : j = 31 <;> simp [h]

/-- R144: the core with the slot at p activated, its SST as `sst`. -/
def Core.activated (c : Core) (p : Nat) (sst : Word) : Core := (((c.stw p 0).stw (p + 4) 0).stw (p + 8) 0).stw (p + 12) sst

theorem Core.activated_words (c : Core) (p : Nat) (sst : Word) :
    poolWord (c.activated p sst).pool p = 0 ∧ poolWord (c.activated p sst).pool (p + 4) = 0 ∧
      poolWord (c.activated p sst).pool (p + 8) = 0 ∧ poolWord (c.activated p sst).pool (p + 12) = sst := by
  unfold Core.activated
  refine ⟨?_, ?_, ?_, ?_⟩ <;> simp (disch := omega) only [Core.poolWord_stw_self, Core.poolWord_stw_ne]

theorem Core.activated_get (c : Core) {p a : Nat} (sst : Word) (hp : a < p ∨ p + 16 ≤ a) :
    Map.get 0 (c.activated p sst).pool a = Map.get 0 c.pool a := by
  unfold Core.activated
  simp (disch := omega) only [Core.get_stw_ne]

theorem Core.onlyBytes_retiredAt (c : Core) (o p : Nat) (bl bh : Word) : OnlyBytes c (c.retiredAt o p bl bh) :=
  (((OnlyBytes.refl c).stw (o + 8) bl).stw (o + 12) bh).stw (p + 12) _

theorem Core.onlyBytes_activated (c : Core) (p : Nat) (sst : Word) : OnlyBytes c (c.activated p sst) :=
  ((((OnlyBytes.refl c).stw p 0).stw (p + 4) 0).stw (p + 8) 0).stw (p + 12) sst

/-- R139, R142 to R144: the forms after the checks, each by the slot's state, epoch and version. -/
theorem slotForms : Part.SlotForms := by
  rintro d n o q s b e w hn hs hacc ho hb rfl rfl hq
  refine ⟨fun c v h => ⟨(slotForm_trap hacc ho (hb ▸ h) : execSlget d n s = _), (slotForm_trap hacc ho (hb ▸ h) : execSlret d n s = _),
    (slotForm_trap hacc ho (hb ▸ h) : execSlnew d n s = _)⟩, ?_⟩
  rintro h hp rtd ep hrtd hep
  have hget := (exec_slget d n s).trans (slotForm_run hacc ho hb hq h)
  have hret := (exec_slret d n s).trans (slotForm_run hacc ho hb hq h)
  have hnew := (exec_slnew d n s).trans (slotForm_run hacc ho hb hq h)
  dsimp only at hget hret hnew
  rw [Core.retired_eq, Core.epoch_eq, ← hrtd, ← hep] at hget hret hnew
  rw [Core.version_eq] at hget
  refine ⟨fun hg => ?_, fun h1 h2 h3 => ?_, ?_, ?_⟩
  · have hready : ¬ ((if rtd = true then 2 else if ep ≠ b / 2 ^ 16 % 2 ^ 8 then 3 else 0) = 0 ∧
        Z (poolWord s.me.pool (q + 8)) < Z (s.g (d + 2))) := by
      rw [slotStatus_eq_zero]
      rintro ⟨⟨h1, h2⟩, hver⟩
      exact hg.elim (Bool.eq_false_iff.1 h1) fun hg => hg.elim (absurd h2) (Nat.not_le.2 hver)
    refine (runs_slget hn (hget.trans (if_neg hready))).mono fun t ⟨hc, h0, h1, h2, h3⟩ => ⟨hc, h0, h1, h2, h3.trans ?_⟩
    simp only [apply_ite u32]
    rfl
  · exact .of_block (hget.trans (if_pos ⟨(slotStatus_eq_zero ..).2 ⟨h1, h2⟩, h3⟩))
  · by_cases h1 : rtd = true
    · rw [if_pos h1] at hret ⊢
      exact .of_doneSt hn hret
    rw [if_neg h1] at hret ⊢
    by_cases h2 : ep ≠ b / 2 ^ 16 % 2 ^ 8
    · rw [if_pos h2] at hret ⊢
      exact .of_doneSt hn hret
    rw [if_neg h2] at hret ⊢
    intro bl bh hbl hbh
    rw [s.me.slret_eq hp hbl hbh] at hret
    obtain ⟨hbelow, habove, hsst⟩ := s.me.retiredAt_words bl.1 bh.1 hp
    exact (Runs.of_flags_doneSt hn hs (s.me.onlyBytes_retiredAt o q bl.1 bh.1) hret).mono fun t ht =>
      ⟨_, ht, hbelow, habove, hsst ▸ bitSet_signMask _, fun a => s.me.retiredAt_get bl.1 bh.1⟩
  · by_cases h1 : rtd = false
    · rw [if_pos h1] at hnew ⊢
      exact .of_doneSt hn hnew
    rw [if_neg h1] at hnew ⊢
    by_cases h2 : ep = b / 2 ^ 16 % 2 ^ 8
    · rw [if_pos h2] at hnew ⊢
      exact .of_doneSt hn hnew
    rw [if_neg h2] at hnew ⊢
    obtain ⟨h0, h4, h8, h12⟩ := s.me.activated_words q (u32 (b / 2 ^ 16 % 2 ^ 8 * 2 ^ 16 + Z (s.g (d + 2)) % 2 ^ 16))
    exact (Runs.of_setMe_doneSt hn (s.me.onlyBytes_activated q _) hnew).mono fun t ht =>
      ⟨_, ht, h0, h4, h8, (congrArg Z h12).trans (Z_u32 (by omega)), fun a => s.me.activated_get _⟩

end Sys2Proof.Machine
end

section
/-! PROOF. The belief of a record summed again (R145). -/

namespace Sys2Proof.Machine

/-! ### What the sum writes -/

/-- Of the pool at most the belief of the record at o changed. -/
def OnlyBelief (o : Nat) (c e : Core) : Prop :=
  OnlyBytes c e ∧ ∀ a, (a < o + 8 ∨ o + 16 ≤ a) → Map.get 0 e.pool a = Map.get 0 c.pool a

theorem OnlyBelief.refl (o : Nat) (c : Core) : OnlyBelief o c c := ⟨.refl c, fun _ _ => rfl⟩

/-- A belief stored. -/
theorem OnlyBelief.store {o : Nat} {c e : Core} (h : OnlyBelief o c e) (bl bh : Word) :
    OnlyBelief o c ((e.stw (o + 8) bl).stw (o + 12) bh) := by
  refine ⟨(h.1.stw _ bl).stw _ bh, fun a ha => ?_⟩
  rw [Core.get_stw_ne _ bh (by omega), Core.get_stw_ne _ bl (by omega), h.2 a ha]

theorem OnlyBelief.word {o a : Nat} {c e : Core} (h : OnlyBelief o c e) (ha : a + 4 ≤ o + 8 ∨ o + 16 ≤ a) :
    poolWord e.pool a = poolWord c.pool a := poolWord_congr fun b _ _ => h.2 b (by omega)

theorem OnlyBelief.slotOff {o : Nat} {c e : Core} (h : OnlyBelief o c e) (i : Nat) : e.slotOff o i = c.slotOff o i := by
  rw [Core.slotOff, Core.sbase, Core.ld_eq, Map.getList_congr 0 2 fun a _ _ => h.2 a (by omega)]
  rfl

/-! ### One slot after another -/

theorem Core.addSlots_retired (c : Core) (o fl i : Nat) (is : List Nat) (h : c.retired (c.slotOff o i) = true) :
    c.addSlots o fl (i :: is) = c.addSlots o fl is := if_pos h

theorem Core.addSlots_live (c : Core) (o fl i : Nat) (is : List Nat) (h : ¬ c.retired (c.slotOff o i) = true) {l r : Word × Nat}
    (hl : l = fAdd .ne (poolWord c.pool (o + 8)) (poolWord c.pool (c.slotOff o i)))
    (hr : r = fAdd .ne (poolWord (c.stw (o + 8) l.1).pool (o + 12)) (poolWord (c.stw (o + 8) l.1).pool (c.slotOff o i + 4))) :
    c.addSlots o fl (i :: is) = ((c.stw (o + 8) l.1).stw (o + 12) r.1).addSlots o (fl ||| l.2 ||| r.2) is := by
  subst hr hl
  exact if_neg h

theorem Core.onlyBelief_addSlots (c e : Core) (o fl : Nat) (is : List Nat) (h : OnlyBelief o c e) : OnlyBelief o c (e.addSlots o fl is).1 := by
  induction is generalizing e fl with
  | nil => exact h
  | cons i is ih =>
    by_cases hi : e.retired (e.slotOff o i) = true
    · rw [e.addSlots_retired o fl i is hi]
      exact ih e fl h
    · rw [e.addSlots_live o fl i is hi rfl rfl]
      exact ih _ _ (h.store _ _)

/-- R145: from the running sum before slot k, the slots that are left add up to the sum of all. -/
theorem Core.addSlots_sum (c : Core) {o n : Nat} (hapart : ∀ i, i < n → o + 32 ≤ c.slotOff o i ∨ c.slotOff o i + 16 ≤ o)
    {sum : Nat → Word × Word × Nat}
    (hsum : ∀ i, sum (i + 1) = if (poolWord c.pool (c.slotOff o i + 12)).getLsbD 31 = true then sum i
      else ((fAdd .ne (sum i).1 (poolWord c.pool (c.slotOff o i))).1, (fAdd .ne (sum i).2.1 (poolWord c.pool (c.slotOff o i + 4))).1,
        (sum i).2.2 ||| (fAdd .ne (sum i).1 (poolWord c.pool (c.slotOff o i))).2 |||
          (fAdd .ne (sum i).2.1 (poolWord c.pool (c.slotOff o i + 4))).2))
    {m k fl : Nat} {e : Core} (hk : k + m = n) (he : OnlyBelief o c e) (hbl : poolWord e.pool (o + 8) = (sum k).1)
    (hbh : poolWord e.pool (o + 12) = (sum k).2.1) (hfl : fl = (sum k).2.2) :
    poolWord (e.addSlots o fl (List.range' k m)).1.pool (o + 8) = (sum n).1 ∧
      poolWord (e.addSlots o fl (List.range' k m)).1.pool (o + 12) = (sum n).2.1 ∧ (e.addSlots o fl (List.range' k m)).2 = (sum n).2.2 := by
  induction m generalizing k fl e with
  | zero => exact hk ▸ ⟨hbl, hbh, hfl⟩
  | succ m ih =>
    have hp := hapart k (by omega)
    have hlow : poolWord e.pool (c.slotOff o k) = poolWord c.pool (c.slotOff o k) := he.word (by omega)
    have hhigh : poolWord e.pool (c.slotOff o k + 4) = poolWord c.pool (c.slotOff o k + 4) := he.word (by omega)
    have hsst : poolWord e.pool (c.slotOff o k + 12) = poolWord c.pool (c.slotOff o k + 12) := he.word (by omega)
    have hnext := hsum k
    rw [List.range'_succ]
    by_cases hret : (poolWord c.pool (c.slotOff o k + 12)).getLsbD 31 = true
    · rw [if_pos hret] at hnext
      rw [e.addSlots_retired o fl k _ (by rw [he.slotOff, Core.retired_eq, hsst, hret])]
      exact ih (by omega) he (hnext ▸ hbl) (hnext ▸ hbh) (hnext ▸ hfl)
    · rw [if_neg hret] at hnext
      rw [e.addSlots_live o fl k _ (by rwa [he.slotOff, Core.retired_eq, hsst]) rfl rfl, he.slotOff]
      simp (disch := omega) only [Core.poolWord_stw_ne, hlow, hhigh, hbl, hbh, hfl]
      refine ih (by omega) (he.store _ _) ?_ ?_ ?_ <;> rw [hnext]
      · simp (disch := omega) only [Core.poolWord_stw_ne, Core.poolWord_stw_self]
      · rw [Core.poolWord_stw_self]

/-! ### The form -/

/-- R145: before the slots, the belief is the prior. -/
def Core.prior (c : Core) (o : Nat) : Core := (c.stw (o + 8) (poolWord c.pool o)).stw (o + 12) (poolWord c.pool (o + 4))

theorem Core.onlyBelief_prior (c : Core) (o : Nat) : OnlyBelief o c (c.prior o) := (OnlyBelief.refl o c).store _ _

theorem Core.prior_words (c : Core) (o : Nat) :
    poolWord (c.prior o).pool (o + 8) = poolWord c.pool o ∧ poolWord (c.prior o).pool (o + 12) = poolWord c.pool (o + 4) := by
  unfold Core.prior
  refine ⟨?_, ?_⟩ <;> simp (disch := omega) only [Core.poolWord_stw_self, Core.poolWord_stw_ne]

/-- R145: the prior, the slots in order, and the version one more. -/
theorem Core.belief_eq (c : Core) (o : Nat) {r : Core × Nat} (hr : r = (c.prior o).addSlots o 0 (List.range' 0 (c.ld (o + 0x16) 2))) :
    c.belief o = (r.1.stw (o + 0x18) (poolWord c.pool (o + 0x18) + 1), r.2) := by
  have hver : poolWord r.1.pool (o + 0x18) = poolWord c.pool (o + 0x18) :=
    hr ▸ (c.onlyBelief_addSlots _ o 0 _ (c.onlyBelief_prior o)).word (by omega)
  subst hr
  rw [← hver, ← List.range_eq_range', Core.prior, ← c.poolWord_stw_ne (o := o + 8) (a := o + 4) (poolWord c.pool o) (by omega)]
  rfl

theorem belief_trap {d : Nat} {s : State} {c : Cause} {v : DWord} (hacc : s.accepts 1 = true)
    (h : recordCheck s.me.part s.me (Z (s.g d)) none = some (c, v)) : execBelief d s = trap c v s := by
  refine (inGroup_of_accepts hacc).trans ?_
  dsimp only
  rw [State.part, h]

theorem belief_run {d : Nat} {s : State} (hacc : s.accepts 1 = true) (h : recordCheck s.me.part s.me (Z (s.g d)) none = none) :
    execBelief d s = doneWr ((s.setMe (s.me.belief (Z (s.g d))).1).flags (s.me.belief (Z (s.g d))).2) d
      ((s.me.belief (Z (s.g d))).1.ldw (Z (s.g d) + 0x18)) := by
  refine (inGroup_of_accepts hacc).trans ?_
  dsimp only
  rw [State.part, h]

/-- A form that changes the pool by rounded steps and reads a word of it. -/
theorem Runs.of_flags_doneWr {i : Instr} {d fl : Nat} {v : Word} {s : State} {c : Core} (hn : s.next ≠ END) (hs : s.issue.slot < 4)
    (hc : OnlyBytes s.me c) (he : exec i s = doneWr ((s.setMe c).flags fl) d v) : Runs i s fun t => t.g d = v ∧
      Went s { s.me with pool := c.pool } { s.slot with fst := s.slot.fst ||| u32 (fl % 32) } [d] [] s.next s t ∧ SameMemory s t :=
  ((((effect_pool [d] hc).flags fl hs).wr (List.mem_singleton_self d) v).runs hn he).mono fun t ⟨hw, _, _, hg, _⟩ =>
    ⟨by rw [hg, State.g_wr, if_pos rfl], hw, hw.1.memory⟩

/-- R145: what `belief` leaves: the belief as the slots added up, and the version one more. -/
theorem runs_belief {d o : Nat} {s : State} {r : Core × Nat} (hn : s.next ≠ END) (hs : s.issue.slot < 4) (hacc : s.accepts 1 = true)
    (ho : o = Z (s.g d)) (h : recordCheck s.me.part s.me o none = none)
    (hr : r = (s.me.prior o).addSlots o 0 (List.range' 0 (s.me.ld (o + 0x16) 2))) : Runs (.belief d) s fun t => ∃ p,
      t.g d = poolWord s.me.pool (o + 0x18) + 1 ∧
      Went s { s.me with pool := p } { s.slot with fst := s.slot.fst ||| u32 (r.2 % 32) } [d] [] s.next s t ∧ SameMemory s t ∧
      poolWord p (o + 8) = poolWord r.1.pool (o + 8) ∧ poolWord p (o + 12) = poolWord r.1.pool (o + 12) ∧
      poolWord p (o + 0x18) = poolWord s.me.pool (o + 0x18) + 1 ∧
      ∀ a, (a < o + 8 ∨ o + 16 ≤ a) → (a < o + 0x18 ∨ o + 0x1C ≤ a) → Map.get 0 p a = Map.get 0 s.me.pool a := by
  have hbelief : OnlyBelief o s.me r.1 := hr ▸ s.me.onlyBelief_addSlots _ o 0 _ (s.me.onlyBelief_prior o)
  have he : exec (.belief d) s = _ := belief_run hacc (ho ▸ h)
  rw [← ho, s.me.belief_eq o hr, Core.ldw_eq, Core.poolWord_stw_self] at he
  refine (Runs.of_flags_doneWr hn hs (hbelief.1.stw _ _) he).mono fun t ⟨hv, hw, hm⟩ =>
    ⟨_, hv, hw, hm, Core.poolWord_stw_ne _ _ (by omega), Core.poolWord_stw_ne _ _ (by omega), Core.poolWord_stw_self .., fun a h1 h2 => ?_⟩
  rw [Core.get_stw_ne _ _ h2, hbelief.2 a h1]

/-- R139, R145: the trap of the record's checks, or the belief and version written. -/
theorem beliefSum : Part.BeliefSum := by
  rintro d o s w q hn hs hacc ho rfl rfl
  refine ⟨fun c v h => (belief_trap hacc (ho ▸ h) : execBelief d s = _), fun h => ?_, fun h hapart sum h0 hsum r hr => ?_⟩
  · refine (runs_belief hn hs hacc ho h rfl).mono fun t ⟨p, hv, hw, hm, _, _, hver, hframe⟩ =>
      ⟨p, _, hw, rfl, hm, hv.trans hver.symm, hframe⟩
  · obtain ⟨hlow, hhigh⟩ := s.me.prior_words o
    obtain ⟨hbl, hbh, hfl⟩ := s.me.addSlots_sum hapart hsum (k := 0) (Nat.zero_add _) (s.me.onlyBelief_prior o) (hlow.trans (by rw [h0]))
      (hhigh.trans (by rw [h0])) (fl := 0) (by rw [h0])
    refine (runs_belief hn hs hacc ho h rfl).mono fun t ⟨p, hv, hw, hm, h8, h12, hver, hframe⟩ =>
      ⟨p, hv, ?_, hm, h8.trans (hbl.trans (by rw [hr])), h12.trans (hbh.trans (by rw [hr])), hver, hframe⟩
    rw [hr, ← hfl]
    exact hw

/-- Settles O17: the checks in their order, then the form by the state of its slot, or the live slots summed in order. -/
theorem slots : Obligations.Slots := ⟨recordChecks, slotDelivery, slotForms, beliefSum⟩

end Sys2Proof.Machine
end

section
/-! PROOF. A `spawn` on another core (R164, R208): its request, and which requests the sender counts. -/

namespace Sys2Proof.Machine

/-- The request of a `spawn` on another core, before its clock is stamped (R164). -/
def State.spawnFlit (s : State) (d p : Nat) (o : Int) : Flit :=
  { dst := Z (s.g d) % 2 ^ 20, src := s.issue.lid, kind := .system, pri := p, cls := 0, ksf := 0x100 + p, low := 0,
    w0 := w32 o, w1 := s.g 0, w2 := s.g 1, w3 := s.g 2, w4 := s.g 3 }

/-- The state in which a flit of the executing context, with a serial of its own, has been taken by the port. -/
def State.requested (s : State) (f : Flit) : State :=
  { s.inject s.issue.lid f (s.issue.slot * 16) s.serial with serial := s.serial + 1 }

/-- R164: a `spawn` on another core whose port takes a flit sends its request and waits for the reply. -/
theorem exec_spawn_elsewhere {d n p : Nat} {s : State} {o : Int} (ho : o = ((s.a n).toNat : Int) - s.image.toNat)
    (heven : (s.a n).toNat % 2 = 0) (h0 : 0 ≤ o) (h32 : o < 2 ^ 32) (hother : Z (s.g d) % 2 ^ 20 ≠ s.issue.lid)
    (hport : PortFree s s.issue.lid true) :
    exec (.spawn d n p) s = .next ((s.requested (s.spawnFlit d p o)).waiting false true true (.spawn d n p)) := by
  show execSpawn d n p s = _
  unfold execSpawn
  dsimp only
  rw [bits_zero_eq_mod, ← ho, if_neg (by omega), if_neg (by omega), if_neg hother, if_pos ((s.portOpen_iff _ _).2 hport)]
  rfl

/-- A flit that R208 does not count leaves its sender's CSENT as it was, also where the sender then waits. -/
theorem State.csent_requested (s : State) {f : Flit} (h : f.counted = false) (i : Instr) :
    ((s.requested f).waiting false true true i).me.csent = s.me.csent := by
  obtain ⟨b, w, hme, -⟩ := (s.requested f).me_waiting false true true i
  rw [hme]
  unfold State.requested State.inject
  rw [h]
  rfl

/-- The state at reset, with a context of core 1 as the executing one. -/
def resetOnCore1 : State := { State.reset with issue := { State.reset.issue with lid := 1 } }

theorem portFree_resetOnCore1 : PortFree resetOnCore1 resetOnCore1.issue.lid true := by
  refine ⟨by decide, fun _ => rfl, ?_⟩
  show 0 - Config.base0 < 2 ^ 32
  omega

/-- Refutes O12: its part `RemoteSpawn` puts no bound on the priority p of the form. With p = 512, which no word encodes (R164 has p below
4), the KSF 0x0100 + p names no counted system flit (R208): on core 1 a `spawn` to core 0 leaves CSENT at 0, where the statement has 1. -/
theorem not_spawning : ¬ Obligations.Spawning := by
  rintro ⟨-, ⟨hrequest, -⟩, -⟩
  obtain ⟨t, ht, -, -, hsent, -⟩ := hrequest 0 0 512 resetOnCore1 _ _ rfl rfl (by decide) (by decide) (by decide) (by decide)
    portFree_resetOnCore1
  have he := exec_spawn_elsewhere (d := 0) (n := 0) (p := 512) (s := resetOnCore1) rfl (by decide) (by decide) (by decide) (by decide)
    portFree_resetOnCore1
  cases ht.symm.trans he
  rw [State.csent_requested _ (by decide)] at hsent
  exact absurd hsent (by decide)

end Sys2Proof.Machine
end

section
/-! PROOF. The end of a task (R156, R157, R166) and of a core (R167, R175). -/

namespace Sys2Proof.Machine

/-! ### The end of a task -/

/-- A context whose task is the entry task (R157). -/
def Slot.onEntry (x : Slot) : Bool :=
  match x.task with
  | some t => t.origin == .entry
  | none => false

/-- A core of which context k has ended its task (R156, R157). -/
def Core.taskEnded (c : Core) (k : Nat) : Core :=
  { c.setSlot k (c.slot k).ended with entryOver := c.entryOver || (c.slot k).onEntry }

/-- The end of a task that no parameter node waits for changes its core alone. -/
theorem State.endTask_eq {s : State} {l k : Nat} (h : ∀ o, (s.slotAt l k).task = some o → ∀ m h b e, o.origin ≠ .update m h b e) :
    s.endTask l k = s.setCore l ((s.core l).taskEnded k) := by
  unfold State.endTask
  dsimp only
  split
  · next hk => exact absurd rfl (h _ hk _ _ _ _)
  · rfl

/-- What the end of the executing task leaves, as O13 says it. -/
def TaskOver (s t : State) : Prop :=
  SameModule s t ∧ SameCores s.issue.lid s t ∧ SameSlots s.issue.slot s.me t.me ∧
    t.slot.st = .free ∧ t.slot.task = none ∧ t.slot.wait = none ∧ t.slot.regs = s.slot.regs ∧ t.slot.aregs = s.slot.aregs ∧
    t.slot.stat = s.slot.stat ∧ t.slot.fst = s.slot.fst ∧ t.me = { s.me with slots := t.me.slots, entryOver := t.me.entryOver } ∧
    (∀ o, s.slot.task = some o → o.origin = .entry → t.me.entryOver = true)

/-- The executing context ends its task after a change of its progress alone. -/
theorem taskOver_endTask {s u : State} (hm : SameModule s u) (hcores : SameCores s.issue.lid s u) (hcore : OnlySlots s.me u.me)
    (hslots : SameSlots s.issue.slot s.me u.me)
    (hslot : u.slot = { s.slot with pc := u.slot.pc, wait := u.slot.wait, half := u.slot.half, stepDue := u.slot.stepDue })
    (h : ∀ o, s.slot.task = some o → ∀ m k b e, o.origin ≠ .update m k b e) :
    TaskOver s (u.endTask s.issue.lid s.issue.slot) := by
  have htask : u.slot.task = s.slot.task := by rw [hslot]
  rw [← hm.issue] at hcores hslots ⊢
  have hend : u.endTask u.issue.lid u.issue.slot = u.setMe (u.me.taskEnded u.issue.slot) :=
    State.endTask_eq (show ∀ o, u.slot.task = some o → _ by rwa [htask])
  have hctx : (u.setMe (u.me.taskEnded u.issue.slot)).slot = u.slot.ended := by
    rw [State.slot, State.me_setMe]
    exact Core.slot_setSlot_self u.me _ _
  rw [hend]
  unfold TaskOver
  rw [hctx, State.me_setMe, ← hm.issue]
  refine ⟨hm.trans rfl, fun j hj => (SameCores.setMe u _ j hj).trans (hcores j hj),
    fun j hj => (Core.slot_setSlot_ne u.me _ hj).trans (hslots j hj), rfl, rfl, rfl, ?_, ?_, ?_, ?_, ?_, fun o ho hentry => ?_⟩
  · rw [hslot]; rfl
  · rw [hslot]; rfl
  · rw [hslot]; rfl
  · rw [hslot]; rfl
  · unfold Core.taskEnded
    rw [hcore]
    rfl
  · rw [← htask] at ho
    have hon : u.slot.onEntry = true := by
      rw [Slot.onEntry, ho]
      simp [hentry]
    exact Bool.or_eq_true_iff.2 (.inr hon)

/-- A transfer of control to END ends the task (R156). -/
theorem taskOver_finish {s : State} (hslot : s.issue.slot < 4) (h : ∀ o, s.slot.task = some o → ∀ m k b e, o.origin ≠ .update m k b e) :
    TaskOver s (s.finish END) := by
  have hctx := s.slot_setSlot { s.slot with
    pc := END, wait := none, half := none, stepDue := if s.issue.stepping then some s.issue.start else none }
  unfold State.finish
  dsimp only
  rw [if_pos ⟨rfl, Nat.ne_of_lt hslot⟩]
  refine taskOver_endTask rfl (SameCores.setMe s _) ?_ ?_ (by rw [hctx]) h
  · rw [State.me_setSlot]; exact onlySlots_setSlot _ _ _
  · rw [State.me_setSlot]; exact sameSlots_setSlot _ _ _

theorem exec_done (s : State) : exec .done s = .next (s.endTask s.issue.lid s.issue.slot) := rfl
theorem exec_ret (s : State) : exec .ret s = jumpTo s (s.a 7) id := rfl
theorem exec_jr (n : Nat) (s : State) : exec (.jr n) s = jumpTo s (s.a n) id := rfl
theorem exec_exit (s : State) : exec .exit s =
    if s.coreSettled s.issue.lid then .next ((s.endTask s.issue.lid s.issue.slot).exitCore s.issue.lid) else block .exit s := rfl

/-- END is even, so that a transfer to it is taken (R49, R156). -/
theorem jumpTo_END {s : State} {a : DWord} (h : a = END) : jumpTo s a id = .next (s.finish END) := by
  rw [h]
  exact if_neg (by decide)

/-- R156, R157, R166: a task ends by `done` or by a transfer of control to END. -/
theorem taskEnd : Part.TaskEnd := by
  rintro n s hslot htask ended rfl
  have hend : TaskOver s (s.finish END) := taskOver_finish hslot htask
  refine ⟨⟨_, exec_done s, taskOver_endTask rfl (fun _ _ => rfl) rfl (fun _ _ => rfl) rfl htask⟩,
    fun h => ⟨_, (exec_ret s).trans (jumpTo_END h), hend⟩, fun h => ⟨_, (exec_jr n s).trans (jumpTo_END h), hend⟩⟩

/-! ### The end of a core -/

/-- A context once its core has exited (R167): a halted one stays (log entry 37). -/
def Slot.exited (x : Slot) : Slot := if x.st = .halted then x else { x.ended with sfail := [] }

/-- `exit` ends the tasks of the first n contexts and changes nothing else of the core. -/
theorem Core.foldl_exited (c : Core) (n : Nat) :
    let e := (List.range n).foldl (fun c k => if (c.slot k).st = .halted then c else c.setSlot k { (c.slot k).ended with sfail := [] }) c
    OnlySlots c e ∧ ∀ j, e.slot j = if j < n then (c.slot j).exited else c.slot j := by
  induction n with
  | zero => exact ⟨rfl, fun j => rfl⟩
  | succ n ih =>
    obtain ⟨honly, hslots⟩ := ih
    rw [List.range_succ, List.foldl_append, List.foldl_cons, List.foldl_nil]
    dsimp only at honly hslots ⊢
    generalize (List.range n).foldl _ c = e at honly hslots ⊢
    have hn : e.slot n = c.slot n := (hslots n).trans (if_neg (Nat.lt_irrefl n))
    rw [hn]
    by_cases hh : (c.slot n).st = .halted
    · rw [if_pos hh]
      refine ⟨honly, fun j => ?_⟩
      by_cases hj : j = n
      · rw [hj, hn, if_pos (Nat.lt_succ_self n), Slot.exited, if_pos hh]
      · rw [hslots]
        exact if_congr (by omega) rfl rfl
    · rw [if_neg hh]
      refine ⟨honly.trans (onlySlots_setSlot ..), fun j => ?_⟩
      rw [Core.slot_setSlot]
      by_cases hj : j = n
      · rw [if_pos hj, hj, if_pos (Nat.lt_succ_self n), Slot.exited, if_neg hh]
      · rw [if_neg hj, hslots]
        exact if_congr (by omega) rfl rfl

/-- An error bit that is set (R175), and those that were set before. -/
theorem getLsbD_errBit_self (w : Word) {i : Nat} (hi : i < 32) : (errBit w i).getLsbD i = true := by
  simp [errBit, hi]

theorem getLsbD_errBit_of {w : Word} (i : Nat) {j : Nat} (h : w.getLsbD j = true) : (errBit w i).getLsbD j = true := by
  rw [errBit, BitVec.getLsbD_or, h, Bool.true_or]

/-- DSTAT.ERR once the core has exited (R167, R175): bit 0 for work that it leaves, bit 2 for what it has lost. -/
def Core.exitErr (c : Core) : Word :=
  let e := if c.runq ≠ [] ∨ ∃ k ∈ List.range 4, (c.slot k).task.isSome ∧ (c.slot k).st = .ready then errBit c.derr 0 else c.derr
  if c.blost ≠ 0 ∨ ∃ k ∈ List.range 4, (c.slot k).sfail ≠ [] then errBit e 2 else e

theorem Core.exitErr_left {c : Core} (h : c.runq ≠ []) : c.exitErr.getLsbD 0 = true := by
  have hleft : (errBit c.derr 0).getLsbD 0 = true := getLsbD_errBit_self c.derr (by decide)
  unfold Core.exitErr
  dsimp only
  split
  · rw [if_pos (.inl h)]
    exact getLsbD_errBit_of 2 hleft
  · rw [if_pos (.inl h)]
    exact hleft

theorem Core.exitErr_lost {c : Core} (h : c.blost ≠ 0 ∨ ∃ k, k < 4 ∧ (c.slot k).sfail ≠ []) : c.exitErr.getLsbD 2 = true := by
  unfold Core.exitErr
  dsimp only
  rw [if_pos (h.imp_right fun ⟨k, hk, hf⟩ => ⟨k, List.mem_range.2 hk, hf⟩)]
  exact getLsbD_errBit_self _ (by decide)

/-- R167, R175: what `exit` makes of its core. -/
theorem Core.exitNow_spec (c : Core) : c.exitNow = { c with
    exited := true, runq := [], derr := c.exitErr, entryOver := true, slots := c.exitNow.slots } ∧
      ∀ k, k < 4 → c.exitNow.slot k = (c.slot k).exited := by
  obtain ⟨honly, hslots⟩ := Core.foldl_exited { c with exited := true, runq := [], derr := c.exitErr, entryOver := true } 4
  exact ⟨honly, fun k hk => (hslots k).trans (if_pos hk)⟩

/-- R175: the done record of a core that has exited. -/
theorem Core.doneRec_exitNow (c : Core) :
    c.exitNow.doneRec = ⟨Z c.exitNow.derr % 2 ^ 4, Z c.exitNow.dcode % 2 ^ 8, Z c.cvcnt, c.cvres, 1⟩ := by
  rw [Core.doneRec, bits_zero_eq_mod, c.exitNow_spec.1]
  rfl

theorem Core.index_exitNow (c : Core) : c.exitNow.index = c.index := by rw [c.exitNow_spec.1]

theorem Slot.exited_free {x : Slot} (h : x.st ≠ .halted) : x.exited.st = .free := by
  rw [Slot.exited, if_neg h]
  rfl

/-- R167, R174: `exit` changes its core, and where that runs a launch reports its done record there. -/
theorem State.exitCore_spec {s : State} {l : Nat} {c : Core} (hc : (s.core l).exitNow = c) :
    (s.exitCore l).issue = s.issue ∧ (s.exitCore l).core l = c ∧ SameCores l s (s.exitCore l) ∧ SameMemory s (s.exitCore l) ∧
    ∀ q la, c.queue = some q → (s.queue q).launch = some la →
      ((s.exitCore l).queue q).launch = some { la with coreDone := Map.set none la.coreDone c.index (some c.doneRec) } := by
  have hself : (s.setCore l c).core l = c := State.core_setCore_self ..
  have hcores : SameCores l s (s.setCore l c) := fun _ hj => State.core_setCore_ne s _ hj
  unfold State.exitCore
  rw [hc]
  dsimp only
  split
  · next hq => exact ⟨rfl, hself, hcores, fun _ => rfl, fun q la h => by rw [hq] at h; cases h⟩
  · next q hq =>
    split
    · next hla =>
      refine ⟨rfl, hself, hcores, fun _ => rfl, fun q' la h h' => ?_⟩
      cases hq.symm.trans h
      cases hla.symm.trans h'
    · next la hla =>
      refine ⟨rfl, hself, hcores, fun _ => rfl, fun q' la' h h' => ?_⟩
      cases hq.symm.trans h
      cases hla.symm.trans h'
      exact congrArg Queue.launch (State.queue_setQueue_self _ _ _)

/-- A task that ends leaves the collected failures of its context, and a context that is free or halted with it. -/
theorem Core.slot_taskEnded (c : Core) (k j : Nat) : (c.taskEnded k).slot j = if j = k then (c.slot k).ended else c.slot j :=
  Core.slot_setSlot c k j _

theorem Core.sfail_taskEnded (c : Core) (k j : Nat) : ((c.taskEnded k).slot j).sfail = (c.slot j).sfail := by
  rw [Core.slot_taskEnded]
  split
  · next h => rw [h]; rfl
  · rfl

/-- A context that is not halted is free once its task has ended and its core has exited. -/
theorem Core.exited_taskEnded (c : Core) (k : Nat) {j : Nat} (h : (c.slot j).st ≠ .halted) : ((c.taskEnded k).slot j).exited.st = .free := by
  rw [Core.slot_taskEnded]
  split
  · exact Slot.exited_free (by simp [Slot.ended])
  · exact Slot.exited_free h

/-- R167, R175: `exit` waits, or ends its core. -/
theorem coreExit : Part.CoreExit := by
  rintro s htask hslot -
  refine ⟨fun hsettled => ?_, fun hbusy => .of_block ((exec_exit s).trans (if_neg (by simp [hbusy])))⟩
  obtain ⟨hissue, hself, hother, hmem, hreport⟩ := State.exitCore_spec (s := s.setMe (s.me.taskEnded s.issue.slot)) (l := s.issue.lid)
    (congrArg Core.exitNow (s.me_setMe _))
  obtain ⟨hexit, hfreed⟩ := (s.me.taskEnded s.issue.slot).exitNow_spec
  have hexec := (exec_exit s).trans (if_pos hsettled)
  rw [State.endTask_eq (htask _ hslot)] at hexec
  change _ = Host.Outcome.next ((s.setMe (s.me.taskEnded s.issue.slot)).exitCore s.issue.lid) at hexec
  generalize (s.setMe (s.me.taskEnded s.issue.slot)).exitCore s.issue.lid = t at *
  have hme : t.me = (s.me.taskEnded s.issue.slot).exitNow := by rw [State.me, hissue]; exact hself
  have herr : t.me.derr = (s.me.taskEnded s.issue.slot).exitErr := by rw [hme, hexit]
  refine ⟨t, hexec, by rw [hme, hexit], by rw [hme, hexit], fun k hk hh => ?_, fun hq => ?_, by rw [hme, hexit]; rfl, by rw [hme, hexit]; rfl,
    by rw [hme, hexit]; rfl, fun hlost => ?_, fun q la hq hla => ?_, fun j hj => (hother j hj).trans (SameCores.setMe s _ j hj), hmem⟩
  · rw [hme, hfreed k hk]
    exact s.me.exited_taskEnded _ hh
  · rw [herr]
    exact Core.exitErr_left hq
  · rw [herr]
    exact Core.exitErr_lost (hlost.imp_right fun ⟨k, hk, hf⟩ => ⟨k, hk, by rwa [Core.sfail_taskEnded]⟩)
  · refine ⟨_, hreport q la (by rw [hexit]; exact hq) hla, ?_⟩
    rw [Core.doneRec_exitNow, Core.index_exitNow, hme]
    exact ⟨Map.get_set_self .., fun i hi => Map.get_set_ne _ _ _ hi⟩

/-- Settles O13: `done` and a transfer to END free the slot, `exit` waits for what is under way and leaves its done record. -/
theorem taskAndCoreEnd : Obligations.TaskAndCoreEnd := ⟨taskEnd, coreExit⟩

end Sys2Proof.Machine
end

section
/-! PROOF. Waiting for events and the priority of a task (R168, R169). -/

namespace Sys2Proof.Machine

theorem exec_waite (d : Nat) (s : State) : exec (.waite d) s = execWaite d s := rfl
theorem exec_pri (n : Nat) (s : State) : exec (.pri n) s = done (s.setSlot { s.slot with stat := setBits s.slot.stat 3 2 n }) := rfl

/-- R168: the bits of the events that hold. -/
theorem Core.testBit_events (c : Core) {ev : Nat → Bool}
    (h0 : ev 0 = c.inboxes.any fun h => countDiff (c.handle h).pub (c.handle h).head ≠ 0)
    (h1 : ev 1 = match c.bmbx with | some h => countDiff (c.handle h).pub (c.handle h).head ≠ 0 | none => false)
    (h2 : ev 2 = c.cut.complete) (i : Nat) : c.events.testBit i = (decide (i < 3) && ev i) := by
  have hready (h : Nat) : decide (1 ≤ (c.handle h).ready) = decide (countDiff (c.handle h).pub (c.handle h).head ≠ 0) := by
    rw [Handle.ready_eq]
    exact decide_eq_decide.2 Nat.one_le_iff_ne_zero
  have hevents : c.events = Nat.bit (ev 0) (Nat.bit (ev 1) (Nat.bit (ev 2) 0)) := by
    have hsum : c.events = (ev 0).toNat + 2 * (ev 1).toNat + 4 * (ev 2).toNat := by
      unfold Core.events
      simp only [hready]
      rw [h0, h1, h2] <;> rfl
    rw [hsum, Nat.bit_val, Nat.bit_val, Nat.bit_val]
    omega
  rw [hevents]
  match i with
  | 0 => exact Nat.testBit_bit_zero ..
  | 1 => rw [Nat.testBit_bit_succ, Nat.testBit_bit_zero]; rfl
  | 2 => rw [Nat.testBit_bit_succ, Nat.testBit_bit_succ, Nat.testBit_bit_zero]; rfl
  | i + 3 => rw [Nat.testBit_bit_succ, Nat.testBit_bit_succ, Nat.testBit_bit_succ, Nat.zero_testBit,
      decide_eq_false (by omega), Bool.false_and]

/-- R168, R169: `waite` and `pri`. -/
theorem eventWait : Part.EventWait := by
  rintro d n s m hn rfl ev h0 h1 h2
  have he := exec_waite d s
  have hbit (i : Nat) : (s.me.events &&& Z (s.g d)).testBit i = (decide (i < 3) && (Z (s.g d)).testBit i && ev i) := by
    rw [Nat.testBit_and, s.me.testBit_events h0 h1 h2, Bool.and_right_comm]
  unfold execWaite at he
  dsimp only at he
  refine ⟨fun hm => he.trans (if_pos hm), fun hm hm8 ⟨i, hi, hmi, hev⟩ => ?_, fun hm hm8 hno => ?_, fun hn4 => ?_⟩
  · have hany : s.me.events &&& Z (s.g d) ≠ 0 := fun h => by
      have := hbit i
      simp [h, hi, hmi, hev] at this
    rw [if_neg (by omega), if_neg hany] at he
    refine .of_doneWr hn he fun j hj => ?_
    rw [u32, BitVec.getLsbD_ofNat, hbit, decide_eq_true hj, Bool.true_and]
  · have hnone : s.me.events &&& Z (s.g d) = 0 := Nat.eq_of_testBit_eq fun i => by
      rw [hbit, Nat.zero_testBit]
      by_cases hi : i < 3 ∧ (Z (s.g d)).testBit i = true
      · rw [hno i hi.1 hi.2, Bool.and_false]
      · simp [hi]
    rw [if_neg (by omega), if_pos hnone] at he
    exact .of_block he
  · refine (Sets.of_setSlot hn (exec_pri n s) rfl rfl).mono fun t ht => ⟨_, fun i hi => ?_, ht⟩
    rw [getLsbD_setBits _ n hi]
    by_cases h3 : i = 3
    · rw [h3]; rfl
    · by_cases h4 : i = 4
      · rw [h4]; rfl
      · rw [if_neg (by omega), if_neg h3, if_neg h4]

end Sys2Proof.Machine
end

section
/-! PROOF. Graph nodes (R170 to R172): what a signal and an arming make of a node, and when it fires. -/

namespace Sys2Proof.Machine

/-! ### Nodes of a core -/

theorem Core.node_setNode (c : Core) (k j : Nat) (x : Node) : (c.setNode k x).node j = if j = k then x else c.node j :=
  Map.get_set Node.empty c.nodes k j x

@[simp] theorem Core.node_setNode_self (c : Core) (k : Nat) (x : Node) : (c.setNode k x).node k = x := by
  rw [Core.node_setNode, if_pos rfl]

theorem Core.node_setNode_ne (c : Core) {k j : Nat} (x : Node) (h : j ≠ k) : (c.setNode k x).node j = c.node j := by
  rw [Core.node_setNode, if_neg h]

theorem Core.queueFull_iff (c : Core) : c.queueFull = true ↔ 64 ≤ c.runq.length := decide_eq_true_iff

/-- What firing node k of a core does (R170): where it is armed with a count of at most 0 it is armed no longer, and its task enters the
queue, or the node is pending. -/
structure Fired (c : Core) (k : Nat) (e : Core) : Prop where
  core : e = { c with nodes := e.nodes, runq := e.runq }
  others : ∀ j, j ≠ k → e.node j = c.node j
  unfired : (c.node k).arm = false ∨ 0 < (c.node k).cnt → e.node k = c.node k ∧ e.runq = c.runq
  pending : (c.node k).arm = true → (c.node k).cnt ≤ 0 → 64 ≤ c.runq.length →
    e.node k = { c.node k with arm := false, pend := true } ∧ e.runq = c.runq
  queued : (c.node k).arm = true → (c.node k).cnt ≤ 0 → ¬64 ≤ c.runq.length →
    e.node k = { c.node k with arm := false } ∧ e.runq = c.runq ++ [(c.node k).entry]

theorem Core.fire_unfired {c : Core} {k : Nat} (h : (c.node k).arm = false ∨ 0 < (c.node k).cnt) : c.fire k = c := by
  refine if_neg fun hb => ?_
  simp only [Bool.and_eq_true, decide_eq_true_eq] at hb
  rcases h with h | h
  · rw [h] at hb
    exact Bool.false_ne_true hb.1
  · omega

theorem Core.fire_armed {c : Core} {k : Nat} (harm : (c.node k).arm = true) (hcnt : (c.node k).cnt ≤ 0) :
    c.fire k = if c.queueFull then c.setNode k { c.node k with arm := false, pend := true }
      else (c.setNode k { c.node k with arm := false }).enqueue (c.node k).entry :=
  if_pos (by rw [harm, decide_eq_true hcnt]; rfl)

theorem Core.fired_fire (c : Core) (k : Nat) : Fired c k (c.fire k) := by
  by_cases harmed : (c.node k).arm = false ∨ 0 < (c.node k).cnt
  · have hfire := Core.fire_unfired harmed
    refine ⟨by rw [hfire], fun j _ => by rw [hfire], fun _ => by rw [hfire]; exact ⟨rfl, rfl⟩, fun ha hc => ?_, fun ha hc => ?_⟩
    all_goals
      simp only [ha, Bool.true_eq_false, false_or] at harmed
      omega
  · have hnot := harmed
    rw [not_or, Bool.not_eq_false, Int.not_lt] at harmed
    have hfire := Core.fire_armed harmed.1 harmed.2
    by_cases hfull : 64 ≤ c.runq.length
    · rw [if_pos (c.queueFull_iff.2 hfull)] at hfire
      rw [hfire]
      exact ⟨rfl, fun j hj => c.node_setNode_ne _ hj, fun h => absurd h hnot, fun _ _ _ => ⟨c.node_setNode_self k _, rfl⟩,
        fun _ _ h => absurd hfull h⟩
    · rw [if_neg (fun h => hfull (c.queueFull_iff.1 h))] at hfire
      rw [hfire]
      exact ⟨rfl, fun j hj => c.node_setNode_ne _ hj, fun h => absurd h hnot, fun _ _ h => absurd h hfull,
        fun _ _ _ => ⟨c.node_setNode_self k _, rfl⟩⟩

theorem Core.signal_eq (c : Core) (k : Nat) :
    c.signal k = (c.setNode k { c.node k with cnt := max ((c.node k).cnt - 1) (-32768) }).fire k := rfl

theorem Core.slots_signal (c : Core) (k : Nat) : (c.signal k).slots = c.slots := by
  rw [c.signal_eq, (Core.fired_fire _ k).core]
  rfl

/-- R172: the count of a signalled node, and what becomes of its task. -/
theorem nodeSignalled (e : Core) (x : Node) (j : Nat) (cnt : Int) (hx : x = e.node j) (hcnt : cnt = max (x.cnt - 1) (-32768)) :
    ((e.signal j).node j).cnt = cnt ∧ (∀ i, i ≠ j → (e.signal j).node i = e.node i) ∧
    (x.arm = false ∨ 0 < cnt → (e.signal j).runq = e.runq ∧ ((e.signal j).node j).arm = x.arm) ∧
    (x.arm = true → cnt ≤ 0 → ((e.signal j).node j).arm = false ∧
      if 64 ≤ e.runq.length then ((e.signal j).node j).pend = true ∧ (e.signal j).runq = e.runq
      else ∃ q, (e.signal j).runq = e.runq ++ [q] ∧ q.start = x.start ∧ q.args = x.words ∧ q.level = x.prio) := by
  have hfired := Core.fired_fire (e.setNode j { x with cnt := cnt }) j
  have hsignal : (e.setNode j { x with cnt := cnt }).fire j = e.signal j := by rw [hcnt, hx]; rfl
  rw [hsignal] at hfired
  obtain ⟨-, hothers, hunfired, hpending, hqueued⟩ := hfired
  rw [Core.node_setNode_self] at hunfired hpending hqueued
  refine ⟨?_, fun i hi => (hothers i hi).trans (e.node_setNode_ne _ hi), fun h => ?_, fun harm hle => ?_⟩
  · by_cases hun : x.arm = false ∨ 0 < cnt
    · rw [(hunfired hun).1]
    · rw [not_or, Bool.not_eq_false, Int.not_lt] at hun
      by_cases hfull : 64 ≤ e.runq.length
      · rw [(hpending hun.1 hun.2 hfull).1]
      · rw [(hqueued hun.1 hun.2 hfull).1]
  · obtain ⟨hnode, hrunq⟩ := hunfired h
    exact ⟨hrunq, by rw [hnode]⟩
  · by_cases hfull : 64 ≤ e.runq.length
    · obtain ⟨hnode, hrunq⟩ := hpending harm hle hfull
      rw [if_pos hfull, hnode]
      exact ⟨rfl, rfl, hrunq⟩
    · obtain ⟨hnode, hrunq⟩ := hqueued harm hle hfull
      rw [if_neg hfull, hnode]
      exact ⟨rfl, _, hrunq, rfl, rfl, rfl⟩

/-! ### The forms -/

theorem capturesArgs_argWords (s : State) : CapturesArgs s (argWords (s.g 0) (s.g 1) (s.g 2) (s.g 3)) := by
  intro i hi
  rw [get_argWords _ _ _ _ hi]
  match i with
  | 0 | 1 | 2 | 3 => rfl

/-- The node that an arming makes (R171). -/
def State.armedNode (s : State) (n v : Nat) (cnt : Int) : Node :=
  { arm := true, cnt := cnt, pend := false, start := s.a n, words := argWords (s.g 0) (s.g 1) (s.g 2) (s.g 3), prio := v / 2 ^ 16 % 4 }

/-- `node` where its operand and its address are right: the node is in use, or it is armed and fires at once where it may (R171). -/
theorem exec_node {d n k v : Nat} {s : State} {cnt : Int} (hv : v = Z (s.g d)) (hk : k = v % 32)
    (hcnt : cnt = max ((s.me.node k).cnt + (v / 2 ^ 8 % 2 ^ 8 : Nat)) (-32768)) (hrest : ¬(bits v 5 3 ≠ 0 ∨ bits v 18 14 ≠ 0))
    (ha : (s.a n).toNat % 2 = 0) : exec (.node d n) s =
    if (s.me.node k).arm || (s.me.node k).pend then doneWr s d 1
    else doneWr (s.setMe ((s.me.setNode k (s.armedNode n v cnt)).fire k)) d 0 := by
  have hk5 : bits v 0 5 = k := by rw [bits_zero_eq_mod, hk]; rfl
  subst hcnt hv
  show execNode d n s = _
  unfold execNode
  dsimp only
  rw [hk5, if_neg hrest, if_neg (by omega)]
  rfl

/-- R170, R171: `node`. -/
theorem nodeArming : Part.NodeArming := by
  rintro d n k s v x hn hv hk rfl
  have hlt : v < 2 ^ 32 := hv ▸ Z_lt _
  have hbits : bits v 5 3 ≠ 0 ∨ bits v 18 14 ≠ 0 ↔ v / 2 ^ 5 % 8 ≠ 0 ∨ 2 ^ 18 ≤ v := by
    unfold bits
    omega
  have hform : exec (.node d n) s = execNode d n s := rfl
  unfold execNode at hform
  dsimp only at hform
  rw [← hv] at hform
  refine ⟨fun h => hform.trans (if_pos (hbits.2 h)), fun h5 h18 ha => ?_, fun h5 h18 ha => ?_⟩
  · exact hform.trans ((if_neg (by rw [hbits]; omega)).trans (if_pos ha))
  · refine ⟨fun huse => ?_, fun harm hpend cnt hcnt => ?_⟩
    · have he := exec_node (n := n) hv hk rfl (by rw [hbits]; omega) ha
      rw [if_pos (by rcases huse with h | h <;> simp [h])] at he
      exact .of_doneWr hn he rfl
    · have he := exec_node (n := n) hv hk hcnt (by rw [hbits]; omega) ha
      rw [if_neg (by simp [harm, hpend])] at he
      obtain ⟨hcore, hothers, hunfired, hpending, hqueued⟩ := Core.fired_fire (s.me.setNode k (s.armedNode n v cnt)) k
      rw [Core.node_setNode_self] at hunfired hpending hqueued
      have hargs := capturesArgs_argWords s
      refine (Runs.of_setMe_doneWr hn he (by rw [hcore]; rfl)).mono fun t ⟨hd, ⟨_, hcores, hme, _⟩, hmem⟩ => ?_
      have hnode (j : Nat) : t.me.node j = ((s.me.setNode k (s.armedNode n v cnt)).fire k).node j := by rw [hme]; rfl
      have hrunq : t.me.runq = ((s.me.setNode k (s.armedNode n v cnt)).fire k).runq := by rw [hme]
      refine ⟨hd, hcores, hmem, fun j hj => (hnode j).trans ((hothers j hj).trans (s.me.node_setNode_ne _ hj)), ?_⟩
      rw [hnode, hrunq]
      by_cases hpos : 0 < cnt
      · obtain ⟨hk', hq⟩ := hunfired (.inr hpos)
        rw [hk', hq, if_pos hpos]
        exact ⟨rfl, rfl, hargs, rfl, rfl, rfl⟩
      rw [if_neg hpos]
      by_cases hfull : 64 ≤ s.me.runq.length
      · obtain ⟨hk', hq⟩ := hpending rfl (Int.not_lt.1 hpos) hfull
        rw [hk', hq, if_pos hfull]
        exact ⟨rfl, rfl, hargs, rfl, rfl, rfl, rfl⟩
      · obtain ⟨hk', hq⟩ := hqueued rfl (Int.not_lt.1 hpos) hfull
        rw [hk', hq, if_neg hfull]
        exact ⟨rfl, rfl, hargs, rfl, rfl, rfl, _, rfl, rfl, rfl, rfl, hargs⟩

theorem exec_sig (d : Nat) (s : State) : exec (.sig d) s = execSig d s := rfl

theorem exec_sigDelivery {f : Flit} {s : State} (hk : f.kind = .system) (hcls : f.cls = 0) (hksf : f.ksf / 256 = 2) :
    exec (.sigDelivery f) s = arrive f (fun _ => none) plainBounce
      (fun s _ => (s.hear f).setCore f.dst (((s.hear f).core f.dst).signal (f.ksf % 32))) s :=
  whenOn_true (by rw [hk, hcls, hksf]; rfl)

/-- A signal to another core is counted (R208). -/
theorem Flit.counted_of_signal {f : Flit} (hk : f.kind = .system) (hcls : f.cls = 0) (hksf : f.ksf / 256 = 2) : f.counted = true := by
  unfold Flit.counted countedKind
  rw [hk, hcls, show f.ksf / 2 ^ 8 = 2 from hksf]
  rfl

/-- R170, R172, R191: `sig` and its flit. -/
theorem nodeSignals : Part.NodeSignals := by
  rintro s d v n c hn hv hnode hcore
  have hlt : v < 2 ^ 32 := hv ▸ Z_lt _
  have hbits : bits v 20 7 = v / 2 ^ 20 % 2 ^ 7 ∧ bits v 27 5 = n ∧ bits v 0 20 = c := by
    unfold bits
    omega
  have he := exec_sig d s
  unfold execSig at he
  dsimp only at he
  rw [← hv, hbits.1, hbits.2.1, hbits.2.2] at he
  refine ⟨fun h => he.trans (if_pos h), fun h hc => ?_, fun h hc hfree => ?_, ?_, nodeSignalled⟩
  · rw [if_neg (not_not.2 h), if_pos hc] at he
    exact (Sets.of_setMe hn he (s.me.slots_signal n)).mono fun t ⟨hw, _⟩ => hw
  · rw [if_neg (not_not.2 h), if_neg hc] at he
    have hksf : (0x200 + n) / 256 = 2 := by omega
    have hdst : Z (u32 c) % 2 ^ 20 = c := by rw [Z_u32 (by omega)]; omega
    have hflit := s.flitTo_low (u32 c) .system (0x200 + n) 0 0 0 0 0
    rw [hdst] at hflit
    exact (sends_or_waits hn (Flit.counted_of_signal rfl rfl hksf) he hflit).1 hfree
  · rintro x f rfl hk hcls hksf hx hfate hcut hstay hclk
    obtain ⟨hleft, hheard⟩ := left_hear (x := x) (Flit.counted_of_signal hk hcls hksf) hclk
    refine ⟨_, (exec_sigDelivery hk hcls hksf).trans (arrive_taken hx (State.arrivalHeld_eq_false hstay) hcut hfate rfl),
      (hleft.setCore _).landed ?_⟩
    rw [State.core_setCore_self, hheard]
    rfl

/-- Settles O14: `waite` by the bits of the events that hold; arming and signals by what firing a node does. -/
theorem eventsAndNodes : Obligations.EventsAndNodes := ⟨eventWait, nodeArming, nodeSignals⟩

end Sys2Proof.Machine
end

section
/-! PROOF. Convergence windows (R177): the queue's registers after one window and after all that are complete. -/

namespace Sys2Proof.Machine

/-! ### The placed launch of a queue -/

theorem State.launch_of_placed {s : State} {q : Nat} {la : Launch} (h : s.placed q = some la) :
    (s.queue q).launch = some la ∧ la.phase = .placed := by
  unfold State.placed at h
  split at h
  · next lb hlb =>
    split at h
    · next hp =>
      cases h
      exact ⟨hlb, hp⟩
    · cases h
  · cases h

theorem State.placed_of_launch {s : State} {q : Nat} {la : Launch} (h : (s.queue q).launch = some la) (hp : la.phase = .placed) :
    s.placed q = some la := by
  unfold State.placed
  rw [h]
  exact if_pos hp

/-! ### Complete windows -/

/-- A window is put among the open ones in the order of their distances `d`. -/
def insertWindow (d : Nat → Nat) (ws : List Nat) (w : Nat) : List Nat :=
  if w ∈ ws then ws else (ws.takeWhile fun v => d v < d w) ++ w :: (ws.dropWhile fun v => d v < d w)

theorem mem_of_mem_insertWindow {d : Nat → Nat} {ws : List Nat} {v w : Nat} (h : v ∈ insertWindow d ws w) : v = w ∨ v ∈ ws := by
  unfold insertWindow at h
  split at h
  · exact .inr h
  · rcases List.mem_append.1 h with h | h
    · exact .inr ((List.takeWhile_sublist _).mem h)
    · exact (List.mem_cons.1 h).imp_right (List.dropWhile_sublist _).mem

theorem mem_of_mem_foldl_insertWindow {d : Nat → Nat} {v : Nat} (xs : List Nat) : ∀ ws : List Nat,
    v ∈ xs.foldl (insertWindow d) ws → v ∈ xs ∨ v ∈ ws := by
  induction xs with
  | nil => exact fun _ h => .inr h
  | cons x xs ih =>
    intro ws h
    rcases ih _ h with h | h
    · exact .inl (List.mem_cons_of_mem x h)
    · exact (mem_of_mem_insertWindow h).imp_left fun hx => List.mem_cons.2 (.inl hx)

/-- Some core has closed a window that is complete. -/
theorem Launch.closed_of_window {la : Launch} {last : Word} {w : Nat} (h : la.window last = some w) : ∃ c ∈ la.closed, c.win = w := by
  rcases mem_of_mem_foldl_insertWindow (d := fun w => (u32 w - last - 1).toNat) _ _ (List.mem_of_find?_eq_some h) with h | h
  · exact List.mem_map.1 h
  · cases h

/-- A launch of which a window has been taken. -/
def Launch.without (la : Launch) (w : Nat) : Launch := { la with closed := la.closed.filter fun c => c.win != w }

theorem Launch.length_without {la : Launch} {last : Word} {w : Nat} (h : la.window last = some w) :
    (la.without w).closed.length < la.closed.length := by
  obtain ⟨c, hc, hw⟩ := la.closed_of_window h
  exact List.length_filter_lt_length_iff_exists.2 ⟨c, hc, by simp [hw]⟩

/-! ### Windows taken -/

/-- On the way from `s` to `u` windows of queue q's launch went to its registers: the launch changed in its closed windows alone, and the
queue in its launch and its convergence registers. -/
structure Took (q : Nat) (la lb : Launch) (s u : State) : Prop where
  state : u = { s with queues := u.queues }
  queue : u.queue q = { s.queue q with
    lcvres := (u.queue q).lcvres, lcvcnt := (u.queue q).lcvcnt, lcvwin := (u.queue q).lcvwin, run := (u.queue q).run,
    stl := (u.queue q).stl, launch := some lb }
  launch : lb = { la with closed := lb.closed }

theorem State.took_takeWindow (s : State) (q : Nat) (la : Launch) (w : Nat) : Took q la (la.without w) s (s.takeWindow q la w) := by
  refine ⟨rfl, ?_, rfl⟩
  unfold State.takeWindow
  dsimp only
  rw [State.queue_setQueue_self]
  rfl

theorem Took.trans {q : Nat} {la lb lc : Launch} {s u v : State} (h : Took q la lb s u) (h' : Took q lb lc u v) : Took q la lc s v := by
  refine ⟨?_, ?_, ?_⟩
  · rw [h'.state, h.state]
  · rw [h'.queue, h.queue]
  · rw [h'.launch, h.launch]

theorem Took.placed {q : Nat} {la lb : Launch} {s u : State} (h : Took q la lb s u) (hp : la.phase = .placed) : u.placed q = some lb := by
  refine State.placed_of_launch (by rw [h.queue]) ?_
  rw [h.launch]
  exact hp

/-- R177: as many windows as some core has closed are all that are complete. -/
theorem State.took_takeWindows (q : Nat) : ∀ (n : Nat) (s : State) (la : Launch), s.placed q = some la → la.closed.length ≤ n →
    ∃ lb, Took q la lb s (s.takeWindows q n) ∧ lb.window ((s.takeWindows q n).queue q).lcvwin = none := by
  intro n
  induction n with
  | zero =>
    intro s la hla hlen
    obtain ⟨hlaunch, -⟩ := State.launch_of_placed hla
    refine ⟨la, ⟨rfl, ?_, rfl⟩, ?_⟩
    · rw [State.takeWindows, ← hlaunch]
    · have hnil : la.closed = [] := List.length_eq_zero_iff.1 (Nat.le_zero.1 hlen)
      rw [Launch.window, Launch.openWindows, hnil]
      rfl
  | succ n ih =>
    intro s la hla hlen
    obtain ⟨hlaunch, hp⟩ := State.launch_of_placed hla
    rw [State.takeWindows, hla]
    dsimp only
    cases hw : la.window (s.queue q).lcvwin with
    | none => exact ⟨la, ⟨rfl, by rw [← hlaunch], rfl⟩, hw⟩
    | some w =>
      have htook := s.took_takeWindow q la w
      obtain ⟨lb, hlb, hnone⟩ := ih _ _ (htook.placed hp) (by have := Launch.length_without hw; omega)
      exact ⟨lb, htook.trans hlb, hnone⟩

theorem exec_convergenceWindow {q w : Nat} {la : Launch} {s : State} (hla : s.placed q = some la)
    (hw : la.window (s.queue q).lcvwin = some w) :
    exec (.convergenceWindow q) s = .next (s.takeWindow q la w) := by
  show execConvergenceWindow q s = _
  rw [execConvergenceWindow, hla]
  dsimp only
  rw [hw]

/-- R177. -/
theorem convergenceWindows : Part.ConvergenceWindows := by
  rintro q w la qu s cs hla rfl hw rfl cnt run hcnt hrun
  have hsum : min ((la.closed.filter fun c => c.win == w).foldl (fun n c => n + c.cnt) 0) (2 ^ 32 - 1) = cnt := by
    rw [hcnt, List.sum_eq_foldl, List.foldl_map]
  refine ⟨_, exec_convergenceWindow hla hw, _, rfl, ?_, rfl, rfl, ?_, ?_, rfl, fun n => ?_⟩
  · dsimp only
    rw [hsum, Z_u32 (by omega)]
  · dsimp only
    rw [hsum, hrun]
  · dsimp only
    rw [hsum, ← hrun]
    simp
  · rw [State.takeWindows, hla]
    dsimp only
    rw [hw]

end Sys2Proof.Machine
end

section
/-! PROOF. The end of a launch (R173 to R176): what its done messages combine to, and what the last one leaves. -/

namespace Sys2Proof.Machine

/-! ### A launch that ends -/

theorem Map.get_filter_eq_default_or {α : Type} (d : α) (m : Map α) (p : Nat × α → Bool) (k : Nat) :
    Map.get d (m.filter p) k = d ∨ p (k, Map.get d (m.filter p) k) = true :=
  (Map.get_eq_or_mem d (m.filter p) k).imp_right fun h => (List.mem_filter.1 h).2

/-- R173: no core runs a launch that has ended. -/
theorem State.queue_core_releaseCores (s : State) (q uid l : Nat) : ((s.releaseCores q uid).core l).queue ≠ some q := by
  rcases Map.get_filter_eq_default_or Core.empty s.cores (fun e => e.2.queue != some q) l with h | h
  · exact fun hq => Option.some_ne_none q (hq.symm.trans (congrArg Core.queue h))
  · exact bne_iff_ne.1 h

theorem State.queue_core_endLaunch (s : State) (q : Nat) (la : Launch) (st : Nat) (r : DoneRec) (l : Nat) :
    ((s.endLaunch q la st r).core l).queue ≠ some q :=
  State.queue_core_releaseCores _ q la.uid l

theorem State.queue_endLaunch (s : State) (q : Nat) (la : Launch) (st : Nat) (r : DoneRec) :
    (s.endLaunch q la st r).queue q = { s.queue q with launch := none } := State.queue_setQueue_self _ q _

theorem State.memory_endLaunch (s : State) (q : Nat) (la : Launch) (st : Nat) (r : DoneRec) : SameMemory s (s.endLaunch q la st r) :=
  fun _ => rfl

theorem State.hostOut_endLaunch (s : State) (q : Nat) (la : Launch) (st : Nat) (r : DoneRec) :
    (s.endLaunch q la st r).hostOut =
      (s.complete q la.seq st la.fteam (if la.lost then { r with err := r.err ||| 4 } else r)).hostOut := rfl

/-! ### Done messages -/

/-- The position of a team in the tree of its launch (R174). -/
def Launch.position (la : Launch) (t : Nat) : Nat := (t + la.tcnt - la.root) % la.tcnt

theorem exec_doneMessage {q t : Nat} {la : Launch} {r : DoneRec} {s : State} (hla : s.placed q = some la) (ht : t < la.tcnt)
    (hr : la.teamRec t = some r) (hnew : Map.get none la.teamDone (la.position t) = none) : exec (.doneMessage q t) s =
      if la.position t = 0 then .next ((s.takeWindows q la.closed.length).endLaunch q la 0 r)
      else .next (s.setLaunch q { la with teamDone := Map.set none la.teamDone (la.position t) (some r) }) := by
  show execDoneMessage q t s = _
  unfold execDoneMessage
  rw [hla]
  dsimp only
  rw [whenOn_true (by rw [← Launch.position, hnew, decide_eq_true ht]; rfl), hr]
  rfl

/-- R174, R175, R176, R177. -/
theorem doneMessages : Part.DoneMessages := by
  rintro q t la r s hla ht hr
  refine ⟨fun hpos hnew => ?_, fun hpos hnew hlost => ?_⟩
  · refine ⟨_, (exec_doneMessage hla ht hr hnew).trans (if_neg hpos), ⟨_, ?_, rfl⟩, fun _ => rfl, fun _ => rfl⟩
    rw [State.setLaunch, State.queue_setQueue_self]
    rfl
  · obtain ⟨lb, htook, hnone⟩ := State.took_takeWindows q _ s la hla (Nat.le_refl _)
    have hplaced := htook.placed (State.launch_of_placed hla).2
    refine ⟨_, (exec_doneMessage hla ht hr (by rw [Launch.position, hpos, hnew])).trans (if_pos hpos),
      ⟨_, lb, rfl, hplaced, hnone, State.queue_endLaunch ..⟩, State.queue_core_endLaunch _ q la 0 r, fun a => ?_, _, ?_, rfl⟩
    · rw [State.memory_endLaunch, htook.state]
      rfl
    · rw [State.hostOut_endLaunch, hlost, State.complete, htook.queue, htook.state]
      rfl

end Sys2Proof.Machine
end

section
/-! PROOF. A saved launch placed again (R215, R217): the cores that its images make, and what its restore leaves unchanged. -/

namespace Sys2Proof.Machine

/-! ### A restored core -/

/-- A core runs a launch of queue q. -/
def Core.RunsFor (c : Core) (q uid : Nat) : Prop := c.queue = some q ∧ c.uid = uid

theorem Core.runsFor_restoredCore (s : State) (q : Nat) (la : Launch) (first : Nat) (m : List (Nat × Nat)) (b : List Byte) :
    (restoredCore s q la first m b).RunsFor q la.uid := by
  unfold restoredCore
  dsimp only
  split <;> exact ⟨rfl, rfl⟩

theorem Core.runsFor_setSlots {c : Core} {q uid : Nat} (h : c.RunsFor q uid) (xs : Map Slot) :
    ({ c with slots := xs } : Core).RunsFor q uid := h

theorem Core.runsFor_withEntry {c : Core} {q uid : Nat} (h : c.RunsFor q uid) : c.withEntry.RunsFor q uid := by
  unfold Core.withEntry
  split
  · split
    · exact h
    · exact h
  · exact h

/-! ### The images loaded -/

/-- The core that image n of a save area is restored to. -/
def State.restoredTo (s : State) (la : Launch) (n : Nat) : Nat := 8 * la.fteam + imageIndex (s.savedImage la.sava.toNat n)

theorem State.loadImages_succ (s : State) (q : Nat) (la : Launch) (first : Nat) (m : List (Nat × Nat)) (n : Nat) :
    ∃ c : Core, c.RunsFor q la.uid ∧ s.loadImages q la first m (n + 1) =
      { (s.loadImages q la first m n).setCore ((s.loadImages q la first m n).restoredTo la n) c with
        serial := (s.loadImages q la first m n).serial + 4 } :=
  ⟨_, Core.runsFor_withEntry (Core.runsFor_setSlots (Core.runsFor_restoredCore ..) _), rfl⟩

theorem State.loadImages_frame (s : State) (q : Nat) (la : Launch) (first : Nat) (m : List (Nat × Nat)) (n : Nat) : ∃ cs k,
    s.loadImages q la first m n = { s with cores := cs, serial := k } := by
  induction n with
  | zero => exact ⟨s.cores, s.serial, rfl⟩
  | succ n ih =>
    obtain ⟨cs, k, h⟩ := ih
    obtain ⟨c, -, h'⟩ := s.loadImages_succ q la first m n
    exact ⟨_, _, by rw [h', h]; rfl⟩

/-- R215: the cores that images are restored to run the launch, and every other core is as it was. -/
theorem State.core_loadImages (s : State) (q : Nat) (la : Launch) (first : Nat) (m : List (Nat × Nat)) (n : Nat) :
    (∀ k, k < n → ((s.loadImages q la first m n).core (s.restoredTo la k)).RunsFor q la.uid) ∧
    ∀ l, (∀ k, k < n → l ≠ s.restoredTo la k) → (s.loadImages q la first m n).core l = s.core l := by
  induction n with
  | zero => exact ⟨fun k hk => absurd hk (Nat.not_lt_zero k), fun _ _ => rfl⟩
  | succ n ih =>
    obtain ⟨hruns, hother⟩ := ih
    obtain ⟨cs, i, hframe⟩ := s.loadImages_frame q la first m n
    obtain ⟨c, hc, h⟩ := s.loadImages_succ q la first m n
    have hto : (s.loadImages q la first m n).restoredTo la n = s.restoredTo la n := by rw [hframe]; rfl
    have hcore (l : Nat) : (s.loadImages q la first m (n + 1)).core l =
        if l = s.restoredTo la n then c else (s.loadImages q la first m n).core l := by
      rw [h, ← hto]
      exact State.core_setCore (s.loadImages q la first m n) _ l c
    refine ⟨fun k hk => ?_, fun l hl => ?_⟩
    · rw [hcore]
      split
      · exact hc
      · next hne => exact hruns k (Nat.lt_of_le_of_ne (Nat.le_of_lt_succ hk) fun hkn => hne (by rw [hkn]))
    · rw [hcore, if_neg (hl n (Nat.lt_succ_self n))]
      exact hother l fun k hk => hl k (Nat.lt_succ_of_lt hk)

/-! ### The restore -/

theorem State.reinject_frame (uid a : Nat) (m : List (Nat × Nat)) (n : Nat) : ∀ (s : State) (i : Nat), ∃ fs k,
    s.reinject uid a m i n = { s with flight := fs, stamp := k } := by
  induction n with
  | zero => exact fun s i => ⟨s.flight, s.stamp, rfl⟩
  | succ n ih =>
    intro s i
    obtain ⟨fs, k, h⟩ := ih (s.launchFlit (rewriteFlit m (Flit.ofBytes (s.bytesAt (a + 32 * (i + 1)) 32))) none uid (2 ^ 20) 0) (i + 1)
    exact ⟨fs, k, by rw [State.reinject, h]; rfl⟩

/-- The launch of a restore into range f (R215), LOST where its spill queue lost a flit (R357). -/
def State.restoredLaunch (s : State) (q : Nat) (la : Launch) (f : Nat) : Launch :=
  { la.capture (s.queue q) f with
    lost := la.lost || leNat (s.bytesAt ((s.queue q).sava.toNat + 0x10000 * (8 * la.tcnt + 1) + 4) 4) != 0 }

/-- The state in which the images of a restore have been loaded. -/
def State.imagesRestored (s : State) (q : Nat) (la : Launch) (f : Nat) : State :=
  let lb := s.restoredLaunch q la f
  let qu := if la.phase == .waiting
    then { s.queue q with lcvres := 0, lcvcnt := 0, lcvwin := 0xFFFFFFFF, run := 0, stl := false }
    else s.queue q
  let u := s.setQueue q { qu with launch := some lb }
  (u.placeTeams lb la.tcnt).loadImages q lb (leNat (u.bytesAt (lb.sava.toNat + 8) 4)) (s.lidMap lb.sava.toNat f (8 * la.tcnt)) (8 * la.tcnt)

theorem State.restore_eq (s : State) (q : Nat) (la : Launch) (f : Nat) :
    let u := s.imagesRestored q la f
    let m := s.lidMap (s.queue q).sava.toNat f (8 * la.tcnt)
    let a := (s.queue q).sava.toNat + 0x10000 * (8 * la.tcnt + 1)
    let v := (u.setLaunch q { s.restoredLaunch q la f with teamDone := [], coreDone := u.exitedDone q }).moveIds la.uid (rewriteId m)
    s.restore q la f = v.reinject la.uid a m 0 (leNat (v.bytesAt a 4)) := rfl

theorem State.restore_frame (s : State) (q : Nat) (la : Launch) (f : Nat) : ∃ d sh hs fs k, s.restore q la f =
    { (s.imagesRestored q la f).setLaunch q { s.restoredLaunch q la f with teamDone := [], coreDone := d } with
      shards := sh, holds := hs, flight := fs, stamp := k } := by
  rw [State.restore_eq]
  obtain ⟨fs, k, h⟩ := State.reinject_frame la.uid _ _ _ _ 0
  rw [h]
  exact ⟨_, _, _, fs, k, rfl⟩

theorem State.imagesRestored_frame (s : State) (q : Nat) (la : Launch) (f : Nat) : ∃ cs qs ts k,
    s.imagesRestored q la f = { s with cores := cs, queues := qs, teams := ts, serial := k } := by
  unfold State.imagesRestored
  dsimp only
  obtain ⟨ts, ht⟩ := State.placeTeams_frame _ _ _
  obtain ⟨cs, k, h⟩ := State.loadImages_frame _ q _ _ _ _
  rw [h, ht]
  exact ⟨_, _, _, _, rfl⟩

/-- The cores that the images of a restore are loaded to run it, and every other core is as it was. -/
theorem State.core_imagesRestored (s : State) (q : Nat) (la : Launch) (f : Nat) :
    (∀ k, k < 8 * la.tcnt → ((s.imagesRestored q la f).core (s.restoredTo (s.restoredLaunch q la f) k)).RunsFor q la.uid) ∧
    ∀ l, (∀ k, k < 8 * la.tcnt → l ≠ s.restoredTo (s.restoredLaunch q la f) k) → (s.imagesRestored q la f).core l = s.core l := by
  unfold State.imagesRestored
  dsimp only
  obtain ⟨ts, ht⟩ := State.placeTeams_frame _ _ _
  rw [ht]
  exact State.core_loadImages _ q _ _ _ _

theorem exec_restorePlacement {s : State} {q f : Nat} {la : Launch} (h : s.placeable true = [(q, la)]) (hf : s.rangeFor la = some f)
    (harea : (s.queue q).sava.toNat + (0x10000 * (8 * la.tcnt + 1) + 0x200000) ≤ 2 ^ 41) : exec .restorePlacement s =
      if s.featured la = false then .next (s.endLaunch q la 8 la.sofar) else .next (s.restore q la f) := by
  show execRestorePlacement s = _
  unfold execRestorePlacement
  rw [h]
  simp only [List.isEmpty_nil, if_true, List.getD_cons_zero, hf]
  rw [atPhys, if_neg (Nat.not_lt.2 harea)]

/-- R182, R215, R217. -/
theorem restorePlacement : Part.RestorePlacement := by
  rintro q la s hone hasked hfree harea
  have he := exec_restorePlacement hone (State.rangeFor_asked hasked hfree) harea
  refine ⟨fun hf => ?_, fun hf => ?_⟩
  · obtain ⟨rest, -, hout⟩ := s.hostOut_complete q la.seq 8 la.fteam
      (if la.lost then { la.sofar with err := la.sofar.err ||| 4 } else la.sofar)
    refine ⟨_, he.trans (if_pos hf), by rw [State.queue_endLaunch], State.memory_endLaunch s q la 8 _, _,
      (State.hostOut_endLaunch ..).trans hout, ?_⟩
    rw [List.drop_left' (length_leBytes _ 4), List.take_left' (length_leBytes _ 4), leNat_leBytes4 (by decide)]
  · obtain ⟨d, sh, hs, fs, k, hrestore⟩ := s.restore_frame q la la.fteamAsked
    obtain ⟨cs, qs, ts, i, hframe⟩ := s.imagesRestored_frame q la la.fteamAsked
    obtain ⟨hruns, hother⟩ := s.core_imagesRestored q la la.fteamAsked
    have hcore (l : Nat) : (s.restore q la la.fteamAsked).core l = (s.imagesRestored q la la.fteamAsked).core l := by rw [hrestore]; rfl
    refine ⟨_, he.trans (if_neg (by rw [hf]; decide)),
      ⟨{ s.restoredLaunch q la la.fteamAsked with teamDone := [], coreDone := d }, ?_, rfl, rfl⟩, fun a => ?_,
      fun k hk himage => ?_, fun l hl => ?_⟩
    · rw [hrestore]
      exact congrArg Queue.launch (State.queue_setQueue_self ..)
    · rw [hrestore, hframe]
      rfl
    · have hto : s.restoredTo (s.restoredLaunch q la la.fteamAsked) k = 8 * la.fteamAsked + k :=
        congrArg (8 * la.fteamAsked + ·) (himage k hk)
      rw [hcore, ← hto]
      exact hruns k hk
    · rw [hcore]
      exact hother l hl

/-- Settles O26: a restore by the images it loads, done messages by the windows that are taken before the root's record, and a window by
its registers. -/
theorem launchLife : Obligations.LaunchLife := ⟨restorePlacement, doneMessages, convergenceWindows⟩

end Sys2Proof.Machine
end

section
/-! PROOF. How long a core image is (R200). -/

namespace Sys2Proof.Machine

/-! ### The parts of an image -/

/-- Parts of n bytes each. -/
theorem length_flatMap_const {α : Type} {f : α → List Byte} {n : Nat} (h : ∀ x, (f x).length = n) (xs : List α) :
    (xs.flatMap f).length = n * xs.length := by
  simp [List.length_flatMap, h, Nat.mul_comm]

@[simp] theorem length_wordsBytes (ws : List Word) : (wordsBytes ws).length = 4 * ws.length :=
  length_flatMap_const (fun _ => length_leBytes _ 4) ws

@[simp] theorem length_doublesBytes (ws : List DWord) : (doublesBytes ws).length = 8 * ws.length :=
  length_flatMap_const (fun _ => length_leBytes _ 8) ws

theorem length_fillTo {bs : List Byte} {n : Nat} (h : bs.length ≤ n) : (fillTo bs n).length = n := by
  rw [fillTo, List.length_append, List.length_replicate]
  omega

@[simp] theorem Slot.length_block (x : Slot) (regs : Nat) : (x.block regs).length = 256 := by simp [Slot.block]

@[simp] theorem Handle.length_bytes (x : Handle) : x.bytes.length = 16 := by simp [Handle.bytes]

@[simp] theorem Node.length_bytes (x : Node) : x.bytes.length = 32 := by simp [Node.bytes]

section
variable (c : Core)

theorem Core.length_poolImage (h : partOk c.part = true) : c.poolImage.length = 0x6000 := by
  have hC : partC c.part ≤ 4 := by unfold partC bits; omega
  have hG : partG c.part ≤ 128 := by
    have : 2 ^ partRegs c.part ≤ 2 ^ 3 := Nat.pow_le_pow_right (by decide) (by unfold partRegs bits; omega)
    unfold partG
    omega
  have hH : partH c.part ≤ 16 := (of_decide_eq_true h).1
  have hCG : partC c.part * partG c.part ≤ 4 * 128 := Nat.mul_le_mul hC hG
  have hregs := length_flatMap_const (f := fun k => wordsBytes (Map.getList 0 (c.slot k).regs 0 (partG c.part))) (n := 4 * partG c.part)
    (fun k => by simp) (List.range (partC c.part))
  have hhandles := length_flatMap_const (f := fun h => (c.handle h).bytes) (fun h => Handle.length_bytes _) (List.range (partH c.part))
  have hend : hndEnd c.part = 4 * partG c.part * partC c.part + 16 * partH c.part := by
    rw [hndEnd, Nat.mul_assoc, Nat.mul_assoc, Nat.mul_comm (partC c.part)]
  rw [Core.poolImage, List.length_append, List.length_append, hregs, hhandles, Map.length_getList, List.length_range, List.length_range,
    ← hend]
  rw [Nat.mul_comm] at hCG
  rw [Nat.mul_assoc] at hend
  omega

theorem Core.length_fullImage : c.fullImage.length = 0x300 := by simp [Core.fullImage]

theorem Core.length_stateImage (l : Nat) : (c.stateImage l).length = 0x100 := by
  simp only [Core.stateImage, List.length_append, length_leBytes, length_wordsBytes, List.length_cons, List.length_nil,
    List.length_replicate]

/-- R200: the first part of a core image, before the log, is 32 KiB long. -/
theorem Core.length_image (l : Nat) (im : DWord) (hpart : partOk c.part = true) (hrunq : c.runq.length ≤ 64)
    (hedges : c.edges.length ≤ 64) : (c.image l im).length = 0x8000 := by
  have hnodes := length_flatMap_const (f := fun n => (c.node n).bytes) (fun n => Node.length_bytes _) (List.range 32)
  have hqueue := length_flatMap_const (f := fun e => (e.asFlit l im).bytes) (fun e => Flit.length_bytes _) c.runq
  have hblocks := length_flatMap_const (f := fun k => (c.slot k).block (partRegs c.part)) (fun k => Slot.length_block _ _) (List.range 4)
  have hfill := length_fillTo (bs := c.runq.flatMap fun e => (e.asFlit l im).bytes) (n := 0x800) (by omega)
  have hmarked := length_fillTo (bs := wordsBytes (c.edges.map u32)) (n := 0x100) (by simp; omega)
  simp only [Core.image, List.length_append, c.length_poolImage hpart, c.length_fullImage, c.length_stateImage, hnodes, hfill, hblocks,
    hmarked, length_wordsBytes, List.length_map, List.length_range, List.length_replicate]

end

/-! ### The core that an image shows -/

/-- R175, R201: of a core whose image drops a notice only DSTAT says so. -/
theorem Core.markDropped_eq (c : Core) : c.markDropped = { c with derr := c.markDropped.derr } := by
  unfold Core.markDropped
  split <;> rfl

end Sys2Proof.Machine
end

section
/-! PROOF. The edge list (R213), and what recording a snapshot cut does to a core and its area (R209, R210, R212). -/

namespace Sys2Proof.Machine

/-! ### `mark` and `cutst` -/

theorem exec_mark {d v e : Nat} {s : State} (hacc : s.accepts 4 = true) (hv : v = Z (s.g d)) (he : e = v % 2 ^ 20)
    (hrest : v / 2 ^ 20 % 2 ^ 11 = 0) : exec (.mark d) s =
      if 2 ^ 31 ≤ v then doneWr (s.setMe { s.me with edges := s.me.edges.erase e }) d 0
      else if e ∈ s.me.edges then doneWr s d 0
      else if 64 ≤ s.me.edges.length then doneWr s d 1
      else doneWr (s.setMe { s.me with edges := s.me.edges ++ [e] }) d 0 := by
  have hlt : v < 2 ^ 32 := hv ▸ Z_lt _
  have hbits : bits v 0 20 = e ∧ bits v 20 11 = 0 ∧ (bits v 31 1 = 1 ↔ 2 ^ 31 ≤ v) := by
    unfold bits
    omega
  obtain ⟨hedge, hzero, hdrop⟩ := hbits
  show execMark d s = _
  rw [execMark, inGroup_of_accepts hacc]
  dsimp only
  rw [← hv, hedge, hzero, if_neg (by decide), if_congr hdrop rfl rfl]

/-- R213: `mark` and `cutst`. -/
theorem cutForms : Part.CutForms := by
  rintro d s v e hn hacc hv he
  have edges (es : List Nat) {r : Word} (h : exec (.mark d) s = doneWr (s.setMe { s.me with edges := es }) d r) :
      Runs (.mark d) s fun t => t.g d = r ∧ Went s { s.me with edges := es } s.slot [d] [] s.next s t ∧ SameMemory s t :=
    .of_setMe_doneWr hn h rfl
  have same {r : Word} (h : exec (.mark d) s = doneWr s d r) :
      Runs (.mark d) s fun t => t.g d = r ∧ Went s { s.me with edges := s.me.edges } s.slot [d] [] s.next s t ∧ SameMemory s t :=
    WritesG.of_doneWr (V := (· = r)) hn h rfl
  refine ⟨fun h => ?_, fun hrest => ?_, .of_doneWr hn (inGroup_of_accepts hacc : execCutst d s = _) rfl⟩
  · refine (inGroup_of_accepts hacc : execMark d s = _).trans ?_
    dsimp only
    rw [← hv]
    exact if_pos h
  · have hform := exec_mark hacc hv he hrest
    refine ⟨fun h => edges _ (hform.trans (if_pos h)), fun h hmem => ?_, fun h hmem hlen => ?_, fun h hmem hlen => ?_⟩
    · rw [if_neg (by omega), if_pos hmem] at hform
      exact same hform
    · rw [if_neg (by omega), if_neg hmem, if_pos hlen] at hform
      exact same hform
    · rw [if_neg (by omega), if_neg hmem, if_neg (by omega)] at hform
      exact edges _ hform

/-! ### A core that records -/

/-- The core after its record of snapshot cut n (R209, R210). -/
def Core.recorded (c : Core) (n : Word) : Core :=
  { c.markDropped with
    cutid := n, cut := { due := false, holding := true, complete := false, sentAt := c.markDropped.csent, logged := 0, unlogged := 0 } }

theorem Core.recorded_eq (c : Core) (n : Word) : c.recorded n =
    { c with derr := c.markDropped.derr, cutid := n,
             cut := { due := false, holding := true, complete := false, sentAt := c.csent, logged := 0, unlogged := 0 } } := by
  rw [Core.recorded, c.markDropped_eq]

/-- No step trap is due on a core. -/
def NoStepDue (s : State) (l : Nat) : Prop := ∀ k, k < 4 → (s.slotAt l k).stepDue = none

/-- A fold whose every step leaves the state. -/
theorem foldl_eq_self {α β : Type} {f : α → β → α} {a : α} (xs : List β) (h : ∀ x ∈ xs, f a x = a) : xs.foldl f a = a := by
  induction xs with
  | nil => rfl
  | cons x xs ih =>
    rw [List.foldl_cons, h x List.mem_cons_self]
    exact ih fun y hy => h y (List.mem_cons_of_mem x hy)

theorem State.settleSteps_eq {s : State} {l : Nat} (h : NoStepDue s l) : s.settleSteps l = s := by
  refine foldl_eq_self _ fun k hk => ?_
  rw [h k (List.mem_range.1 hk)]

/-! ### The markers (R209) -/

/-- From `s` to `t` the markers of cut n to `es` have joined the flits in flight. -/
def Marked (n : Word) (es : List Nat) (s t : State) : Prop :=
  ∃ ms k, t = { s with flight := s.flight ++ ms, stamp := k } ∧
    ms.map (fun y => (y.flit.kind, y.flit.dst, y.flit.w0)) = es.map fun e => (FlitKind.marker, e, n)

theorem Marked.core {n : Word} {es : List Nat} {s t : State} (h : Marked n es s t) (l : Nat) : t.core l = s.core l := by
  obtain ⟨ms, k, rfl, -⟩ := h
  rfl

theorem State.marked_markers (l : Nat) (n : Word) (es : List Nat) : ∀ s : State, (s.core l).pts - s.base < 2 ^ 32 →
    Marked n es s (s.markers l n es) := by
  induction es with
  | nil => exact fun s _ => ⟨[], s.stamp, by rw [List.append_nil]; rfl, rfl⟩
  | cons e es ih =>
    intro s hclock
    rw [State.markers]
    rw [State.emit, State.emitFrom, State.roomFor_eq hclock]
    obtain ⟨ms, k, h, hms⟩ := ih (s.launchFlit _ _ _ _ _) hclock
    exact ⟨_ :: ms, k, by rw [h, State.launchFlit, List.append_assoc]; rfl, by rw [List.map_cons, hms]; rfl⟩

/-- A core changes and its markers go out. -/
theorem effect_markers {s w : State} {c : Core} (ds : List Nat) (n : Word) (es : List Nat) (hi : w.issue = s.issue) (hc : w.cores = s.cores)
    (hslots : c.slots = s.me.slots) (hclock : c.pts - w.base < 2 ^ 32) : ∃ ms k,
      Effect { w with flight := w.flight ++ ms, stamp := k } c s.slot ds [] s ((w.setCore s.issue.lid c).markers s.issue.lid n es) ∧
      ms.map (fun y => (y.flit.kind, y.flit.dst, y.flit.w0)) = es.map fun e => (FlitKind.marker, e, n) := by
  have hme : w.me = s.me := by rw [State.me, State.core, hi, hc]; rfl
  have hset : w.setMe c = w.setCore s.issue.lid c := by rw [State.setMe, hi]
  have heffect := ((Effect.refl ds [] s).setModule (v := w) hi hc rfl).setMe (hslots.trans (congrArg Core.slots hme.symm))
  rw [hset] at heffect
  obtain ⟨ms, k, hms, hmap⟩ := State.marked_markers s.issue.lid n es (w.setCore s.issue.lid c)
    (by rw [State.core_setCore_self]; exact hclock)
  rw [hms]
  refine ⟨ms, k, heffect.setModule rfl rfl ?_, hmap⟩
  have hm := heffect.module
  unfold SameModule at *
  rw [hm]

/-! ### The record -/

/-- What a core that records writes to its place of the area: its image, and an empty log (R209, R212). -/
def Core.record (c : Core) (l : Nat) (la : Launch) : List Byte := c.markDropped.image l la.image ++ leBytes 0 0x20

/-- The module, beside its cores, once core l has recorded a snapshot cut. -/
def State.imaged (s : State) (l : Nat) (la : Launch) : State :=
  s.putBytes (imageAt la.cuta.toNat (s.core l).index) ((s.core l).record l la)

/-- The state in which core l has recorded snapshot cut n. -/
def State.recording (s : State) (l : Nat) (la : Launch) (n : Word) : State := (s.imaged l la).setCore l ((s.core l).recorded n)

/-- R209, R210, R212: a core that may record does so: then its markers go out. -/
theorem State.recordSnapshot_eq {s : State} {l : Nat} {la : Launch} (n : Word) (k : State → Out) (hstep : NoStepDue s l)
    (harea : imageAt la.cuta.toNat (s.core l).index + 0x10000 ≤ 2 ^ 41) :
    s.recordSnapshot l la n k = k ((s.recording l la n).markers l n (s.core l).edges) := by
  have hindex : (s.core l).markDropped.index = (s.core l).index := by rw [Core.markDropped_eq]
  have hedges : (s.core l).markDropped.edges = (s.core l).edges := by rw [Core.markDropped_eq]
  unfold State.recordSnapshot
  rw [State.settleSteps_eq hstep]
  dsimp only
  rw [atPhys, if_neg (by rw [hindex]; exact Nat.not_lt.2 harea), State.recording, State.imaged, ← hindex, ← hedges]
  rfl

end Sys2Proof.Machine
end

section
/-! PROOF. `snap` (R209, R210, R212, R213). -/

namespace Sys2Proof.Machine

/-! ### Bytes that have been put -/

/-- Bytes put somewhere read back. -/
theorem State.bytesAt_putBytes (s : State) (a : Nat) (xs ys zs : List Byte) :
    (s.putBytes a (xs ++ (ys ++ zs))).bytesAt (a + xs.length) ys.length = ys := by
  refine (Map.getList_congr 0 (m' := Map.setList 0 s.mem (a + xs.length) ys) ys.length fun j hj hlt => ?_).trans (Map.getList_setList ..)
  show Map.get 0 (Map.setList 0 s.mem a _) j = _
  rw [Map.get_setList, Map.get_setList, if_pos (by simp only [List.length_append]; omega), if_pos (by omega)]
  rw [List.getD_append_right _ _ _ _ (by omega), List.getD_append _ _ _ _ (by omega), Nat.sub_add_eq]

/-- The first bytes put somewhere read back. -/
theorem State.bytesAt_putBytes_first (s : State) (a : Nat) (ys zs : List Byte) : (s.putBytes a (ys ++ zs)).bytesAt a ys.length = ys :=
  s.bytesAt_putBytes a [] ys zs

/-! ### The start of a cut -/

/-- The state in which snapshot cut n of queue q's launch has started (R212). -/
def State.cutStarted (s : State) (q : Nat) (la : Launch) (n : Word) : State :=
  (s.startHeader la.cuta.toNat n).setLaunch q { la with cut := some { id := n, save := false, complete := false } }

section
variable {d q : Nat} {la : Launch} {s : State} (hacc : s.accepts 4 = true) (hq : s.me.queue = some q) (hla : (s.queue q).launch = some la)
include hacc hq hla

theorem exec_snap_noArea (h : la.cuta = 0) : exec (.snap d) s = doneWr s d 0xFFFFFFFF#32 := by
  show execSnap d s = _
  rw [execSnap, inGroup_of_accepts hacc]
  dsimp only
  rw [hq]
  dsimp only
  rw [hla]
  exact if_pos h

theorem exec_snap_busy (h : la.cuta ≠ 0) (hcut : s.me.cut.complete = false) : exec (.snap d) s = doneWr s d 0 := by
  show execSnap d s = _
  rw [execSnap, inGroup_of_accepts hacc]
  dsimp only
  rw [hq]
  dsimp only
  rw [hla]
  dsimp only
  rw [if_neg h, hcut]
  exact if_pos (Bool.true_or _)

/-- R212, R213: a `snap` that starts a cut. -/
theorem exec_snap_starts (h : la.cuta ≠ 0) (hcomplete : s.me.cut.complete = true) (hcut : la.cut = none) (hrecord : s.me.mayRecord = true)
    (harea : la.cuta.toNat + 64 ≤ 2 ^ 41) : exec (.snap d) s =
      (s.cutStarted q la (nextCut s.me.cutid)).recordSnapshot s.issue.lid la (nextCut s.me.cutid) fun v =>
        doneWr v d (nextCut s.me.cutid) := by
  show execSnap d s = _
  rw [execSnap, inGroup_of_accepts hacc]
  dsimp only
  rw [hq]
  dsimp only
  rw [hla]
  dsimp only
  rw [hcut]
  dsimp only
  rw [if_neg h, hcomplete, if_neg (by decide), hrecord, if_neg (by decide), atPhys, if_neg (Nat.not_lt.2 harea), if_neg Bool.false_ne_true]
  rfl

end

section
variable {c : Core} (l : Nat) (la : Launch) (hpart : partOk c.part = true) (hrunq : c.runq.length ≤ 64) (hedges : c.edges.length ≤ 64)
include hpart hrunq hedges

theorem Core.length_recordedImage : (c.markDropped.image l la.image).length = 0x8000 := by
  refine Core.length_image _ l la.image ?_ ?_ ?_ <;> rw [c.markDropped_eq]
  · exact hpart
  · exact hrunq
  · exact hedges

theorem Core.length_record : (c.record l la).length = 0x8020 := by
  rw [Core.record, List.length_append, Core.length_recordedImage l la hpart hrunq hedges, length_leBytes]

/-- R209, R212: the image, then an empty log, and nothing beside them, where a core's record was put. -/
theorem State.bytesAt_record (s : State) (a : Nat) :
    (s.putBytes a (c.record l la)).bytesAt a 0x8000 = c.markDropped.image l la.image ∧
    (∀ i, i < 0x20 → (s.putBytes a (c.record l la)).byte (a + 0x8000 + i) = 0) ∧
    ∀ b, b < a ∨ a + 0x8020 ≤ b → (s.putBytes a (c.record l la)).byte b = s.byte b := by
  have hlen := Core.length_record l la hpart hrunq hedges
  have himage := Core.length_recordedImage l la hpart hrunq hedges
  refine ⟨?_, fun i hi => ?_, fun b hb => ?_⟩
  · have h := s.bytesAt_putBytes_first a (c.markDropped.image l la.image) (leBytes 0 0x20)
    rw [himage] at h
    exact h
  · rw [State.byte_putBytes, hlen, if_pos (by omega), Nat.add_assoc, Nat.add_sub_cancel_left, Core.record,
      List.getD_append_right _ _ _ _ (by omega), himage, Nat.add_sub_cancel_left, getD_leBytes _ hi, Nat.zero_div]
    rfl
  · rw [State.byte_putBytes, hlen, if_neg (by omega)]

end

/-- R209, R210, R212, R213. -/
theorem snapshotStart : Part.SnapshotStart := by
  rintro d q la s n a hn hacc - hq hla hnext ha harea
  have hnext' : nextCut s.me.cutid = n := hnext.symm
  refine ⟨fun h => .of_doneWr hn (exec_snap_noArea hacc hq hla h) rfl, fun h hc => .of_doneWr hn (exec_snap_busy hacc hq hla h hc) rfl,
    fun h hcomplete hcut hrecord hstep hdue hclock => ?_⟩
  have himage : imageAt la.cuta.toNat s.me.index = a := ha.symm
  have he := exec_snap_starts (d := d) hacc hq hla h hcomplete hcut hrecord (by omega)
  have hcore : (s.cutStarted q la n).core s.issue.lid = s.me := rfl
  rw [hnext', State.recordSnapshot_eq (s := s.cutStarted q la n) n _ hdue (by rw [hcore, himage]; exact harea), hcore] at he
  obtain ⟨ms, k, heffect, hmap⟩ := effect_markers (s := s) (w := (s.cutStarted q la n).imaged s.issue.lid la) (c := s.me.recorded n) [d] n
    s.me.edges (by rw [State.imaged, State.putBytes_issue]; exact State.setQueue_issue ..)
    (by rw [State.imaged, State.putBytes_cores]; exact State.setQueue_cores ..) (by rw [Core.recorded_eq])
    (by rw [Core.recorded_eq, State.imaged, State.putBytes_base]; exact hclock)
  have hwritten := heffect.wr (n := d) (by simp) n
  refine (hwritten.runs hn he).mono fun t ⟨hw, _, _, hg, _⟩ => ?_
  obtain ⟨hmodule, hcores, hme, hslots, _, _, hpc, _⟩ := hw
  rw [Core.recorded_eq] at hme
  have hmem : t.mem = ((s.cutStarted q la n).putBytes a (s.me.record s.issue.lid la)).mem := by
    rw [hmodule, State.imaged, hcore, himage]
  have hqueues : t.queues = (s.cutStarted q la n).queues := by rw [hmodule, State.imaged, State.putBytes_queues]
  have hflight : t.flight = (s.cutStarted q la n).flight ++ ms := by rw [hmodule, State.imaged, State.putBytes_flight]
  refine ⟨?_, by rw [hme], by rw [hme], fun hpart hrunq hedges => ?_, by rw [hme], by rw [hme], hpc, hslots, hcores, ?_, ms, hflight, hmap⟩
  · rw [hg, State.g_wr, if_pos rfl]
  · obtain ⟨himg, hlog, hother⟩ := State.bytesAt_record s.issue.lid la hpart hrunq hedges (s.cutStarted q la n) a
    simp only [State.bytesAt, State.byte, hmem] at himg hlog hother ⊢
    refine ⟨himg, hlog, fun b hb hhead => (hother b hb).trans ?_⟩
    exact (s.byte_putBytes la.cuta.toNat b (leBytes n.toNat 4 ++ leBytes 0 4)).trans (if_neg (by
      rw [List.length_append, length_leBytes, length_leBytes]
      omega))
  · rw [State.queue, hqueues]
    exact ⟨_, congrArg Queue.launch (State.queue_setQueue_self ..), rfl⟩

end Sys2Proof.Machine
end

section
/-! PROOF. The start of a cut, its markers and its completion at a core (R209 to R211). -/

namespace Sys2Proof.Machine

section
variable {q l : Nat} {la : Launch} {u : Cut} {s : State}

theorem State.recordCut_eq (hla : s.placed q = some la) (hu : la.cut = some u) : s.recordCut q l =
    if (s.core l).unrecorded u = false ∨ (s.core l).swapped then .next s
    else if s.canRecord l u = false then .next (s.setCore l { s.core l with cut := { (s.core l).cut with due := true } })
    else if u.save then s.recordSave l la u.id .next else s.recordSnapshot l la u.id .next := by
  rw [State.recordCut, hla]
  dsimp only
  rw [hu]

theorem Core.unrecorded_eq_false {c : Core} (h : u.complete = true ∨ c.cutid = u.id ∧ c.cut.complete = false) : c.unrecorded u = false := by
  rcases h with h | ⟨hid, hcomplete⟩
  · rw [Core.unrecorded, h]
    rfl
  · rw [Core.unrecorded, hid, hcomplete]
    simp

theorem Core.unrecorded_eq_true {c : Core} (h : u.complete = false) (hid : c.cutid ≠ u.id) : c.unrecorded u = true := by
  rw [Core.unrecorded, h, bne_iff_ne.2 hid]
  rfl

/-- R209: a core that has recorded a cut does not record it again. -/
theorem State.recordCut_again (hla : s.placed q = some la) (hu : la.cut = some u) (h : (s.core l).unrecorded u = false) :
    s.recordCut q l = .next s := by
  rw [State.recordCut_eq hla hu, if_pos (.inl h)]

variable (hla : s.placed q = some la) (hu : la.cut = some u) (hsnap : u.save = false) (hnew : (s.core l).unrecorded u = true)
  (hswap : (s.core l).swapped = false)
include hla hu hsnap hnew hswap

/-- R209: a core that cannot record yet stops issuing until it can. -/
theorem State.recordCut_due (h : (s.core l).mayRecord = false) :
    s.recordCut q l = .next (s.setCore l { s.core l with cut := { (s.core l).cut with due := true } }) := by
  rw [State.recordCut_eq hla hu, if_neg (by simp [hnew, hswap]), State.canRecord, hsnap, if_neg Bool.false_ne_true, if_pos h]

/-- R209, R210: a core that can record does so. -/
theorem State.recordCut_records (h : (s.core l).mayRecord = true) (hdue : NoStepDue s l)
    (harea : imageAt la.cuta.toNat (s.core l).index + 0x10000 ≤ 2 ^ 41) :
    s.recordCut q l = .next ((s.recording l la u.id).markers l u.id (s.core l).edges) := by
  rw [State.recordCut_eq hla hu, if_neg (by simp [hnew, hswap]), State.canRecord, hsnap, if_neg Bool.false_ne_true, if_neg (by simp [h]),
    if_neg Bool.false_ne_true, State.recordSnapshot_eq u.id _ hdue harea]

end

/-- Core l has recorded snapshot cut n on the way from `s` to `t`, once it was `c` (R209, R210). -/
def Recorded (l : Nat) (c : Core) (n : Word) (s t : State) : Prop := (t.core l).cutid = n ∧
  (t.core l).cut = { due := false, holding := true, complete := false, sentAt := c.csent, logged := 0, unlogged := 0 } ∧
  (t.core l).pool = c.pool ∧ (t.core l).slots = c.slots ∧ SameCores l s t

theorem State.recorded_recording (s : State) (l : Nat) (la : Launch) (n : Word) (hclock : (s.core l).pts - s.base < 2 ^ 32) :
    Recorded l (s.core l) n s ((s.recording l la n).markers l n (s.core l).edges) := by
  have hcore : (s.recording l la n).core l = (s.core l).recorded n := State.core_setCore_self ..
  have hpts : ((s.core l).recorded n).pts - (s.recording l la n).base < 2 ^ 32 := by
    rw [Core.recorded_eq, State.recording, State.setCore_base, State.imaged, State.putBytes_base]
    exact hclock
  have hmarked := State.marked_markers l n (s.core l).edges (s.recording l la n) (by rw [hcore]; exact hpts)
  unfold Recorded
  rw [hmarked.core, hcore, Core.recorded_eq]
  refine ⟨rfl, rfl, rfl, rfl, fun j hj => ?_⟩
  rw [hmarked.core, State.recording, State.core_setCore_ne _ _ hj, State.imaged, State.core_putBytes]

/-- R209: the start of its launch's cut reaches a core. -/
theorem exec_cutStartArrival {q k l : Nat} {s : State} (h : s.indexCore q k = some l) :
    exec (.cutStartArrival q k) s = s.recordCut q l := by
  show execCutStartArrival q k s = _
  rw [execCutStartArrival, h]

/-- R211: the completion of its launch's cut reaches a core that waits for it. -/
theorem exec_cutCompletionArrival {q k l : Nat} {la : Launch} {u : Cut} {s : State} (h : s.indexCore q k = some l)
    (hla : s.placed q = some la) (hu : la.cut = some u) (hcomplete : u.complete = true) (hc : (s.core l).cut.complete = false) : exec (.cutCompletionArrival q k) s =
      .next (s.setCore l { s.core l with cut := { (s.core l).cut with holding := false, complete := true } }) := by
  show execCutCompletionArrival q k s = _
  rw [execCutCompletionArrival, h, hla]
  refine whenOn_true ?_
  rw [hc, hu]
  dsimp only
  rw [hcomplete, Bool.true_or, Bool.not_false, Bool.and_self]

/-- A marker that reaches a core of its launch there (R209): its cut is recorded, where the core has not done so. -/
theorem exec_markerArrival {f : Flit} {x : InFlight} {q : Nat} {la : Launch} {u : Cut} {s : State} (hk : f.kind = .marker)
    (hx : s.inFlight f = some x) (hheld : s.arrivalHeld f = false) (hfate : s.fate f.dst x.uid = .here)
    (hq : (s.core f.dst).queue = some q) (hla : s.placed q = some la) (hu : la.cut = some u) : exec (.markerArrival f) s =
      if u.id == f.w0 && (s.core f.dst).unrecorded u then (s.land x).recordCut q f.dst else .next (s.land x) := by
  show execMarkerArrival f s = _
  rw [execMarkerArrival, whenOn_true (by rw [hk]; rfl), hx]
  dsimp only
  rw [hheld, if_neg Bool.false_ne_true, hfate]
  dsimp only
  rw [hq]
  dsimp only
  rw [hla, Option.bind_some, hu]

/-- R209, R210, R211. -/
theorem cutArrivals : Part.CutArrivals := by
  rintro q l k la u s c hl hla hu rfl hdue harea hclk hclock
  intro recorded
  refine ⟨fun h => ?_, fun hsnap hcomplete hid hswap hmay => ?_, fun hsnap hcomplete hid hswap hmay => ?_, fun hcomplete hc => ?_⟩
  · have hrecorded := Core.unrecorded_eq_false h
    refine ⟨(exec_cutStartArrival hl).trans (State.recordCut_again hla hu hrecorded), ?_⟩
    rintro x f rfl hk rfl hx hstay hfate hq
    obtain ⟨hleft, hcore⟩ := left_land x hclk
    refine ⟨_, (exec_markerArrival hk hx (State.arrivalHeld_eq_false hstay) hfate hq hla hu).trans (if_neg ?_), hleft.landed (hcore _)⟩
    rw [hrecorded, Bool.and_false]
    exact Bool.false_ne_true
  · exact ⟨_, (exec_cutStartArrival hl).trans (State.recordCut_due hla hu hsnap (Core.unrecorded_eq_true hcomplete hid) hswap hmay), rfl⟩
  · have hnew := Core.unrecorded_eq_true hcomplete hid
    refine ⟨⟨_, (exec_cutStartArrival hl).trans (State.recordCut_records hla hu hsnap hnew hswap hmay hdue harea),
      s.recorded_recording l la u.id hclock⟩, ?_⟩
    rintro x f rfl hk rfl hw hx hfate hq hstay
    obtain ⟨hleft, hcore⟩ := left_land x hclk
    have he := exec_markerArrival hk hx (State.arrivalHeld_eq_false hstay) hfate hq hla hu
    rw [hw, hnew, beq_self_eq_true, Bool.and_self, if_pos rfl] at he
    have hplaced : (s.land x).placed q = some la := by rw [← hla, hleft.module]; rfl
    have hdue' : NoStepDue (s.land x) x.flit.dst := fun j hj => by rw [State.slotAt, hcore]; exact hdue j hj
    rw [State.recordCut_records hplaced hu hsnap (by rw [hcore]; exact hnew) (by rw [hcore]; exact hswap) (by rw [hcore]; exact hmay) hdue'
      (by rw [hcore]; exact harea)] at he
    have hrecorded := (s.land x).recorded_recording x.flit.dst la u.id (by rw [hcore, hleft.base]; exact hclock)
    rw [hcore] at hrecorded he
    obtain ⟨hcut, hbusy, hpool, hslots, hcores⟩ := hrecorded
    exact ⟨_, he, hcut, hbusy, hpool, hslots, fun j hj => (hcores j hj).trans (hcore j)⟩
  · exact ⟨_, exec_cutCompletionArrival hl hla hu hcomplete hc, rfl⟩

end Sys2Proof.Machine
end

section
/-! PROOF. The root of a cut (R211, R212, R214), and a slice that expires (R184). -/

namespace Sys2Proof.Machine

/-! ### When a cut is complete (R211) -/

theorem State.sumOver_eq (s : State) (q : Nat) (f : Core → Nat) : s.sumOver q f = ((s.workers q).map fun e => f e.2).sum := by
  rw [State.sumOver, List.sum_eq_foldl, List.foldl_map]

theorem State.cutReady_iff (s : State) (q : Nat) (la : Launch) (u : Cut) : s.cutReady q la u = true ↔ u.complete = false ∧
    (s.workers q).length = 8 * la.tcnt ∧ (∀ e ∈ s.workers q, e.2.cutid = u.id ∧ e.2.cut.complete = false) ∧
    ((s.workers q).map (·.2.cut.sentAt)).sum = ((s.workers q).map (·.2.crecv)).sum ∧
    (u.save = true → ∃ e ∈ s.workers q, e.2.exited = false) := by
  have hsave : (!(u.save && (s.workers q).all fun e => e.2.exited)) = true ↔
      (u.save = true → ∃ e ∈ s.workers q, e.2.exited = false) := by
    cases u.save <;> simp
  rw [State.cutReady, Bool.and_eq_true, hsave, Bool.and_eq_true, Bool.and_eq_true, Bool.and_eq_true, Bool.not_eq_true', beq_iff_eq,
    List.all_eq_true, beq_iff_eq, State.sumOver_eq, State.sumOver_eq]
  simp only [Bool.and_eq_true, beq_iff_eq, Bool.not_eq_true', and_assoc]

theorem State.mem_workers {s : State} {q : Nat} {e : Nat × Core} :
    e ∈ s.workers q ↔ e ∈ s.cores ∧ e.2.queue = some q ∧ e.2.forward = none := by
  simp [State.workers, Core.works]

/-! ### The header of a complete cut (R212) -/

/-- The second word of a complete cut's header: 2 where a log was not kept (R210). -/
def State.cutState (s : State) (q : Nat) : Nat := if (s.workers q).any fun e => e.2.cut.unlogged != 0 then 2 else 1

theorem State.cutHeader_eq (s : State) (q : Nat) (la : Launch) (u : Cut) : ∃ rest : List Byte, rest.length = 56 ∧
    s.cutHeader q la u = leBytes (Z u.id) 4 ++ (leBytes (s.cutState q) 4 ++ rest) := by
  refine ⟨leBytes la.fteam 4 ++ (leBytes la.tcnt 4 ++ (leBytes (s.sumOver q (·.cut.sentAt)) 8 ++ List.replicate 40 0)), ?_, ?_⟩
  · simp only [List.length_append, length_leBytes, List.length_replicate]
  · simp only [State.cutHeader, State.cutState, List.append_assoc]
    rfl

/-- A header of 64 bytes written at `a`. -/
theorem State.cutHeader_put (s v : State) (q a : Nat) (la : Launch) (u : Cut) :
    leNat ((v.putBytes a (s.cutHeader q la u)).bytesAt a 4) = Z u.id ∧
    leNat ((v.putBytes a (s.cutHeader q la u)).bytesAt (a + 4) 4) = s.cutState q ∧
    ∀ b, b < a ∨ a + 64 ≤ b → (v.putBytes a (s.cutHeader q la u)).byte b = v.byte b := by
  obtain ⟨rest, hrest, hheader⟩ := s.cutHeader_eq q la u
  have hp : s.cutState q < 2 ^ 32 := by
    unfold State.cutState
    split <;> omega
  rw [hheader]
  refine ⟨?_, ?_, fun b hb => ?_⟩
  · have h := v.bytesAt_putBytes_first a (leBytes (Z u.id) 4) (leBytes (s.cutState q) 4 ++ rest)
    rw [length_leBytes] at h
    rw [h, leNat_leBytes4 (Z_lt _)]
  · have h := v.bytesAt_putBytes a (leBytes (Z u.id) 4) (leBytes (s.cutState q) 4) rest
    rw [length_leBytes, length_leBytes] at h
    rw [h, leNat_leBytes4 hp]
  · rw [State.byte_putBytes, if_neg]
    rw [List.length_append, List.length_append, length_leBytes, length_leBytes, hrest]
    omega

/-! ### Completion -/

theorem State.spillRest_none (q uid : Nat) (k : State → Out) (xs : List InFlight) : ∀ s : State, (∀ x ∈ xs, x.uid ≠ uid) →
    s.spillRest q uid k xs = k s := by
  induction xs with
  | nil => exact fun _ _ => rfl
  | cons x xs ih =>
    intro s h
    rw [State.spillRest, if_neg (h x List.mem_cons_self)]
    exact ih s fun y hy => h y (List.mem_cons_of_mem x hy)

/-- The state in which the launch of a queue waits as a saved one (R214). -/
def State.launchSaved (s : State) (q : Nat) (la : Launch) : State :=
  let known := (s.workers q).foldl (fun m e => Map.set (1, []) m e.1 (e.2.nextColl, e.2.colls)) []
  let s := s.releaseCores q la.uid
  let s : State := s.setLaunch q { la with
    colls := known, phase := .saved, restore := true, arrived := s.stamp, cut := none, expired := false, tlb := [] }
  { s with stamp := s.stamp + 1 }

/-- R214: of a saved launch the cores are free, and memory is as it was. -/
theorem State.launchSaved_eq (s : State) (q : Nat) (la : Launch) :
    (∃ lb, ((s.launchSaved q la).queue q).launch = some lb ∧ lb.phase = .saved ∧ lb.restore = true ∧ lb.cut = none ∧
      lb.uid = la.uid) ∧
    (∀ l, (s.launchSaved q la).core l = (s.releaseCores q la.uid).core l) ∧ (s.launchSaved q la).mem = s.mem :=
  ⟨⟨_, congrArg Queue.launch (State.queue_setQueue_self ..), rfl, rfl, rfl, rfl⟩, fun _ => rfl, rfl⟩

section
variable {q : Nat} {la : Launch} {u : Cut} {s : State} (hla : s.placed q = some la) (hu : la.cut = some u)
  (hready : s.cutReady q la u = true)
include hla hu hready

theorem exec_cutComplete_save (hsave : u.save = true) (hflight : ∀ x ∈ s.flight, x.uid ≠ la.uid) :
    exec (.cutComplete q) s = .next ((s.putBytes la.sava.toNat (s.cutHeader q la u)).launchSaved q la) := by
  show execCutComplete q s = _
  rw [execCutComplete, hla]
  dsimp only
  rw [hu]
  dsimp only
  rw [whenOn_true hready, if_pos hsave, State.putBytes_flight, State.spillRest_none _ _ _ _ _ hflight]
  rfl

theorem exec_cutComplete_snapshot (hsave : u.save = false) (hexp : la.expired = false) :
    exec (.cutComplete q) s = .next ((s.putBytes la.cuta.toNat (s.cutHeader q la u)).setLaunch q
      { la with cut := some { u with complete := true } }) := by
  show execCutComplete q s = _
  rw [execCutComplete, hla]
  dsimp only
  rw [hu]
  dsimp only
  rw [whenOn_true hready, if_neg (by rw [hsave]; exact Bool.false_ne_true), if_neg (by rw [hexp]; exact Bool.false_ne_true)]

end

theorem State.core_releaseCores {s : State} (q uid : Nat) (h : Map.wf Core.empty s.cores) (l : Nat) :
    (s.releaseCores q uid).core l = if (s.core l).queue = some q then Core.empty else s.core l := by
  have hkeys : (s.cores.map Prod.fst).Nodup := List.pairwise_map.2 (h.1.imp Nat.ne_of_lt)
  refine (Map.get_filter (fun c => c.queue != some q) hkeys l).trans ?_
  by_cases hq : (s.core l).queue = some q
  · rw [if_pos hq]
    exact if_neg (by rw [bne_iff_ne, not_not]; exact hq)
  · rw [if_neg hq]
    exact if_pos (bne_iff_ne.2 hq)

/-! ### Slices that expire (R184, R185, R218) -/

section
variable {q : Nat} {la : Launch} {s : State} (hla : s.placed q = some la)
include hla

theorem exec_sliceExpiry_runsOn (h : la.slice = 0 ∨ la.sava = 0 ∨ s.rivalWaits q la.prio = false) : exec (.sliceExpiry q) s = .next s := by
  show s.expire q = _
  rw [State.expire, hla]
  exact if_pos h

theorem exec_sliceExpiry_saves (h : ¬(la.slice = 0 ∨ la.sava = 0 ∨ s.rivalWaits q la.prio = false)) (hcut : la.cut = none) :
    exec (.sliceExpiry q) s = s.startSave q la := by
  show s.expire q = _
  rw [State.expire, hla]
  dsimp only
  rw [if_neg h, hcut]
  exact if_neg Bool.false_ne_true

end

/-- R184, R214: a save cut has started, and no core has changed yet. -/
theorem State.startSave_eq {s : State} {q : Nat} {la : Launch}
    (harea : la.sava.toNat + (0x10000 * (8 * la.tcnt + 1) + 0x200000) ≤ 2 ^ 41) : ∃ (t : State) (n : Word),
    s.startSave q la = .next (t.setLaunch q { la with cut := some { id := n, save := true, complete := false }, expired := false }) ∧
      t.cores = s.cores := by
  unfold State.startSave
  dsimp only
  rw [atPhys, if_neg (Nat.not_lt.2 harea)]
  exact ⟨_, _, rfl, by rw [State.setQueue_cores, State.putBytes_cores, State.startHeader, State.putBytes_cores]⟩

/-- R184, R185, R211, R212, R214. -/
theorem cutRoot : Part.CutRoot := by
  rintro q la u s hla
  refine ⟨s.cutReady_iff q la u, fun e => State.mem_workers, fun hu hsave hready hflight hwf => ?_, fun hu hsave hexp hready => ?_,
    fun hslice hsava hrival hcut harea => ?_, fun h => exec_sliceExpiry_runsOn hla h⟩
  · obtain ⟨hid, -, hother⟩ := s.cutHeader_put s q la.sava.toNat la u
    have he := exec_cutComplete_save hla hu hready hsave hflight
    generalize hv : s.putBytes la.sava.toNat (s.cutHeader q la u) = v at hid hother he
    obtain ⟨hsaved, hcore, hmem⟩ := v.launchSaved_eq q la
    have hcores : v.cores = s.cores := by rw [← hv, State.putBytes_cores]
    refine ⟨_, he, hsaved, fun l => ?_, ?_, fun a ha => ?_⟩
    · rw [hcore, State.core_releaseCores q la.uid (by rw [hcores]; exact hwf), State.core, hcores]
      rfl
    · rw [State.bytesAt, hmem]
      exact hid
    · rw [State.byte, hmem]
      exact hother a ha
  · obtain ⟨hid, hstate, hother⟩ := s.cutHeader_put s q la.cuta.toNat la u
    have he := exec_cutComplete_snapshot hla hu hready hsave hexp
    generalize hv : s.putBytes la.cuta.toNat (s.cutHeader q la u) = v at hid hstate hother he
    have hcore (l : Nat) : v.core l = s.core l := by rw [← hv, State.core_putBytes]
    exact ⟨_, he, ⟨_, congrArg Queue.launch (State.queue_setQueue_self ..), rfl⟩, hid, hstate, hother, hcore⟩
  · obtain ⟨t, n, hstart, hcores⟩ := s.startSave_eq (q := q) harea
    have hruns : ¬(la.slice = 0 ∨ la.sava = 0 ∨ s.rivalWaits q la.prio = false) := by
      rintro (h | h | h)
      exacts [hslice h, hsava h, Bool.false_ne_true (h.symm.trans hrival)]
    refine ⟨_, (exec_sliceExpiry_saves hla hruns hcut).trans hstart,
      ⟨_, n, congrArg Queue.launch (State.queue_setQueue_self ..), rfl⟩, fun l => ?_⟩
    rw [State.core, State.setLaunch, State.setQueue_cores, hcores]
    rfl

/-- Settles O22: the cut forms, a `snap` by the record that it makes, arrivals by whether the core has recorded, and the root by its
sums. -/
theorem cuts : Obligations.Cuts := ⟨cutForms, snapshotStart, cutArrivals, cutRoot⟩

end Sys2Proof.Machine
end
